-- ==== Sys2Proof/Word.lean ====
section
/-! DEFINITION. Bytes and the plain arithmetic on bit fields that every other file uses. Register fields and addresses
are natural numbers below a stated power of two; a byte of memory is a bit vector of eight bits. -/

namespace Sys2Proof

/-- One byte of memory. -/
abbrev Byte := BitVec 8

/-- Bits `[hi:lo]` of `x`, numbered as the spec's tables number them. -/
def bits (x hi lo : Nat) : Nat := x / 2 ^ lo % 2 ^ (hi + 1 - lo)

/-- Bit `i` of `x` as a truth value. -/
def bit (x i : Nat) : Bool := x / 2 ^ i % 2 == 1

/-- The least multiple count: `n / d` rounded up. -/
def ceilDiv (n d : Nat) : Nat := (n + d - 1) / d

/-- `1` for true, `0` for false: a one-bit field's value. -/
def ofBool (b : Bool) : Nat := if b then 1 else 0

/-- The value of the low `w` bits of `x` read as two's complement. -/
def toSigned (w x : Nat) : Int := if x % 2 ^ w < 2 ^ (w - 1) then (x % 2 ^ w : Int) else (x % 2 ^ w : Int) - 2 ^ w

/-- The low `w` bits of an integer in two's complement. -/
def ofSigned (w : Nat) (x : Int) : Nat := (x % (2 ^ w : Int)).toNat

end Sys2Proof
end

