-- ==== Sys2Proof/Syntax.lean ====
section
/-! DEFINITION. The commands of the device: one constructor of `Instr` for each row of the spec's table of operations
and events, with the operands that arrive with it. A row of a cutting list carries its decoded fields (R23); a request
carries its header and typed payload (R358, R362); a frame carries its header fields (R268); a measurement carries the
number that was measured. An operand that may be left out stands last. The table gives no row any bits. -/

namespace Sys2Proof

/-- The units that execute cutting lists (R21), in the order of the table "List memories". -/
inductive UnitKind where
  | cluster | row | port | update | root | krylov
deriving DecidableEq, Repr

/-- A cutting-list entry that issues: the unit's index, the entry's index in its bank, and the entry's fields (R23). -/
structure Issue where
  idx : Nat
  entry : Nat
  tick : Nat
  startCc : Nat
  busyCc : Nat
  desc : Nat
  tag : Nat
  arg : Nat
deriving DecidableEq, Repr

/-- A halo contribution that another device returns to a row of this device (R201): the row's logical cluster and own row,
the source's logical cluster and halo position, and the FP64 value. -/
structure HaloBack where
  dst : Nat
  row : Nat
  src : Nat
  pos : Nat
  val : Nat
deriving DecidableEq, Repr

/-- What reaches a piece of a solve from the other devices of the solve: each one's partials, those of the participants
before and after this device (R202, R293), and the halo contributions returned (R201). -/
structure SolverIn where
  before : List (List Nat)
  after : List (List Nat)
  back : List HaloBack
deriving DecidableEq, Repr

/-- What the checkers saw while an entry ran: memory errors with their address, parity and residue failures. -/
inductive HwFault where
  /-- A corrected single-bit error at an address (R252, R258). -/
  | memCe (a : Nat)
  /-- An uncorrectable error at an address (R252, R258). -/
  | memUe (a : Nat)
  /-- A link-ECC error and its in-tick retry at an LPDDR address (R258). -/
  | linkEcc (a : Nat)
  /-- A parity failure in the unit's sealed private copies (R426). -/
  | descPar
  /-- A weight-register parity failure (R97). -/
  | wregPar
  /-- A residue-check failure of the unit's arithmetic. -/
  | residue
  /-- A scarf-link parity failure (R96). -/
  | scarfPar
  /-- A corrected error of the unit's own storage: accumulators, tables, capture buffers, state. -/
  | ownCe
  /-- An uncorrectable error of the unit's own storage. -/
  | ownUe
  /-- A corrected error of the operand buffer. -/
  | bufCe
  /-- An uncorrectable error of the operand buffer. -/
  | bufUe
  /-- A parity failure of a hand-off register or mask latch (R141). -/
  | handoffPar
  /-- A parity failure in the finisher's sealed copy of a chain that a sequencer issues (R141, R426). -/
  | chainPar
  /-- A register-file parity failure of a row controller (R189). -/
  | rfPar
  /-- A corrected error of a row controller's instruction memory (R189). -/
  | imemCe
  /-- An uncorrectable error of a row controller's instruction memory (R189). -/
  | imemUe
deriving DecidableEq, Repr

/-- Bytes of the permuting collective that arrive (R296): the destination's address word, its KIND, the data, and the port
by which they come. -/
structure PermIn where
  addr : Nat
  veneer : Bool
  data : List Nat
  port : Nat := 0
deriving DecidableEq, Repr

/-- The fields of a square-up gather, combined over a subtree (R287). For each request the combination keeps whether
every device and whether any device makes it, and whether the values they carry are equal. -/
structure Token where
  step : Nat
  stepEq : Bool
  startAll : Bool
  startAny : Bool
  dryAll : Bool
  dryAny : Bool
  dryBank : Nat
  dryEq : Bool
  phaseAll : Bool
  phaseAny : Bool
  phaseAt : Nat
  phaseEq : Bool
  exportAll : Bool
  exportAt : Nat
  exportEq : Bool
  permAll : Bool
deriving DecidableEq, Repr

/-- A go frame: the root's confirmations, the accumulated delay and the entropy word (R287). -/
structure GoFrame where
  step : Nat
  stepEq : Bool
  start : Bool
  dry : Bool
  dryBank : Nat
  mixed : Bool
  phase : Bool
  phaseMiss : Bool
  exp : Bool
  perm : Bool
  accDelay : Nat
  entropy : Nat
deriving DecidableEq, Repr

/-- The one error that a barrier gather or a halt notice carries (R427); `halts` is the mark of R426. -/
structure CarriedErr where
  cls : Nat
  source : Nat
  code : Nat
  detail : Nat
  dev : Nat
  halts : Bool
deriving DecidableEq, Repr

/-- A barrier's verdict (R289): the highest class of an error that the subtree reports, 0 for none (R333); the one error
it carries (R427); whether every inactive bank of the subtree is sealed (R32, at action 4); and whether a shard of the
subtree mismatched (R346, at action 3). -/
structure Verdict where
  cls : Nat
  err : Option CarriedErr
  inactiveSealed : Bool
  mismatch : Bool
deriving DecidableEq, Repr

/-- A link frame (R268): header fields and payload bytes; `badCw` is the number of its FEC codewords that could not be
corrected (R269, R272). -/
structure Frame where
  slice : Nat
  dst : Nat
  src : Nat
  tag : Nat
  ctrl : Bool
  epoch : Nat
  rsvd : Nat
  seq : Nat
  offset : Nat
  crc : Nat
  payload : List Nat
  badCw : Nat
deriving DecidableEq, Repr

/-- What a training found (R271): the lanes that failed the test, the rate the partner offers, the partner's identity,
its core rate in MHz (R394) and the measured shim in quarter-cycles (R273). -/
structure TrainResult where
  failedLanes : List Nat
  partnerRate : Nat
  partner : Nat
  partnerPort : Nat
  partnerMhz : Nat
  shimQc : Nat
deriving DecidableEq, Repr

/-- One finding of the veneer patrol scrub (R254): the byte offset of a word in the region, whether it is
uncorrectable, and whether a write has reached the line since the scrub read it. -/
structure ScrubFinding where
  off : Nat
  ue : Bool
  written : Bool
deriving DecidableEq, Repr

/-- The Ethernet header of a frame (R355): destination and source address, and the id and priority of its 802.1Q tag,
if it has one. -/
structure EthHdr where
  dst : Nat
  src : Nat
  vlan : Option (Nat × Nat)
deriving DecidableEq, Repr

/-- How a RoCEv2 packet arrives (R355, R356): its Ethernet header and congestion mark. -/
structure RoceFrame where
  eth : EthHdr
  ce : Bool
deriving DecidableEq, Repr

/-- An untagged frame without a mark, from address 0 to address 0. -/
def noFrame : RoceFrame := ⟨⟨0, 0, none⟩, false⟩

/-- What every RoCEv2 packet carries (R356): how it arrives, its destination queue pair and its packet sequence number.
-/
structure RoceHdr extends RoceFrame where
  qpn : Nat
  psn : Nat
deriving DecidableEq, Repr

/-- A RoCEv2 RDMA WRITE packet (R356, R357). -/
structure RdmaWrite extends RoceHdr where
  rkey : Nat
  addr : Nat
  data : List Nat
deriving DecidableEq, Repr

/-- A RoCEv2 RDMA READ request (R356, R357). -/
structure RdmaRead extends RoceHdr where
  rkey : Nat
  addr : Nat
  len : Nat
deriving DecidableEq, Repr

/-- Where a BCP datagram came from: IP address (IPv4 in mapped form), UDP port and Ethernet source address. -/
structure Origin where
  ip : Nat
  port : Nat
  mac : Nat
deriving DecidableEq, Repr

/-- A datagram to the BCP port: its origin, the destination address and the tag of its frame, the UDP payload length
and its bytes (R355, R358). -/
structure Datagram where
  src : Origin
  dst : Nat
  vlan : Option (Nat × Nat)
  udpLen : Nat
  bytes : List Nat
deriving DecidableEq, Repr

/-- The header of a request that the management core executes (R358, R360, R361). -/
structure BcpHdr where
  src : Origin
  version : Nat
  seq : Nat
  session : Nat
deriving DecidableEq, Repr

/-- The payload of QP_CREATE (R362). -/
structure QpArgs where
  rqpn : Nat
  rgid : Nat
  rmac : Nat
  spsn : Nat
  rpsn : Nat
  mtu : Nat
deriving DecidableEq, Repr

/-- The payload of SUBSCRIBE (R369). -/
structure SubArgs where
  dst : Nat
  port : Nat
  classes : Nat
  sampleLog2 : Nat
  addrs : List Nat
deriving DecidableEq, Repr

/-- Scalar integer instructions of a row controller (R175). -/
inductive IntOp where
  | add | sub | and | or | xor | sll | srl | sra | slt | sltu | seq | addi | andi | ori | xori | slli | srli | srai
  | slti | sltiu | lui | const
deriving DecidableEq, Repr

/-- Multiply and divide instructions (R175). -/
inductive MulOp where
  | mulLo | mulHiU | mulHiS | divU | divS | remU | remS
deriving DecidableEq, Repr

/-- Branches and jumps (R175). -/
inductive BranchOp where
  | eq | ne | lt | ge | ltu | geu | jump | jumpLink | jumpReg
deriving DecidableEq, Repr

/-- Scalar floating instructions (R175, R176). -/
inductive FloatOp where
  | add | sub | mul | fma | div | sqrt | min | max | eq | lt | le
deriving DecidableEq, Repr

/-- Scalar conversions (R175, R176): from, to. -/
inductive NumTy where
  | f64 | f32 | i32 | i64
deriving DecidableEq, Repr

structure ConvOp where
  src : NumTy
  dst : NumTy
deriving DecidableEq, Repr

/-- Exeno-S arithmetic (R178). -/
inductive SOp where
  | add | sub | mul | and | or | xor | shl | shr | sra | minS | maxS | minU | maxU | fadd | fsub | fmul | ffma | fmin | fmax
deriving DecidableEq, Repr

/-- Exeno-S lane operations (R178). -/
inductive SLaneOp where
  | lins | lext | bcast | shuffle
deriving DecidableEq, Repr

/-- Exeno-L element-wise operations (R180): floating forms at element widths 32 and 64, and integer forms. -/
inductive VOp where
  | fadd | fsub | fmul | ffma | fmin | fmax | add | sub | mul | fma | minS | maxS | minU | maxU | and | or | xor | shl
  | shr | sra
deriving DecidableEq, Repr

/-- Vector comparisons (R180). -/
inductive CmpOp where
  | feq | flt | fle | eq | ne | ltS | ltU | leS | leU
deriving DecidableEq, Repr

/-- Ordered integer accumulation (R181). -/
inductive IAccOp where
  | sum | min | max
deriving DecidableEq, Repr

/-- What every Exeno-L instruction names (R179, R180): element width in bits, count register, mask register if any;
`stop` is the element at which a suspension stops it (R171, R182), if one does. -/
structure VArgs where
  ew : Nat
  gc : Nat
  mask : Option Nat
  stop : Option Nat
deriving DecidableEq, Repr

/-- The commands, one for each row of the table, in its order. -/
inductive Instr where
  /-- TICK_CTRL_LOAD, R26. -/
  | tickCtrlLoad
  /-- SEAL_DONE, R26. -/
  | sealDone
  /-- TICK_SEAL, R26. -/
  | tickSeal
  /-- TICK_CTRL_START, R35. -/
  | tickCtrlStart
  /-- TICK_CTRL_HALT, R36. -/
  | tickCtrlHalt
  /-- TICK_CTRL_UNLOAD, R36. -/
  | tickCtrlUnload
  /-- TICK_DRY_START, R34. -/
  | tickDryStart (bank : Nat)
  /-- TICK_PHASE_ARM, R33. -/
  | tickPhaseArm
  /-- TICK_PHASE_STEP_WRITE, R33. -/
  | tickPhaseStepWrite (v : Nat)
  /-- LIST_MEMORY_WRITE, R33. -/
  | listMemoryWrite (a : Nat) (v : Nat)
  /-- DESCRIPTOR_POINTER_WRITE, R33. -/
  | descriptorPointerWrite (a : Nat) (v : Nat)
  /-- KERNEL_REGION_WRITE, R169. -/
  | kernelRegionWrite (a : Nat) (v : Nat)
  /-- REGISTER_WRITE, R422. -/
  | registerWrite (a : Nat) (size : Nat) (v : Nat)
  /-- ACC_DEBUG_READ, R118. -/
  | accDebugRead (p : Nat)
  /-- ROOT_REC_WRITE, R161. -/
  | rootRecWrite (v : Nat)
  /-- NOP, R424. -/
  | nop (u : UnitKind) (i : Issue)
  /-- MARK, R25. -/
  | mark (u : UnitKind) (i : Issue)
  /-- MATMUL, R75. -/
  | matmul (i : Issue) (hw : List HwFault)
  /-- MATMUL_COMPLETE, R75. -/
  | matmulComplete (p : Nat) (q : Nat) (cc : Nat)
  /-- GANG_ON, R79. -/
  | gangOn (i : Issue)
  /-- GANG_OFF, R79. -/
  | gangOff (i : Issue)
  /-- SCARF_PEER, R91. -/
  | scarfPeer (i : Issue) (hw : List HwFault)
  /-- ARRAY_RESERVE, R79. -/
  | arrayReserve (i : Issue)
  /-- CHAIN, R139. -/
  | chain (i : Issue) (hw : List HwFault)
  /-- CHAIN_COMPLETE, R139. -/
  | chainComplete (p : Nat) (cc : Nat)
  /-- FINISHER_RESERVE, R124. -/
  | finisherReserve (i : Issue)
  /-- TABLE_LOAD, R137. -/
  | tableLoad (i : Issue) (hw : List HwFault)
  /-- TABLE_LOAD_COMPLETE, R137. -/
  | tableLoadComplete (p : Nat) (cc : Nat)
  /-- TAP, R146. -/
  | tap (i : Issue) (hw : List HwFault)
  /-- CALL, R170. -/
  | kernelCall (i : Issue) (hw : List HwFault)
  /-- RET, R170. -/
  | ret (r : Nat) (cc : Nat) (hw : List HwFault := [])
  /-- CALL_DEADLINE, R170. -/
  | callDeadline (r : Nat)
  /-- SERVICE_RESUME, R171. -/
  | serviceResume (r : Nat)
  /-- SERVICE_EVENT, R171. -/
  | serviceEvent (r : Nat) (ev : Nat)
  /-- INTEGER_OP, R175. -/
  | integerOp (r : Nat) (o : IntOp) (d : Nat) (a : Nat) (b : Nat) (imm : Nat) (hw : List HwFault := [])
  /-- MULTIPLY_DIVIDE, R175. -/
  | multiplyDivide (r : Nat) (o : MulOp) (d : Nat) (a : Nat) (b : Nat) (hw : List HwFault := [])
  /-- BRANCH, R175. -/
  | branch (r : Nat) (o : BranchOp) (d : Nat) (a : Nat) (b : Nat) (off : Nat) (hw : List HwFault := [])
  /-- LOAD, R175. -/
  | load (r : Nat) (bytes : Nat) (sext : Bool) (d : Nat) (a : Nat) (off : Nat) (hw : List HwFault)
  /-- STORE, R175. -/
  | store (r : Nat) (bytes : Nat) (a : Nat) (b : Nat) (off : Nat) (hw : List HwFault)
  /-- FLOAT_OP, R176. -/
  | floatOp (r : Nat) (o : FloatOp) (dbl : Bool) (d : Nat) (a : Nat) (b : Nat) (c : Nat) (hw : List HwFault := [])
  /-- CONVERSION, R176. -/
  | conversion (r : Nat) (o : ConvOp) (rnd : Nat) (d : Nat) (a : Nat) (hw : List HwFault := [])
  /-- CSR_READ, R177. -/
  | csrRead (r : Nat) (d : Nat) (csr : Nat) (hw : List HwFault := [])
  /-- CSR_WRITE, R182. -/
  | csrWrite (r : Nat) (a : Nat) (csr : Nat) (hw : List HwFault := [])
  /-- BREAK, R188. -/
  | brk (r : Nat) (hw : List HwFault := [])
  /-- FENCE, R175. -/
  | fence (r : Nat) (hw : List HwFault := [])
  /-- EXENO_S_ARITH, R178. -/
  | exenoSArith (r : Nat) (o : SOp) (ew : Nat) (d : Nat) (a : Nat) (b : Nat) (c : Nat) (hw : List HwFault := [])
  /-- EXENO_S_LANE, R178. -/
  | exenoSLane (r : Nat) (o : SLaneOp) (ew : Nat) (d : Nat) (a : Nat) (b : Nat) (lane : Nat) (hw : List HwFault := [])
  /-- EXENO_S_LOAD_STORE, R178. -/
  | exenoSLoadStore (r : Nat) (isStore : Bool) (d : Nat) (a : Nat) (off : Nat) (hw : List HwFault)
  /-- LANES, R179. -/
  | lanes (r : Nat) (ew : Nat) (d : Nat) (hw : List HwFault := [])
  /-- VECTOR_ELEMENTWISE, R180. -/
  | vectorElementwise (r : Nat) (v : VArgs) (o : VOp) (d : Nat) (a : Nat) (b : Nat) (c : Nat) (hw : List HwFault := [])
  /-- VDIV_VSQRT, R180. -/
  | vdivVsqrt (r : Nat) (v : VArgs) (sqrt : Bool) (d : Nat) (a : Nat) (b : Nat) (hw : List HwFault := [])
  /-- VCMP, R180. -/
  | vcmp (r : Nat) (v : VArgs) (o : CmpOp) (d : Nat) (a : Nat) (b : Nat) (hw : List HwFault := [])
  /-- VMERGE, R180. -/
  | vmerge (r : Nat) (v : VArgs) (d : Nat) (a : Nat) (b : Nat) (m : Nat) (hw : List HwFault := [])
  /-- VACCO, R181. -/
  | vacco (r : Nat) (v : VArgs) (f : Nat) (a : Nat) (hw : List HwFault := [])
  /-- VIACC, R181. -/
  | viacc (r : Nat) (v : VArgs) (o : IAccOp) (d : Nat) (a : Nat) (hw : List HwFault := [])
  /-- VLD, R180. -/
  | vld (r : Nat) (v : VArgs) (d : Nat) (a : Nat) (hw : List HwFault)
  /-- VST, R180. -/
  | vst (r : Nat) (v : VArgs) (d : Nat) (a : Nat) (hw : List HwFault)
  /-- VLDS, R180. -/
  | vlds (r : Nat) (v : VArgs) (d : Nat) (a : Nat) (st : Nat) (hw : List HwFault)
  /-- VSTS, R180. -/
  | vsts (r : Nat) (v : VArgs) (d : Nat) (a : Nat) (st : Nat) (hw : List HwFault)
  /-- VLPROBE, R183. -/
  | vlprobe (r : Nat) (v : VArgs) (d : Nat) (a : Nat) (hw : List HwFault)
  /-- VLW, R179. -/
  | vlw (r : Nat) (v : VArgs) (fmt : Nat) (d : Nat) (a : Nat) (hw : List HwFault)
  /-- VLX, R184. -/
  | vlx (r : Nat) (v : VArgs) (d : Nat) (a : Nat) (x : Nat) (hw : List HwFault)
  /-- VSX, R184. -/
  | vsx (r : Nat) (v : VArgs) (d : Nat) (a : Nat) (x : Nat) (hw : List HwFault)
  /-- VSXA_O, R185. -/
  | vsxaO (r : Nat) (v : VArgs) (int : Bool) (d : Nat) (a : Nat) (x : Nat) (hw : List HwFault)
  /-- VSXA_U, R186. -/
  | vsxaU (r : Nat) (v : VArgs) (int : Bool) (d : Nat) (a : Nat) (x : Nat) (hw : List HwFault)
  /-- VSG, R187. -/
  | vsg (r : Nat) (v : VArgs) (d : Nat) (a : Nat) (x : Nat) (slot : Nat) (hw : List HwFault)
  /-- SEND, R277. -/
  | send (i : Issue) (hw : List HwFault)
  /-- SEND_COMPLETE, R277. -/
  | sendComplete (p : Nat) (cc : Nat)
  /-- LAND, R278. -/
  | land (i : Issue)
  /-- PASS, R281. -/
  | pass (i : Issue)
  /-- MOVE, R264. -/
  | mover (i : Issue) (hw : List HwFault)
  /-- MOVE_COMPLETE, R264. -/
  | moveComplete (p : Nat) (cc : Nat)
  /-- NORM, R231. -/
  | norm (i : Issue) (hw : List HwFault)
  /-- NORM_COMPLETE, R231. -/
  | normComplete (u : Nat) (cc : Nat)
  /-- NORM_SUM, R232. -/
  | normSum (i : Issue) (hw : List HwFault := [])
  /-- APPLY, R236. -/
  | updApply (i : Issue) (hw : List HwFault)
  /-- APPLY_COMPLETE, R240. -/
  | applyComplete (u : Nat) (cc : Nat)
  /-- ROOT_SEG, R153. -/
  | rootSeg (i : Issue)
  /-- GAUGE_SEG, R150. -/
  | gaugeSeg (i : Issue)
  /-- ROOT_PIECE, R162. -/
  | rootPiece (g : Bool) (d : Nat) (p : Nat) (hw : List HwFault)
  /-- SOLVE, R198. -/
  | solve (i : Issue)
  /-- SOLVER_PIECE, R201. -/
  | solverPiece (ctx : Nat) (adj : Bool) (p : Nat) (fab : SolverIn) (hw : List HwFault)
  /-- TICK_BOUNDARY, R15. -/
  | tickBoundary
  /-- TICK_CLOSE, R17. -/
  | tickClose
  /-- STRETCH_CLOSE, R18. -/
  | stretchClose (q : Nat)
  /-- STRETCH_NOTICE, R18. -/
  | stretchNotice (p : Nat) (amount : Nat) (dev : Nat) (count : Nat)
  /-- FREEZE_END, R18. -/
  | freezeEnd
  /-- STRETCH_LIMIT, R20. -/
  | stretchLimit
  /-- ENGINE_BUSY_FAULT, R27. -/
  | engineBusyFault (u : UnitKind) (idx : Nat) (eng : Nat) (entry : Nat)
  /-- INJECTED_ERROR, R354. -/
  | injectedError
  /-- PENDING_ERROR_CHECK, R333. -/
  | pendingErrorCheck
  /-- SPARE_SWAP_DONE, R337. -/
  | spareSwapDone
  /-- CHECKSUM_EXCHANGE, R241. -/
  | checksumExchange
  /-- CHECKSUM_FRAME, R294. -/
  | checksumFrame (dev : Nat) (key : Nat) (crc : Nat) (rgroup : Nat := 0)
  /-- SECOND_EXCHANGE, R346. -/
  | secondExchange (hw : List HwFault := [])
  /-- REPAIR_TRANSFER_LANDED, R347. -/
  | repairTransferLanded (key : Nat) (data : List Nat)
  /-- COMMIT, R30. -/
  | commit (hw : List HwFault)
  /-- RESHARD_PERMUTATION, R296. -/
  | reshardPermutation (hw : List HwFault := [])
  /-- PERMUTATION_DONE, R296. -/
  | permutationDone (ins : List PermIn)
  /-- PERMUTATION_TIMEOUT, R297. -/
  | permutationTimeout
  /-- PHASE_CHANGE, R32. -/
  | phaseChange
  /-- INPUT_RESIDENCY_CHECK, R367. -/
  | inputResidencyCheck
  /-- BARRIER_GATHER, R289. -/
  | barrierGather (p : Nat) (act : Nat) (v : Verdict)
  /-- BARRIER_RELEASE, R289. -/
  | barrierRelease (act : Nat) (v : Verdict)
  /-- SQUARE_UP_GATHER, R287. -/
  | squareUpGather (p : Nat) (t : Token)
  /-- SQUARE_UP_GO, R287. -/
  | squareUpGo (g : GoFrame)
  /-- TICK_ZERO, R287. -/
  | tickZero
  /-- GLUE_UP_WATCHDOG, R345. -/
  | glueUpWatchdog
  /-- HALT_NOTICE, R340. -/
  | haltNotice (p : Nat) (e : CarriedErr)
  /-- QUEUED_ERROR, R332. -/
  | queuedError
  /-- ERR_LOG_CLEAR, R352. -/
  | errLogClear
  /-- ERR_CNT_CLEAR, R353. -/
  | errCntClear
  /-- ERR_CTRL_COMMIT, R341. -/
  | errCtrlCommit (hw : List HwFault)
  /-- ERR_SWAP, R338. -/
  | errSwap (pc : Nat)
  /-- ERR_INJECT_ARM, R354. -/
  | errInjectArm (v : Nat)
  /-- UPD_REGEN, R243. -/
  | updRegen
  /-- REGEN_DONE, R243. -/
  | regenDone (hw : List HwFault)
  /-- UPD_EXPORT_ARM, R242. -/
  | updExportArm
  /-- UPD_EXPORT_STEP_WRITE, R242. -/
  | updExportStepWrite (v : Nat)
  /-- FAB_PERM_ARM, R295. -/
  | fabPermArm
  /-- FAB_PERM_CANCEL, R295. -/
  | fabPermCancel
  /-- LNK_TRAIN, R271. -/
  | lnkTrain (p : Nat)
  /-- LINK_TRAIN_DONE, R271. -/
  | linkTrainDone (p : Nat) (t : TrainResult)
  /-- LNK_RESTORE, R298. -/
  | lnkRestore (p : Nat)
  /-- SYNT_SOURCE_WRITE, R291. -/
  | syntSourceWrite (v : Nat)
  /-- SYNT_SOURCE_LOSS, R291. -/
  | syntSourceLoss
  /-- HOLDOVER_TIMEOUT, R291. -/
  | holdoverTimeout
  /-- CLK_RATE_WRITE, R393. -/
  | clkRateWrite (v : Nat)
  /-- PLL_RELOCK_DONE, R393. -/
  | pllRelockDone
  /-- DET_MEASURE, R322. -/
  | detMeasure
  /-- MEASURE_DONE, R322. -/
  | measureDone (hw : List HwFault)
  /-- DET_PROV_SNAP, R324. -/
  | detProvSnap
  /-- PROVENANCE_SIGN_DONE, R325. -/
  | provenanceSignDone
  /-- PAD_HOLD_RELEASE, R400. -/
  | padHoldRelease
  /-- PWR_RESET_WARM, R395. -/
  | pwrResetWarm
  /-- FRAME_ARRIVE, R278. -/
  | frameArrive (p : Nat) (cc : Nat) (f : Frame)
  /-- ACK_RECEIVE, R269. -/
  | ackReceive (p : Nat) (seq : Nat)
  /-- NAK_RECEIVE, R269. -/
  | nakReceive (p : Nat) (seq : Nat)
  /-- LINK_ACK_TIMEOUT, R270. -/
  | linkAckTimeout (p : Nat)
  /-- REPLAY_EXHAUSTED, R270. -/
  | replayExhausted (p : Nat)
  /-- LANE_LOCK_LOSS, R298. -/
  | laneLockLoss (p : Nat)
  /-- PARTNER_LOSS, R298. -/
  | partnerLoss (p : Nat)
  /-- BER_WARN, R272. -/
  | berWarn (p : Nat) (corr : Nat)
  /-- SQUP_IN_EDGE, R290. -/
  | squpInEdge (cc : Int) (width : Nat)
  /-- SQUP_IN_STUCK, R408. -/
  | squpInStuck
  /-- VENEER_SCRUB, R254. -/
  | veneerScrub (p : Nat) (f : List ScrubFinding) (passEnd : Bool)
  /-- LPDDR_SCRUB, R260. -/
  | lpddrScrub (c : Nat) (a : Nat) (f : Option Bool) (passEnd : Bool)
  /-- MR4_OVER, R261. -/
  | mr4Over (c : Nat) (mult : Nat)
  /-- VENEER_INIT_DONE, R255. -/
  | veneerInitDone
  /-- LPDDR_READY, R262. -/
  | lpddrReady (c : Nat) (pkg0 : Bool) (pkg1 : Bool)
  /-- ETH_FRAME_DROPPED, R355. -/
  | ethFrameDropped
  /-- ARP_REQUEST, R355. -/
  | arpRequest (eth : EthHdr) (ip : Nat) (target : Nat)
  /-- NEIGHBOUR_SOLICITATION, R355. -/
  | neighbourSolicitation (eth : EthHdr) (ip : Nat) (target : Nat)
  /-- ECHO_REQUEST, R355. -/
  | echoRequest (eth : EthHdr) (ip : Nat) (v6 : Bool) (data : List Nat)
  /-- PFC_PAUSE, R355. -/
  | pfcPause (prio : Nat) (quanta : Nat)
  /-- RDMA_WRITE, R357. -/
  | rdmaWrite (w : RdmaWrite)
  /-- RDMA_READ, R357. -/
  | rdmaRead (w : RdmaRead) (hw : List HwFault)
  /-- HOST_SEND, R356. -/
  | hostSend (qpn : Nat) (psn : Nat) (f : RoceFrame := noFrame)
  /-- ROCE_ACK, R356. -/
  | roceAck (qpn : Nat) (psn : Nat) (f : RoceFrame := noFrame)
  /-- ROCE_NAK, R356. -/
  | roceNak (qpn : Nat) (psn : Nat) (code : Nat) (f : RoceFrame := noFrame)
  /-- ROCE_ACK_TIMEOUT, R356. -/
  | roceAckTimeout (qpn : Nat)
  /-- CNP_RECEIVE, R356. -/
  | cnpReceive (h : RoceHdr)
  /-- BCP_DATAGRAM, R359. -/
  | bcpDatagram (d : Datagram)
  /-- HELLO, R360. -/
  | hello (h : BcpHdr) (lo : Nat) (hi : Nat)
  /-- BYE, R360. -/
  | bye (h : BcpHdr)
  /-- REG_READ, R363. -/
  | regRead (h : BcpHdr) (a : Nat) (n : Nat)
  /-- REG_WRITE, R363. -/
  | regWrite (h : BcpHdr) (a : Nat) (vs : List Nat)
  /-- SETUP_COPY, R364. -/
  | setupCopy (h : BcpHdr) (src : Nat) (dst : Nat) (n : Nat)
  /-- JOB_LOAD, R362. -/
  | jobLoad (h : BcpHdr) (step : Nat)
  /-- JOB_START, R367. -/
  | jobStart (h : BcpHdr)
  /-- JOB_HALT, R362. -/
  | jobHalt (h : BcpHdr)
  /-- JOB_UNLOAD, R372. -/
  | jobUnload (h : BcpHdr)
  /-- DRY_FIT, R367. -/
  | dryFit (h : BcpHdr) (bank : Nat)
  /-- INPUT_READY, R366. -/
  | inputReady (h : BcpHdr) (step : Nat) (b : Nat) (len : Nat)
  /-- OUTBOX_BIND, R368. -/
  | outboxBind (h : BcpHdr) (qpn : Nat) (a : Nat) (rkey : Nat) (ring : Nat)
  /-- QP_CREATE, R356. -/
  | qpCreate (h : BcpHdr) (q : QpArgs)
  /-- QP_DESTROY, R362. -/
  | qpDestroy (h : BcpHdr) (qpn : Nat)
  /-- SUBSCRIBE, R369. -/
  | subscribe (h : BcpHdr) (q : SubArgs)
  /-- EVENT_ACK, R370. -/
  | eventAck (h : BcpHdr) (ev : Nat)
  /-- STOP, R398. -/
  | stop (h : BcpHdr)
  /-- RECORD_WRITE, R387. -/
  | recordWrite (h : BcpHdr) (kind : Nat) (a : Nat) (len : Nat)
  /-- FLASH_SECTOR_DONE, R388. -/
  | flashSectorDone
  /-- ATTEST, R386. -/
  | attest (h : BcpHdr) (nonce : Nat) (a : Nat)
  /-- ATTEST_SIGN_DONE, R386. -/
  | attestSignDone
  /-- SESSION_IDLE_TIMEOUT, R360. -/
  | sessionIdleTimeout (id : Nat)
  /-- EVENT_RESEND, R370. -/
  | eventResend
  /-- POWER_ON, R396. -/
  | powerOn
  /-- POR_RELEASE, R416. -/
  | porRelease
  /-- BROWN_OUT, R390. -/
  | brownOut
  /-- RAIL_FAULT, R390. -/
  | railFault (rail : Nat)
  /-- RST_N_ASSERT, R395. -/
  | rstNAssert
  /-- RST_N_RELEASE, R395. -/
  | rstNRelease (w : Nat) (prog : List (Nat × List Nat) := [])
  /-- RST_N_STUCK, R408. -/
  | rstNStuck
  /-- CONFIGURATION_DONE, R380. -/
  | configurationDone (lost : List (Nat × Nat) := [])
  /-- PWR_FAIL_ASSERT, R409. -/
  | pwrFailAssert (short : Bool := false)
  /-- PWR_FAIL_RELEASE, R409. -/
  | pwrFailRelease
  /-- PWR_FAIL_STUCK, R408. -/
  | pwrFailStuck
  /-- POWER_AVERAGE, R392. -/
  | powerAverage (watts : Nat)
  /-- THERMAL_SAMPLE, R404. -/
  | thermalSample (ts : List Int)
  /-- THERM_HOT, R404. -/
  | thermHot
  /-- SMB_ADDRESS_MATCH, R402. -/
  | smbAddressMatch (addr : Nat)
  /-- WAKE_DONE, R402. -/
  | wakeDone
  /-- STOP_ENTRY_DONE, R399. -/
  | stopEntryDone
  /-- SMB_STATUS, R407. -/
  | smbStatus
  /-- SMB_STOP, R407. -/
  | smbStop (pec : Nat)
  /-- SMB_WARM_RESET, R407. -/
  | smbWarmReset (pec : Nat)
  /-- SMB_ALERT_RESPONSE, R407. -/
  | smbAlertResponse
  /-- SCL_STUCK, R408. -/
  | sclStuck (ns : Nat := 35000001)
  /-- SDA_STUCK, R408. -/
  | sdaStuck (ns : Nat := 35000001)
  /-- EXTEST, R420. -/
  | extest (d : Option Nat := none)
  /-- SAMPLE_PRELOAD, R419. -/
  | samplePreload (d : Nat)
  /-- IDCODE, R419. -/
  | idcode
  /-- CLAMP, R420. -/
  | clamp
  /-- HIGHZ, R420. -/
  | highZ
  /-- EXTEST_PULSE, R420. -/
  | extestPulse (d : Option Nat := none)
  /-- EXTEST_TRAIN, R420. -/
  | extestTrain (d : Option Nat := none)
  /-- BYPASS, R419. -/
  | bypass
  /-- TRST_N, R420. -/
  | trstN
  /-- TAP_COMPLETE, R146. -/
  | tapComplete (p : Nat) (cc : Nat)
  /-- NORM_SUM_COMPLETE, R232. -/
  | normSumComplete (u : Nat) (cc : Nat)
  /-- SETUP_COPY_DONE, R364. -/
  | setupCopyDone
  /-- REFCLK_LOSS, R393. -/
  | refclkLoss (present : Bool)
  /-- ETH_LINK_DOWN, R355. -/
  | ethLinkDown
  /-- MR4_CONDITION_ENDS, R261. -/
  | mr4ConditionEnds (c : Nat) (mult : Nat)
  /-- SQUP_IN_FALL, R408. -/
  | squpInFall
  /-- PARTNER_TRAINING_REQUEST, R271. -/
  | partnerTrainingRequest (p : Nat)
  /-- CUMULATIVE_ACK, R269. -/
  | cumulativeAck (p : Nat)
  /-- PUSH_RATE_RESTORE, R356. -/
  | pushRateRestore (qpn : Nat)
deriving DecidableEq, Repr

end Sys2Proof
end

