-- ==== Sys2Proof/Decode.lean ====
section
/-! DEFINITION. The command that a word spells. The spec's table of operations and events gives its rows no bits, so no
word spells a command. -/

namespace Sys2Proof

/-- The command spelled by the low `nbits` bits of `w`: none, since no row of the table has bits. -/
def decodeTableWord (_nbits _w : Nat) : Option Instr := none

end Sys2Proof
end

