-- ==== Sys2Proof/Config.lean ====
section
/-! DEFINITION. What an implementation fixes and the spec does not state: constants without a body, so that no proof
can see a value. `freeValue` supplies the values that the spec leaves open, and `openShift` to `emptyNorm` the results
that are functions of operands (DESIGN CHOICE: notes/assumptions/2.md); the others stand for keys, signatures and the
layouts of flash contents that the spec does not give (DESIGN CHOICE: notes/assumptions/12.md). -/

namespace Sys2Proof.Config

/-- The n-th value that the spec leaves open. -/
opaque freeValue : Nat → Nat

/-- A shift by the width or more (R175, R178, R180): 0 left, 1 right, 2 arithmetic right; width, value, amount. -/
opaque openShift : Nat → Nat → Nat → Nat → Nat

/-- A division by 0 or of the most negative number by −1 (R175): 0 quotient and 1 remainder of unsigned numbers, 2 and 3 of
signed ones; the operands. -/
opaque openDivide : Nat → Nat → Nat → Nat

/-- A conversion to INT64 that does not fit (R175): the rounding mode and the FP64 code of the source. -/
opaque openInt64 : Nat → Nat → Nat

/-- The byte that an index above 31 takes in a shuffle (R178): the sources and the index. -/
opaque openShuffle : Nat → Nat → Nat → Nat

/-- The port, modulo 8, in whose routing table the device looks up what it routes by the tables itself (R294, R296,
R347). -/
opaque ownTable : Nat

/-- The FP64 code that NORM_SUM writes where no shard has NORM = 1 (R232). -/
opaque emptyNorm : Nat

/-- The 256-bit seed that the SRAM PUF and the helper data give (R384). -/
opaque pufSeed : List Nat → List Nat

/-- Falcon-1024 key generation with its randomness drawn from SHAKE256 over a seed: public and private key (R384). -/
opaque falconKeys : List Nat → List Nat × List Nat

/-- The padded Falcon-1024 signature of a message under a private key (R325, R386). -/
opaque falconSign : List Nat → List Nat → List Nat

/-- Whether a padded Falcon-1024 signature verifies: public key, message, signature (R376, R381). -/
opaque falconVerify : List Nat → List Nat → List Nat → Bool

/-- The module is of grade E (R2, R3). -/
opaque gradeE : Bool

/-- The first 32 bytes of SHAKE256 over the boot ROM (R385). -/
opaque romDigest : List Nat

/-- The magic number that starts an attestation report (R386). -/
opaque attestMagic : Nat

/-- The first 32 bytes of SHAKE256 over the Slamund root key, which the ROM holds (R376). -/
opaque rootDigest : List Nat

/-- The magic numbers of an image header, of a certificate, and of the header of a record copy: 0 device, 1 site (R375,
R376, R381). -/
opaque imageMagic : Nat
opaque certMagic : Nat
opaque recordMagic : Nat → Nat

/-- The bytes of REG_TRIM and of LANE_TRIM in a factory section (R378). -/
opaque regTrimLen : Nat
opaque laneTrimLen : Nat

/-- A field of a site record body by its place in the table "Site record", and its ALLOW prefixes: address (IPv4 in
mapped form) and prefix length (R379). -/
opaque siteField : List Nat → Nat → Nat
opaque siteAllow : List Nat → List (Nat × Nat)

/-- Whether a record verified when it was read back from the flash (R387). -/
opaque flashVerify : Nat → Bool

end Sys2Proof.Config
end

