-- ==== Sys2Proof/Machine/Bases.lean ====
section
/-! DEFINITION. Where things stand in the address map (R245, R247, R248, R21), and the form of a register field
(R9, R10, R12). Addresses at and above `2 ^ 48` are the model's own places for storage that the map does not show
(DESIGN CHOICE: notes/assumptions/3.md). -/

namespace Sys2Proof.Machine

/-- The access codes of R10. -/
inductive Access where
  | ro | rw | rwl | wo | w1c | w1s
deriving DecidableEq, Repr

/-- One field of one register: the register's address, the field's lowest bit and width, its reset value, its access
code, whether it survives a warm reset (1) or also a cold reset (2), and whether a job load zeroes it (R12). -/
structure Fld where
  addr : Nat
  lo : Nat
  width : Nat
  reset : Nat
  acc : Access
  keep : Nat
  ctr : Bool
deriving DecidableEq, Repr

/-- The key under which the field's value is held. -/
def Fld.key (f : Fld) : Nat := f.addr * 64 + f.lo

/-! Block bases, R247. -/

def tickBase : Nat := 0x030000000000
def arrBase (p : Nat) : Nat := 0x030010000000 + p * 0x10000
def accBase (p : Nat) : Nat := 0x030010004000 + p * 0x10000
def finBase (p : Nat) : Nat := 0x030010008000 + p * 0x10000
def gauBase (p : Nat) : Nat := 0x03001000C000 + p * 0x10000
def exnBase (r : Nat) : Nat := 0x030020000000 + r * 0x10000
def rootBase : Nat := 0x030030000000
def solBase : Nat := 0x030031000000
def updBase (u : Nat) : Nat := 0x030040000000 + u * 0x10000
def updCommon : Nat := 0x030040100000
def memBase (c : Nat) : Nat := 0x030050000000 + c * 0x10000
def vnrBase : Nat := 0x030058000000
def lnkBase (p : Nat) : Nat := 0x030060000000 + p * 0x100000
def fabBase : Nat := 0x030068000000
def detBase : Nat := 0x030070000000
def errBase : Nat := 0x030071000000
def ethBase : Nat := 0x030080000000
def cfgBase : Nat := 0x030090000000
def pwrBase : Nat := 0x0300A0000000
def devBase : Nat := 0x0300F0000000

/-- The model's place for the CSRs of context `x` (0 list, 1 service) of row controller `r`, which have numbers and
no address (R177). -/
def csrBase (r x : Nat) : Nat := 2 ^ 48 + (r * 2 + x) * 0x10000

/-! Memory regions, R245, R248, R257 and R21. -/

/-- The end of the usable LPDDR range (R245). -/
def lpddrEnd : Nat := 0x00F800000000
/-- The window of one LPDDR controller (R257). -/
def lpddrWindow : Nat := 0x0F80000000
/-- The veneer window of physical cluster `p` (R248). -/
def veneerBase (p : Nat) : Nat := 0x010000000000 + p * 0x400000
/-- The bytes of one veneer region (R248). -/
def veneerSize : Nat := 0x300000
/-- The physical clusters of a device (R4). -/
def nPhys : Nat := 2176

/-! The model's own places for storage outside the map (DESIGN CHOICE: notes/assumptions/3.md). -/

/-- The operand buffer of physical cluster `p`, 256 KiB. -/
def opbufBase (p : Nat) : Nat := 2 ^ 49 + p * 0x40000
/-- The accumulators of physical cluster `p`: 16 bytes for each element of each buffer. DESIGN CHOICE:
notes/assumptions/3.md. -/
def accumBase (p : Nat) : Nat := 2 ^ 50 + p * 0x40000
/-- The function-table memory of the finisher of physical cluster `p`. -/
def ftabBase (p : Nat) : Nat := 2 ^ 51 + p * 0x10000
/-- The private memory of row controller `r` (R172): 4 MiB of the setup view. -/
def rowPriv (r : Nat) : Nat := 0x050010000000 + r * 0x100000

end Sys2Proof.Machine
end

