-- ==== Sys2Proof/Machine/Regs.lean ====
section
/-! DEFINITION. The register map: every register field of the CSR blocks (R247) as a constant, with its absolute
address, lowest bit, width, reset value and access code (R9, R10, R12), and the list of fields at each address.
The tables follow the register tables of the chapters; a field whose reset reads "see description" resets to 0 here
and is set at configuration (DESIGN CHOICE: notes/assumptions/6.md). -/

namespace Sys2Proof.Machine.Reg

/-! DEV_VERSION: 01_ticks_and_cutting_lists.md -/
def DEV_VERSION.GENERATION : Fld := ⟨devBase + 0x0, 0, 8, 1, .ro, 0, false⟩
def DEV_VERSION.STEPPING : Fld := ⟨devBase + 0x0, 8, 8, 161, .ro, 0, false⟩
def DEV_VERSION.AREV : Fld := ⟨devBase + 0x0, 16, 16, 1, .ro, 0, false⟩
def DEV_VERSION.F_FP64_LIMB : Fld := ⟨devBase + 0x0, 32, 1, 1, .ro, 0, false⟩
def DEV_VERSION.F_MX : Fld := ⟨devBase + 0x0, 33, 1, 1, .ro, 0, false⟩
def DEV_VERSION.F_DD128 : Fld := ⟨devBase + 0x0, 34, 1, 1, .ro, 0, false⟩
def DEV_VERSION.F_GANG : Fld := ⟨devBase + 0x0, 35, 1, 1, .ro, 0, false⟩
def DEV_VERSION.F_SCARF : Fld := ⟨devBase + 0x0, 36, 1, 1, .ro, 0, false⟩
def DEV_VERSION.F_ROOT : Fld := ⟨devBase + 0x0, 37, 1, 1, .ro, 0, false⟩
def DEV_VERSION.F_KRYLOV : Fld := ⟨devBase + 0x0, 38, 1, 1, .ro, 0, false⟩
def DEV_VERSION.F_PORTABLE : Fld := ⟨devBase + 0x0, 39, 1, 1, .ro, 0, false⟩
def DEV_VERSION.F_STRICT : Fld := ⟨devBase + 0x0, 40, 1, 1, .ro, 0, false⟩
def DEV_VERSION.F_RESHARD : Fld := ⟨devBase + 0x0, 41, 1, 1, .ro, 0, false⟩
def DEV_VERSION.F_EXENO_S : Fld := ⟨devBase + 0x0, 42, 1, 1, .ro, 0, false⟩
def DEV_VERSION.F_EXENO_L : Fld := ⟨devBase + 0x0, 43, 1, 1, .ro, 0, false⟩
def DEV_VERSION.F_PROV_SIGN : Fld := ⟨devBase + 0x0, 44, 1, 1, .ro, 0, false⟩
def DEV_VERSION.F_DRYFIT : Fld := ⟨devBase + 0x0, 45, 1, 1, .ro, 0, false⟩
def DEV_VERSION.F_SR : Fld := ⟨devBase + 0x0, 46, 1, 1, .ro, 0, false⟩
/-! DEV_ABI: 01_ticks_and_cutting_lists.md -/
def DEV_ABI.MAJOR : Fld := ⟨devBase + 0x8, 0, 8, 1, .ro, 0, false⟩
def DEV_ABI.MINOR_MAX : Fld := ⟨devBase + 0x8, 8, 8, 0, .ro, 0, false⟩
/-! TICK_CFG: 01_ticks_and_cutting_lists.md -/
def TICK_CFG.TICK_LOG2 : Fld := ⟨tickBase + 0x0, 0, 5, 16, .rwl, 0, false⟩
def TICK_CFG.KERF_Q : Fld := ⟨tickBase + 0x0, 8, 11, 4, .rwl, 0, false⟩
def TICK_CFG.NGUARD_Q : Fld := ⟨tickBase + 0x0, 20, 12, 16, .rwl, 0, false⟩
/-! TICK_CTRL: 01_ticks_and_cutting_lists.md -/
def TICK_CTRL.LOAD : Fld := ⟨tickBase + 0x8, 0, 1, 0, .wo, 0, false⟩
def TICK_CTRL.START : Fld := ⟨tickBase + 0x8, 1, 1, 0, .wo, 0, false⟩
def TICK_CTRL.HALT : Fld := ⟨tickBase + 0x8, 2, 1, 0, .wo, 0, false⟩
def TICK_CTRL.UNLOAD : Fld := ⟨tickBase + 0x8, 3, 1, 0, .wo, 0, false⟩
/-! TICK_STATUS: 01_ticks_and_cutting_lists.md -/
def TICK_STATUS.STATE : Fld := ⟨tickBase + 0x10, 0, 2, 0, .ro, 0, false⟩
def TICK_STATUS.DRY : Fld := ⟨tickBase + 0x10, 2, 1, 0, .ro, 0, false⟩
def TICK_STATUS.BANK : Fld := ⟨tickBase + 0x10, 3, 1, 0, .ro, 0, false⟩
def TICK_STATUS.STRETCHING : Fld := ⟨tickBase + 0x10, 4, 1, 0, .ro, 0, false⟩
def TICK_STATUS.SEALED_A : Fld := ⟨tickBase + 0x10, 5, 1, 0, .ro, 0, false⟩
def TICK_STATUS.SEALED_B : Fld := ⟨tickBase + 0x10, 6, 1, 0, .ro, 0, false⟩
def TICK_STATUS.SEALING : Fld := ⟨tickBase + 0x10, 7, 1, 0, .ro, 0, false⟩
def TICK_STATUS.START_MISSED : Fld := ⟨tickBase + 0x10, 8, 1, 0, .w1c, 0, false⟩
def TICK_STATUS.TICK_IN_STEP : Fld := ⟨tickBase + 0x10, 16, 16, 0, .ro, 0, false⟩
/-! TICK_COUNT: 01_ticks_and_cutting_lists.md -/
def TICK_COUNT.COUNT : Fld := ⟨tickBase + 0x18, 0, 64, 0, .ro, 0, true⟩
/-! TICK_STEP: 01_ticks_and_cutting_lists.md -/
def TICK_STEP.STEP : Fld := ⟨tickBase + 0x20, 0, 64, 0, .ro, 1, false⟩
/-! TICK_PHASE: 01_ticks_and_cutting_lists.md -/
def TICK_PHASE.ARM : Fld := ⟨tickBase + 0x28, 0, 1, 0, .w1s, 0, false⟩
def TICK_PHASE.MISSED : Fld := ⟨tickBase + 0x28, 1, 1, 0, .w1c, 0, false⟩
/-! TICK_PHASE_STEP: 01_ticks_and_cutting_lists.md -/
def TICK_PHASE_STEP.AT_STEP : Fld := ⟨tickBase + 0x30, 0, 64, 0, .rw, 0, false⟩
/-! TICK_SEAL: 01_ticks_and_cutting_lists.md -/
def TICK_SEAL.SEAL : Fld := ⟨tickBase + 0x38, 0, 1, 0, .wo, 0, false⟩
/-! TICK_FAULT: 01_ticks_and_cutting_lists.md -/
def TICK_FAULT.CODE : Fld := ⟨tickBase + 0x40, 0, 8, 0, .ro, 0, false⟩
def TICK_FAULT.UNIT_CLASS : Fld := ⟨tickBase + 0x40, 8, 4, 0, .ro, 0, false⟩
def TICK_FAULT.UNIT_INDEX : Fld := ⟨tickBase + 0x40, 12, 16, 0, .ro, 0, false⟩
def TICK_FAULT.ENTRY : Fld := ⟨tickBase + 0x40, 28, 13, 0, .ro, 0, false⟩
def TICK_FAULT.BANK : Fld := ⟨tickBase + 0x40, 41, 1, 0, .ro, 0, false⟩
def TICK_FAULT.VALID : Fld := ⟨tickBase + 0x40, 63, 1, 0, .w1c, 0, false⟩
/-! TICK_FAULT_TICK: 01_ticks_and_cutting_lists.md -/
def TICK_FAULT_TICK.AT_TICK : Fld := ⟨tickBase + 0x48, 0, 64, 0, .ro, 0, false⟩
/-! TICK_STRETCH: 01_ticks_and_cutting_lists.md -/
def TICK_STRETCH.LAST_CC : Fld := ⟨tickBase + 0x50, 0, 26, 0, .ro, 0, false⟩
def TICK_STRETCH.CAUSE : Fld := ⟨tickBase + 0x50, 26, 4, 0, .w1c, 0, false⟩
def TICK_STRETCH.TICKS_STRETCHED : Fld := ⟨tickBase + 0x50, 32, 32, 0, .ro, 0, false⟩
/-! TICK_STRETCH_TOTAL: 01_ticks_and_cutting_lists.md -/
def TICK_STRETCH_TOTAL.TOTAL_CC : Fld := ⟨tickBase + 0x58, 0, 64, 0, .ro, 0, true⟩
/-! TICK_STRETCH_LIMIT: 01_ticks_and_cutting_lists.md -/
def TICK_STRETCH_LIMIT.LIMIT_KCC : Fld := ⟨tickBase + 0x60, 0, 16, 32, .rwl, 0, false⟩
def TICK_STRETCH_LIMIT.OPP_IGNORED : Fld := ⟨tickBase + 0x60, 16, 16, 0, .ro, 0, false⟩
/-! TICK_MARGIN: 01_ticks_and_cutting_lists.md -/
def TICK_MARGIN.MIN_SLACK_CC : Fld := ⟨tickBase + 0x68, 0, 20, 1048575, .ro, 0, true⟩
def TICK_MARGIN.AT_TICK_IN_STEP : Fld := ⟨tickBase + 0x68, 32, 16, 0, .ro, 0, true⟩
/-! TICK_DRY: 01_ticks_and_cutting_lists.md -/
def TICK_DRY.START : Fld := ⟨tickBase + 0x70, 0, 1, 0, .wo, 0, false⟩
def TICK_DRY.BANK : Fld := ⟨tickBase + 0x70, 1, 1, 0, .rw, 0, false⟩
def TICK_DRY.DONE : Fld := ⟨tickBase + 0x70, 2, 1, 0, .w1c, 0, false⟩
def TICK_DRY.PASS : Fld := ⟨tickBase + 0x70, 3, 1, 0, .ro, 0, false⟩
/-! TICK_MARK: 01_ticks_and_cutting_lists.md -/
def TICK_MARK.LAST_TAG : Fld := ⟨tickBase + 0x78, 0, 16, 0, .ro, 0, false⟩
def TICK_MARK.AT_TICK : Fld := ⟨tickBase + 0x78, 16, 48, 0, .ro, 0, false⟩
/-! TICK_GLUE: 01_ticks_and_cutting_lists.md -/
def TICK_GLUE.LAST_CC : Fld := ⟨tickBase + 0x80, 0, 32, 0, .ro, 0, false⟩
def TICK_GLUE.HOLDS : Fld := ⟨tickBase + 0x80, 32, 32, 0, .ro, 0, false⟩
/-! TICK_ABI: 01_ticks_and_cutting_lists.md -/
def TICK_ABI.MAJOR : Fld := ⟨tickBase + 0x88, 0, 8, 0, .ro, 0, false⟩
def TICK_ABI.MINOR : Fld := ⟨tickBase + 0x88, 8, 8, 0, .ro, 0, false⟩
def TICK_ABI.STEP_TICKS : Fld := ⟨tickBase + 0x88, 16, 16, 0, .ro, 0, false⟩
/-! TICK_LOAD_STEP: 01_ticks_and_cutting_lists.md -/
def TICK_LOAD_STEP.STEP : Fld := ⟨tickBase + 0x90, 0, 64, 0, .rwl, 0, false⟩
/-! DEV_CENSUS_CTRL: 02_number_formats.md -/
def DEV_CENSUS_CTRL.ENABLE : Fld := ⟨devBase + 0x100, 0, 1, 0, .rwl, 0, false⟩
def DEV_CENSUS_CTRL.RING_LOG2 : Fld := ⟨devBase + 0x100, 1, 3, 0, .rwl, 0, false⟩
def DEV_CENSUS_CTRL.NOTIFY : Fld := ⟨devBase + 0x100, 4, 1, 0, .rw, 0, false⟩
/-! DEV_CENSUS_BASE: 02_number_formats.md -/
def DEV_CENSUS_BASE.ADDR : Fld := ⟨devBase + 0x108, 14, 34, 0, .rwl, 0, false⟩
def DEV_CENSUS_BASE.ADDR_HI : Fld := ⟨devBase + 0x108, 48, 8, 0, .rwl, 0, false⟩
/-! DEV_CENSUS_HEAD: 02_number_formats.md -/
def DEV_CENSUS_HEAD.NEXT_SLOT : Fld := ⟨devBase + 0x110, 0, 7, 0, .ro, 0, true⟩
def DEV_CENSUS_HEAD.WRITTEN : Fld := ⟨devBase + 0x110, 16, 32, 0, .ro, 0, true⟩
def DEV_CENSUS_HEAD.LOST : Fld := ⟨devBase + 0x110, 48, 16, 0, .ro, 0, false⟩
/-! DEV_CENSUS_LAST: 02_number_formats.md -/
def DEV_CENSUS_LAST.STEP : Fld := ⟨devBase + 0x118, 0, 64, 0, .ro, 0, false⟩
/-! ARR_STATUS: 03_matrix_array.md -/
def ARR_STATUS.GANG (p : Nat) : Fld := ⟨arrBase p + 0x0, 0, 1, 0, .ro, 0, false⟩
def ARR_STATUS.BUSY (p : Nat) : Fld := ⟨arrBase p + 0x0, 1, 4, 0, .ro, 0, false⟩
def ARR_STATUS.RESERVED (p : Nat) : Fld := ⟨arrBase p + 0x0, 5, 1, 0, .ro, 0, false⟩
def ARR_STATUS.HOLDING (p : Nat) : Fld := ⟨arrBase p + 0x0, 6, 1, 0, .ro, 0, false⟩
/-! ARR_DESC_A: 03_matrix_array.md -/
def ARR_DESC_A.OFF (p : Nat) : Fld := ⟨arrBase p + 0x8, 6, 18, 0, .rw, 0, false⟩
def ARR_DESC_A.DESC_COUNT (p : Nat) : Fld := ⟨arrBase p + 0x8, 32, 9, 0, .rw, 0, false⟩
def ARR_DESC_A.JIG_COUNT (p : Nat) : Fld := ⟨arrBase p + 0x8, 41, 7, 0, .rw, 0, false⟩
/-! ARR_DESC_B: 03_matrix_array.md -/
def ARR_DESC_B.OFF (p : Nat) : Fld := ⟨arrBase p + 0x10, 6, 18, 0, .rw, 0, false⟩
def ARR_DESC_B.DESC_COUNT (p : Nat) : Fld := ⟨arrBase p + 0x10, 32, 9, 0, .rw, 0, false⟩
def ARR_DESC_B.JIG_COUNT (p : Nat) : Fld := ⟨arrBase p + 0x10, 41, 7, 0, .rw, 0, false⟩
/-! ARR_QFLAGS: 03_matrix_array.md -/
def ARR_QFLAGS.NAN_IN (p : Nat) (q : Nat) : Fld := ⟨arrBase p + 0x18, 8 * q+0, 1, 0, .w1c, 0, false⟩
def ARR_QFLAGS.INF_IN (p : Nat) (q : Nat) : Fld := ⟨arrBase p + 0x18, 8 * q+1, 1, 0, .w1c, 0, false⟩
def ARR_QFLAGS.NAN_MADE (p : Nat) (q : Nat) : Fld := ⟨arrBase p + 0x18, 8 * q+2, 1, 0, .w1c, 0, false⟩
def ARR_QFLAGS.SAT (p : Nat) (q : Nat) : Fld := ⟨arrBase p + 0x18, 8 * q+3, 1, 0, .w1c, 0, false⟩
def ARR_QFLAGS.LONGSUM (p : Nat) (q : Nat) : Fld := ⟨arrBase p + 0x18, 8 * q+4, 1, 0, .w1c, 0, false⟩
def ARR_QFLAGS.OOB (p : Nat) (q : Nat) : Fld := ⟨arrBase p + 0x18, 8 * q+5, 1, 0, .w1c, 0, false⟩
/-! ARR_HWERR: 03_matrix_array.md -/
def ARR_HWERR.WREG_PAR (p : Nat) : Fld := ⟨arrBase p + 0x20, 0, 1, 0, .w1c, 0, false⟩
def ARR_HWERR.RESIDUE (p : Nat) : Fld := ⟨arrBase p + 0x20, 1, 1, 0, .w1c, 0, false⟩
def ARR_HWERR.SCARF_PAR (p : Nat) : Fld := ⟨arrBase p + 0x20, 2, 1, 0, .w1c, 0, false⟩
def ARR_HWERR.DESC_PAR (p : Nat) : Fld := ⟨arrBase p + 0x20, 3, 1, 0, .w1c, 0, false⟩
def ARR_HWERR.COUNT (p : Nat) : Fld := ⟨arrBase p + 0x20, 16, 16, 0, .ro, 0, true⟩
/-! ARR_SCARF: 03_matrix_array.md -/
def ARR_SCARF.ROLE (p : Nat) : Fld := ⟨arrBase p + 0x28, 0, 1, 0, .ro, 1, false⟩
def ARR_SCARF.HOPS (p : Nat) : Fld := ⟨arrBase p + 0x28, 1, 2, 0, .ro, 1, false⟩
def ARR_SCARF.VALID (p : Nat) : Fld := ⟨arrBase p + 0x28, 3, 1, 0, .ro, 1, false⟩
def ARR_SCARF.PARTNER (p : Nat) : Fld := ⟨arrBase p + 0x28, 16, 16, 0, .ro, 1, false⟩
/-! ARR_OPS: 03_matrix_array.md -/
def ARR_OPS.ENTRIES (p : Nat) : Fld := ⟨arrBase p + 0x30, 0, 32, 0, .ro, 0, true⟩
def ARR_OPS.PASSES (p : Nat) : Fld := ⟨arrBase p + 0x30, 32, 32, 0, .ro, 0, true⟩
/-! ARR_MACS: 03_matrix_array.md -/
def ARR_MACS.MACS (p : Nat) : Fld := ⟨arrBase p + 0x38, 0, 64, 0, .ro, 0, true⟩
/-! ARR_BUSY: 03_matrix_array.md -/
def ARR_BUSY.BUSY_CC (p : Nat) : Fld := ⟨arrBase p + 0x40, 0, 64, 0, .ro, 0, true⟩
/-! ARR_LAST: 03_matrix_array.md -/
def ARR_LAST.DESC (p : Nat) : Fld := ⟨arrBase p + 0x48, 0, 8, 0, .ro, 0, false⟩
def ARR_LAST.QUAD (p : Nat) : Fld := ⟨arrBase p + 0x48, 8, 2, 0, .ro, 0, false⟩
def ARR_LAST.AT_TICK (p : Nat) : Fld := ⟨arrBase p + 0x48, 16, 48, 0, .ro, 0, false⟩
/-! ACC_STATUS: 04_accumulation_and_order.md -/
def ACC_STATUS.HALF0_FMT (p : Nat) : Fld := ⟨accBase p + 0x0, 0, 2, 0, .ro, 0, false⟩
def ACC_STATUS.HALF1_FMT (p : Nat) : Fld := ⟨accBase p + 0x0, 2, 2, 0, .ro, 0, false⟩
def ACC_STATUS.DEBUG (p : Nat) : Fld := ⟨accBase p + 0x0, 4, 1, 0, .ro, 0, false⟩
/-! ACC_TILE: 04_accumulation_and_order.md -/
def ACC_TILE.DESC (p : Nat) (i : Nat) : Fld := ⟨accBase p + 0x8 + i * 8, 0, 8, 0, .ro, 0, false⟩
def ACC_TILE.ITEM (p : Nat) (i : Nat) : Fld := ⟨accBase p + 0x8 + i * 8, 8, 16, 0, .ro, 0, false⟩
def ACC_TILE.M_BLOCK (p : Nat) (i : Nat) : Fld := ⟨accBase p + 0x8 + i * 8, 24, 20, 0, .ro, 0, false⟩
def ACC_TILE.N_TILE (p : Nat) (i : Nat) : Fld := ⟨accBase p + 0x8 + i * 8, 44, 16, 0, .ro, 0, false⟩
def ACC_TILE.SAT (p : Nat) (i : Nat) : Fld := ⟨accBase p + 0x8 + i * 8, 60, 1, 0, .ro, 0, false⟩
def ACC_TILE.NONFINITE (p : Nat) (i : Nat) : Fld := ⟨accBase p + 0x8 + i * 8, 61, 1, 0, .ro, 0, false⟩
def ACC_TILE.VALID (p : Nat) (i : Nat) : Fld := ⟨accBase p + 0x8 + i * 8, 63, 1, 0, .w1c, 0, false⟩
/-! ACC_COUNTS: 04_accumulation_and_order.md -/
def ACC_COUNTS.SAT_TOTALS (p : Nat) : Fld := ⟨accBase p + 0x28, 0, 32, 0, .ro, 0, true⟩
def ACC_COUNTS.NONFINITE_TOTALS (p : Nat) : Fld := ⟨accBase p + 0x28, 32, 32, 0, .ro, 0, true⟩
/-! ACC_LONGSUM: 04_accumulation_and_order.md -/
def ACC_LONGSUM.TO_FP64 (p : Nat) : Fld := ⟨accBase p + 0x30, 0, 32, 0, .ro, 0, true⟩
def ACC_LONGSUM.TO_DD128 (p : Nat) : Fld := ⟨accBase p + 0x30, 32, 32, 0, .ro, 0, true⟩
/-! ACC_HWERR: 04_accumulation_and_order.md -/
def ACC_HWERR.ECC_CE (p : Nat) : Fld := ⟨accBase p + 0x38, 0, 1, 0, .w1c, 0, false⟩
def ACC_HWERR.ECC_UE (p : Nat) : Fld := ⟨accBase p + 0x38, 1, 1, 0, .w1c, 0, false⟩
def ACC_HWERR.CE_COUNT (p : Nat) : Fld := ⟨accBase p + 0x38, 16, 16, 0, .ro, 0, true⟩
def ACC_HWERR.UE_COUNT (p : Nat) : Fld := ⟨accBase p + 0x38, 32, 16, 0, .ro, 0, true⟩
/-! ACC_DEBUG: 04_accumulation_and_order.md -/
def ACC_DEBUG.ENABLE (p : Nat) : Fld := ⟨accBase p + 0x40, 0, 1, 0, .rwl, 0, false⟩
def ACC_DEBUG.STOP_ON_SAT (p : Nat) : Fld := ⟨accBase p + 0x40, 1, 1, 0, .rwl, 0, false⟩
/-! ACC_DBG_INDEX: 04_accumulation_and_order.md -/
def ACC_DBG_INDEX.WORD (p : Nat) : Fld := ⟨accBase p + 0x48, 0, 13, 0, .rw, 0, false⟩
def ACC_DBG_INDEX.HALF (p : Nat) : Fld := ⟨accBase p + 0x48, 13, 1, 0, .rw, 0, false⟩
/-! ACC_DBG_DATA: 04_accumulation_and_order.md -/
def ACC_DBG_DATA.DATA (p : Nat) : Fld := ⟨accBase p + 0x50, 0, 64, 0, .ro, 0, false⟩
/-! FIN_STATUS: 05_finishing_engine.md -/
def FIN_STATUS.BUSY (p : Nat) : Fld := ⟨finBase p + 0x0, 0, 1, 0, .ro, 0, false⟩
def FIN_STATUS.RESERVED (p : Nat) : Fld := ⟨finBase p + 0x0, 1, 1, 0, .ro, 0, false⟩
def FIN_STATUS.PASS_OVER (p : Nat) : Fld := ⟨finBase p + 0x0, 2, 1, 0, .w1c, 0, false⟩
/-! FIN_DESC_A: 05_finishing_engine.md -/
def FIN_DESC_A.OFF (p : Nat) : Fld := ⟨finBase p + 0x8, 6, 18, 0, .rw, 0, false⟩
def FIN_DESC_A.CHAIN_COUNT (p : Nat) : Fld := ⟨finBase p + 0x8, 32, 9, 0, .rw, 0, false⟩
def FIN_DESC_A.STREAM_COUNT (p : Nat) : Fld := ⟨finBase p + 0x8, 41, 11, 0, .rw, 0, false⟩
/-! FIN_DESC_B: 05_finishing_engine.md -/
def FIN_DESC_B.OFF (p : Nat) : Fld := ⟨finBase p + 0x10, 6, 18, 0, .rw, 0, false⟩
def FIN_DESC_B.CHAIN_COUNT (p : Nat) : Fld := ⟨finBase p + 0x10, 32, 9, 0, .rw, 0, false⟩
def FIN_DESC_B.STREAM_COUNT (p : Nat) : Fld := ⟨finBase p + 0x10, 41, 11, 0, .rw, 0, false⟩
/-! FIN_FLAGS: 05_finishing_engine.md -/
def FIN_FLAGS.NAN_IN (p : Nat) : Fld := ⟨finBase p + 0x18, 0, 1, 0, .w1c, 0, false⟩
def FIN_FLAGS.NAN_MADE (p : Nat) : Fld := ⟨finBase p + 0x18, 1, 1, 0, .w1c, 0, false⟩
def FIN_FLAGS.OVF_ARITH (p : Nat) : Fld := ⟨finBase p + 0x18, 2, 1, 0, .w1c, 0, false⟩
def FIN_FLAGS.DIV_ZERO (p : Nat) : Fld := ⟨finBase p + 0x18, 3, 1, 0, .w1c, 0, false⟩
def FIN_FLAGS.ISAT (p : Nat) : Fld := ⟨finBase p + 0x18, 4, 1, 0, .w1c, 0, false⟩
def FIN_FLAGS.EMPTY (p : Nat) : Fld := ⟨finBase p + 0x18, 5, 1, 0, .w1c, 0, false⟩
def FIN_FLAGS.OOB (p : Nat) : Fld := ⟨finBase p + 0x18, 6, 1, 0, .w1c, 0, false⟩
def FIN_FLAGS.TBL_INVALID (p : Nat) : Fld := ⟨finBase p + 0x18, 7, 1, 0, .w1c, 0, false⟩
def FIN_FLAGS.TBL_REJECT (p : Nat) : Fld := ⟨finBase p + 0x18, 8, 1, 0, .w1c, 0, false⟩
/-! FIN_EMPTY_REDUCE: 05_finishing_engine.md -/
def FIN_EMPTY_REDUCE.COUNT (p : Nat) : Fld := ⟨finBase p + 0x20, 0, 32, 0, .ro, 0, true⟩
/-! FIN_HWERR: 05_finishing_engine.md -/
def FIN_HWERR.TBL_PAR (p : Nat) : Fld := ⟨finBase p + 0x28, 0, 1, 0, .w1c, 0, false⟩
def FIN_HWERR.HANDOFF_PAR (p : Nat) : Fld := ⟨finBase p + 0x28, 1, 1, 0, .w1c, 0, false⟩
def FIN_HWERR.RESIDUE (p : Nat) : Fld := ⟨finBase p + 0x28, 2, 1, 0, .w1c, 0, false⟩
def FIN_HWERR.DESC_PAR (p : Nat) : Fld := ⟨finBase p + 0x28, 3, 1, 0, .w1c, 0, false⟩
def FIN_HWERR.COUNT (p : Nat) : Fld := ⟨finBase p + 0x28, 16, 16, 0, .ro, 0, true⟩
/-! FIN_TBL_A: 05_finishing_engine.md -/
def FIN_TBL_A.OFF (p : Nat) : Fld := ⟨finBase p + 0x30, 6, 18, 0, .rwl, 0, false⟩
/-! FIN_TBL_B: 05_finishing_engine.md -/
def FIN_TBL_B.OFF (p : Nat) : Fld := ⟨finBase p + 0x38, 6, 18, 0, .rwl, 0, false⟩
/-! FIN_OPS: 05_finishing_engine.md -/
def FIN_OPS.CHAINS (p : Nat) : Fld := ⟨finBase p + 0x40, 0, 32, 0, .ro, 0, true⟩
def FIN_OPS.TABLE_LOADS (p : Nat) : Fld := ⟨finBase p + 0x40, 32, 32, 0, .ro, 0, true⟩
/-! FIN_GROUPS: 05_finishing_engine.md -/
def FIN_GROUPS.GROUPS (p : Nat) : Fld := ⟨finBase p + 0x48, 0, 64, 0, .ro, 0, true⟩
/-! FIN_SCATTER: 05_finishing_engine.md -/
def FIN_SCATTER.ORDERED_GROUPS (p : Nat) : Fld := ⟨finBase p + 0x50, 0, 32, 0, .ro, 0, true⟩
def FIN_SCATTER.SERIALISED (p : Nat) : Fld := ⟨finBase p + 0x50, 32, 32, 0, .ro, 0, true⟩
/-! FIN_LAST: 05_finishing_engine.md -/
def FIN_LAST.DESC (p : Nat) : Fld := ⟨finBase p + 0x58, 0, 8, 0, .ro, 0, false⟩
def FIN_LAST.AT_TICK (p : Nat) : Fld := ⟨finBase p + 0x58, 16, 48, 0, .ro, 0, false⟩
/-! GAU_STATUS: 06_curvature_and_roots.md -/
def GAU_STATUS.TAPPING (p : Nat) : Fld := ⟨gauBase p + 0x0, 0, 1, 0, .ro, 0, false⟩
def GAU_STATUS.GATED (p : Nat) : Fld := ⟨gauBase p + 0x0, 1, 1, 0, .ro, 0, false⟩
/-! GAU_DESC_A: 06_curvature_and_roots.md -/
def GAU_DESC_A.OFF (p : Nat) : Fld := ⟨gauBase p + 0x8, 5, 19, 0, .rw, 0, false⟩
def GAU_DESC_A.COUNT (p : Nat) : Fld := ⟨gauBase p + 0x8, 32, 9, 0, .rw, 0, false⟩
/-! GAU_DESC_B: 06_curvature_and_roots.md -/
def GAU_DESC_B.OFF (p : Nat) : Fld := ⟨gauBase p + 0x10, 5, 19, 0, .rw, 0, false⟩
def GAU_DESC_B.COUNT (p : Nat) : Fld := ⟨gauBase p + 0x10, 32, 9, 0, .rw, 0, false⟩
/-! GAU_CAPTURES: 06_curvature_and_roots.md -/
def GAU_CAPTURES.CAPTURES (p : Nat) : Fld := ⟨gauBase p + 0x18, 0, 32, 0, .ro, 0, true⟩
def GAU_CAPTURES.ROWS (p : Nat) : Fld := ⟨gauBase p + 0x18, 32, 32, 0, .ro, 0, true⟩
/-! GAU_FLAGS: 06_curvature_and_roots.md -/
def GAU_FLAGS.NAN_TAP (p : Nat) : Fld := ⟨gauBase p + 0x20, 0, 1, 0, .w1c, 0, false⟩
def GAU_FLAGS.INF_TAP (p : Nat) : Fld := ⟨gauBase p + 0x20, 1, 1, 0, .w1c, 0, false⟩
def GAU_FLAGS.SUB_COUNT (p : Nat) : Fld := ⟨gauBase p + 0x20, 2, 1, 0, .w1c, 0, false⟩
/-! GAU_HWERR: 06_curvature_and_roots.md -/
def GAU_HWERR.DESC_PAR (p : Nat) : Fld := ⟨gauBase p + 0x28, 0, 1, 0, .w1c, 0, false⟩
def GAU_HWERR.TAP_PAR (p : Nat) : Fld := ⟨gauBase p + 0x28, 1, 1, 0, .w1c, 0, false⟩
def GAU_HWERR.COUNT (p : Nat) : Fld := ⟨gauBase p + 0x28, 16, 16, 0, .ro, 0, true⟩
/-! GAU_LAST: 06_curvature_and_roots.md -/
def GAU_LAST.DESC (p : Nat) : Fld := ⟨gauBase p + 0x30, 0, 8, 0, .ro, 0, false⟩
def GAU_LAST.AT_TICK (p : Nat) : Fld := ⟨gauBase p + 0x30, 16, 48, 0, .ro, 0, false⟩
/-! ROOT_STATUS: 06_curvature_and_roots.md -/
def ROOT_STATUS.ACTIVE : Fld := ⟨rootBase + 0x0, 0, 1, 0, .ro, 0, false⟩
def ROOT_STATUS.COMMITTING : Fld := ⟨rootBase + 0x0, 1, 1, 0, .ro, 0, false⟩
/-! ROOT_TBL_A: 06_curvature_and_roots.md -/
def ROOT_TBL_A.ADDR : Fld := ⟨rootBase + 0x8, 6, 42, 0, .rw, 0, false⟩
def ROOT_TBL_A.COUNT : Fld := ⟨rootBase + 0x8, 48, 13, 0, .rw, 0, false⟩
/-! ROOT_TBL_B: 06_curvature_and_roots.md -/
def ROOT_TBL_B.ADDR : Fld := ⟨rootBase + 0x10, 6, 42, 0, .rw, 0, false⟩
def ROOT_TBL_B.COUNT : Fld := ⟨rootBase + 0x10, 48, 13, 0, .rw, 0, false⟩
/-! ROOT_OUTCOMES: 06_curvature_and_roots.md -/
def ROOT_OUTCOMES.ACCEPTED : Fld := ⟨rootBase + 0x18, 0, 32, 0, .ro, 0, true⟩
def ROOT_OUTCOMES.STALE : Fld := ⟨rootBase + 0x18, 32, 32, 0, .ro, 0, true⟩
/-! ROOT_FAULTS: 06_curvature_and_roots.md -/
def ROOT_FAULTS.NONFINITE : Fld := ⟨rootBase + 0x20, 0, 32, 0, .ro, 0, true⟩
def ROOT_FAULTS.ABANDONED : Fld := ⟨rootBase + 0x20, 32, 32, 0, .ro, 0, true⟩
/-! ROOT_FOLDS: 06_curvature_and_roots.md -/
def ROOT_FOLDS.FOLDS : Fld := ⟨rootBase + 0x28, 0, 32, 0, .ro, 0, true⟩
def ROOT_FOLDS.SKIPPED : Fld := ⟨rootBase + 0x28, 32, 32, 0, .ro, 0, true⟩
/-! ROOT_FLAGS: 06_curvature_and_roots.md -/
def ROOT_FLAGS.STALE : Fld := ⟨rootBase + 0x30, 0, 1, 0, .w1c, 0, false⟩
def ROOT_FLAGS.NONFINITE : Fld := ⟨rootBase + 0x30, 1, 1, 0, .w1c, 0, false⟩
def ROOT_FLAGS.ABANDONED : Fld := ⟨rootBase + 0x30, 2, 1, 0, .w1c, 0, false⟩
def ROOT_FLAGS.FOLD_NF : Fld := ⟨rootBase + 0x30, 3, 1, 0, .w1c, 0, false⟩
/-! ROOT_LAST: 06_curvature_and_roots.md -/
def ROOT_LAST.DESC : Fld := ⟨rootBase + 0x38, 0, 12, 0, .ro, 0, false⟩
def ROOT_LAST.OUTCOME : Fld := ⟨rootBase + 0x38, 12, 3, 0, .ro, 0, false⟩
def ROOT_LAST.RESID : Fld := ⟨rootBase + 0x38, 16, 32, 0, .ro, 0, false⟩
def ROOT_LAST.STEP_LO : Fld := ⟨rootBase + 0x38, 48, 16, 0, .ro, 0, false⟩
/-! ROOT_REC_INDEX: 06_curvature_and_roots.md -/
def ROOT_REC_INDEX.DESC : Fld := ⟨rootBase + 0x40, 0, 12, 0, .rw, 0, false⟩
def ROOT_REC_INDEX.WORD : Fld := ⟨rootBase + 0x40, 12, 1, 0, .rw, 0, false⟩
/-! ROOT_REC_DATA: 06_curvature_and_roots.md -/
def ROOT_REC_DATA.DATA : Fld := ⟨rootBase + 0x48, 0, 64, 0, .rw, 0, false⟩
/-! ROOT_HWERR: 06_curvature_and_roots.md -/
def ROOT_HWERR.DESC_PAR : Fld := ⟨rootBase + 0x50, 0, 1, 0, .w1c, 0, false⟩
def ROOT_HWERR.REC_CE : Fld := ⟨rootBase + 0x50, 1, 1, 0, .w1c, 0, false⟩
def ROOT_HWERR.REC_UE : Fld := ⟨rootBase + 0x50, 2, 1, 0, .w1c, 0, false⟩
def ROOT_HWERR.COUNT : Fld := ⟨rootBase + 0x50, 16, 16, 0, .ro, 0, true⟩
/-! EXC_INFO: 07_row_controllers.md -/
def EXC_INFO.CAUSE (r x : Nat) : Fld := ⟨csrBase r x + 0x80, 0, 8, 0, .ro, 0, false⟩
def EXC_INFO.EPC (r x : Nat) : Fld := ⟨csrBase r x + 0x80, 32, 18, 0, .rw, 0, false⟩
/-! EXC_ADDR: 07_row_controllers.md -/
def EXC_ADDR.ADDR (r x : Nat) : Fld := ⟨csrBase r x + 0x88, 0, 64, 0, .ro, 0, false⟩
/-! VL: 07_row_controllers.md -/
def VL.VL (r x : Nat) : Fld := ⟨csrBase r x + 0x100, 0, 16, 0, .ro, 0, false⟩
/-! VTYPE: 07_row_controllers.md -/
def VTYPE.EW (r x : Nat) : Fld := ⟨csrBase r x + 0x108, 0, 2, 0, .ro, 0, false⟩
/-! LV_RESUME: 07_row_controllers.md -/
def LV_RESUME.INDEX (r x : Nat) : Fld := ⟨csrBase r x + 0x110, 0, 16, 0, .rw, 0, false⟩
/-! LV_FAULTLEN: 07_row_controllers.md -/
def LV_FAULTLEN.COUNT (r x : Nat) : Fld := ⟨csrBase r x + 0x118, 0, 16, 0, .ro, 0, false⟩
/-! LV_VLEN: 07_row_controllers.md -/
def LV_VLEN.VLEN (r x : Nat) : Fld := ⟨csrBase r x + 0x120, 0, 16, 2048, .ro, 0, false⟩
/-! CYCLE: 07_row_controllers.md -/
def CYCLE.COUNT (r x : Nat) : Fld := ⟨csrBase r x + 0x180, 0, 64, 0, .ro, 1, false⟩
/-! EXN_STATUS: 07_row_controllers.md -/
def EXN_STATUS.CTX (r : Nat) : Fld := ⟨exnBase r + 0x0, 0, 2, 0, .ro, 0, false⟩
def EXN_STATUS.SUSPENDED (r : Nat) : Fld := ⟨exnBase r + 0x0, 2, 1, 0, .ro, 0, false⟩
def EXN_STATUS.SVC_OVF (r : Nat) : Fld := ⟨exnBase r + 0x0, 3, 1, 0, .w1c, 0, false⟩
def EXN_STATUS.PENDING (r : Nat) : Fld := ⟨exnBase r + 0x0, 8, 8, 0, .ro, 0, false⟩
def EXN_STATUS.LAST_DESC (r : Nat) : Fld := ⟨exnBase r + 0x0, 16, 8, 0, .ro, 0, false⟩
/-! EXN_KTBL_A: 07_row_controllers.md -/
def EXN_KTBL_A.OFF (r : Nat) : Fld := ⟨exnBase r + 0x8, 3, 13, 0, .rw, 0, false⟩
def EXN_KTBL_A.COUNT (r : Nat) : Fld := ⟨exnBase r + 0x8, 32, 9, 0, .rw, 0, false⟩
/-! EXN_KTBL_B: 07_row_controllers.md -/
def EXN_KTBL_B.OFF (r : Nat) : Fld := ⟨exnBase r + 0x10, 3, 13, 0, .rw, 0, false⟩
def EXN_KTBL_B.COUNT (r : Nat) : Fld := ⟨exnBase r + 0x10, 32, 9, 0, .rw, 0, false⟩
/-! EXN_FAULT: 07_row_controllers.md -/
def EXN_FAULT.CAUSE (r : Nat) : Fld := ⟨exnBase r + 0x18, 0, 8, 0, .ro, 0, false⟩
def EXN_FAULT.DESC (r : Nat) : Fld := ⟨exnBase r + 0x18, 8, 8, 0, .ro, 0, false⟩
def EXN_FAULT.RESUME (r : Nat) : Fld := ⟨exnBase r + 0x18, 16, 16, 0, .ro, 0, false⟩
def EXN_FAULT.EPC (r : Nat) : Fld := ⟨exnBase r + 0x18, 32, 18, 0, .ro, 0, false⟩
def EXN_FAULT.VALID (r : Nat) : Fld := ⟨exnBase r + 0x18, 63, 1, 0, .w1c, 0, false⟩
/-! EXN_FAULT_ADDR: 07_row_controllers.md -/
def EXN_FAULT_ADDR.ADDR (r : Nat) : Fld := ⟨exnBase r + 0x20, 0, 64, 0, .ro, 0, false⟩
/-! EXN_ENTRIES: 07_row_controllers.md -/
def EXN_ENTRIES.CALLS (r : Nat) : Fld := ⟨exnBase r + 0x28, 0, 32, 0, .ro, 0, true⟩
def EXN_ENTRIES.SUSPENDS (r : Nat) : Fld := ⟨exnBase r + 0x28, 32, 32, 0, .ro, 0, true⟩
/-! EXN_ENTRY_MAX: 07_row_controllers.md -/
def EXN_ENTRY_MAX.MAX_CC (r : Nat) : Fld := ⟨exnBase r + 0x30, 0, 20, 0, .ro, 0, true⟩
def EXN_ENTRY_MAX.DESC (r : Nat) : Fld := ⟨exnBase r + 0x30, 32, 8, 0, .ro, 0, true⟩
/-! EXN_SCATTER: 07_row_controllers.md -/
def EXN_SCATTER.ORDERED (r : Nat) : Fld := ⟨exnBase r + 0x38, 0, 32, 0, .ro, 0, true⟩
def EXN_SCATTER.SERIALISED (r : Nat) : Fld := ⟨exnBase r + 0x38, 32, 32, 0, .ro, 0, true⟩
/-! EXN_HWERR: 07_row_controllers.md -/
def EXN_HWERR.IMEM_CE (r : Nat) : Fld := ⟨exnBase r + 0x40, 0, 1, 0, .w1c, 0, false⟩
def EXN_HWERR.IMEM_UE (r : Nat) : Fld := ⟨exnBase r + 0x40, 1, 1, 0, .w1c, 0, false⟩
def EXN_HWERR.SCR_CE (r : Nat) : Fld := ⟨exnBase r + 0x40, 2, 1, 0, .w1c, 0, false⟩
def EXN_HWERR.SCR_UE (r : Nat) : Fld := ⟨exnBase r + 0x40, 3, 1, 0, .w1c, 0, false⟩
def EXN_HWERR.RF_PAR (r : Nat) : Fld := ⟨exnBase r + 0x40, 4, 1, 0, .w1c, 0, false⟩
def EXN_HWERR.COUNT (r : Nat) : Fld := ⟨exnBase r + 0x40, 16, 16, 0, .ro, 0, true⟩
/-! EXN_CAPS: 07_row_controllers.md -/
def EXN_CAPS.VLEN (r : Nat) : Fld := ⟨exnBase r + 0x48, 0, 16, 2048, .ro, 0, false⟩
def EXN_CAPS.EXENO_S (r : Nat) : Fld := ⟨exnBase r + 0x48, 16, 1, 1, .ro, 0, false⟩
def EXN_CAPS.EXENO_L (r : Nat) : Fld := ⟨exnBase r + 0x48, 17, 1, 1, .ro, 0, false⟩
/-! EXN_GATE: 07_row_controllers.md -/
def EXN_GATE.GATE (r : Nat) (i : Nat) : Fld := ⟨exnBase r + 0x100 + i * 8, 0, 16, 0, .rwl, 0, false⟩
def EXN_GATE.CLASS (r : Nat) (i : Nat) : Fld := ⟨exnBase r + 0x100 + i * 8, 16, 3, 0, .rwl, 0, false⟩
def EXN_GATE.TENSOR_ID (r : Nat) (i : Nat) : Fld := ⟨exnBase r + 0x100 + i * 8, 32, 32, 0, .rwl, 0, false⟩
/-! ASM_PAT_A: 08_assembly_and_solver.md -/
def ASM_PAT_A.ADDR : Fld := ⟨solBase + 0x0, 6, 42, 0, .rw, 0, false⟩
def ASM_PAT_A.COUNT : Fld := ⟨solBase + 0x0, 48, 9, 0, .rw, 0, false⟩
/-! ASM_PAT_B: 08_assembly_and_solver.md -/
def ASM_PAT_B.ADDR : Fld := ⟨solBase + 0x8, 6, 42, 0, .rw, 0, false⟩
def ASM_PAT_B.COUNT : Fld := ⟨solBase + 0x8, 48, 9, 0, .rw, 0, false⟩
/-! ASM_DIGEST_INDEX: 08_assembly_and_solver.md -/
def ASM_DIGEST_INDEX.PATTERN : Fld := ⟨solBase + 0x10, 0, 8, 0, .rw, 0, false⟩
/-! ASM_DIGEST_LO: 08_assembly_and_solver.md -/
def ASM_DIGEST_LO.DIGEST : Fld := ⟨solBase + 0x18, 0, 64, 0, .ro, 0, false⟩
/-! ASM_DIGEST_HI: 08_assembly_and_solver.md -/
def ASM_DIGEST_HI.DIGEST : Fld := ⟨solBase + 0x20, 0, 64, 0, .ro, 0, false⟩
/-! SOL_STATUS: 08_assembly_and_solver.md -/
def SOL_STATUS.ACTIVE : Fld := ⟨solBase + 0x100, 0, 16, 0, .ro, 0, false⟩
def SOL_STATUS.GATED : Fld := ⟨solBase + 0x100, 16, 1, 0, .ro, 0, false⟩
/-! SOL_TBL_A: 08_assembly_and_solver.md -/
def SOL_TBL_A.ADDR : Fld := ⟨solBase + 0x108, 7, 41, 0, .rw, 0, false⟩
def SOL_TBL_A.COUNT : Fld := ⟨solBase + 0x108, 48, 9, 0, .rw, 0, false⟩
/-! SOL_TBL_B: 08_assembly_and_solver.md -/
def SOL_TBL_B.ADDR : Fld := ⟨solBase + 0x110, 7, 41, 0, .rw, 0, false⟩
def SOL_TBL_B.COUNT : Fld := ⟨solBase + 0x110, 48, 9, 0, .rw, 0, false⟩
/-! SOL_OUTCOMES_A: 08_assembly_and_solver.md -/
def SOL_OUTCOMES_A.CONVERGED : Fld := ⟨solBase + 0x118, 0, 32, 0, .ro, 0, true⟩
def SOL_OUTCOMES_A.CAPPED : Fld := ⟨solBase + 0x118, 32, 32, 0, .ro, 0, true⟩
/-! SOL_OUTCOMES_B: 08_assembly_and_solver.md -/
def SOL_OUTCOMES_B.BREAKDOWN : Fld := ⟨solBase + 0x120, 0, 32, 0, .ro, 0, true⟩
def SOL_OUTCOMES_B.NONFINITE : Fld := ⟨solBase + 0x120, 32, 32, 0, .ro, 0, true⟩
/-! SOL_WARM: 08_assembly_and_solver.md -/
def SOL_WARM.REJECTED : Fld := ⟨solBase + 0x128, 0, 32, 0, .ro, 0, true⟩
def SOL_WARM.REJ_NF : Fld := ⟨solBase + 0x128, 32, 32, 0, .ro, 0, true⟩
/-! SOL_PIVOT: 08_assembly_and_solver.md -/
def SOL_PIVOT.PIVOT_REPAIRED : Fld := ⟨solBase + 0x130, 0, 32, 0, .ro, 0, true⟩
def SOL_PIVOT.ZERO_BLOCK : Fld := ⟨solBase + 0x130, 32, 32, 0, .ro, 0, true⟩
/-! SOL_FLAGS: 08_assembly_and_solver.md -/
def SOL_FLAGS.CAPPED : Fld := ⟨solBase + 0x138, 0, 1, 0, .w1c, 0, false⟩
def SOL_FLAGS.BREAKDOWN : Fld := ⟨solBase + 0x138, 1, 1, 0, .w1c, 0, false⟩
def SOL_FLAGS.NONFINITE : Fld := ⟨solBase + 0x138, 2, 1, 0, .w1c, 0, false⟩
def SOL_FLAGS.WARM_REJECTED : Fld := ⟨solBase + 0x138, 3, 1, 0, .w1c, 0, false⟩
def SOL_FLAGS.TRUE_FAIL : Fld := ⟨solBase + 0x138, 4, 1, 0, .w1c, 0, false⟩
def SOL_FLAGS.PIVOT_REPAIRED : Fld := ⟨solBase + 0x138, 5, 1, 0, .w1c, 0, false⟩
def SOL_FLAGS.ZERO_BLOCK : Fld := ⟨solBase + 0x138, 6, 1, 0, .w1c, 0, false⟩
/-! SOL_LAST: 08_assembly_and_solver.md -/
def SOL_LAST.CTX : Fld := ⟨solBase + 0x140, 0, 4, 0, .ro, 0, false⟩
def SOL_LAST.OUTCOME : Fld := ⟨solBase + 0x140, 4, 3, 0, .ro, 0, false⟩
def SOL_LAST.ADJ : Fld := ⟨solBase + 0x140, 7, 1, 0, .ro, 0, false⟩
def SOL_LAST.ITERS : Fld := ⟨solBase + 0x140, 8, 16, 0, .ro, 0, false⟩
def SOL_LAST.STEP_LO : Fld := ⟨solBase + 0x140, 48, 16, 0, .ro, 0, false⟩
/-! SOL_ITERS: 08_assembly_and_solver.md -/
def SOL_ITERS.RUN : Fld := ⟨solBase + 0x148, 0, 32, 0, .ro, 0, true⟩
def SOL_ITERS.GATED : Fld := ⟨solBase + 0x148, 32, 32, 0, .ro, 0, true⟩
/-! SOL_HWERR: 08_assembly_and_solver.md -/
def SOL_HWERR.DESC_PAR : Fld := ⟨solBase + 0x150, 0, 1, 0, .w1c, 0, false⟩
def SOL_HWERR.SCALAR_RES : Fld := ⟨solBase + 0x150, 1, 1, 0, .w1c, 0, false⟩
def SOL_HWERR.COUNT : Fld := ⟨solBase + 0x150, 16, 16, 0, .ro, 0, true⟩
/-! UPD_STATUS: 09_update_unit.md -/
def UPD_STATUS.BUSY (u : Nat) : Fld := ⟨updBase u + 0x0, 0, 1, 0, .ro, 0, false⟩
def UPD_STATUS.OP (u : Nat) : Fld := ⟨updBase u + 0x0, 1, 2, 0, .ro, 0, false⟩
def UPD_STATUS.GEN (u : Nat) : Fld := ⟨updBase u + 0x0, 3, 1, 0, .ro, 0, false⟩
def UPD_STATUS.TEE (u : Nat) : Fld := ⟨updBase u + 0x0, 4, 1, 0, .ro, 0, false⟩
/-! UPD_FLAGS: 09_update_unit.md -/
def UPD_FLAGS.GRAD_NF (u : Nat) : Fld := ⟨updBase u + 0x8, 0, 1, 0, .w1c, 0, false⟩
def UPD_FLAGS.GNORM_NF (u : Nat) : Fld := ⟨updBase u + 0x8, 1, 1, 0, .w1c, 0, false⟩
def UPD_FLAGS.SKIPPED (u : Nat) : Fld := ⟨updBase u + 0x8, 2, 1, 0, .w1c, 0, false⟩
def UPD_FLAGS.CLIPPED (u : Nat) : Fld := ⟨updBase u + 0x8, 3, 1, 0, .w1c, 0, false⟩
def UPD_FLAGS.WC_MISMATCH (u : Nat) : Fld := ⟨updBase u + 0x8, 4, 1, 0, .w1c, 0, false⟩
def UPD_FLAGS.STATE_NF (u : Nat) : Fld := ⟨updBase u + 0x8, 5, 1, 0, .w1c, 0, false⟩
/-! UPD_PARAMS: 09_update_unit.md -/
def UPD_PARAMS.PARAMS (u : Nat) : Fld := ⟨updBase u + 0x10, 0, 64, 0, .ro, 0, true⟩
/-! UPD_BYTES: 09_update_unit.md -/
def UPD_BYTES.LPDDR (u : Nat) : Fld := ⟨updBase u + 0x18, 0, 64, 0, .ro, 0, true⟩
/-! UPD_VERIFY: 09_update_unit.md -/
def UPD_VERIFY.DESC (u : Nat) : Fld := ⟨updBase u + 0x20, 0, 12, 0, .ro, 0, false⟩
def UPD_VERIFY.INDEX (u : Nat) : Fld := ⟨updBase u + 0x20, 12, 32, 0, .ro, 0, false⟩
def UPD_VERIFY.VALID (u : Nat) : Fld := ⟨updBase u + 0x20, 63, 1, 0, .w1c, 0, false⟩
/-! UPD_HWERR: 09_update_unit.md -/
def UPD_HWERR.DESC_PAR (u : Nat) : Fld := ⟨updBase u + 0x28, 0, 1, 0, .w1c, 0, false⟩
def UPD_HWERR.RESIDUE (u : Nat) : Fld := ⟨updBase u + 0x28, 1, 1, 0, .w1c, 0, false⟩
def UPD_HWERR.STATE_UE (u : Nat) : Fld := ⟨updBase u + 0x28, 2, 1, 0, .w1c, 0, false⟩
def UPD_HWERR.COUNT (u : Nat) : Fld := ⟨updBase u + 0x28, 16, 16, 0, .ro, 0, true⟩
/-! UPD_LAST: 09_update_unit.md -/
def UPD_LAST.DESC (u : Nat) : Fld := ⟨updBase u + 0x30, 0, 12, 0, .ro, 0, false⟩
def UPD_LAST.OP (u : Nat) : Fld := ⟨updBase u + 0x30, 12, 2, 0, .ro, 0, false⟩
def UPD_LAST.AT_TICK (u : Nat) : Fld := ⟨updBase u + 0x30, 16, 48, 0, .ro, 0, false⟩
/-! UPD_TBL_A: 09_update_unit.md -/
def UPD_TBL_A.ADDR : Fld := ⟨updCommon + 0x0, 7, 41, 0, .rw, 0, false⟩
def UPD_TBL_A.COUNT : Fld := ⟨updCommon + 0x0, 48, 13, 0, .rw, 0, false⟩
/-! UPD_TBL_B: 09_update_unit.md -/
def UPD_TBL_B.ADDR : Fld := ⟨updCommon + 0x8, 7, 41, 0, .rw, 0, false⟩
def UPD_TBL_B.COUNT : Fld := ⟨updCommon + 0x8, 48, 13, 0, .rw, 0, false⟩
/-! UPD_SCHED_A: 09_update_unit.md -/
def UPD_SCHED_A.ADDR : Fld := ⟨updCommon + 0x10, 6, 42, 0, .rw, 0, false⟩
/-! UPD_SCHED_B: 09_update_unit.md -/
def UPD_SCHED_B.ADDR : Fld := ⟨updCommon + 0x18, 6, 42, 0, .rw, 0, false⟩
/-! UPD_NORM_BASE: 09_update_unit.md -/
def UPD_NORM_BASE.ADDR : Fld := ⟨updCommon + 0x20, 6, 42, 0, .rwl, 0, false⟩
/-! UPD_CHK_BASE: 09_update_unit.md -/
def UPD_CHK_BASE.ADDR : Fld := ⟨updCommon + 0x28, 6, 42, 0, .rwl, 0, false⟩
/-! UPD_POLICY: 09_update_unit.md -/
def UPD_POLICY.NF_SKIP : Fld := ⟨updCommon + 0x30, 0, 1, 0, .rwl, 0, false⟩
/-! UPD_SCHED_VAL0: 09_update_unit.md -/
def UPD_SCHED_VAL0.LR : Fld := ⟨updCommon + 0x38, 0, 32, 0, .ro, 0, false⟩
def UPD_SCHED_VAL0.WD : Fld := ⟨updCommon + 0x38, 32, 32, 0, .ro, 0, false⟩
/-! UPD_SCHED_VAL1: 09_update_unit.md -/
def UPD_SCHED_VAL1.EMA_DECAY : Fld := ⟨updCommon + 0x40, 0, 32, 0, .ro, 0, false⟩
def UPD_SCHED_VAL1.CLIP : Fld := ⟨updCommon + 0x40, 32, 32, 0, .ro, 0, false⟩
/-! UPD_GNORM: 09_update_unit.md -/
def UPD_GNORM.SSQ : Fld := ⟨updCommon + 0x48, 0, 64, 0, .ro, 0, false⟩
/-! UPD_COUNTS: 09_update_unit.md -/
def UPD_COUNTS.SKIPS : Fld := ⟨updCommon + 0x50, 0, 32, 0, .ro, 0, true⟩
def UPD_COUNTS.CLIPS : Fld := ⟨updCommon + 0x50, 32, 32, 0, .ro, 0, true⟩
/-! UPD_EXPORT: 09_update_unit.md -/
def UPD_EXPORT.ARM : Fld := ⟨updCommon + 0x58, 0, 1, 0, .w1s, 0, false⟩
def UPD_EXPORT.MISSED : Fld := ⟨updCommon + 0x58, 1, 1, 0, .w1c, 0, false⟩
def UPD_EXPORT.VALID : Fld := ⟨updCommon + 0x58, 2, 1, 0, .ro, 0, false⟩
/-! UPD_EXPORT_STEP: 09_update_unit.md -/
def UPD_EXPORT_STEP.AT_STEP : Fld := ⟨updCommon + 0x60, 0, 64, 0, .rw, 0, false⟩
/-! UPD_EXPORT_DONE: 09_update_unit.md -/
def UPD_EXPORT_DONE.STEP : Fld := ⟨updCommon + 0x68, 0, 64, 0, .ro, 0, false⟩
/-! UPD_EXPORT_CHK: 09_update_unit.md -/
def UPD_EXPORT_CHK.ADDR : Fld := ⟨updCommon + 0x70, 6, 42, 0, .rwl, 0, false⟩
/-! UPD_CHK_STATUS: 09_update_unit.md -/
def UPD_CHK_STATUS.COMPARED : Fld := ⟨updCommon + 0x78, 0, 32, 0, .ro, 0, false⟩
def UPD_CHK_STATUS.MISMATCHED : Fld := ⟨updCommon + 0x78, 32, 16, 0, .ro, 0, false⟩
def UPD_CHK_STATUS.UNMATCHED : Fld := ⟨updCommon + 0x78, 48, 16, 0, .ro, 0, false⟩
/-! UPD_CHK_FIRST: 09_update_unit.md -/
def UPD_CHK_FIRST.KEY : Fld := ⟨updCommon + 0x80, 0, 32, 0, .ro, 0, false⟩
def UPD_CHK_FIRST.RGROUP : Fld := ⟨updCommon + 0x80, 32, 16, 0, .ro, 0, false⟩
def UPD_CHK_FIRST.VALID : Fld := ⟨updCommon + 0x80, 63, 1, 0, .w1c, 0, false⟩
/-! UPD_CTRL: 09_update_unit.md -/
def UPD_CTRL.REGEN : Fld := ⟨updCommon + 0x88, 0, 1, 0, .wo, 0, false⟩
def UPD_CTRL.REGEN_DONE : Fld := ⟨updCommon + 0x88, 1, 1, 0, .w1c, 0, false⟩
/-! MEM_STATUS: 10_veneer_and_lpddr.md -/
def MEM_STATUS.STATE (c : Nat) : Fld := ⟨memBase c + 0x0, 0, 2, 0, .ro, 0, false⟩
def MEM_STATUS.PKG0_OK (c : Nat) : Fld := ⟨memBase c + 0x0, 2, 1, 0, .ro, 0, false⟩
def MEM_STATUS.PKG1_OK (c : Nat) : Fld := ⟨memBase c + 0x0, 3, 1, 0, .ro, 0, false⟩
def MEM_STATUS.RATE (c : Nat) : Fld := ⟨memBase c + 0x0, 16, 16, 0, .ro, 0, false⟩
/-! MEM_CFG: 10_veneer_and_lpddr.md -/
def MEM_CFG.SCRUB_EN (c : Nat) : Fld := ⟨memBase c + 0x8, 0, 1, 1, .rwl, 0, false⟩
def MEM_CFG.SCRUB_LOG2 (c : Nat) : Fld := ⟨memBase c + 0x8, 1, 4, 6, .rwl, 0, false⟩
/-! MEM_ECC: 10_veneer_and_lpddr.md -/
def MEM_ECC.CE (c : Nat) : Fld := ⟨memBase c + 0x10, 0, 32, 0, .ro, 0, true⟩
def MEM_ECC.UE (c : Nat) : Fld := ⟨memBase c + 0x10, 32, 32, 0, .ro, 0, true⟩
/-! MEM_ERR: 10_veneer_and_lpddr.md -/
def MEM_ERR.ADDR (c : Nat) : Fld := ⟨memBase c + 0x18, 0, 48, 0, .ro, 0, false⟩
def MEM_ERR.TYPE (c : Nat) : Fld := ⟨memBase c + 0x18, 48, 2, 0, .ro, 0, false⟩
def MEM_ERR.SOURCE (c : Nat) : Fld := ⟨memBase c + 0x18, 50, 3, 0, .ro, 0, false⟩
def MEM_ERR.VALID (c : Nat) : Fld := ⟨memBase c + 0x18, 63, 1, 0, .w1c, 0, false⟩
/-! MEM_SCRUB_STAT: 10_veneer_and_lpddr.md -/
def MEM_SCRUB_STAT.PASSES (c : Nat) : Fld := ⟨memBase c + 0x20, 0, 16, 0, .ro, 0, true⟩
def MEM_SCRUB_STAT.SCRUB_CE (c : Nat) : Fld := ⟨memBase c + 0x20, 16, 32, 0, .ro, 0, true⟩
def MEM_SCRUB_STAT.SCRUB_UE (c : Nat) : Fld := ⟨memBase c + 0x20, 48, 16, 0, .ro, 0, true⟩
/-! MEM_TEMP: 10_veneer_and_lpddr.md -/
def MEM_TEMP.REFRESH_MULT (c : Nat) : Fld := ⟨memBase c + 0x28, 0, 3, 0, .ro, 0, false⟩
def MEM_TEMP.OVER (c : Nat) : Fld := ⟨memBase c + 0x28, 3, 1, 0, .w1c, 0, false⟩
/-! MEM_REQ: 10_veneer_and_lpddr.md -/
def MEM_REQ.MAX_INFLIGHT (c : Nat) : Fld := ⟨memBase c + 0x30, 0, 10, 0, .ro, 0, true⟩
def MEM_REQ.HOST_HELD (c : Nat) : Fld := ⟨memBase c + 0x30, 32, 32, 0, .ro, 0, true⟩
/-! MEM_BYTES: 10_veneer_and_lpddr.md -/
def MEM_BYTES.BYTES (c : Nat) : Fld := ⟨memBase c + 0x38, 0, 64, 0, .ro, 0, true⟩
/-! VNR_STATUS: 10_veneer_and_lpddr.md -/
def VNR_STATUS.INIT_DONE : Fld := ⟨vnrBase + 0x0, 0, 1, 0, .ro, 1, false⟩
def VNR_STATUS.RETAINED : Fld := ⟨vnrBase + 0x0, 1, 1, 0, .ro, 0, false⟩
/-! VNR_SCRUB: 10_veneer_and_lpddr.md -/
def VNR_SCRUB.ENABLE : Fld := ⟨vnrBase + 0x8, 0, 1, 1, .rwl, 0, false⟩
def VNR_SCRUB.INTERVAL_LOG2 : Fld := ⟨vnrBase + 0x8, 1, 4, 12, .rwl, 0, false⟩
/-! VNR_ECC: 10_veneer_and_lpddr.md -/
def VNR_ECC.CE : Fld := ⟨vnrBase + 0x10, 0, 32, 0, .ro, 0, true⟩
def VNR_ECC.UE : Fld := ⟨vnrBase + 0x10, 32, 32, 0, .ro, 0, true⟩
/-! VNR_ERR: 10_veneer_and_lpddr.md -/
def VNR_ERR.PCLUSTER : Fld := ⟨vnrBase + 0x18, 0, 16, 0, .ro, 0, false⟩
def VNR_ERR.OFFSET : Fld := ⟨vnrBase + 0x18, 16, 22, 0, .ro, 0, false⟩
def VNR_ERR.TYPE : Fld := ⟨vnrBase + 0x18, 38, 2, 0, .ro, 0, false⟩
def VNR_ERR.SOURCE : Fld := ⟨vnrBase + 0x18, 40, 4, 0, .ro, 0, false⟩
def VNR_ERR.VALID : Fld := ⟨vnrBase + 0x18, 63, 1, 0, .w1c, 0, false⟩
/-! VNR_SCRUB_STAT: 10_veneer_and_lpddr.md -/
def VNR_SCRUB_STAT.PASSES : Fld := ⟨vnrBase + 0x20, 0, 32, 0, .ro, 0, true⟩
def VNR_SCRUB_STAT.SCRUB_CE : Fld := ⟨vnrBase + 0x20, 32, 16, 0, .ro, 0, true⟩
def VNR_SCRUB_STAT.SCRUB_UE : Fld := ⟨vnrBase + 0x20, 48, 16, 0, .ro, 0, true⟩
/-! VNR_POISON: 10_veneer_and_lpddr.md -/
def VNR_POISON.HELD : Fld := ⟨vnrBase + 0x28, 0, 32, 0, .ro, 1, false⟩
/-! VNR_REPAIR: 10_veneer_and_lpddr.md -/
def VNR_REPAIR.ROWS_USED : Fld := ⟨vnrBase + 0x30, 0, 16, 0, .ro, 1, false⟩
def VNR_REPAIR.COLS_USED : Fld := ⟨vnrBase + 0x30, 16, 16, 0, .ro, 1, false⟩
def VNR_REPAIR.EXHAUSTED : Fld := ⟨vnrBase + 0x30, 32, 16, 0, .ro, 1, false⟩
/-! VNR_MOVE_A: 10_veneer_and_lpddr.md -/
def VNR_MOVE_A.ADDR : Fld := ⟨vnrBase + 0x38, 5, 43, 0, .rw, 0, false⟩
def VNR_MOVE_A.COUNT : Fld := ⟨vnrBase + 0x38, 48, 13, 0, .rw, 0, false⟩
/-! VNR_MOVE_B: 10_veneer_and_lpddr.md -/
def VNR_MOVE_B.ADDR : Fld := ⟨vnrBase + 0x40, 5, 43, 0, .rw, 0, false⟩
def VNR_MOVE_B.COUNT : Fld := ⟨vnrBase + 0x40, 48, 13, 0, .rw, 0, false⟩
/-! VNR_MOVES: 10_veneer_and_lpddr.md -/
def VNR_MOVES.MOVES : Fld := ⟨vnrBase + 0x48, 0, 32, 0, .ro, 0, true⟩
def VNR_MOVES.KIB : Fld := ⟨vnrBase + 0x48, 32, 32, 0, .ro, 0, true⟩
/-! LNK_STATUS: 11_fabric.md -/
def LNK_STATUS.STATE (p : Nat) : Fld := ⟨lnkBase p + 0x0, 0, 2, 0, .ro, 0, false⟩
def LNK_STATUS.RATE (p : Nat) : Fld := ⟨lnkBase p + 0x0, 2, 2, 0, .ro, 0, false⟩
def LNK_STATUS.REROUTED (p : Nat) : Fld := ⟨lnkBase p + 0x0, 4, 1, 0, .ro, 0, false⟩
def LNK_STATUS.REPLAYING (p : Nat) : Fld := ⟨lnkBase p + 0x0, 5, 1, 0, .ro, 0, false⟩
def LNK_STATUS.LANES_UP (p : Nat) : Fld := ⟨lnkBase p + 0x0, 16, 7, 0, .ro, 0, false⟩
/-! LNK_CTRL: 11_fabric.md -/
def LNK_CTRL.TRAIN (p : Nat) : Fld := ⟨lnkBase p + 0x8, 0, 1, 0, .wo, 0, false⟩
def LNK_CTRL.RESTORE (p : Nat) : Fld := ⟨lnkBase p + 0x8, 1, 1, 0, .wo, 0, false⟩
/-! LNK_SLICE: 11_fabric.md -/
def LNK_SLICE.SLICE (p : Nat) : Fld := ⟨lnkBase p + 0x10, 0, 12, 0, .rwl, 1, false⟩
def LNK_SLICE.FENCE (p : Nat) : Fld := ⟨lnkBase p + 0x10, 12, 1, 1, .rwl, 1, false⟩
/-! LNK_SHIM: 11_fabric.md -/
def LNK_SHIM.SHIM_QC (p : Nat) : Fld := ⟨lnkBase p + 0x18, 0, 16, 0, .ro, 0, false⟩
def LNK_SHIM.PARTNER (p : Nat) : Fld := ⟨lnkBase p + 0x18, 16, 12, 0, .ro, 0, false⟩
def LNK_SHIM.PARTNER_PORT (p : Nat) : Fld := ⟨lnkBase p + 0x18, 28, 3, 0, .ro, 0, false⟩
/-! LNK_LANEMAP: 11_fabric.md -/
def LNK_LANEMAP.SPARE0_FOR (p : Nat) : Fld := ⟨lnkBase p + 0x20, 0, 8, 255, .ro, 0, false⟩
def LNK_LANEMAP.SPARE1_FOR (p : Nat) : Fld := ⟨lnkBase p + 0x20, 8, 8, 255, .ro, 0, false⟩
def LNK_LANEMAP.FAILED (p : Nat) : Fld := ⟨lnkBase p + 0x20, 16, 8, 0, .ro, 0, false⟩
/-! LNK_ALT: 11_fabric.md -/
def LNK_ALT.PORT (p : Nat) : Fld := ⟨lnkBase p + 0x28, 0, 4, 15, .rwl, 0, false⟩
/-! LNK_FEC: 11_fabric.md -/
def LNK_FEC.CORR_CW (p : Nat) : Fld := ⟨lnkBase p + 0x30, 0, 32, 0, .ro, 0, true⟩
def LNK_FEC.UNCORR_CW (p : Nat) : Fld := ⟨lnkBase p + 0x30, 32, 32, 0, .ro, 0, true⟩
/-! LNK_REPLAY: 11_fabric.md -/
def LNK_REPLAY.EVENTS (p : Nat) : Fld := ⟨lnkBase p + 0x38, 0, 32, 0, .ro, 0, true⟩
def LNK_REPLAY.EXHAUSTED (p : Nat) : Fld := ⟨lnkBase p + 0x38, 32, 16, 0, .ro, 0, true⟩
def LNK_REPLAY.MAX_CC (p : Nat) : Fld := ⟨lnkBase p + 0x38, 48, 16, 0, .ro, 0, true⟩
/-! LNK_CRC: 11_fabric.md -/
def LNK_CRC.CRC_ERR (p : Nat) : Fld := ⟨lnkBase p + 0x40, 0, 32, 0, .ro, 0, true⟩
def LNK_CRC.DUP_DROPPED (p : Nat) : Fld := ⟨lnkBase p + 0x40, 32, 32, 0, .ro, 0, true⟩
/-! LNK_DROP: 11_fabric.md -/
def LNK_DROP.FOREIGN (p : Nat) : Fld := ⟨lnkBase p + 0x48, 0, 16, 0, .ro, 0, true⟩
def LNK_DROP.NOROUTE (p : Nat) : Fld := ⟨lnkBase p + 0x48, 16, 16, 0, .ro, 0, true⟩
def LNK_DROP.UNMATCHED (p : Nat) : Fld := ⟨lnkBase p + 0x48, 32, 16, 0, .ro, 0, true⟩
def LNK_DROP.STALE (p : Nat) : Fld := ⟨lnkBase p + 0x48, 48, 16, 0, .ro, 0, true⟩
/-! LNK_FLAGS: 11_fabric.md -/
def LNK_FLAGS.LINK_FAULT (p : Nat) : Fld := ⟨lnkBase p + 0x50, 0, 1, 0, .w1c, 0, false⟩
def LNK_FLAGS.LATE (p : Nat) : Fld := ⟨lnkBase p + 0x50, 1, 1, 0, .w1c, 0, false⟩
def LNK_FLAGS.EARLY (p : Nat) : Fld := ⟨lnkBase p + 0x50, 2, 1, 0, .w1c, 0, false⟩
def LNK_FLAGS.ADD_OVF (p : Nat) : Fld := ⟨lnkBase p + 0x50, 3, 1, 0, .w1c, 0, false⟩
def LNK_FLAGS.ADD_NAN (p : Nat) : Fld := ⟨lnkBase p + 0x50, 4, 1, 0, .w1c, 0, false⟩
def LNK_FLAGS.BER_WARN (p : Nat) : Fld := ⟨lnkBase p + 0x50, 5, 1, 0, .w1c, 0, false⟩
/-! LNK_BER: 11_fabric.md -/
def LNK_BER.THRESH (p : Nat) : Fld := ⟨lnkBase p + 0x58, 0, 32, 4096, .rw, 0, false⟩
/-! LNK_TX_BYTES: 11_fabric.md -/
def LNK_TX_BYTES.BYTES (p : Nat) : Fld := ⟨lnkBase p + 0x60, 0, 64, 0, .ro, 0, true⟩
/-! LNK_RX_BYTES: 11_fabric.md -/
def LNK_RX_BYTES.BYTES (p : Nat) : Fld := ⟨lnkBase p + 0x68, 0, 64, 0, .ro, 0, true⟩
/-! LNK_RTBL: 11_fabric.md -/
def LNK_RTBL.OUT (p : Nat) (i : Nat) (e : Nat) : Fld := ⟨lnkBase p + 0x1000 + i * 8, 8 * e, 4, 15, .rwl, 1, false⟩
def LNK_RTBL.ALT (p : Nat) (i : Nat) (e : Nat) : Fld := ⟨lnkBase p + 0x1000 + i * 8, 8 * e+4, 4, 15, .rwl, 1, false⟩
/-! FAB_ID: 11_fabric.md -/
def FAB_ID.DEV : Fld := ⟨fabBase + 0x0, 0, 12, 0, .ro, 1, false⟩
def FAB_ID.W_SIZE : Fld := ⟨fabBase + 0x0, 12, 7, 0, .ro, 1, false⟩
/-! FAB_SLICE: 11_fabric.md -/
def FAB_SLICE.ID : Fld := ⟨fabBase + 0x8, 0, 12, 0, .rwl, 1, false⟩
def FAB_SLICE.SIZE : Fld := ⟨fabBase + 0x8, 12, 13, 0, .rwl, 1, false⟩
def FAB_SLICE.ZRING : Fld := ⟨fabBase + 0x8, 25, 1, 0, .rwl, 1, false⟩
def FAB_SLICE.WRING : Fld := ⟨fabBase + 0x8, 26, 1, 0, .rwl, 1, false⟩
/-! FAB_CFG: 11_fabric.md -/
def FAB_CFG.RATE : Fld := ⟨fabBase + 0x10, 0, 2, 2, .rwl, 0, false⟩
/-! FAB_TREE: 11_fabric.md -/
def FAB_TREE.PARENT : Fld := ⟨fabBase + 0x18, 0, 4, 15, .rwl, 1, false⟩
def FAB_TREE.CHILDREN : Fld := ⟨fabBase + 0x18, 4, 8, 0, .rwl, 1, false⟩
/-! FAB_SQUP: 11_fabric.md -/
def FAB_SQUP.LEAD_CC : Fld := ⟨fabBase + 0x20, 0, 16, 4096, .rwl, 0, false⟩
def FAB_SQUP.LATE : Fld := ⟨fabBase + 0x20, 16, 1, 0, .w1c, 0, false⟩
def FAB_SQUP.ACC_DELAY : Fld := ⟨fabBase + 0x20, 32, 24, 0, .ro, 0, false⟩
/-! FAB_SQUP_CHK: 11_fabric.md -/
def FAB_SQUP_CHK.ENABLE : Fld := ⟨fabBase + 0x28, 0, 1, 0, .rw, 0, false⟩
def FAB_SQUP_CHK.WINDOW_CC : Fld := ⟨fabBase + 0x28, 8, 8, 4, .rw, 0, false⟩
def FAB_SQUP_CHK.WIRE_CC : Fld := ⟨fabBase + 0x28, 16, 16, 0, .rw, 0, false⟩
def FAB_SQUP_CHK.LAST_OFFSET : Fld := ⟨fabBase + 0x28, 32, 16, 0, .ro, 0, false⟩
def FAB_SQUP_CHK.SKEW_ERR : Fld := ⟨fabBase + 0x28, 48, 16, 0, .ro, 0, true⟩
/-! FAB_SYNT: 11_fabric.md -/
def FAB_SYNT.SRC : Fld := ⟨fabBase + 0x30, 0, 2, 0, .rwl, 0, false⟩
def FAB_SYNT.ALT_SRC : Fld := ⟨fabBase + 0x30, 2, 2, 0, .rwl, 0, false⟩
def FAB_SYNT.LOCKED : Fld := ⟨fabBase + 0x30, 4, 1, 0, .ro, 0, false⟩
def FAB_SYNT.HOLDOVER : Fld := ⟨fabBase + 0x30, 5, 1, 0, .ro, 0, false⟩
/-! FAB_XFER_A: 11_fabric.md -/
def FAB_XFER_A.ADDR : Fld := ⟨fabBase + 0x38, 5, 43, 0, .rw, 0, false⟩
def FAB_XFER_A.COUNT : Fld := ⟨fabBase + 0x38, 48, 13, 0, .rw, 0, false⟩
/-! FAB_XFER_B: 11_fabric.md -/
def FAB_XFER_B.ADDR : Fld := ⟨fabBase + 0x40, 5, 43, 0, .rw, 0, false⟩
def FAB_XFER_B.COUNT : Fld := ⟨fabBase + 0x40, 48, 13, 0, .rw, 0, false⟩
/-! FAB_RGRP: 11_fabric.md -/
def FAB_RGRP.ADDR : Fld := ⟨fabBase + 0x48, 4, 44, 0, .rwl, 0, false⟩
def FAB_RGRP.COUNT : Fld := ⟨fabBase + 0x48, 48, 12, 0, .rwl, 0, false⟩
/-! FAB_PERM: 11_fabric.md -/
def FAB_PERM.ARM : Fld := ⟨fabBase + 0x50, 0, 1, 0, .w1s, 0, false⟩
def FAB_PERM.REFUSED : Fld := ⟨fabBase + 0x50, 1, 1, 0, .w1c, 0, false⟩
def FAB_PERM.CONFIRMED : Fld := ⟨fabBase + 0x50, 2, 1, 0, .ro, 0, false⟩
def FAB_PERM.RUNNING : Fld := ⟨fabBase + 0x50, 3, 1, 0, .ro, 0, false⟩
def FAB_PERM.DONE : Fld := ⟨fabBase + 0x50, 4, 1, 0, .w1c, 0, false⟩
def FAB_PERM.FAILED : Fld := ⟨fabBase + 0x50, 5, 1, 0, .w1c, 0, false⟩
def FAB_PERM.CANCEL : Fld := ⟨fabBase + 0x50, 6, 1, 0, .wo, 0, false⟩
/-! FAB_PERM_TBL: 11_fabric.md -/
def FAB_PERM_TBL.ADDR : Fld := ⟨fabBase + 0x58, 5, 43, 0, .rw, 0, false⟩
def FAB_PERM_TBL.COUNT : Fld := ⟨fabBase + 0x58, 48, 16, 0, .rw, 0, false⟩
/-! FAB_PERM_IN: 11_fabric.md -/
def FAB_PERM_IN.IN_BYTES : Fld := ⟨fabBase + 0x60, 0, 48, 0, .rw, 0, false⟩
/-! FAB_PERM_LIMIT: 11_fabric.md -/
def FAB_PERM_LIMIT.LIMIT_MS : Fld := ⟨fabBase + 0x68, 0, 16, 2000, .rwl, 0, false⟩
def FAB_PERM_LIMIT.LAST_KCC : Fld := ⟨fabBase + 0x68, 32, 32, 0, .ro, 0, false⟩
/-! FAB_FLAGS: 11_fabric.md -/
def FAB_FLAGS.REROUTED : Fld := ⟨fabBase + 0x70, 0, 1, 0, .w1c, 0, true⟩
def FAB_FLAGS.FOREIGN : Fld := ⟨fabBase + 0x70, 1, 1, 0, .w1c, 0, false⟩
def FAB_FLAGS.NOROUTE : Fld := ⟨fabBase + 0x70, 2, 1, 0, .w1c, 0, false⟩
def FAB_FLAGS.UNMATCHED : Fld := ⟨fabBase + 0x70, 3, 1, 0, .w1c, 0, false⟩
def FAB_FLAGS.STEP_MISMATCH : Fld := ⟨fabBase + 0x70, 4, 1, 0, .w1c, 0, false⟩
/-! FAB_ENTROPY: 11_fabric.md -/
def FAB_ENTROPY.WORD : Fld := ⟨fabBase + 0x78, 0, 64, 0, .ro, 0, false⟩
/-! DET_MODE: 13_determinism.md -/
def DET_MODE.CLASS : Fld := ⟨detBase + 0x0, 0, 1, 0, .rwl, 0, false⟩
def DET_MODE.STRICT : Fld := ⟨detBase + 0x0, 1, 1, 0, .rwl, 0, false⟩
/-! DET_SEED_LO: 13_determinism.md -/
def DET_SEED_LO.SEED : Fld := ⟨detBase + 0x8, 0, 64, 0, .rwl, 0, false⟩
/-! DET_SEED_HI: 13_determinism.md -/
def DET_SEED_HI.SEED : Fld := ⟨detBase + 0x10, 0, 64, 0, .rwl, 0, false⟩
/-! DET_IMAGE0: 13_determinism.md -/
def DET_IMAGE0.DIGEST : Fld := ⟨detBase + 0x18, 0, 64, 0, .rwl, 0, false⟩
/-! DET_IMAGE1: 13_determinism.md -/
def DET_IMAGE1.DIGEST : Fld := ⟨detBase + 0x20, 0, 64, 0, .rwl, 0, false⟩
/-! DET_IMAGE2: 13_determinism.md -/
def DET_IMAGE2.DIGEST : Fld := ⟨detBase + 0x28, 0, 64, 0, .rwl, 0, false⟩
/-! DET_IMAGE3: 13_determinism.md -/
def DET_IMAGE3.DIGEST : Fld := ⟨detBase + 0x30, 0, 64, 0, .rwl, 0, false⟩
/-! DET_FW: 13_determinism.md -/
def DET_FW.VERSION : Fld := ⟨detBase + 0x38, 0, 64, 0, .ro, 1, false⟩
/-! DET_ND_USED: 13_determinism.md -/
def DET_ND_USED.SCATTER_U : Fld := ⟨detBase + 0x40, 0, 1, 0, .ro, 0, true⟩
def DET_ND_USED.VSXA_U : Fld := ⟨detBase + 0x40, 1, 1, 0, .ro, 0, true⟩
def DET_ND_USED.SRE : Fld := ⟨detBase + 0x40, 2, 1, 0, .ro, 0, true⟩
def DET_ND_USED.REROUTE : Fld := ⟨detBase + 0x40, 3, 1, 0, .ro, 0, true⟩
def DET_ND_USED.OPP_STRETCH : Fld := ⟨detBase + 0x40, 4, 1, 0, .ro, 0, true⟩
def DET_ND_USED.FIRST_STEP : Fld := ⟨detBase + 0x40, 16, 48, 0, .ro, 0, true⟩
/-! DET_MAP_CHG: 13_determinism.md -/
def DET_MAP_CHG.COUNT : Fld := ⟨detBase + 0x48, 0, 16, 0, .ro, 0, true⟩
def DET_MAP_CHG.LAST_STEP : Fld := ⟨detBase + 0x48, 16, 48, 0, .ro, 0, true⟩
/-! DET_MAP_DIGEST0: 13_determinism.md -/
def DET_MAP_DIGEST0.DIGEST : Fld := ⟨detBase + 0x50, 0, 64, 0, .ro, 0, true⟩
/-! DET_MAP_DIGEST1: 13_determinism.md -/
def DET_MAP_DIGEST1.DIGEST : Fld := ⟨detBase + 0x58, 0, 64, 0, .ro, 0, true⟩
/-! DET_MAP_DIGEST2: 13_determinism.md -/
def DET_MAP_DIGEST2.DIGEST : Fld := ⟨detBase + 0x60, 0, 64, 0, .ro, 0, true⟩
/-! DET_MAP_DIGEST3: 13_determinism.md -/
def DET_MAP_DIGEST3.DIGEST : Fld := ⟨detBase + 0x68, 0, 64, 0, .ro, 0, true⟩
/-! DET_XSTATE: 13_determinism.md -/
def DET_XSTATE.ADDR : Fld := ⟨detBase + 0x70, 4, 44, 0, .rwl, 0, false⟩
def DET_XSTATE.COUNT : Fld := ⟨detBase + 0x70, 48, 12, 0, .rwl, 0, false⟩
/-! DET_STATE_CTRL: 13_determinism.md -/
def DET_STATE_CTRL.MEASURE : Fld := ⟨detBase + 0x78, 0, 1, 0, .wo, 0, false⟩
def DET_STATE_CTRL.BUSY : Fld := ⟨detBase + 0x78, 1, 1, 0, .ro, 0, false⟩
def DET_STATE_CTRL.VALID : Fld := ⟨detBase + 0x78, 2, 1, 0, .ro, 0, false⟩
def DET_STATE_CTRL.ERROR : Fld := ⟨detBase + 0x78, 3, 1, 0, .w1c, 0, false⟩
def DET_STATE_CTRL.LAST_KCC : Fld := ⟨detBase + 0x78, 32, 32, 0, .ro, 0, false⟩
/-! DET_STATE_DIGEST0: 13_determinism.md -/
def DET_STATE_DIGEST0.DIGEST : Fld := ⟨detBase + 0x80, 0, 64, 0, .ro, 0, true⟩
/-! DET_STATE_DIGEST1: 13_determinism.md -/
def DET_STATE_DIGEST1.DIGEST : Fld := ⟨detBase + 0x88, 0, 64, 0, .ro, 0, true⟩
/-! DET_STATE_DIGEST2: 13_determinism.md -/
def DET_STATE_DIGEST2.DIGEST : Fld := ⟨detBase + 0x90, 0, 64, 0, .ro, 0, true⟩
/-! DET_STATE_DIGEST3: 13_determinism.md -/
def DET_STATE_DIGEST3.DIGEST : Fld := ⟨detBase + 0x98, 0, 64, 0, .ro, 0, true⟩
/-! DET_INPUT_DIGEST0: 13_determinism.md -/
def DET_INPUT_DIGEST0.DIGEST : Fld := ⟨detBase + 0xa0, 0, 64, 0, .ro, 0, true⟩
/-! DET_INPUT_DIGEST1: 13_determinism.md -/
def DET_INPUT_DIGEST1.DIGEST : Fld := ⟨detBase + 0xa8, 0, 64, 0, .ro, 0, true⟩
/-! DET_INPUT_DIGEST2: 13_determinism.md -/
def DET_INPUT_DIGEST2.DIGEST : Fld := ⟨detBase + 0xb0, 0, 64, 0, .ro, 0, true⟩
/-! DET_INPUT_DIGEST3: 13_determinism.md -/
def DET_INPUT_DIGEST3.DIGEST : Fld := ⟨detBase + 0xb8, 0, 64, 0, .ro, 0, true⟩
/-! DET_INPUT_LAST0: 13_determinism.md -/
def DET_INPUT_LAST0.DIGEST : Fld := ⟨detBase + 0xc0, 0, 64, 0, .ro, 0, true⟩
/-! DET_INPUT_LAST1: 13_determinism.md -/
def DET_INPUT_LAST1.DIGEST : Fld := ⟨detBase + 0xc8, 0, 64, 0, .ro, 0, true⟩
/-! DET_INPUT_LAST2: 13_determinism.md -/
def DET_INPUT_LAST2.DIGEST : Fld := ⟨detBase + 0xd0, 0, 64, 0, .ro, 0, true⟩
/-! DET_INPUT_LAST3: 13_determinism.md -/
def DET_INPUT_LAST3.DIGEST : Fld := ⟨detBase + 0xd8, 0, 64, 0, .ro, 0, true⟩
/-! DET_PROV_CTRL: 13_determinism.md -/
def DET_PROV_CTRL.SNAP : Fld := ⟨detBase + 0xe0, 0, 1, 0, .wo, 0, false⟩
def DET_PROV_CTRL.AUTO : Fld := ⟨detBase + 0xe0, 1, 1, 0, .rw, 0, false⟩
def DET_PROV_CTRL.EVERY_LOG2 : Fld := ⟨detBase + 0xe0, 2, 4, 0, .rw, 0, false⟩
def DET_PROV_CTRL.ON_EXPORT : Fld := ⟨detBase + 0xe0, 6, 1, 0, .rw, 0, false⟩
def DET_PROV_CTRL.SIGN : Fld := ⟨detBase + 0xe0, 7, 1, 0, .rw, 0, false⟩
/-! DET_PROV_BASE: 13_determinism.md -/
def DET_PROV_BASE.ADDR : Fld := ⟨detBase + 0xe8, 11, 37, 0, .rwl, 0, false⟩
/-! DET_PROV_STATUS: 13_determinism.md -/
def DET_PROV_STATUS.SEQ : Fld := ⟨detBase + 0xf0, 0, 32, 0, .ro, 0, true⟩
def DET_PROV_STATUS.SIGNING : Fld := ⟨detBase + 0xf0, 32, 1, 0, .ro, 0, false⟩
def DET_PROV_STATUS.SIGNED : Fld := ⟨detBase + 0xf0, 33, 15, 0, .ro, 0, true⟩
def DET_PROV_STATUS.SIGN_SKIPPED : Fld := ⟨detBase + 0xf0, 48, 16, 0, .ro, 0, true⟩
/-! ERR_STATUS: 14_dependability.md -/
def ERR_STATUS.HANDLING : Fld := ⟨errBase + 0x0, 0, 1, 0, .ro, 0, false⟩
def ERR_STATUS.PENDING : Fld := ⟨errBase + 0x0, 1, 1, 0, .ro, 0, false⟩
def ERR_STATUS.QDEPTH : Fld := ⟨errBase + 0x0, 2, 5, 0, .ro, 0, false⟩
def ERR_STATUS.QUEUE_OVF : Fld := ⟨errBase + 0x0, 7, 1, 0, .w1c, 1, false⟩
def ERR_STATUS.LADDER_HALT : Fld := ⟨errBase + 0x0, 8, 1, 0, .w1c, 1, false⟩
def ERR_STATUS.SPARE_REQ : Fld := ⟨errBase + 0x0, 9, 1, 0, .w1c, 1, false⟩
def ERR_STATUS.SPARE_EXHAUSTED : Fld := ⟨errBase + 0x0, 10, 1, 0, .w1c, 1, false⟩
def ERR_STATUS.MISMATCH_HALT : Fld := ⟨errBase + 0x0, 11, 1, 0, .w1c, 1, false⟩
def ERR_STATUS.WDOG_FIRED : Fld := ⟨errBase + 0x0, 12, 1, 0, .w1c, 1, false⟩
def ERR_STATUS.HALT_NOTICE : Fld := ⟨errBase + 0x0, 13, 1, 0, .w1c, 1, false⟩
def ERR_STATUS.DEVICE_DEAD : Fld := ⟨errBase + 0x0, 14, 1, 0, .ro, 0, false⟩
def ERR_STATUS.COMMIT_READY : Fld := ⟨errBase + 0x0, 15, 1, 0, .ro, 0, false⟩
/-! ERR_CTRL: 14_dependability.md -/
def ERR_CTRL.LOG_CORR : Fld := ⟨errBase + 0x8, 0, 1, 1, .rw, 1, false⟩
def ERR_CTRL.LOG_CLEAR : Fld := ⟨errBase + 0x8, 1, 1, 0, .wo, 0, false⟩
def ERR_CTRL.CNT_CLEAR : Fld := ⟨errBase + 0x8, 2, 1, 0, .wo, 0, false⟩
def ERR_CTRL.COMMIT : Fld := ⟨errBase + 0x8, 3, 1, 0, .wo, 0, false⟩
def ERR_CTRL.ALERT_EN : Fld := ⟨errBase + 0x8, 16, 16, 65408, .rw, 1, false⟩
/-! ERR_WDOG: 14_dependability.md -/
def ERR_WDOG.GLUE_TIMEOUT : Fld := ⟨errBase + 0x10, 0, 16, 64, .rwl, 1, false⟩
def ERR_WDOG.HELD : Fld := ⟨errBase + 0x10, 16, 1, 0, .ro, 0, false⟩
def ERR_WDOG.ACTION : Fld := ⟨errBase + 0x10, 17, 4, 0, .ro, 1, false⟩
def ERR_WDOG.WAITING : Fld := ⟨errBase + 0x10, 21, 8, 0, .ro, 1, false⟩
/-! ERR_LADDER: 14_dependability.md -/
def ERR_LADDER.ATTEMPT : Fld := ⟨errBase + 0x18, 0, 2, 0, .ro, 0, false⟩
def ERR_LADDER.LAST_SCOPE : Fld := ⟨errBase + 0x18, 2, 3, 0, .ro, 1, false⟩
def ERR_LADDER.LAST_INDEX : Fld := ⟨errBase + 0x18, 16, 16, 0, .ro, 1, false⟩
def ERR_LADDER.REPLAYS : Fld := ⟨errBase + 0x18, 32, 32, 0, .ro, 1, false⟩
/-! ERR_SPARE: 14_dependability.md -/
def ERR_SPARE.SWAPS : Fld := ⟨errBase + 0x20, 0, 32, 0, .ro, 1, false⟩
def ERR_SPARE.LAST_PCLUSTER : Fld := ⟨errBase + 0x20, 32, 16, 0, .ro, 1, false⟩
/-! ERR_SPARE_STEP: 14_dependability.md -/
def ERR_SPARE_STEP.STEP : Fld := ⟨errBase + 0x28, 0, 64, 0, .ro, 1, false⟩
/-! ERR_SWAP: 14_dependability.md -/
def ERR_SWAP.PCLUSTER : Fld := ⟨errBase + 0x30, 0, 16, 0, .rw, 1, false⟩
def ERR_SWAP.SWAP : Fld := ⟨errBase + 0x30, 16, 1, 0, .wo, 0, false⟩
def ERR_SWAP.BUSY : Fld := ⟨errBase + 0x30, 17, 1, 0, .ro, 0, false⟩
def ERR_SWAP.DONE : Fld := ⟨errBase + 0x30, 18, 1, 0, .w1c, 1, false⟩
def ERR_SWAP.FAILED : Fld := ⟨errBase + 0x30, 19, 1, 0, .w1c, 1, false⟩
/-! ERR_MISMATCH0: 14_dependability.md -/
def ERR_MISMATCH0.TRANSIENT : Fld := ⟨errBase + 0x38, 0, 32, 0, .ro, 1, false⟩
def ERR_MISMATCH0.REPAIRED : Fld := ⟨errBase + 0x38, 32, 32, 0, .ro, 1, false⟩
/-! ERR_MISMATCH1: 14_dependability.md -/
def ERR_MISMATCH1.HALTED : Fld := ⟨errBase + 0x40, 0, 32, 0, .ro, 1, false⟩
def ERR_MISMATCH1.LAST_RGROUP : Fld := ⟨errBase + 0x40, 32, 16, 0, .ro, 1, false⟩
/-! ERR_COUNT0: 14_dependability.md -/
def ERR_COUNT0.CORRECTED : Fld := ⟨errBase + 0x48, 0, 32, 0, .ro, 1, false⟩
def ERR_COUNT0.CONTAINED : Fld := ⟨errBase + 0x48, 32, 32, 0, .ro, 1, false⟩
/-! ERR_COUNT1: 14_dependability.md -/
def ERR_COUNT1.FATAL_SLICE : Fld := ⟨errBase + 0x50, 0, 32, 0, .ro, 1, false⟩
def ERR_COUNT1.FATAL_DEVICE : Fld := ⟨errBase + 0x50, 32, 32, 0, .ro, 1, false⟩
/-! ERR_COUNT2: 14_dependability.md -/
def ERR_COUNT2.MERGED : Fld := ⟨errBase + 0x58, 0, 32, 0, .ro, 1, false⟩
def ERR_COUNT2.QUEUED : Fld := ⟨errBase + 0x58, 32, 32, 0, .ro, 1, false⟩
/-! ERR_COUNT3: 14_dependability.md -/
def ERR_COUNT3.PREEMPTED : Fld := ⟨errBase + 0x60, 0, 32, 0, .ro, 1, false⟩
def ERR_COUNT3.ESCALATED : Fld := ⟨errBase + 0x60, 32, 32, 0, .ro, 1, false⟩
/-! ERR_LOG_STATUS: 14_dependability.md -/
def ERR_LOG_STATUS.NEXT : Fld := ⟨errBase + 0x68, 0, 8, 0, .ro, 1, false⟩
def ERR_LOG_STATUS.WRAPPED : Fld := ⟨errBase + 0x68, 8, 1, 0, .ro, 1, false⟩
def ERR_LOG_STATUS.TOTAL : Fld := ⟨errBase + 0x68, 32, 32, 0, .ro, 1, false⟩
/-! ERR_LOG_INDEX: 14_dependability.md -/
def ERR_LOG_INDEX.ENTRY : Fld := ⟨errBase + 0x70, 0, 8, 0, .rw, 1, false⟩
/-! ERR_LOG_DATA0: 14_dependability.md -/
def ERR_LOG_DATA0.DATA : Fld := ⟨errBase + 0x78, 0, 64, 0, .ro, 0, false⟩
/-! ERR_LOG_DATA1: 14_dependability.md -/
def ERR_LOG_DATA1.DATA : Fld := ⟨errBase + 0x80, 0, 64, 0, .ro, 0, false⟩
/-! ERR_LOG_DATA2: 14_dependability.md -/
def ERR_LOG_DATA2.DATA : Fld := ⟨errBase + 0x88, 0, 64, 0, .ro, 0, false⟩
/-! ERR_LOG_DATA3: 14_dependability.md -/
def ERR_LOG_DATA3.DATA : Fld := ⟨errBase + 0x90, 0, 64, 0, .ro, 0, false⟩
/-! ERR_ADVISE: 14_dependability.md -/
def ERR_ADVISE.VNR_CE : Fld := ⟨errBase + 0x98, 0, 16, 64, .rw, 1, false⟩
def ERR_ADVISE.MEM_CE : Fld := ⟨errBase + 0x98, 16, 32, 4096, .rw, 1, false⟩
/-! ERR_INJECT: 14_dependability.md -/
def ERR_INJECT.CLASS : Fld := ⟨errBase + 0xa0, 0, 1, 0, .rw, 0, false⟩
def ERR_INJECT.SCOPE : Fld := ⟨errBase + 0xa0, 1, 3, 0, .rw, 0, false⟩
def ERR_INJECT.INDEX : Fld := ⟨errBase + 0xa0, 4, 16, 0, .rw, 0, false⟩
def ERR_INJECT.TICK_IN_STEP : Fld := ⟨errBase + 0xa0, 20, 16, 0, .rw, 0, false⟩
def ERR_INJECT.ARM : Fld := ⟨errBase + 0xa0, 36, 1, 0, .w1s, 0, false⟩
/-! ETH_STATUS: 15_host_interface.md -/
def ETH_STATUS.STATE : Fld := ⟨ethBase + 0x0, 0, 2, 0, .ro, 0, false⟩
def ETH_STATUS.LANES_UP : Fld := ⟨ethBase + 0x0, 2, 4, 0, .ro, 0, false⟩
def ETH_STATUS.PAUSED : Fld := ⟨ethBase + 0x0, 6, 1, 0, .ro, 0, false⟩
/-! ETH_CFG: 15_host_interface.md -/
def ETH_CFG.VLAN_EN : Fld := ⟨ethBase + 0x8, 0, 1, 0, .rwl, 0, false⟩
def ETH_CFG.VLAN_ID : Fld := ⟨ethBase + 0x8, 1, 12, 0, .rwl, 0, false⟩
def ETH_CFG.PCP : Fld := ⟨ethBase + 0x8, 13, 3, 3, .rwl, 0, false⟩
def ETH_CFG.PFC_EN : Fld := ⟨ethBase + 0x8, 16, 1, 1, .rwl, 0, false⟩
def ETH_CFG.IPV4_EN : Fld := ⟨ethBase + 0x8, 17, 1, 1, .rwl, 0, false⟩
def ETH_CFG.IPV6_EN : Fld := ⟨ethBase + 0x8, 18, 1, 1, .rwl, 0, false⟩
/-! ETH_MAC: 15_host_interface.md -/
def ETH_MAC.MAC : Fld := ⟨ethBase + 0x10, 0, 48, 0, .rwl, 0, false⟩
/-! ETH_IPV4: 15_host_interface.md -/
def ETH_IPV4.ADDR : Fld := ⟨ethBase + 0x18, 0, 32, 0, .rwl, 0, false⟩
/-! ETH_IPV6_LO: 15_host_interface.md -/
def ETH_IPV6_LO.ADDR : Fld := ⟨ethBase + 0x20, 0, 64, 0, .rwl, 0, false⟩
/-! ETH_IPV6_HI: 15_host_interface.md -/
def ETH_IPV6_HI.ADDR : Fld := ⟨ethBase + 0x28, 0, 64, 0, .rwl, 0, false⟩
/-! ETH_RDMA: 15_host_interface.md -/
def ETH_RDMA.RKEY : Fld := ⟨ethBase + 0x30, 0, 32, 0, .rwl, 0, false⟩
def ETH_RDMA.QPS : Fld := ⟨ethBase + 0x30, 32, 7, 0, .ro, 0, false⟩
def ETH_RDMA.RETRY : Fld := ⟨ethBase + 0x30, 39, 3, 7, .rwl, 0, false⟩
def ETH_RDMA.TIMEOUT_LOG2 : Fld := ⟨ethBase + 0x30, 42, 5, 14, .rwl, 0, false⟩
/-! ETH_COUNT0: 15_host_interface.md -/
def ETH_COUNT0.RX_FRAMES : Fld := ⟨ethBase + 0x38, 0, 32, 0, .ro, 0, true⟩
def ETH_COUNT0.TX_FRAMES : Fld := ⟨ethBase + 0x38, 32, 32, 0, .ro, 0, true⟩
/-! ETH_COUNT1: 15_host_interface.md -/
def ETH_COUNT1.DROPPED : Fld := ⟨ethBase + 0x40, 0, 32, 0, .ro, 0, true⟩
def ETH_COUNT1.NAK_SENT : Fld := ⟨ethBase + 0x40, 32, 32, 0, .ro, 0, true⟩
/-! ETH_WR_BYTES: 15_host_interface.md -/
def ETH_WR_BYTES.BYTES : Fld := ⟨ethBase + 0x48, 0, 64, 0, .ro, 0, true⟩
/-! ETH_RD_BYTES: 15_host_interface.md -/
def ETH_RD_BYTES.BYTES : Fld := ⟨ethBase + 0x50, 0, 64, 0, .ro, 0, true⟩
/-! ETH_FLAGS: 15_host_interface.md -/
def ETH_FLAGS.LINK_DOWN : Fld := ⟨ethBase + 0x58, 0, 1, 0, .w1c, 0, false⟩
def ETH_FLAGS.QP_ERR : Fld := ⟨ethBase + 0x58, 1, 1, 0, .w1c, 0, false⟩
def ETH_FLAGS.WWIN_NAK : Fld := ⟨ethBase + 0x58, 2, 1, 0, .w1c, 0, false⟩
def ETH_FLAGS.UE_NAK : Fld := ⟨ethBase + 0x58, 3, 1, 0, .w1c, 0, false⟩
def ETH_FLAGS.CAP_NAK : Fld := ⟨ethBase + 0x58, 4, 1, 0, .w1c, 0, false⟩
def ETH_FLAGS.CNP_RX : Fld := ⟨ethBase + 0x58, 5, 1, 0, .w1c, 0, false⟩
/-! BCP_CFG: 15_host_interface.md -/
def BCP_CFG.VER_MIN : Fld := ⟨ethBase + 0x100, 0, 8, 1, .ro, 0, false⟩
def BCP_CFG.VER_MAX : Fld := ⟨ethBase + 0x100, 8, 8, 1, .ro, 0, false⟩
def BCP_CFG.IDLE_S : Fld := ⟨ethBase + 0x100, 16, 8, 60, .rw, 0, false⟩
def BCP_CFG.SESSIONS : Fld := ⟨ethBase + 0x100, 24, 3, 0, .ro, 0, false⟩
/-! BCP_DROPS: 15_host_interface.md -/
def BCP_DROPS.BAD : Fld := ⟨ethBase + 0x108, 0, 32, 0, .ro, 0, true⟩
def BCP_DROPS.QFULL : Fld := ⟨ethBase + 0x108, 32, 32, 0, .ro, 0, true⟩
/-! BCP_DUP: 15_host_interface.md -/
def BCP_DUP.DUPLICATES : Fld := ⟨ethBase + 0x110, 0, 32, 0, .ro, 0, true⟩
def BCP_DUP.STALE : Fld := ⟨ethBase + 0x110, 32, 32, 0, .ro, 0, true⟩
/-! BCP_INBOX_TBL: 15_host_interface.md -/
def BCP_INBOX_TBL.ADDR : Fld := ⟨ethBase + 0x118, 4, 44, 0, .rwl, 0, false⟩
def BCP_INBOX_TBL.COUNT : Fld := ⟨ethBase + 0x118, 48, 7, 0, .rwl, 0, false⟩
def BCP_INBOX_TBL.DEPTH : Fld := ⟨ethBase + 0x118, 55, 4, 4, .rwl, 0, false⟩
/-! BCP_INBOX_STAT: 15_host_interface.md -/
def BCP_INBOX_STAT.READY : Fld := ⟨ethBase + 0x120, 0, 32, 0, .ro, 0, true⟩
def BCP_INBOX_STAT.REFUSED : Fld := ⟨ethBase + 0x120, 32, 32, 0, .ro, 0, true⟩
/-! BCP_INBOX_RES: 15_host_interface.md -/
def BCP_INBOX_RES.RESIDENT_TO : Fld := ⟨ethBase + 0x128, 0, 64, 0, .ro, 0, false⟩
/-! BCP_OUTBOX_TBL: 15_host_interface.md -/
def BCP_OUTBOX_TBL.ADDR : Fld := ⟨ethBase + 0x130, 4, 44, 0, .rwl, 0, false⟩
def BCP_OUTBOX_TBL.COUNT : Fld := ⟨ethBase + 0x130, 48, 5, 0, .rwl, 0, false⟩
/-! BCP_OUTBOX_STAT: 15_host_interface.md -/
def BCP_OUTBOX_STAT.PUSHED : Fld := ⟨ethBase + 0x138, 0, 32, 0, .ro, 0, true⟩
def BCP_OUTBOX_STAT.HOLDS : Fld := ⟨ethBase + 0x138, 32, 16, 0, .ro, 0, true⟩
def BCP_OUTBOX_STAT.BOUND : Fld := ⟨ethBase + 0x138, 48, 1, 0, .ro, 0, false⟩
def BCP_OUTBOX_STAT.PENDING : Fld := ⟨ethBase + 0x138, 49, 1, 0, .ro, 0, false⟩
/-! BCP_OUTBOX_LAST: 15_host_interface.md -/
def BCP_OUTBOX_LAST.STEP : Fld := ⟨ethBase + 0x140, 0, 64, 0, .ro, 0, false⟩
/-! BCP_EVT: 15_host_interface.md -/
def BCP_EVT.QUEUED : Fld := ⟨ethBase + 0x148, 0, 11, 0, .ro, 0, false⟩
def BCP_EVT.LOST : Fld := ⟨ethBase + 0x148, 32, 32, 0, .ro, 0, false⟩
/-! BCP_EVT_SEQ: 15_host_interface.md -/
def BCP_EVT_SEQ.NEXT : Fld := ⟨ethBase + 0x150, 0, 64, 1, .ro, 1, false⟩
/-! CFG_STATUS: 16_boot_and_identity.md -/
def CFG_STATUS.STATE : Fld := ⟨cfgBase + 0x0, 0, 2, 0, .ro, 0, false⟩
def CFG_STATUS.SITE_DEFAULT : Fld := ⟨cfgBase + 0x0, 2, 1, 0, .ro, 1, false⟩
def CFG_STATUS.WARM_FALLBACK : Fld := ⟨cfgBase + 0x0, 3, 1, 0, .w1c, 1, false⟩
def CFG_STATUS.ID_FAIL : Fld := ⟨cfgBase + 0x0, 4, 1, 0, .ro, 1, false⟩
/-! CFG_BOOT: 16_boot_and_identity.md -/
def CFG_BOOT.SLOT : Fld := ⟨cfgBase + 0x8, 0, 1, 0, .ro, 1, false⟩
def CFG_BOOT.OTHER_VALID : Fld := ⟨cfgBase + 0x8, 1, 1, 0, .ro, 1, false⟩
def CFG_BOOT.DREC_COPY : Fld := ⟨cfgBase + 0x8, 2, 1, 0, .ro, 1, false⟩
def CFG_BOOT.SREC_COPY : Fld := ⟨cfgBase + 0x8, 3, 1, 0, .ro, 1, false⟩
/-! CFG_DREC_SEQ: 16_boot_and_identity.md -/
def CFG_DREC_SEQ.SEQNO : Fld := ⟨cfgBase + 0x10, 0, 64, 0, .ro, 1, false⟩
/-! CFG_SREC_SEQ: 16_boot_and_identity.md -/
def CFG_SREC_SEQ.SEQNO : Fld := ⟨cfgBase + 0x18, 0, 64, 0, .ro, 1, false⟩
/-! CFG_FLASH: 16_boot_and_identity.md -/
def CFG_FLASH.BUSY : Fld := ⟨cfgBase + 0x20, 0, 1, 0, .ro, 0, false⟩
def CFG_FLASH.LAST_RESULT : Fld := ⟨cfgBase + 0x20, 1, 3, 0, .ro, 0, false⟩
def CFG_FLASH.HOLDUP_LOW : Fld := ⟨cfgBase + 0x20, 4, 1, 0, .w1c, 0, false⟩
def CFG_FLASH.SECTORS : Fld := ⟨cfgBase + 0x20, 16, 16, 0, .ro, 0, false⟩
def CFG_FLASH.WRITES : Fld := ⟨cfgBase + 0x20, 32, 32, 0, .ro, 1, false⟩
/-! CFG_HUP: 16_boot_and_identity.md -/
def CFG_HUP.V_10MV : Fld := ⟨cfgBase + 0x28, 0, 16, 0, .ro, 0, false⟩
def CFG_HUP.E_MJ : Fld := ⟨cfgBase + 0x28, 16, 24, 0, .ro, 0, false⟩
def CFG_HUP.NEED_MJ : Fld := ⟨cfgBase + 0x28, 40, 24, 0, .ro, 0, false⟩
/-! CFG_OWNER0: 16_boot_and_identity.md -/
def CFG_OWNER0.OWNER_ID : Fld := ⟨cfgBase + 0x30, 0, 64, 0, .ro, 1, false⟩
/-! CFG_OWNER1: 16_boot_and_identity.md -/
def CFG_OWNER1.OWNER_ID : Fld := ⟨cfgBase + 0x38, 0, 64, 0, .ro, 1, false⟩
/-! CFG_MEAS_INDEX: 16_boot_and_identity.md -/
def CFG_MEAS_INDEX.INDEX : Fld := ⟨cfgBase + 0x40, 0, 3, 0, .rw, 0, false⟩
/-! CFG_MEAS_DATA0: 16_boot_and_identity.md -/
def CFG_MEAS_DATA0.DIGEST : Fld := ⟨cfgBase + 0x48, 0, 64, 0, .ro, 0, false⟩
/-! CFG_MEAS_DATA1: 16_boot_and_identity.md -/
def CFG_MEAS_DATA1.DIGEST : Fld := ⟨cfgBase + 0x50, 0, 64, 0, .ro, 0, false⟩
/-! CFG_MEAS_DATA2: 16_boot_and_identity.md -/
def CFG_MEAS_DATA2.DIGEST : Fld := ⟨cfgBase + 0x58, 0, 64, 0, .ro, 0, false⟩
/-! CFG_MEAS_DATA3: 16_boot_and_identity.md -/
def CFG_MEAS_DATA3.DIGEST : Fld := ⟨cfgBase + 0x60, 0, 64, 0, .ro, 0, false⟩
/-! PWR_STATUS: 17_power_clocks_stop.md -/
def PWR_STATUS.IN_V_100MV : Fld := ⟨pwrBase + 0x0, 0, 16, 0, .ro, 0, false⟩
def PWR_STATUS.IN_W : Fld := ⟨pwrBase + 0x0, 16, 16, 0, .ro, 0, false⟩
def PWR_STATUS.RAIL_OK : Fld := ⟨pwrBase + 0x0, 32, 8, 0, .ro, 0, false⟩
def PWR_STATUS.LAST_RESET : Fld := ⟨pwrBase + 0x0, 40, 2, 0, .ro, 0, false⟩
def PWR_STATUS.WAKE_CAUSE : Fld := ⟨pwrBase + 0x0, 42, 2, 0, .ro, 2, false⟩
/-! PWR_STOP: 17_power_clocks_stop.md -/
def PWR_STOP.VENEER_RETAIN : Fld := ⟨pwrBase + 0x8, 0, 1, 0, .rw, 0, false⟩
def PWR_STOP.STOPS : Fld := ⟨pwrBase + 0x8, 32, 32, 0, .ro, 2, false⟩
/-! PWR_LIMIT: 17_power_clocks_stop.md -/
def PWR_LIMIT.WATTS : Fld := ⟨pwrBase + 0x10, 0, 11, 1400, .rw, 0, false⟩
def PWR_LIMIT.OPP_Q : Fld := ⟨pwrBase + 0x10, 11, 5, 4, .rw, 0, false⟩
def PWR_LIMIT.OVER_MS : Fld := ⟨pwrBase + 0x10, 32, 32, 0, .ro, 0, false⟩
/-! PWR_RESET: 17_power_clocks_stop.md -/
def PWR_RESET.WARM : Fld := ⟨pwrBase + 0x18, 0, 1, 0, .wo, 0, false⟩
/-! PWR_SMB: 17_power_clocks_stop.md -/
def PWR_SMB.ADDR : Fld := ⟨pwrBase + 0x20, 0, 7, 0x5A, .ro, 1, false⟩
def PWR_SMB.PEC_ERR : Fld := ⟨pwrBase + 0x20, 16, 16, 0, .ro, 2, false⟩
/-! PWR_ASYNC_FLAGS: 17_power_clocks_stop.md -/
def PWR_ASYNC_FLAGS.RST_STUCK : Fld := ⟨pwrBase + 0x28, 0, 1, 0, .w1c, 2, false⟩
def PWR_ASYNC_FLAGS.RST_RATE : Fld := ⟨pwrBase + 0x28, 1, 1, 0, .w1c, 2, false⟩
def PWR_ASYNC_FLAGS.PF_ACTIVE : Fld := ⟨pwrBase + 0x28, 2, 1, 0, .ro, 2, false⟩
def PWR_ASYNC_FLAGS.PF_STUCK : Fld := ⟨pwrBase + 0x28, 3, 1, 0, .w1c, 2, false⟩
def PWR_ASYNC_FLAGS.PF_RATE : Fld := ⟨pwrBase + 0x28, 4, 1, 0, .w1c, 2, false⟩
def PWR_ASYNC_FLAGS.SCL_STUCK : Fld := ⟨pwrBase + 0x28, 5, 1, 0, .w1c, 2, false⟩
def PWR_ASYNC_FLAGS.SDA_STUCK : Fld := ⟨pwrBase + 0x28, 6, 1, 0, .w1c, 2, false⟩
def PWR_ASYNC_FLAGS.SMB_RATE : Fld := ⟨pwrBase + 0x28, 7, 1, 0, .w1c, 2, false⟩
def PWR_ASYNC_FLAGS.SQUP_STUCK : Fld := ⟨pwrBase + 0x28, 8, 1, 0, .w1c, 2, false⟩
def PWR_ASYNC_FLAGS.SQUP_RATE : Fld := ⟨pwrBase + 0x28, 9, 1, 0, .w1c, 2, false⟩
/-! PWR_ASYNC_COUNT: 17_power_clocks_stop.md -/
def PWR_ASYNC_COUNT.PF_ASSERTS : Fld := ⟨pwrBase + 0x30, 0, 16, 0, .ro, 2, false⟩
def PWR_ASYNC_COUNT.SMB_TIMEOUTS : Fld := ⟨pwrBase + 0x30, 16, 16, 0, .ro, 2, false⟩
def PWR_ASYNC_COUNT.FILTERED : Fld := ⟨pwrBase + 0x30, 32, 16, 0, .ro, 2, false⟩
def PWR_ASYNC_COUNT.RATE_LIMITED : Fld := ⟨pwrBase + 0x30, 48, 16, 0, .ro, 2, false⟩
/-! PWR_BIAS: 17_power_clocks_stop.md -/
def PWR_BIAS.FBB_MV : Fld := ⟨pwrBase + 0x38, 0, 8, 0, .ro, 1, false⟩
def PWR_BIAS.RBB_MV : Fld := ⟨pwrBase + 0x38, 8, 8, 0, .ro, 0, false⟩
def PWR_BIAS.ASSIST : Fld := ⟨pwrBase + 0x38, 16, 1, 0, .ro, 0, false⟩
/-! CLK_CFG: 17_power_clocks_stop.md -/
def CLK_CFG.RATE : Fld := ⟨pwrBase + 0x100, 0, 1, 0, .rwl, 0, false⟩
/-! CLK_STATUS: 17_power_clocks_stop.md -/
def CLK_STATUS.CORE_MHZ : Fld := ⟨pwrBase + 0x108, 0, 16, 0, .ro, 0, false⟩
def CLK_STATUS.PLL_LOCK : Fld := ⟨pwrBase + 0x108, 16, 1, 0, .ro, 0, false⟩
def CLK_STATUS.REF_OK : Fld := ⟨pwrBase + 0x108, 17, 1, 0, .ro, 0, false⟩
def CLK_STATUS.RELOCKS : Fld := ⟨pwrBase + 0x108, 32, 32, 0, .ro, 1, false⟩
/-! PAD_HOLD: 17_power_clocks_stop.md -/
def PAD_HOLD.HELD : Fld := ⟨pwrBase + 0x200, 0, 1, 0, .ro, 0, false⟩
def PAD_HOLD.RELEASE : Fld := ⟨pwrBase + 0x200, 1, 1, 0, .wo, 0, false⟩
def PAD_HOLD.CLAMPS : Fld := ⟨pwrBase + 0x200, 32, 32, 0, .ro, 2, false⟩
/-! THERM_STATUS: 17_power_clocks_stop.md -/
def THERM_STATUS.TJ_C : Fld := ⟨pwrBase + 0x300, 0, 8, 0, .ro, 0, false⟩
def THERM_STATUS.SENSOR : Fld := ⟨pwrBase + 0x300, 8, 7, 0, .ro, 0, false⟩
def THERM_STATUS.LEVEL : Fld := ⟨pwrBase + 0x300, 15, 2, 0, .ro, 0, false⟩
def THERM_STATUS.HOT : Fld := ⟨pwrBase + 0x300, 17, 1, 0, .w1c, 0, false⟩
/-! THERM_CFG: 17_power_clocks_stop.md -/
def THERM_CFG.THROTTLE_C : Fld := ⟨pwrBase + 0x308, 0, 8, 100, .rwl, 0, false⟩
def THERM_CFG.HYST_C : Fld := ⟨pwrBase + 0x308, 8, 4, 3, .rwl, 0, false⟩
def THERM_CFG.QMAX : Fld := ⟨pwrBase + 0x308, 16, 8, 64, .rwl, 0, false⟩
/-! THERM_STRETCH: 17_power_clocks_stop.md -/
def THERM_STRETCH.Q : Fld := ⟨pwrBase + 0x310, 0, 8, 0, .ro, 0, false⟩
def THERM_STRETCH.MAX_C : Fld := ⟨pwrBase + 0x310, 8, 8, 0, .ro, 0, true⟩
def THERM_STRETCH.TICKS : Fld := ⟨pwrBase + 0x310, 32, 32, 0, .ro, 0, true⟩
/-! THERM_SENSOR: 17_power_clocks_stop.md -/
def THERM_SENSOR.INDEX : Fld := ⟨pwrBase + 0x318, 0, 7, 0, .rw, 0, false⟩
def THERM_SENSOR.TEMP_C : Fld := ⟨pwrBase + 0x318, 16, 8, 0, .ro, 0, false⟩

/-- The fields of the register at offset `o` of block DEV; none where no register stands (a hole, R246). -/
def fieldsDEV (o : Nat) : List Fld :=
  match o with
  | 0x0 => [DEV_VERSION.GENERATION, DEV_VERSION.STEPPING, DEV_VERSION.AREV, DEV_VERSION.F_FP64_LIMB, DEV_VERSION.F_MX, DEV_VERSION.F_DD128, DEV_VERSION.F_GANG, DEV_VERSION.F_SCARF, DEV_VERSION.F_ROOT, DEV_VERSION.F_KRYLOV, DEV_VERSION.F_PORTABLE, DEV_VERSION.F_STRICT, DEV_VERSION.F_RESHARD, DEV_VERSION.F_EXENO_S, DEV_VERSION.F_EXENO_L, DEV_VERSION.F_PROV_SIGN, DEV_VERSION.F_DRYFIT, DEV_VERSION.F_SR]
  | 0x8 => [DEV_ABI.MAJOR, DEV_ABI.MINOR_MAX]
  | 0x100 => [DEV_CENSUS_CTRL.ENABLE, DEV_CENSUS_CTRL.RING_LOG2, DEV_CENSUS_CTRL.NOTIFY]
  | 0x108 => [DEV_CENSUS_BASE.ADDR, DEV_CENSUS_BASE.ADDR_HI]
  | 0x110 => [DEV_CENSUS_HEAD.NEXT_SLOT, DEV_CENSUS_HEAD.WRITTEN, DEV_CENSUS_HEAD.LOST]
  | 0x118 => [DEV_CENSUS_LAST.STEP]
  | _ => []

/-- The fields of the register at offset `o` of block TICK; none where no register stands (a hole, R246). -/
def fieldsTICK (o : Nat) : List Fld :=
  match o with
  | 0x0 => [TICK_CFG.TICK_LOG2, TICK_CFG.KERF_Q, TICK_CFG.NGUARD_Q]
  | 0x8 => [TICK_CTRL.LOAD, TICK_CTRL.START, TICK_CTRL.HALT, TICK_CTRL.UNLOAD]
  | 0x10 => [TICK_STATUS.STATE, TICK_STATUS.DRY, TICK_STATUS.BANK, TICK_STATUS.STRETCHING, TICK_STATUS.SEALED_A, TICK_STATUS.SEALED_B, TICK_STATUS.SEALING, TICK_STATUS.START_MISSED, TICK_STATUS.TICK_IN_STEP]
  | 0x18 => [TICK_COUNT.COUNT]
  | 0x20 => [TICK_STEP.STEP]
  | 0x28 => [TICK_PHASE.ARM, TICK_PHASE.MISSED]
  | 0x30 => [TICK_PHASE_STEP.AT_STEP]
  | 0x38 => [TICK_SEAL.SEAL]
  | 0x40 => [TICK_FAULT.CODE, TICK_FAULT.UNIT_CLASS, TICK_FAULT.UNIT_INDEX, TICK_FAULT.ENTRY, TICK_FAULT.BANK, TICK_FAULT.VALID]
  | 0x48 => [TICK_FAULT_TICK.AT_TICK]
  | 0x50 => [TICK_STRETCH.LAST_CC, TICK_STRETCH.CAUSE, TICK_STRETCH.TICKS_STRETCHED]
  | 0x58 => [TICK_STRETCH_TOTAL.TOTAL_CC]
  | 0x60 => [TICK_STRETCH_LIMIT.LIMIT_KCC, TICK_STRETCH_LIMIT.OPP_IGNORED]
  | 0x68 => [TICK_MARGIN.MIN_SLACK_CC, TICK_MARGIN.AT_TICK_IN_STEP]
  | 0x70 => [TICK_DRY.START, TICK_DRY.BANK, TICK_DRY.DONE, TICK_DRY.PASS]
  | 0x78 => [TICK_MARK.LAST_TAG, TICK_MARK.AT_TICK]
  | 0x80 => [TICK_GLUE.LAST_CC, TICK_GLUE.HOLDS]
  | 0x88 => [TICK_ABI.MAJOR, TICK_ABI.MINOR, TICK_ABI.STEP_TICKS]
  | 0x90 => [TICK_LOAD_STEP.STEP]
  | _ => []

/-- The fields of the register at offset `o` of block ARR; none where no register stands (a hole, R246). -/
def fieldsARR (p : Nat) (o : Nat) : List Fld :=
  match o with
  | 0x0 => [ARR_STATUS.GANG p, ARR_STATUS.BUSY p, ARR_STATUS.RESERVED p, ARR_STATUS.HOLDING p]
  | 0x8 => [ARR_DESC_A.OFF p, ARR_DESC_A.DESC_COUNT p, ARR_DESC_A.JIG_COUNT p]
  | 0x10 => [ARR_DESC_B.OFF p, ARR_DESC_B.DESC_COUNT p, ARR_DESC_B.JIG_COUNT p]
  | 0x18 => (List.range 4).flatMap fun q =>
    [ARR_QFLAGS.NAN_IN p q, ARR_QFLAGS.INF_IN p q, ARR_QFLAGS.NAN_MADE p q, ARR_QFLAGS.SAT p q, ARR_QFLAGS.LONGSUM p q, ARR_QFLAGS.OOB p q]
  | 0x20 => [ARR_HWERR.WREG_PAR p, ARR_HWERR.RESIDUE p, ARR_HWERR.SCARF_PAR p, ARR_HWERR.DESC_PAR p, ARR_HWERR.COUNT p]
  | 0x28 => [ARR_SCARF.ROLE p, ARR_SCARF.HOPS p, ARR_SCARF.VALID p, ARR_SCARF.PARTNER p]
  | 0x30 => [ARR_OPS.ENTRIES p, ARR_OPS.PASSES p]
  | 0x38 => [ARR_MACS.MACS p]
  | 0x40 => [ARR_BUSY.BUSY_CC p]
  | 0x48 => [ARR_LAST.DESC p, ARR_LAST.QUAD p, ARR_LAST.AT_TICK p]
  | _ => []

/-- The fields of the register at offset `o` of block ACC; none where no register stands (a hole, R246). -/
def fieldsACC (p : Nat) (o : Nat) : List Fld :=
  if 0x008 ≤ o && o < 0x028 then
    [ACC_TILE.DESC p ((o - 0x008) / 8), ACC_TILE.ITEM p ((o - 0x008) / 8), ACC_TILE.M_BLOCK p ((o - 0x008) / 8), ACC_TILE.N_TILE p ((o - 0x008) / 8), ACC_TILE.SAT p ((o - 0x008) / 8), ACC_TILE.NONFINITE p ((o - 0x008) / 8), ACC_TILE.VALID p ((o - 0x008) / 8)] else
  match o with
  | 0x0 => [ACC_STATUS.HALF0_FMT p, ACC_STATUS.HALF1_FMT p, ACC_STATUS.DEBUG p]
  | 0x28 => [ACC_COUNTS.SAT_TOTALS p, ACC_COUNTS.NONFINITE_TOTALS p]
  | 0x30 => [ACC_LONGSUM.TO_FP64 p, ACC_LONGSUM.TO_DD128 p]
  | 0x38 => [ACC_HWERR.ECC_CE p, ACC_HWERR.ECC_UE p, ACC_HWERR.CE_COUNT p, ACC_HWERR.UE_COUNT p]
  | 0x40 => [ACC_DEBUG.ENABLE p, ACC_DEBUG.STOP_ON_SAT p]
  | 0x48 => [ACC_DBG_INDEX.WORD p, ACC_DBG_INDEX.HALF p]
  | 0x50 => [ACC_DBG_DATA.DATA p]
  | _ => []

/-- The fields of the register at offset `o` of block FIN; none where no register stands (a hole, R246). -/
def fieldsFIN (p : Nat) (o : Nat) : List Fld :=
  match o with
  | 0x0 => [FIN_STATUS.BUSY p, FIN_STATUS.RESERVED p, FIN_STATUS.PASS_OVER p]
  | 0x8 => [FIN_DESC_A.OFF p, FIN_DESC_A.CHAIN_COUNT p, FIN_DESC_A.STREAM_COUNT p]
  | 0x10 => [FIN_DESC_B.OFF p, FIN_DESC_B.CHAIN_COUNT p, FIN_DESC_B.STREAM_COUNT p]
  | 0x18 => [FIN_FLAGS.NAN_IN p, FIN_FLAGS.NAN_MADE p, FIN_FLAGS.OVF_ARITH p, FIN_FLAGS.DIV_ZERO p, FIN_FLAGS.ISAT p, FIN_FLAGS.EMPTY p, FIN_FLAGS.OOB p, FIN_FLAGS.TBL_INVALID p, FIN_FLAGS.TBL_REJECT p]
  | 0x20 => [FIN_EMPTY_REDUCE.COUNT p]
  | 0x28 => [FIN_HWERR.TBL_PAR p, FIN_HWERR.HANDOFF_PAR p, FIN_HWERR.RESIDUE p, FIN_HWERR.DESC_PAR p, FIN_HWERR.COUNT p]
  | 0x30 => [FIN_TBL_A.OFF p]
  | 0x38 => [FIN_TBL_B.OFF p]
  | 0x40 => [FIN_OPS.CHAINS p, FIN_OPS.TABLE_LOADS p]
  | 0x48 => [FIN_GROUPS.GROUPS p]
  | 0x50 => [FIN_SCATTER.ORDERED_GROUPS p, FIN_SCATTER.SERIALISED p]
  | 0x58 => [FIN_LAST.DESC p, FIN_LAST.AT_TICK p]
  | _ => []

/-- The fields of the register at offset `o` of block GAU; none where no register stands (a hole, R246). -/
def fieldsGAU (p : Nat) (o : Nat) : List Fld :=
  match o with
  | 0x0 => [GAU_STATUS.TAPPING p, GAU_STATUS.GATED p]
  | 0x8 => [GAU_DESC_A.OFF p, GAU_DESC_A.COUNT p]
  | 0x10 => [GAU_DESC_B.OFF p, GAU_DESC_B.COUNT p]
  | 0x18 => [GAU_CAPTURES.CAPTURES p, GAU_CAPTURES.ROWS p]
  | 0x20 => [GAU_FLAGS.NAN_TAP p, GAU_FLAGS.INF_TAP p, GAU_FLAGS.SUB_COUNT p]
  | 0x28 => [GAU_HWERR.DESC_PAR p, GAU_HWERR.TAP_PAR p, GAU_HWERR.COUNT p]
  | 0x30 => [GAU_LAST.DESC p, GAU_LAST.AT_TICK p]
  | _ => []

/-- The fields of the register at offset `o` of block EXN; none where no register stands (a hole, R246). -/
def fieldsEXN (r : Nat) (o : Nat) : List Fld :=
  if 0x100 ≤ o && o < 0x180 then
    [EXN_GATE.GATE r ((o - 0x100) / 8), EXN_GATE.CLASS r ((o - 0x100) / 8), EXN_GATE.TENSOR_ID r ((o - 0x100) / 8)] else
  match o with
  | 0x0 => [EXN_STATUS.CTX r, EXN_STATUS.SUSPENDED r, EXN_STATUS.SVC_OVF r, EXN_STATUS.PENDING r, EXN_STATUS.LAST_DESC r]
  | 0x8 => [EXN_KTBL_A.OFF r, EXN_KTBL_A.COUNT r]
  | 0x10 => [EXN_KTBL_B.OFF r, EXN_KTBL_B.COUNT r]
  | 0x18 => [EXN_FAULT.CAUSE r, EXN_FAULT.DESC r, EXN_FAULT.RESUME r, EXN_FAULT.EPC r, EXN_FAULT.VALID r]
  | 0x20 => [EXN_FAULT_ADDR.ADDR r]
  | 0x28 => [EXN_ENTRIES.CALLS r, EXN_ENTRIES.SUSPENDS r]
  | 0x30 => [EXN_ENTRY_MAX.MAX_CC r, EXN_ENTRY_MAX.DESC r]
  | 0x38 => [EXN_SCATTER.ORDERED r, EXN_SCATTER.SERIALISED r]
  | 0x40 => [EXN_HWERR.IMEM_CE r, EXN_HWERR.IMEM_UE r, EXN_HWERR.SCR_CE r, EXN_HWERR.SCR_UE r, EXN_HWERR.RF_PAR r, EXN_HWERR.COUNT r]
  | 0x48 => [EXN_CAPS.VLEN r, EXN_CAPS.EXENO_S r, EXN_CAPS.EXENO_L r]
  | _ => []

/-- The fields of the register at offset `o` of block ROOT; none where no register stands (a hole, R246). -/
def fieldsROOT (o : Nat) : List Fld :=
  match o with
  | 0x0 => [ROOT_STATUS.ACTIVE, ROOT_STATUS.COMMITTING]
  | 0x8 => [ROOT_TBL_A.ADDR, ROOT_TBL_A.COUNT]
  | 0x10 => [ROOT_TBL_B.ADDR, ROOT_TBL_B.COUNT]
  | 0x18 => [ROOT_OUTCOMES.ACCEPTED, ROOT_OUTCOMES.STALE]
  | 0x20 => [ROOT_FAULTS.NONFINITE, ROOT_FAULTS.ABANDONED]
  | 0x28 => [ROOT_FOLDS.FOLDS, ROOT_FOLDS.SKIPPED]
  | 0x30 => [ROOT_FLAGS.STALE, ROOT_FLAGS.NONFINITE, ROOT_FLAGS.ABANDONED, ROOT_FLAGS.FOLD_NF]
  | 0x38 => [ROOT_LAST.DESC, ROOT_LAST.OUTCOME, ROOT_LAST.RESID, ROOT_LAST.STEP_LO]
  | 0x40 => [ROOT_REC_INDEX.DESC, ROOT_REC_INDEX.WORD]
  | 0x48 => [ROOT_REC_DATA.DATA]
  | 0x50 => [ROOT_HWERR.DESC_PAR, ROOT_HWERR.REC_CE, ROOT_HWERR.REC_UE, ROOT_HWERR.COUNT]
  | _ => []

/-- The fields of the register at offset `o` of block SOL; none where no register stands (a hole, R246). -/
def fieldsSOL (o : Nat) : List Fld :=
  match o with
  | 0x0 => [ASM_PAT_A.ADDR, ASM_PAT_A.COUNT]
  | 0x8 => [ASM_PAT_B.ADDR, ASM_PAT_B.COUNT]
  | 0x10 => [ASM_DIGEST_INDEX.PATTERN]
  | 0x18 => [ASM_DIGEST_LO.DIGEST]
  | 0x20 => [ASM_DIGEST_HI.DIGEST]
  | 0x100 => [SOL_STATUS.ACTIVE, SOL_STATUS.GATED]
  | 0x108 => [SOL_TBL_A.ADDR, SOL_TBL_A.COUNT]
  | 0x110 => [SOL_TBL_B.ADDR, SOL_TBL_B.COUNT]
  | 0x118 => [SOL_OUTCOMES_A.CONVERGED, SOL_OUTCOMES_A.CAPPED]
  | 0x120 => [SOL_OUTCOMES_B.BREAKDOWN, SOL_OUTCOMES_B.NONFINITE]
  | 0x128 => [SOL_WARM.REJECTED, SOL_WARM.REJ_NF]
  | 0x130 => [SOL_PIVOT.PIVOT_REPAIRED, SOL_PIVOT.ZERO_BLOCK]
  | 0x138 => [SOL_FLAGS.CAPPED, SOL_FLAGS.BREAKDOWN, SOL_FLAGS.NONFINITE, SOL_FLAGS.WARM_REJECTED, SOL_FLAGS.TRUE_FAIL, SOL_FLAGS.PIVOT_REPAIRED, SOL_FLAGS.ZERO_BLOCK]
  | 0x140 => [SOL_LAST.CTX, SOL_LAST.OUTCOME, SOL_LAST.ADJ, SOL_LAST.ITERS, SOL_LAST.STEP_LO]
  | 0x148 => [SOL_ITERS.RUN, SOL_ITERS.GATED]
  | 0x150 => [SOL_HWERR.DESC_PAR, SOL_HWERR.SCALAR_RES, SOL_HWERR.COUNT]
  | _ => []

/-- The fields of the register at offset `o` of block UPD; none where no register stands (a hole, R246). -/
def fieldsUPD (u : Nat) (o : Nat) : List Fld :=
  match o with
  | 0x0 => [UPD_STATUS.BUSY u, UPD_STATUS.OP u, UPD_STATUS.GEN u, UPD_STATUS.TEE u]
  | 0x8 => [UPD_FLAGS.GRAD_NF u, UPD_FLAGS.GNORM_NF u, UPD_FLAGS.SKIPPED u, UPD_FLAGS.CLIPPED u, UPD_FLAGS.WC_MISMATCH u, UPD_FLAGS.STATE_NF u]
  | 0x10 => [UPD_PARAMS.PARAMS u]
  | 0x18 => [UPD_BYTES.LPDDR u]
  | 0x20 => [UPD_VERIFY.DESC u, UPD_VERIFY.INDEX u, UPD_VERIFY.VALID u]
  | 0x28 => [UPD_HWERR.DESC_PAR u, UPD_HWERR.RESIDUE u, UPD_HWERR.STATE_UE u, UPD_HWERR.COUNT u]
  | 0x30 => [UPD_LAST.DESC u, UPD_LAST.OP u, UPD_LAST.AT_TICK u]
  | _ => []

/-- The fields of the register at offset `o` of block UPDC; none where no register stands (a hole, R246). -/
def fieldsUPDC (o : Nat) : List Fld :=
  match o with
  | 0x0 => [UPD_TBL_A.ADDR, UPD_TBL_A.COUNT]
  | 0x8 => [UPD_TBL_B.ADDR, UPD_TBL_B.COUNT]
  | 0x10 => [UPD_SCHED_A.ADDR]
  | 0x18 => [UPD_SCHED_B.ADDR]
  | 0x20 => [UPD_NORM_BASE.ADDR]
  | 0x28 => [UPD_CHK_BASE.ADDR]
  | 0x30 => [UPD_POLICY.NF_SKIP]
  | 0x38 => [UPD_SCHED_VAL0.LR, UPD_SCHED_VAL0.WD]
  | 0x40 => [UPD_SCHED_VAL1.EMA_DECAY, UPD_SCHED_VAL1.CLIP]
  | 0x48 => [UPD_GNORM.SSQ]
  | 0x50 => [UPD_COUNTS.SKIPS, UPD_COUNTS.CLIPS]
  | 0x58 => [UPD_EXPORT.ARM, UPD_EXPORT.MISSED, UPD_EXPORT.VALID]
  | 0x60 => [UPD_EXPORT_STEP.AT_STEP]
  | 0x68 => [UPD_EXPORT_DONE.STEP]
  | 0x70 => [UPD_EXPORT_CHK.ADDR]
  | 0x78 => [UPD_CHK_STATUS.COMPARED, UPD_CHK_STATUS.MISMATCHED, UPD_CHK_STATUS.UNMATCHED]
  | 0x80 => [UPD_CHK_FIRST.KEY, UPD_CHK_FIRST.RGROUP, UPD_CHK_FIRST.VALID]
  | 0x88 => [UPD_CTRL.REGEN, UPD_CTRL.REGEN_DONE]
  | _ => []

/-- The fields of the register at offset `o` of block MEM; none where no register stands (a hole, R246). -/
def fieldsMEM (c : Nat) (o : Nat) : List Fld :=
  match o with
  | 0x0 => [MEM_STATUS.STATE c, MEM_STATUS.PKG0_OK c, MEM_STATUS.PKG1_OK c, MEM_STATUS.RATE c]
  | 0x8 => [MEM_CFG.SCRUB_EN c, MEM_CFG.SCRUB_LOG2 c]
  | 0x10 => [MEM_ECC.CE c, MEM_ECC.UE c]
  | 0x18 => [MEM_ERR.ADDR c, MEM_ERR.TYPE c, MEM_ERR.SOURCE c, MEM_ERR.VALID c]
  | 0x20 => [MEM_SCRUB_STAT.PASSES c, MEM_SCRUB_STAT.SCRUB_CE c, MEM_SCRUB_STAT.SCRUB_UE c]
  | 0x28 => [MEM_TEMP.REFRESH_MULT c, MEM_TEMP.OVER c]
  | 0x30 => [MEM_REQ.MAX_INFLIGHT c, MEM_REQ.HOST_HELD c]
  | 0x38 => [MEM_BYTES.BYTES c]
  | _ => []

/-- The fields of the register at offset `o` of block VNR; none where no register stands (a hole, R246). -/
def fieldsVNR (o : Nat) : List Fld :=
  match o with
  | 0x0 => [VNR_STATUS.INIT_DONE, VNR_STATUS.RETAINED]
  | 0x8 => [VNR_SCRUB.ENABLE, VNR_SCRUB.INTERVAL_LOG2]
  | 0x10 => [VNR_ECC.CE, VNR_ECC.UE]
  | 0x18 => [VNR_ERR.PCLUSTER, VNR_ERR.OFFSET, VNR_ERR.TYPE, VNR_ERR.SOURCE, VNR_ERR.VALID]
  | 0x20 => [VNR_SCRUB_STAT.PASSES, VNR_SCRUB_STAT.SCRUB_CE, VNR_SCRUB_STAT.SCRUB_UE]
  | 0x28 => [VNR_POISON.HELD]
  | 0x30 => [VNR_REPAIR.ROWS_USED, VNR_REPAIR.COLS_USED, VNR_REPAIR.EXHAUSTED]
  | 0x38 => [VNR_MOVE_A.ADDR, VNR_MOVE_A.COUNT]
  | 0x40 => [VNR_MOVE_B.ADDR, VNR_MOVE_B.COUNT]
  | 0x48 => [VNR_MOVES.MOVES, VNR_MOVES.KIB]
  | _ => []

/-- The fields of the register at offset `o` of block LNK; none where no register stands (a hole, R246). -/
def fieldsLNK (p : Nat) (o : Nat) : List Fld :=
  if 0x1000 ≤ o && o < 0x2000 then (List.range 8).flatMap fun e =>
    [LNK_RTBL.OUT p ((o - 0x1000) / 8) e, LNK_RTBL.ALT p ((o - 0x1000) / 8) e] else
  match o with
  | 0x0 => [LNK_STATUS.STATE p, LNK_STATUS.RATE p, LNK_STATUS.REROUTED p, LNK_STATUS.REPLAYING p, LNK_STATUS.LANES_UP p]
  | 0x8 => [LNK_CTRL.TRAIN p, LNK_CTRL.RESTORE p]
  | 0x10 => [LNK_SLICE.SLICE p, LNK_SLICE.FENCE p]
  | 0x18 => [LNK_SHIM.SHIM_QC p, LNK_SHIM.PARTNER p, LNK_SHIM.PARTNER_PORT p]
  | 0x20 => [LNK_LANEMAP.SPARE0_FOR p, LNK_LANEMAP.SPARE1_FOR p, LNK_LANEMAP.FAILED p]
  | 0x28 => [LNK_ALT.PORT p]
  | 0x30 => [LNK_FEC.CORR_CW p, LNK_FEC.UNCORR_CW p]
  | 0x38 => [LNK_REPLAY.EVENTS p, LNK_REPLAY.EXHAUSTED p, LNK_REPLAY.MAX_CC p]
  | 0x40 => [LNK_CRC.CRC_ERR p, LNK_CRC.DUP_DROPPED p]
  | 0x48 => [LNK_DROP.FOREIGN p, LNK_DROP.NOROUTE p, LNK_DROP.UNMATCHED p, LNK_DROP.STALE p]
  | 0x50 => [LNK_FLAGS.LINK_FAULT p, LNK_FLAGS.LATE p, LNK_FLAGS.EARLY p, LNK_FLAGS.ADD_OVF p, LNK_FLAGS.ADD_NAN p, LNK_FLAGS.BER_WARN p]
  | 0x58 => [LNK_BER.THRESH p]
  | 0x60 => [LNK_TX_BYTES.BYTES p]
  | 0x68 => [LNK_RX_BYTES.BYTES p]
  | _ => []

/-- The fields of the register at offset `o` of block FAB; none where no register stands (a hole, R246). -/
def fieldsFAB (o : Nat) : List Fld :=
  match o with
  | 0x0 => [FAB_ID.DEV, FAB_ID.W_SIZE]
  | 0x8 => [FAB_SLICE.ID, FAB_SLICE.SIZE, FAB_SLICE.ZRING, FAB_SLICE.WRING]
  | 0x10 => [FAB_CFG.RATE]
  | 0x18 => [FAB_TREE.PARENT, FAB_TREE.CHILDREN]
  | 0x20 => [FAB_SQUP.LEAD_CC, FAB_SQUP.LATE, FAB_SQUP.ACC_DELAY]
  | 0x28 => [FAB_SQUP_CHK.ENABLE, FAB_SQUP_CHK.WINDOW_CC, FAB_SQUP_CHK.WIRE_CC, FAB_SQUP_CHK.LAST_OFFSET, FAB_SQUP_CHK.SKEW_ERR]
  | 0x30 => [FAB_SYNT.SRC, FAB_SYNT.ALT_SRC, FAB_SYNT.LOCKED, FAB_SYNT.HOLDOVER]
  | 0x38 => [FAB_XFER_A.ADDR, FAB_XFER_A.COUNT]
  | 0x40 => [FAB_XFER_B.ADDR, FAB_XFER_B.COUNT]
  | 0x48 => [FAB_RGRP.ADDR, FAB_RGRP.COUNT]
  | 0x50 => [FAB_PERM.ARM, FAB_PERM.REFUSED, FAB_PERM.CONFIRMED, FAB_PERM.RUNNING, FAB_PERM.DONE, FAB_PERM.FAILED, FAB_PERM.CANCEL]
  | 0x58 => [FAB_PERM_TBL.ADDR, FAB_PERM_TBL.COUNT]
  | 0x60 => [FAB_PERM_IN.IN_BYTES]
  | 0x68 => [FAB_PERM_LIMIT.LIMIT_MS, FAB_PERM_LIMIT.LAST_KCC]
  | 0x70 => [FAB_FLAGS.REROUTED, FAB_FLAGS.FOREIGN, FAB_FLAGS.NOROUTE, FAB_FLAGS.UNMATCHED, FAB_FLAGS.STEP_MISMATCH]
  | 0x78 => [FAB_ENTROPY.WORD]
  | _ => []

/-- The fields of the register at offset `o` of block DET; none where no register stands (a hole, R246). -/
def fieldsDET (o : Nat) : List Fld :=
  match o with
  | 0x0 => [DET_MODE.CLASS, DET_MODE.STRICT]
  | 0x8 => [DET_SEED_LO.SEED]
  | 0x10 => [DET_SEED_HI.SEED]
  | 0x18 => [DET_IMAGE0.DIGEST]
  | 0x20 => [DET_IMAGE1.DIGEST]
  | 0x28 => [DET_IMAGE2.DIGEST]
  | 0x30 => [DET_IMAGE3.DIGEST]
  | 0x38 => [DET_FW.VERSION]
  | 0x40 => [DET_ND_USED.SCATTER_U, DET_ND_USED.VSXA_U, DET_ND_USED.SRE, DET_ND_USED.REROUTE, DET_ND_USED.OPP_STRETCH, DET_ND_USED.FIRST_STEP]
  | 0x48 => [DET_MAP_CHG.COUNT, DET_MAP_CHG.LAST_STEP]
  | 0x50 => [DET_MAP_DIGEST0.DIGEST]
  | 0x58 => [DET_MAP_DIGEST1.DIGEST]
  | 0x60 => [DET_MAP_DIGEST2.DIGEST]
  | 0x68 => [DET_MAP_DIGEST3.DIGEST]
  | 0x70 => [DET_XSTATE.ADDR, DET_XSTATE.COUNT]
  | 0x78 => [DET_STATE_CTRL.MEASURE, DET_STATE_CTRL.BUSY, DET_STATE_CTRL.VALID, DET_STATE_CTRL.ERROR, DET_STATE_CTRL.LAST_KCC]
  | 0x80 => [DET_STATE_DIGEST0.DIGEST]
  | 0x88 => [DET_STATE_DIGEST1.DIGEST]
  | 0x90 => [DET_STATE_DIGEST2.DIGEST]
  | 0x98 => [DET_STATE_DIGEST3.DIGEST]
  | 0xa0 => [DET_INPUT_DIGEST0.DIGEST]
  | 0xa8 => [DET_INPUT_DIGEST1.DIGEST]
  | 0xb0 => [DET_INPUT_DIGEST2.DIGEST]
  | 0xb8 => [DET_INPUT_DIGEST3.DIGEST]
  | 0xc0 => [DET_INPUT_LAST0.DIGEST]
  | 0xc8 => [DET_INPUT_LAST1.DIGEST]
  | 0xd0 => [DET_INPUT_LAST2.DIGEST]
  | 0xd8 => [DET_INPUT_LAST3.DIGEST]
  | 0xe0 => [DET_PROV_CTRL.SNAP, DET_PROV_CTRL.AUTO, DET_PROV_CTRL.EVERY_LOG2, DET_PROV_CTRL.ON_EXPORT, DET_PROV_CTRL.SIGN]
  | 0xe8 => [DET_PROV_BASE.ADDR]
  | 0xf0 => [DET_PROV_STATUS.SEQ, DET_PROV_STATUS.SIGNING, DET_PROV_STATUS.SIGNED, DET_PROV_STATUS.SIGN_SKIPPED]
  | _ => []

/-- The fields of the register at offset `o` of block ERR; none where no register stands (a hole, R246). -/
def fieldsERR (o : Nat) : List Fld :=
  match o with
  | 0x0 => [ERR_STATUS.HANDLING, ERR_STATUS.PENDING, ERR_STATUS.QDEPTH, ERR_STATUS.QUEUE_OVF, ERR_STATUS.LADDER_HALT, ERR_STATUS.SPARE_REQ, ERR_STATUS.SPARE_EXHAUSTED, ERR_STATUS.MISMATCH_HALT, ERR_STATUS.WDOG_FIRED, ERR_STATUS.HALT_NOTICE, ERR_STATUS.DEVICE_DEAD, ERR_STATUS.COMMIT_READY]
  | 0x8 => [ERR_CTRL.LOG_CORR, ERR_CTRL.LOG_CLEAR, ERR_CTRL.CNT_CLEAR, ERR_CTRL.COMMIT, ERR_CTRL.ALERT_EN]
  | 0x10 => [ERR_WDOG.GLUE_TIMEOUT, ERR_WDOG.HELD, ERR_WDOG.ACTION, ERR_WDOG.WAITING]
  | 0x18 => [ERR_LADDER.ATTEMPT, ERR_LADDER.LAST_SCOPE, ERR_LADDER.LAST_INDEX, ERR_LADDER.REPLAYS]
  | 0x20 => [ERR_SPARE.SWAPS, ERR_SPARE.LAST_PCLUSTER]
  | 0x28 => [ERR_SPARE_STEP.STEP]
  | 0x30 => [ERR_SWAP.PCLUSTER, ERR_SWAP.SWAP, ERR_SWAP.BUSY, ERR_SWAP.DONE, ERR_SWAP.FAILED]
  | 0x38 => [ERR_MISMATCH0.TRANSIENT, ERR_MISMATCH0.REPAIRED]
  | 0x40 => [ERR_MISMATCH1.HALTED, ERR_MISMATCH1.LAST_RGROUP]
  | 0x48 => [ERR_COUNT0.CORRECTED, ERR_COUNT0.CONTAINED]
  | 0x50 => [ERR_COUNT1.FATAL_SLICE, ERR_COUNT1.FATAL_DEVICE]
  | 0x58 => [ERR_COUNT2.MERGED, ERR_COUNT2.QUEUED]
  | 0x60 => [ERR_COUNT3.PREEMPTED, ERR_COUNT3.ESCALATED]
  | 0x68 => [ERR_LOG_STATUS.NEXT, ERR_LOG_STATUS.WRAPPED, ERR_LOG_STATUS.TOTAL]
  | 0x70 => [ERR_LOG_INDEX.ENTRY]
  | 0x78 => [ERR_LOG_DATA0.DATA]
  | 0x80 => [ERR_LOG_DATA1.DATA]
  | 0x88 => [ERR_LOG_DATA2.DATA]
  | 0x90 => [ERR_LOG_DATA3.DATA]
  | 0x98 => [ERR_ADVISE.VNR_CE, ERR_ADVISE.MEM_CE]
  | 0xa0 => [ERR_INJECT.CLASS, ERR_INJECT.SCOPE, ERR_INJECT.INDEX, ERR_INJECT.TICK_IN_STEP, ERR_INJECT.ARM]
  | _ => []

/-- The fields of the register at offset `o` of block ETH; none where no register stands (a hole, R246). -/
def fieldsETH (o : Nat) : List Fld :=
  match o with
  | 0x0 => [ETH_STATUS.STATE, ETH_STATUS.LANES_UP, ETH_STATUS.PAUSED]
  | 0x8 => [ETH_CFG.VLAN_EN, ETH_CFG.VLAN_ID, ETH_CFG.PCP, ETH_CFG.PFC_EN, ETH_CFG.IPV4_EN, ETH_CFG.IPV6_EN]
  | 0x10 => [ETH_MAC.MAC]
  | 0x18 => [ETH_IPV4.ADDR]
  | 0x20 => [ETH_IPV6_LO.ADDR]
  | 0x28 => [ETH_IPV6_HI.ADDR]
  | 0x30 => [ETH_RDMA.RKEY, ETH_RDMA.QPS, ETH_RDMA.RETRY, ETH_RDMA.TIMEOUT_LOG2]
  | 0x38 => [ETH_COUNT0.RX_FRAMES, ETH_COUNT0.TX_FRAMES]
  | 0x40 => [ETH_COUNT1.DROPPED, ETH_COUNT1.NAK_SENT]
  | 0x48 => [ETH_WR_BYTES.BYTES]
  | 0x50 => [ETH_RD_BYTES.BYTES]
  | 0x58 => [ETH_FLAGS.LINK_DOWN, ETH_FLAGS.QP_ERR, ETH_FLAGS.WWIN_NAK, ETH_FLAGS.UE_NAK, ETH_FLAGS.CAP_NAK, ETH_FLAGS.CNP_RX]
  | 0x100 => [BCP_CFG.VER_MIN, BCP_CFG.VER_MAX, BCP_CFG.IDLE_S, BCP_CFG.SESSIONS]
  | 0x108 => [BCP_DROPS.BAD, BCP_DROPS.QFULL]
  | 0x110 => [BCP_DUP.DUPLICATES, BCP_DUP.STALE]
  | 0x118 => [BCP_INBOX_TBL.ADDR, BCP_INBOX_TBL.COUNT, BCP_INBOX_TBL.DEPTH]
  | 0x120 => [BCP_INBOX_STAT.READY, BCP_INBOX_STAT.REFUSED]
  | 0x128 => [BCP_INBOX_RES.RESIDENT_TO]
  | 0x130 => [BCP_OUTBOX_TBL.ADDR, BCP_OUTBOX_TBL.COUNT]
  | 0x138 => [BCP_OUTBOX_STAT.PUSHED, BCP_OUTBOX_STAT.HOLDS, BCP_OUTBOX_STAT.BOUND, BCP_OUTBOX_STAT.PENDING]
  | 0x140 => [BCP_OUTBOX_LAST.STEP]
  | 0x148 => [BCP_EVT.QUEUED, BCP_EVT.LOST]
  | 0x150 => [BCP_EVT_SEQ.NEXT]
  | _ => []

/-- The fields of the register at offset `o` of block CFG; none where no register stands (a hole, R246). -/
def fieldsCFG (o : Nat) : List Fld :=
  match o with
  | 0x0 => [CFG_STATUS.STATE, CFG_STATUS.SITE_DEFAULT, CFG_STATUS.WARM_FALLBACK, CFG_STATUS.ID_FAIL]
  | 0x8 => [CFG_BOOT.SLOT, CFG_BOOT.OTHER_VALID, CFG_BOOT.DREC_COPY, CFG_BOOT.SREC_COPY]
  | 0x10 => [CFG_DREC_SEQ.SEQNO]
  | 0x18 => [CFG_SREC_SEQ.SEQNO]
  | 0x20 => [CFG_FLASH.BUSY, CFG_FLASH.LAST_RESULT, CFG_FLASH.HOLDUP_LOW, CFG_FLASH.SECTORS, CFG_FLASH.WRITES]
  | 0x28 => [CFG_HUP.V_10MV, CFG_HUP.E_MJ, CFG_HUP.NEED_MJ]
  | 0x30 => [CFG_OWNER0.OWNER_ID]
  | 0x38 => [CFG_OWNER1.OWNER_ID]
  | 0x40 => [CFG_MEAS_INDEX.INDEX]
  | 0x48 => [CFG_MEAS_DATA0.DIGEST]
  | 0x50 => [CFG_MEAS_DATA1.DIGEST]
  | 0x58 => [CFG_MEAS_DATA2.DIGEST]
  | 0x60 => [CFG_MEAS_DATA3.DIGEST]
  | _ => []

/-- The fields of the register at offset `o` of block PWR; none where no register stands (a hole, R246). -/
def fieldsPWR (o : Nat) : List Fld :=
  match o with
  | 0x0 => [PWR_STATUS.IN_V_100MV, PWR_STATUS.IN_W, PWR_STATUS.RAIL_OK, PWR_STATUS.LAST_RESET, PWR_STATUS.WAKE_CAUSE]
  | 0x8 => [PWR_STOP.VENEER_RETAIN, PWR_STOP.STOPS]
  | 0x10 => [PWR_LIMIT.WATTS, PWR_LIMIT.OPP_Q, PWR_LIMIT.OVER_MS]
  | 0x18 => [PWR_RESET.WARM]
  | 0x20 => [PWR_SMB.ADDR, PWR_SMB.PEC_ERR]
  | 0x28 => [PWR_ASYNC_FLAGS.RST_STUCK, PWR_ASYNC_FLAGS.RST_RATE, PWR_ASYNC_FLAGS.PF_ACTIVE, PWR_ASYNC_FLAGS.PF_STUCK, PWR_ASYNC_FLAGS.PF_RATE, PWR_ASYNC_FLAGS.SCL_STUCK, PWR_ASYNC_FLAGS.SDA_STUCK, PWR_ASYNC_FLAGS.SMB_RATE, PWR_ASYNC_FLAGS.SQUP_STUCK, PWR_ASYNC_FLAGS.SQUP_RATE]
  | 0x30 => [PWR_ASYNC_COUNT.PF_ASSERTS, PWR_ASYNC_COUNT.SMB_TIMEOUTS, PWR_ASYNC_COUNT.FILTERED, PWR_ASYNC_COUNT.RATE_LIMITED]
  | 0x38 => [PWR_BIAS.FBB_MV, PWR_BIAS.RBB_MV, PWR_BIAS.ASSIST]
  | 0x100 => [CLK_CFG.RATE]
  | 0x108 => [CLK_STATUS.CORE_MHZ, CLK_STATUS.PLL_LOCK, CLK_STATUS.REF_OK, CLK_STATUS.RELOCKS]
  | 0x200 => [PAD_HOLD.HELD, PAD_HOLD.RELEASE, PAD_HOLD.CLAMPS]
  | 0x300 => [THERM_STATUS.TJ_C, THERM_STATUS.SENSOR, THERM_STATUS.LEVEL, THERM_STATUS.HOT]
  | 0x308 => [THERM_CFG.THROTTLE_C, THERM_CFG.HYST_C, THERM_CFG.QMAX]
  | 0x310 => [THERM_STRETCH.Q, THERM_STRETCH.MAX_C, THERM_STRETCH.TICKS]
  | 0x318 => [THERM_SENSOR.INDEX, THERM_SENSOR.TEMP_C]
  | _ => []

end Sys2Proof.Machine.Reg
end

