-- ==== Sys2Proof/Machine/Fmt.lean ====
section
/-! DEFINITION. Number formats (R42 to R58): decoding to exact values, exact arithmetic, one rounding function, the
overflow policy, flushing, MX blocks and the counter-based rounding draw. -/

namespace Sys2Proof.Machine

/-- An exact value: a NaN with its sign and payload, an infinity, or `±m · 2^e` (a zero keeps its sign). -/
inductive Val where
  | nan (neg : Bool) (payload : Nat)
  | inf (neg : Bool)
  | fin (neg : Bool) (m : Nat) (e : Int)
deriving DecidableEq, Repr

/-! Format codes (R42, R43). -/

def fFP64 : Nat := 0
def fFP32 : Nat := 1
def fFP16 : Nat := 2
def fBF16 : Nat := 3
def fE4M3 : Nat := 4
def fE5M2 : Nat := 5
def fE3M2 : Nat := 6
def fE2M3 : Nat := 7
def fE2M1 : Nat := 8
def fDD : Nat := 9
def fI32 : Nat := 10

/-- The parameters of a floating-point encoding: exponent bits, mantissa bits, bias, whether it has an infinity, and
its largest finite magnitude as `m · 2^e`. -/
structure FmtInfo where
  eb : Nat
  mb : Nat
  bias : Nat
  hasInf : Bool
  maxM : Nat
  maxE : Int
deriving DecidableEq, Repr

/-- The table "Floating-point encodings" (R42). Codes without an encoding of their own read as FP64. -/
def fmtInfo : Nat → FmtInfo
  | 1 => ⟨8, 23, 127, true, 2 ^ 24 - 1, 104⟩
  | 2 => ⟨5, 10, 15, true, 2 ^ 11 - 1, 5⟩
  | 3 => ⟨8, 7, 127, true, 2 ^ 8 - 1, 120⟩
  | 4 => ⟨4, 3, 7, false, 14, 5⟩
  | 5 => ⟨5, 2, 15, true, 7, 13⟩
  | 6 => ⟨3, 2, 3, false, 7, 2⟩
  | 7 => ⟨2, 3, 1, false, 15, -1⟩
  | 8 => ⟨2, 1, 1, false, 3, 1⟩
  | _ => ⟨11, 52, 1023, true, 2 ^ 53 - 1, 971⟩

def isMx (f : Nat) : Bool := f == 6 || f == 7 || f == 8

/-- The bits of one element (R42, R46, R47). -/
def fmtBits : Nat → Nat
  | 0 => 64
  | 1 => 32
  | 2 => 16
  | 3 => 16
  | 4 => 8
  | 5 => 8
  | 6 => 6
  | 7 => 6
  | 8 => 4
  | 9 => 128
  | _ => 32

/-- The bytes of one element of a format that is stored by elements. -/
def fmtBytes (f : Nat) : Nat := fmtBits f / 8

/-- `2^e` scaled: the least exponent step of a subnormal. -/
def FmtInfo.qmin (i : FmtInfo) : Int := 1 - (i.bias : Int) - i.mb

/-- The number of bits of a natural number. -/
def bitLen (n : Nat) : Nat := if n = 0 then 0 else Nat.log2 n + 1

/-! ### Exact values -/

namespace Val

/-- The signed integer significand. -/
def sgn (neg : Bool) (m : Nat) : Int := if neg then -(m : Int) else m

def isNan : Val → Bool
  | .nan _ _ => true
  | _ => false

def isInf : Val → Bool
  | .inf _ => true
  | _ => false

def isFin : Val → Bool
  | .fin _ _ _ => true
  | _ => false

def isZero : Val → Bool
  | .fin _ 0 _ => true
  | _ => false

def isNeg : Val → Bool
  | .nan s _ => s
  | .inf s => s
  | .fin s _ _ => s

def zero : Val := .fin false 0 0
def one : Val := .fin false 1 0

/-- An integer as an exact value. -/
def ofInt (i : Int) : Val := .fin (decide (i < 0)) i.natAbs 0

/-- The default NaN of the table "NaN payload codes". -/
def dflt : Val := .nan false 0

def neg : Val → Val
  | .nan s p => .nan (!s) p
  | .inf s => .inf (!s)
  | .fin s m e => .fin (!s) m e

def abs : Val → Val
  | .nan _ p => .nan false p
  | .inf _ => .inf false
  | .fin _ m e => .fin false m e

/-- The significand at a common, lower exponent `q`. -/
def scaled (m : Nat) (e q : Int) : Nat := m * 2 ^ (e - q).toNat

/-- The first NaN among the operands, if any. -/
def nanOf : List Val → Option Val
  | [] => none
  | v :: vs => if v.isNan then some v else nanOf vs

/-- The exact sum; opposite infinities make the default NaN, and an exact zero sum of unlike signs is +0. -/
def add (a b : Val) : Val :=
  match nanOf [a, b] with
  | some v => v
  | none =>
    match a, b with
    | .inf s, .inf t => if s = t then .inf s else dflt
    | .inf s, _ => .inf s
    | _, .inf t => .inf t
    | .fin s m e, .fin t n f =>
      if m = 0 ∧ n = 0 then .fin (s && t) 0 0
      else
        let q := min e f
        let i := sgn s (scaled m e q) + sgn t (scaled n f q)
        if i = 0 then .fin false 0 0 else .fin (decide (i < 0)) i.natAbs q
    | _, _ => dflt

/-- The exact product. -/
def mul (a b : Val) : Val :=
  match nanOf [a, b] with
  | some v => v
  | none =>
    match a, b with
    | .inf s, .inf t => .inf (s != t)
    | .inf s, .fin t n _ => if n = 0 then dflt else .inf (s != t)
    | .fin s m _, .inf t => if m = 0 then dflt else .inf (s != t)
    | .fin s m e, .fin t n f => .fin (s != t) (m * n) (e + f)
    | _, _ => dflt

def sub (a b : Val) : Val :=
  match nanOf [a, b] with
  | some v => v
  | none => add a (neg b)

/-- `a · b + c`, exact. -/
def fma (a b c : Val) : Val :=
  match nanOf [a, b, c] with
  | some v => v
  | none => add (mul a b) c

/-- A quotient's leading bits with a last bit that says whether anything follows: every rounding of at most 100 bits
comes out as for the exact quotient. -/
def quot (m : Nat) (e : Int) (n : Nat) (f : Int) : Nat × Int :=
  let sh := 128 + bitLen n - min (bitLen m) (128 + bitLen n)
  let q := m * 2 ^ sh / n
  let r := m * 2 ^ sh % n
  (2 * q + (if r = 0 then 0 else 1), e - f - sh - 1)

/-- Division (R121): a finite nonzero value by zero is an infinity. -/
def div (a b : Val) : Val :=
  match nanOf [a, b] with
  | some v => v
  | none =>
    match a, b with
    | .inf _, .inf _ => dflt
    | .inf s, .fin t _ _ => .inf (s != t)
    | .fin s _ _, .inf t => .fin (s != t) 0 0
    | .fin s m e, .fin t n f =>
      if n = 0 then (if m = 0 then dflt else .inf (s != t))
      else if m = 0 then .fin (s != t) 0 0
      else let r := quot m e n f; .fin (s != t) r.1 r.2
    | _, _ => dflt

/-- The integer square root by bits: `k` more bits to settle below `r`. -/
def isqrtAux (n : Nat) : Nat → Nat → Nat
  | 0, r => r
  | k + 1, r => let t := r + 2 ^ k; if t * t ≤ n then isqrtAux n k t else isqrtAux n k r

def isqrt (n : Nat) : Nat := isqrtAux n (bitLen n / 2 + 1) 0

/-- The square root with a last bit that says whether anything follows. A negative value makes the default NaN; −0
stays. -/
def sqrt : Val → Val
  | .nan s p => .nan s p
  | .inf s => if s then dflt else .inf false
  | .fin s m e =>
    if m = 0 then .fin s 0 0
    else if s then dflt
    else
      let sh : Nat := 256 + (if (e - 256) % 2 = 0 then 0 else 1)
      let n := m * 2 ^ sh
      let r := isqrt n
      .fin false (2 * r + (if r * r = n then 0 else 1)) ((e - sh) / 2 - 1)

/-- Compare two values that are not NaN: −1, 0 or 1; the zeros are equal. -/
def cmp (a b : Val) : Int :=
  match a, b with
  | .inf s, .inf t => if s = t then 0 else if s then -1 else 1
  | .inf s, _ => if s then -1 else 1
  | _, .inf t => if t then 1 else -1
  | .fin s m e, .fin t n f =>
    let q := min e f
    let i := sgn s (scaled m e q) - sgn t (scaled n f q)
    if i < 0 then -1 else if i = 0 then 0 else 1
  | _, _ => 0

/-- `a ≤ b`, false for NaN. -/
def le (a b : Val) : Bool := !a.isNan && !b.isNan && decide (cmp a b ≤ 0)

/-- IEEE 754-2019 minimum: a NaN wins, and −0 is below +0. -/
def minimum (a b : Val) : Val :=
  match nanOf [a, b] with
  | some v => v
  | none => if cmp a b < 0 then a else if cmp a b = 0 then (if a.isNeg then a else b) else b

/-- IEEE 754-2019 maximum. -/
def maximum (a b : Val) : Val :=
  match nanOf [a, b] with
  | some v => v
  | none => if cmp a b > 0 then a else if cmp a b = 0 then (if a.isNeg then b else a) else b

/-- Multiply by a power of two. -/
def scale (v : Val) (k : Int) : Val :=
  match v with
  | .fin s m e => .fin s m (e + k)
  | v => v

end Val

/-! ### Decoding (R42, R45 to R48) -/

/-- Decode a floating-point code word (FP64 to MX-E2M1). -/
def decodeFp (f x : Nat) : Val :=
  let i := fmtInfo f
  let s := bit x (i.eb + i.mb)
  let e := bits x (i.eb + i.mb - 1) i.mb
  let m := x % 2 ^ i.mb
  let top := 2 ^ i.eb - 1
  if e = top ∧ i.hasInf then
    if m = 0 then .inf s else .nan s (if f = fE5M2 then 0 else m % 2 ^ (i.mb - 1))
  else if f = fE4M3 ∧ e = top ∧ m = 7 then .nan s 0
  else if e = 0 then .fin s m i.qmin
  else .fin s (2 ^ i.mb + m) ((e : Int) - 1 + i.qmin)

/-- Decode one element of any format: DD128 at its exact sum (R46), INT32 as an integer (R47). -/
def decode (f x : Nat) : Val :=
  if f = fDD then
    match decodeFp 0 (x % 2 ^ 64) with
    | .fin s m e =>
      match decodeFp 0 (x / 2 ^ 64 % 2 ^ 64) with
      | .fin t n g => if m = 0 ∧ n = 0 then .fin s 0 0 else Val.add (.fin s m e) (.fin t n g)
      | lo => Val.add (.fin s m e) lo
    | v => v
  else if f = fI32 then .ofInt (toSigned 32 x)
  else decodeFp f x

/-- Decode an MX element with its block's scale code (R48). -/
def decodeMx (f x scale : Nat) : Val :=
  if scale = 255 then .dflt else (decodeFp f x).scale ((scale : Int) - 127)

/-! ### Rounding (R50, R51) -/

/-- A rounding mode, with the draw of a stochastic one. -/
inductive Rnd where
  | rne | rtz | rup | rdn
  | sr (r : Nat)
deriving DecidableEq, Repr

/-- Round `m · 2^e` to a multiple of `2^q`: the multiple's count. -/
def roundAt (md : Rnd) (neg : Bool) (m : Nat) (e q : Int) : Nat :=
  if q ≤ e then m * 2 ^ (e - q).toNat
  else
    let sh := (q - e).toNat
    let t := m / 2 ^ sh
    let rem := m % 2 ^ sh
    match md with
    | .rne => if 2 * rem > 2 ^ sh ∨ (2 * rem = 2 ^ sh ∧ t % 2 = 1) then t + 1 else t
    | .rtz => t
    | .rup => if rem ≠ 0 ∧ !neg then t + 1 else t
    | .rdn => if rem ≠ 0 ∧ neg then t + 1 else t
    | .sr r => let d := rem * 2 ^ 32 / 2 ^ sh; if r + d ≥ 2 ^ 32 then t + 1 else t

/-- Round to `p` bits on a grid no finer than `2^qmin`: count and exponent. -/
def roundP (md : Rnd) (neg : Bool) (m : Nat) (e : Int) (p : Nat) (qmin : Int) : Nat × Int :=
  let q := max (e + bitLen m - p) qmin
  (roundAt md neg m e q, q)

/-- `n · 2^q > m · 2^e`. -/
def exceeds (n : Nat) (q : Int) (m : Nat) (e : Int) : Bool :=
  let c := min q e
  decide (Val.scaled m e c < Val.scaled n q c)

/-- What a conversion did, for the census (R62). -/
inductive Outcome5 where
  | plain | nan | overflowed | flushed | subnormal
deriving DecidableEq, Repr

/-- Encode a magnitude `n · 2^q` already on the format's grid and within range. -/
def packFp (f : Nat) (neg : Bool) (n : Nat) (q : Int) : Nat :=
  let i := fmtInfo f
  let sign := ofBool neg * 2 ^ (i.eb + i.mb)
  if n = 0 then sign
  else
    let up := i.mb + 1 - min (bitLen n) (i.mb + 1)
    let k := min up (q - i.qmin).toNat
    let n := n * 2 ^ k
    let q := q - k
    let d := bitLen n - (i.mb + 1)
    let n := n / 2 ^ d
    let q := q + d
    if n < 2 ^ i.mb then sign + n
    else sign + ((q - i.qmin).toNat + 1) * 2 ^ i.mb + (n - 2 ^ i.mb)

/-- The code of a NaN (R45): the payload kept from its least significant end. -/
def packNan (f : Nat) (neg : Bool) (p : Nat) : Nat :=
  let i := fmtInfo f
  let sign := ofBool neg * 2 ^ (i.eb + i.mb)
  if f = fE4M3 then sign + 0x7F
  else if f = fE5M2 then sign + 0x7F
  else sign + (2 ^ i.eb - 1) * 2 ^ i.mb + 2 ^ (i.mb - 1) + p % 2 ^ (i.mb - 1)

/-- The code of an infinity, in a format that has one. -/
def packInf (f : Nat) (neg : Bool) : Nat :=
  let i := fmtInfo f
  ofBool neg * 2 ^ (i.eb + i.mb) + (2 ^ i.eb - 1) * 2 ^ i.mb

/-- The code of the largest finite magnitude. -/
def packMax (f : Nat) (neg : Bool) : Nat := packFp f neg (fmtInfo f).maxM (fmtInfo f).maxE

/-- Whether the mode sends an overflow of this sign to infinity (R55). -/
def toInf (md : Rnd) (neg : Bool) : Bool :=
  match md with
  | .rtz => false
  | .rup => !neg
  | .rdn => neg
  | _ => true

/-- The overflowed result (R55, table "Overflow results"). -/
def overflowCode (f : Nat) (md : Rnd) (ovf : Bool) (neg : Bool) : Nat :=
  if ovf && toInf md neg && !isMx f then
    (if f = fE4M3 then packNan f neg 0 else packInf f neg)
  else packMax f neg

/-- Convert a value to a floating-point format other than DD128 (R54 to R57): code and census outcome. -/
def convFp (f : Nat) (md : Rnd) (ovf ftz : Bool) (v : Val) : Nat × Outcome5 :=
  let i := fmtInfo f
  match v with
  | .nan s p => (packNan f s p, .nan)
  | .inf s => if f = fE4M3 then (packNan f s 0, .nan) else (packInf f s, .plain)
  | .fin s m e =>
    if m = 0 then (packFp f s 0 0, .plain)
    else
      let r := roundP md s m e (i.mb + 1) i.qmin
      if exceeds r.1 r.2 i.maxM i.maxE then (overflowCode f md ovf s, .overflowed)
      else if r.1 = 0 then (packFp f s 0 0, .flushed)
      else if r.1 < 2 ^ i.mb && decide (r.2 = i.qmin) then
        (if ftz then (packFp f s 0 0, .flushed) else (packFp f s r.1 r.2, .subnormal))
      else (packFp f s r.1 r.2, .plain)

/-- Convert to INT32 (R57, R58). -/
def convI32 (md : Rnd) (v : Val) : Nat × Outcome5 :=
  match v with
  | .nan _ _ => (0, .nan)
  | .inf s => (if s then 2 ^ 31 else 2 ^ 31 - 1, .overflowed)
  | .fin s m e =>
    if m = 0 then (0, .plain)
    else
      let n := roundAt md s m e 0
      if s then (if n > 2 ^ 31 then (2 ^ 31, .overflowed) else if n = 0 then (0, .flushed) else (ofSigned 32 (-(n : Int)), .plain))
      else (if n ≥ 2 ^ 31 then (2 ^ 31 - 1, .overflowed) else if n = 0 then (0, .flushed) else (n, .plain))

/-- Round to nearest even in FP64, as a value: infinite beyond the range. -/
def rne64 (v : Val) : Val := decodeFp 0 (convFp 0 .rne true false v).1

/-- The largest finite DD128 (R46). -/
def ddMax (neg : Bool) : Nat :=
  packFp 0 neg (2 ^ 53 - 1) 971 + packFp 0 neg (2 ^ 53 - 1) 917 * 2 ^ 64

/-- The lo part of a DD128 from the exact remainder, rounded by a mode (R50, R51). `neg` is the sign of the whole
value, towards whose magnitude a stochastic mode and RTZ look. The spec names no precision and no ulp of DD128 for an
inexact result under SR, RTZ, RUP or RDN: here one ulp is the spacing of lo's own FP64 grid. DESIGN CHOICE:
notes/assumptions/29.md. -/
def ddLow (md : Rnd) (neg : Bool) (rest : Val) : Val :=
  let below := decodeFp 0 (convFp 0 .rdn true false rest).1
  let above := decodeFp 0 (convFp 0 .rup true false rest).1
  let inner := if neg then above else below
  let outer := if neg then below else above
  match md with
  | .rne => rne64 rest
  | .rdn => below
  | .rup => above
  | .rtz => inner
  | .sr r =>
    match rest.sub inner, outer.sub inner with
    | .fin _ m e, .fin _ n f =>
      let q := min e f
      if m ≠ 0 ∧ 2 ^ 32 ≤ r + Val.scaled m e q * 2 ^ 32 / Val.scaled n f q then outer else inner
    | _, _ => inner

/-- The code of the pair with a hi part and a lo part that FP64 holds; lo is +0 where it is zero (R46). -/
def ddCode (hi lo : Val) : Nat :=
  let c := (convFp 0 .rne true false lo).1
  (convFp 0 .rne true false hi).1 + (if c = 2 ^ 63 then 0 else c) * 2 ^ 64

/-- The canonical DD128 of an exact value under a mode (R46, R50): hi is the nearest FP64 and lo takes the rounding of
the remainder; where lo rounds up to a tie of an odd hi, the same sum is written as its own canonical pair. The infinity
of an overflow is returned as such. -/
def packDD (md : Rnd) (v : Val) : Nat :=
  match rne64 v with
  | .fin s m e =>
    let sum := Val.add (.fin s m e) (ddLow md v.isNeg (v.sub (.fin s m e)))
    if sum.isZero then packFp 0 v.isNeg 0 0
    else match rne64 sum with
      | .fin t n f => ddCode (.fin t n f) (sum.sub (.fin t n f))
      | _ => ddMax v.isNeg
  | h => (convFp 0 .rne true false h).1

/-- Convert to DD128 (R46, R54, R55): census on the whole value. -/
def convDD (md : Rnd) (ovf ftz : Bool) (v : Val) : Nat × Outcome5 :=
  match v with
  | .nan s p => (packNan 0 s p, .nan)
  | .inf s => (packInf 0 s, .plain)
  | .fin s m e =>
    if m = 0 then (packFp 0 s 0 0, .plain)
    else if (rne64 v).isInf then
      (if ovf && toInf md s then (packInf 0 s, .overflowed) else (ddMax s, .overflowed))
    else if exceeds 1 (-1022) m e then
      (if ftz then (packFp 0 s 0 0, .flushed)
       else if (packDD md v) % 2 ^ 63 = 0 then (packFp 0 s 0 0, .flushed) else (packDD md v, .subnormal))
    else (packDD md v, .plain)

/-- Convert to any format but an MX one. -/
def conv (f : Nat) (md : Rnd) (ovf ftz : Bool) (v : Val) : Nat × Outcome5 :=
  if f = fDD then convDD md ovf ftz v
  else if f = fI32 then convI32 md v
  else convFp f md ovf ftz v

/-- One arithmetic rounding: RNE, infinity on overflow, subnormals kept. -/
def rne (f : Nat) (v : Val) : Nat := (conv f .rne true false v).1

/-- A value after one arithmetic rounding in a format. -/
def Val.inFmt (f : Nat) (v : Val) : Val := decode f (rne f v)

/-! ### MX blocks (R48, R49) -/

/-- The exponent of the leading bit of a finite nonzero magnitude. -/
def leadExp (m : Nat) (e : Int) : Int := e + bitLen m - 1

/-- The unit exponent above which elements cannot go: emax of R42. -/
def mxEmax (f : Nat) : Int := if f = fE3M2 then 4 else 2

/-- The shared-scale exponent of a block whose largest magnitude is `m · 2^e` (R49), before clamping. -/
def mxScaleExp (f : Nat) (headroom : Bool) (m : Nat) (e : Int) : Int :=
  if headroom then
    let i := fmtInfo f
    let x := leadExp m e - leadExp i.maxM i.maxE
    if exceeds m e i.maxM (i.maxE + x) then x + 1 else x
  else leadExp m e - mxEmax f

/-- The largest magnitude of a block; `none` where the block holds a NaN or an infinity. -/
def blockMax : List Val → Option (Nat × Int)
  | [] => some (0, 0)
  | v :: vs =>
    match v, blockMax vs with
    | .fin _ m e, some (n, f) => if exceeds m e n f then some (m, e) else some (n, f)
    | _, _ => none

/-- Convert one block to an MX format (R49): scale code, element codes with their census outcomes. -/
def convBlock (f : Nat) (md : List Rnd) (headroom ftz : Bool) (vs : List Val) : Nat × List (Nat × Outcome5) :=
  match blockMax vs with
  | none => (255, vs.map fun _ => (0, .nan))
  | some (m, e) =>
    if m = 0 then (0, vs.map fun v => (packFp f v.isNeg 0 0, .plain))
    else
      let x := max (-127) (min 127 (mxScaleExp f headroom m e))
      ((x + 127).toNat, (vs.zip md).map fun p => convFp f p.2 false ftz (p.1.scale (-x)))

/-! ### The rounding draw (R52, R53) -/

def gold : Nat := 0x9E3779B97F4A7C15
def u64 (x : Nat) : Nat := x % 2 ^ 64
def rotl64 (x r : Nat) : Nat := u64 (x * 2 ^ r) + u64 x / 2 ^ (64 - r)

/-- One round of the draw: rotation, key word and round constant. -/
def srRound (rot key r : Nat) (xy : Nat × Nat) : Nat × Nat :=
  let x := u64 (xy.1 + xy.2)
  let y := Nat.xor (rotl64 xy.2 rot) x
  (u64 (x + key + gold * (r + 1)), y)

/-- sr_draw of R52; `entropy` is 0 for SR and the slice entropy word for SRE (R53). -/
def srDraw (seedLo seedHi tensor index step entropy : Nat) : Nat :=
  let k0 := u64 seedLo
  let k1 := Nat.xor (Nat.xor (Nat.xor (u64 seedHi) (u64 (tensor * 2 ^ 32))) tensor) entropy
  let xy := srRound 17 k0 0 (Nat.xor index k0, Nat.xor step k1)
  let xy := srRound 29 k1 1 xy
  let xy := srRound 43 k0 2 xy
  let xy := srRound 11 k1 3 xy
  Nat.xor xy.1 xy.2 / 2 ^ 32 % 2 ^ 32

end Sys2Proof.Machine
end

