-- ==== Sys2Proof/Machine/State.lean ====
section
/-! DEFINITION. The state of the device: every register field, every byte of memory, and the state that the rules give
outside the register tables, as plain data; the state after a cold reset; and the reasons for which a command can stop.
Register fields, memory and the row controllers' register files are sparse maps (Machine/Store.lean). -/

namespace Sys2Proof.Machine

/-- Why the model stops on a command. -/
inductive Fault where
  /-- Raised by every command whose operand names a unit, port, row, cluster, context or queue-pair number that the
  device does not have (R4, R21, R265). Safe: the hardware can receive no such command. -/
  | noSuchUnit
deriving DecidableEq, Repr

/-- Why the model refuses a command. -/
inductive Refusal where
  /-- Raised by the dispatch alone, for a command without a meaning. Safe: nothing is claimed of it. -/
  | notModelled (mnemonic : String)
deriving DecidableEq, Repr

/-! ### Errors and the log (R327 to R354, R427) -/

/-- One error: class, scope, index, source, code and detail (R327, R328, R352). -/
structure Err where
  cls : Nat
  scope : Nat
  index : Nat
  source : Nat
  code : Nat
  detail : Nat
deriving DecidableEq, Repr

/-- One entry of the error log (R352). -/
structure LogEntry where
  seq : Nat
  err : Err
  merged : Bool
  queued : Bool
  preempted : Bool
  remote : Bool
  attempt : Nat
  step : Nat
  tick : Nat
deriving DecidableEq, Repr

/-- An error that waits (R331): whether it belongs to the next attempt (R329), and the SEQ of its log entry, unless the
log has been emptied since. -/
structure Queued where
  err : Err
  next : Bool
  seq : Option Nat
deriving DecidableEq, Repr

/-- The error handling of the device (R330 to R337, R340, R427). -/
structure ErrSt where
  /-- The error in hand (R330). -/
  handling : Option Err
  /-- The SEQ of the log entry of the error in hand, unless the log has been emptied since (R331). -/
  inHand : Option Nat
  /-- The error in hand belongs to the next attempt (R329). -/
  handNext : Bool
  /-- The queue of R331, oldest first. -/
  queue : List Queued
  /-- The log, by slot (R352). -/
  log : List (Nat × LogEntry)
  /-- The entries written to the log since its last clear, from which SEQ is taken (R352). -/
  written : Nat
  /-- The contained errors of the current attempt that this device detected, in log order (R337). -/
  named : List Err
  /-- Those detected after the gather of action 2: they belong to the next attempt (R329). -/
  nextNamed : List Err
  /-- Those that the procedure of R346 met (R348). -/
  proc : List Err
  /-- The first error of the step that this device detected (R427). -/
  first : Option Err
  /-- The errors already received from another device, of this attempt and of the next: logged once (R427). -/
  remote : List CarriedErr
  nextRemote : List CarriedErr
  /-- The gather of glue-up action 2 of this attempt has passed (R329). -/
  gathered : Bool
  /-- A sealed-copy parity failure is pending: the rollback halts and unseals the active bank (R426). -/
  parityHere : Bool
  /-- One that belongs to the next attempt (R329). -/
  parityNext : Bool
  /-- Faults that are reported only at the next glue-up (R81, R188, R278, R282). -/
  atGlue : List Err
  /-- Clusters still to swap, in order (R337); the flag says the swap was ordered by the host (R338). -/
  swaps : List Nat
  hostSwap : Bool
  /-- A rollback has ended in HALT or a fatal error waits for the running swap (R332). -/
  haltAfter : Bool
  /-- What waits for the running swap is a halt notice (R332, R340). -/
  noticeAfter : Bool
  /-- Poisoned addresses an attempt has read, to tell a recurrence in the replay (R252, R258). -/
  ueSeen : List Nat
  ueSeenPrev : List Nat
deriving DecidableEq, Repr

/-! ### Ticks and the glue-up (R14 to R36) -/

/-- An engine that is busy: unit, unit index, engine number, entry, the cycle at which its declared interval ends, and
whether it stays busy until its completion arrives. -/
structure Busy where
  unit : UnitKind
  idx : Nat
  eng : Nat
  entry : Nat
  endCc : Nat
  waits : Bool
  /-- The memory it writes: what a stop at STRETCH_LIMIT leaves there is not stated (R20). -/
  dst : List (Nat × Nat)
  /-- What its completion counts, in the order that the engine's chapter uses. -/
  info : List Nat
deriving DecidableEq, Repr

structure TickSt where
  /-- Core cycles since cold reset (R177). -/
  now : Nat
  /-- The cycle within the current tick; held during a freeze (R18). -/
  cc : Nat
  /-- A tick is open. -/
  inTick : Bool
  /-- The glue-up action in progress, 1 to 8; 0 outside a glue-up (R30). -/
  glue : Nat
  /-- The cycle at which the glue-up began (R30, TICK_GLUE.LAST_CC). -/
  glueStart : Nat
  /-- The requests held in LOADED and HALT (R35). -/
  startPend : Bool
  dryPend : Bool
  /-- HALT was requested (R36). -/
  haltPend : Bool
  /-- A job is loaded in the sense of R422. -/
  loaded : Bool
  /-- The bank whose seal is in progress, and whether a LOAD started it (R26). -/
  sealing : Option Nat
  sealLoad : Bool
  /-- The remaining amount of a freeze, 0 when not frozen (R18). -/
  freeze : Nat
  /-- The amount by which the open tick is to be lengthened by notices (R18). -/
  notice : Nat
  /-- Notices that came for ticks not yet begun: tick count and amount (R18). -/
  future : List (Nat × Nat)
  /-- The freezes of the open tick, and the whole lengthening of the tick closed last (R18). -/
  frozen : Nat
  lastLen : Nat
  /-- What closed ticks were stretched by: tick count and amount (R18). -/
  applied : List (Nat × Nat)
  /-- The running entries that an in-tick retry delays, by unit, index and engine: cause RECOVERY is active while one of
  them runs (R17, R258). -/
  recovery : List (UnitKind × Nat × Nat)
  /-- The device's own causes that have held or excused the close of the open tick, as TICK_STRETCH.CAUSE numbers them
  (R18). -/
  causes : Nat
  /-- Opportunistic quanta requested for each tick, 0 for none (R392). -/
  opp : Nat
  /-- The latest cycle at which an engine completed or a transfer landed in this tick (TICK_MARGIN). -/
  lastDone : Nat
  /-- The bank of the dry fit that is requested or runs (R34). -/
  dryBank : Nat
  /-- The dry fit has met an error above corrected class (R34). -/
  dryFault : Bool
  /-- The confirmations of the last square-up (R32, R242, R295). -/
  phaseOk : Bool
  permOk : Bool
  /-- The first square-up since the job load is still to come (R53, R287). -/
  firstSquareUp : Bool
  /-- The square-up count, whose low bits are EPOCH (R278, R287). -/
  squareUps : Nat
  /-- The cycle, counted by `now`, at which tick 0 is to start (R287). -/
  tickZeroAt : Option Nat
  /-- Engines that are busy. -/
  busy : List Busy
  /-- A halt notice or a fatal error stops the device at its next tick boundary (R340). -/
  haltAtBoundary : Bool
  /-- The gather frames received for the coming square-up and for the barrier in progress. -/
  gathers : List (Nat × Token)
  barriers : List (Nat × Verdict)
  /-- The hold of action 7 has been counted (R367, R368). -/
  held : Bool
  heldOut : Bool
  /-- A replica mismatch holds the slice at action 3 (R346). -/
  mismatch : Bool
  /-- This device's part of the glue-up action is complete (R289). -/
  actDone : Bool
  /-- This device's gather of the action, or of the square-up, has been sent (R287, R289). -/
  sent : Bool
  /-- The verdict released by the barrier of action 2 (R333). -/
  released : Option Verdict
  /-- Every inactive bank of the slice was sealed at action 4 (R32). -/
  sealedAll : Bool
  /-- The cycle at which the permuting collective began (R296). -/
  permStart : Nat
  /-- Bytes of the permuting collective that have arrived (R296). -/
  permIn : Nat
  /-- A phase change that some device offered at the last square-up was not confirmed: it is missed (R32). -/
  phaseLost : Bool
  /-- Until this cycle of `now` a stretch of the step's last tick, which a notice reported, keeps the watchdog from
  counting (R345). -/
  exclEnd : Nat
  /-- The step in which the armed synthetic error is raised (R354). -/
  injectStep : Nat
  /-- The armed synthetic error belongs to the step that runs (R354). -/
  injectLive : Bool
deriving DecidableEq, Repr

/-- The sealed private copies of one bank: memory, register fields and working map as the seal read them (R26, R146,
R229, R275): later writes do not reach a sealed bank. -/
structure SealCopy where
  mem : List Host.Cell
  flds : List (Nat × Nat)
  active : Nat
deriving DecidableEq, Repr

/-! ### Fabric (R265 to R299) -/

/-- A LAND of the current or the next tick (R278): port, entry, the tick count it belongs to, its cycles and tag, the
sender, the transfer's bytes and how many have landed, and the descriptor's words. -/
structure Land where
  port : Nat
  entry : Nat
  atTick : Nat
  startCc : Nat
  span : Nat
  tag : Nat
  src : Nat
  bytes : Nat
  landed : Nat
  words : List Nat
  /-- Abandoned at a STRETCH_LIMIT close (R20). -/
  abandoned : Bool
deriving DecidableEq, Repr

/-- The link layer of one port (R269, R270). -/
structure Link where
  txSeq : Nat
  rxSeq : Nat
  rxUnacked : Nat
  /-- Frames not acknowledged, oldest first. -/
  replay : List (Nat × Frame)
  /-- Frames held because the window is full (R269). -/
  held : List Frame
  /-- The frames of the running SEND that have not left, each with the cycle of the tick at which it leaves (R277). -/
  due : List (Nat × Frame)
  /-- The replay event in progress: the newest SEQ outstanding at its start, resends so far, its first cycle. -/
  event : Option (Nat × Nat × Nat)
  /-- A NAK of ours is outstanding. -/
  naked : Bool
  /-- At the receiver of a replay event: the newest SEQ that it knows to be outstanding (R270). -/
  rxEvent : Option Nat
  partnerMhz : Nat
deriving DecidableEq, Repr

/-- What a frame of the Ethernet port carries (R355 to R358, R368). -/
inductive EthMsg where
  /-- A BCP datagram, whole, to an IP address and UDP port (R358). -/
  | bcp (ip port : Nat) (bytes : List Nat)
  /-- RoCEv2: responses and requests. -/
  | rdmaAck (qpn psn : Nat)
  | rdmaNak (qpn psn code : Nat)
  | rdmaReadResp (qpn psn : Nat) (data : List Nat)
  | rdmaWrite (qpn psn addr rkey : Nat) (data : List Nat)
  | rdmaSend (qpn psn : Nat) (data : List Nat)
  | cnp (qpn : Nat)
  /-- Answers to the IP address that asked. -/
  | arpReply (ip : Nat)
  | neighbourAdvert (ip : Nat)
  | echoReply (ip : Nat) (v6 : Bool) (data : List Nat)
deriving DecidableEq, Repr

/-- What the device sends. -/
inductive Msg where
  /-- A frame of the Ethernet port. -/
  | eth (h : EthHdr) (m : EthMsg)
  /-- A data frame out of a port (R268). -/
  | frame (port : Nat) (f : Frame)
  /-- Link acknowledgement and NAK (R269). -/
  | linkAck (port seq : Nat)
  | linkNak (port seq : Nat)
  /-- A control wave on a tree port (R286 to R289, R18, R340). -/
  | gather (port : Nat) (t : Token)
  | go (port : Nat) (g : GoFrame)
  | barrier (port act : Nat) (v : Verdict)
  | release (port act : Nat) (v : Verdict)
  | stretch (port amount dev count : Nat)
  | halt (port : Nat) (e : CarriedErr)
  /-- A checksum of a shard of a replica group, to a peer, out of a port (R241, R294). -/
  | checksum (port dev rgroup key crc : Nat)
  /-- The repair transfer of a shard, to a replica peer, out of a port (R347). -/
  | repair (port dev key : Nat) (data : List Nat)
  /-- A scalar of an all-reduce, for the slice (R232, R293). -/
  | reduce (tag : Nat) (v : Nat)
  /-- Management-bus answers (R407). -/
  | smbWord (v : Nat)
  | smbAck
  | smbNack
  | smbAlertAddr (a : Nat)
  /-- The pulse of SQUP_OUT (R290). -/
  | squpPulse
  /-- The pulse of XSPI_RESET_N at the start of a cold configuration (R418). -/
  | xspiReset
  /-- The TAP shifts a register out (R419). -/
  | tdo (v : Nat)
deriving DecidableEq, Repr

/-! ### Host interface (R355 to R372) -/

/-- A BCP session with its sequence window (R360, R361): each sequence number received, with its stored completion
once executed. -/
structure Session where
  id : Nat
  ver : Nat
  high : Nat
  window : List (Nat × Option (Nat × Nat × List Nat))
deriving DecidableEq, Repr

/-- A BCP request that waits (R359). -/
structure Request where
  hdr : BcpHdr
  op : Nat
  payload : List Nat
deriving DecidableEq, Repr

/-- A queue pair (R356). -/
structure Qp where
  qpn : Nat
  args : QpArgs
  txPsn : Nat
  rxPsn : Nat
  retries : Nat
  error : Bool
  halved : Bool
  /-- The cycle of the last CNP sent (R356). -/
  lastCnp : Option Nat
deriving DecidableEq, Repr

/-- One event that is not acknowledged (R369, R370). -/
structure Event where
  evseq : Nat
  code : Nat
  flags : Nat
  step : Nat
  body : List Nat
deriving DecidableEq, Repr

/-- One inbox buffer of one step (R366): READY or OPEN, its length, how many bytes it received, the bytes hashed in the
order in which they were placed, and whether a write left a gap (R323). -/
structure InBuf where
  ready : Bool
  len : Nat
  received : Nat
  bytes : List Nat
  gap : Bool
deriving DecidableEq, Repr

/-- The binding of the outbox (R368). -/
structure OutBind where
  qpn : Nat
  addr : Nat
  rkey : Nat
  ring : Nat
deriving DecidableEq, Repr

/-- A push in progress (R368): its step, its REPLAYED flag, the binding under which it left (none while it has not
started) and the packets still to be acknowledged (PSN, the SEND last). -/
structure Push where
  step : Nat
  flags : Nat
  via : Option OutBind
  waiting : List Nat
deriving DecidableEq, Repr

/-- The subscription (R369): the session, the endpoint and the arguments. -/
structure Sub where
  session : Nat
  ver : Nat
  mac : Nat
  args : SubArgs
deriving DecidableEq, Repr

/-- The answer to the last register access: whether it succeeded, and the data of a read (R9). -/
structure Resp where
  ok : Bool
  data : Nat
deriving DecidableEq, Repr

structure HostSt where
  sessions : List Session
  nextSession : Nat
  queue : List Request
  /-- A long command that delays the queue (R359): JOB_LOAD, SETUP_COPY, RECORD_WRITE or ATTEST. -/
  busyWith : Option Request
  qps : List Qp
  nextQpn : Nat
  events : List Event
  lost : Bool
  sub : Option Sub
  /-- Inbox buffers by step and index (R366). -/
  inbox : List ((Nat × Nat) × InBuf)
  /-- The inbox and outbox tables copied at JOB_LOAD (R365, R368). -/
  inTbl : List (Nat × Nat)
  outTbl : List (Nat × Nat)
  bind : Option OutBind
  /-- Pushes in progress, oldest first (R368). -/
  pushes : List Push
  inputGap : Bool
deriving DecidableEq, Repr

/-! ### Determinism (R310 to R326) -/

structure DetSt where
  /-- TICK_STEP at the start of the run (R320). -/
  startStep : Nat
  inRun : Bool
  /-- The state was not measured when the run began (R322). -/
  unmeasured : Bool
  snapPend : Bool
  /-- The slot that is being signed, and the record's sequence number (R325). -/
  signing : Option (Nat × Nat)
deriving DecidableEq, Repr

/-! ### Flash, boot and identity (R373 to R389) -/

/-- One veneer repair (R378). -/
structure Repair where
  pcluster : Nat
  die : Nat
  subarray : Nat
  column : Bool
  spare : Nat
  line : Nat
deriving DecidableEq, Repr

/-- What a cold configuration leaves in always-on SRAM (R383): the accepted image and the selected copies of the records
as they stood in the flash, the working disabled-unit map, the device key pair, and the digest over these contents. -/
structure Aon where
  image : List Nat
  otherValid : Bool
  slot : Nat
  dev : List Nat
  devCopy : Nat
  site : Option (List Nat)
  siteCopy : Nat
  map : Nat
  pub : List Nat
  sec : List Nat
  digest : List Nat
deriving DecidableEq, Repr

/-- A flash write in progress (R387 to R389): the kind, the offset of its target in the flash, the new content, the
sectors written so far, and whether PWR_FAIL_N has asserted since it began. -/
structure FlashWrite where
  kind : Nat
  off : Nat
  data : List Nat
  done : Nat
  powerFailed : Bool
deriving DecidableEq, Repr

structure BootSt where
  /-- The bytes of the configuration flash that differ from 0xFF, its erased state (R373, R374). PRESUMED:
  notes/assumptions/9.md. -/
  flash : List Host.Cell
  aon : Option Aon
  write : Option FlashWrite
  /-- The attestation being signed: its address, and the bytes to sign (R386). -/
  attest : Option (Nat × List Nat)
  /-- The reset from which configuration is under way: 0 power-on, 1 cold, 2 warm. -/
  kind : Nat
  /-- Configuration is under way or waits for RST_N. -/
  configuring : Bool
  /-- The trims applied to the regulators and to the lanes, and the veneer repairs that are steered (R378, R380). -/
  regTrim : List Nat
  laneTrim : List Nat
  steering : List Repair
  /-- The filter on requests of the host: prefixes, each an address, IPv4 in its mapped form, and a length (R358, R379). -/
  allow : List (Nat × Nat)
deriving DecidableEq, Repr

/-! ### Power, pins and the TAP (R390 to R420) -/

/-- The power state (R398 to R402). -/
inductive Power where
  | off | run | entering | stop | waking
  /-- The main rails are off after a thermal trip (R406). -/
  | tripped
deriving DecidableEq, Repr

structure PwrSt where
  power : Power
  /-- The internal power-on reset is in force (R416). -/
  por : Bool
  /-- No cold configuration has started since the power-on (R416). -/
  fresh : Bool
  /-- RST_N is low; the cycle of its previous release. -/
  rstLow : Bool
  lastRelease : Option Nat
  pfLow : Bool
  /-- The cycles of recent PWR_FAIL_N assertions (R408). -/
  pfTimes : List Nat
  thermTrip : Bool
  /-- The last reading of each of the 72 sensors. -/
  temps : List Int
  /-- The address matched during stop entry waits (R403). -/
  wakePend : Bool
  lastSquareEdge : Option Nat
  squpStuck : Bool
  vnrRetained : Bool
  /-- The frequency source to reapply once its port is up after a wake (R402). -/
  wakeSrc : Option Nat
  /-- The next byte on the management bus is not acknowledged (R408). -/
  smbNack : Bool
  /-- Every load but the always-on domain, the management core and the flash is shed (R389). -/
  shed : Bool
  /-- The TAP: instruction register, boundary register, and whether a test was cut off by RST_N (R420). -/
  ir : Nat
  boundary : Nat
  tapCut : Bool
  /-- REFCLK is present (R416). -/
  refOk : Bool
deriving DecidableEq, Repr

/-! ### Array -/

/-- One total of an accumulation chain: its value, SAT (R110), and whether every product formed so far is −0 (R104). -/
structure Total where
  val : Val
  sat : Bool
  allNeg : Bool
deriving DecidableEq, Repr

/-- An open ACC_HOLD chain of one array engine (R83, R99): engine `16 · cluster + quadrant`, the format of its totals,
the chain position reached, and its totals by row. -/
structure Chain where
  eng : Nat
  fmt : Nat
  pos : Nat
  totals : List Total
deriving DecidableEq, Repr

/-- A weight tile loaded ahead (R76): engine, descriptor, the TICK and START_CC of the operation it is for, and the
elements with their K position and column. -/
structure Preload where
  eng : Nat
  desc : Nat
  tick : Nat
  start : Nat
  tile : List ((Nat × Nat) × Val)
deriving DecidableEq, Repr

structure ArrSt where
  chains : List Chain
  preloads : List Preload
  /-- The cycle, counted by `now`, at which an array with a busy engine became busy (ARR_BUSY). -/
  since : List (Nat × Nat)
deriving DecidableEq, Repr

/-! ### Row controllers, root engine and solver -/

/-- A CALL in progress on a row (R170): descriptor, start cycle and end of the busy interval. -/
structure CallRec where
  desc : Nat
  startCc : Nat
  endCc : Nat
  svcWasRunning : Bool
deriving DecidableEq, Repr

structure RowSt where
  call : Option CallRec
  /-- The CALL has been ended by an exception in this step: later CALLs return at once (R188). -/
  faulted : Bool
  /-- Latched service events, in order (R171). -/
  events : List Nat
deriving DecidableEq, Repr

/-- A root run or gauge sequence in progress (R153, R162): its block, what it runs, the window step, the set its
iterations start from, the piece that is next, whether its preparation found non-finite input, and ρ with the test's
result. -/
structure RootRun where
  block : Nat
  gauge : Bool
  wstep : Nat
  base : Nat
  piece : Nat
  nonfinite : Bool
  rho : Nat
  accept : Bool
deriving DecidableEq, Repr

/-- What a sequence waits to do at COMMIT (R152, R157, R161): 1 ACCEPTED, 2 STALE, 3 NONFINITE, 4 fold, 5 fold skipped,
6 preparation, 7 iterations; `val` is ρ, or the set written last. -/
structure RootOutcome where
  block : Nat
  kind : Nat
  val : Nat
deriving DecidableEq, Repr

/-- A root record (R161). AGE is `age` plus the commits since the count was `since`. -/
structure RootRec where
  cur : Nat
  set : Nat
  run : Bool
  outcome : Nat
  age : Nat
  since : Nat
  resid : Nat
  accepted : Nat
deriving DecidableEq, Repr

structure RootSt where
  runs : List RootRun
  outcomes : List RootOutcome
  /-- The scale c of each block's run, in its format (R158). -/
  scales : List (Nat × Nat)
  recs : List (Nat × RootRec)
  /-- Commits since cold reset. -/
  commits : Nat
  /-- Captures of the step by factor, and the format of the rows captured last (R149). -/
  capFmt : List (Nat × Nat)
deriving DecidableEq, Repr

def RootSt.reset : RootSt :=
  { runs := [], outcomes := [], scales := [], recs := [], commits := 0, capFmt := [] }

/-- A solve in progress (R198 to R220): its context, descriptor and direction; the phase (0 setup, 1 iterations, 2
closing, 3 derivatives), the iteration (for GMRES the cycle) and the next piece within it; the outcome, 0 while it runs;
the iterations completed, run and issued clock-gated; whether the converging iterate is still to be formed; the flags of
the status block; repaired pivots and blocks; the scalars of the scalar unit by number, and the partial inner products
that wait for their reduction, by product and member. -/
structure SolveRun where
  ctx : Nat
  desc : Nat
  adjoint : Bool
  phase : Nat
  iter : Nat
  pos : Nat
  status : Nat
  iters : Nat
  ran : Nat
  gated : Nat
  closing : Bool
  warmRej : Bool
  warmNf : Bool
  trueFail : Bool
  pivots : Nat
  zeros : Nat
  scalars : List (Nat × Nat)
  parts : List (List Nat)
deriving DecidableEq, Repr

structure SolSt where
  runs : List SolveRun
  /-- Solves that ended in the step, in order: what they count takes effect at COMMIT (R213, R215). -/
  ended : List SolveRun
deriving DecidableEq, Repr

/-- The update units (R221 to R244). -/
structure UpdSt where
  /-- Checksums received from replica peers: device, group, key and CRC (R241, R294). -/
  peerCrcs : List (Nat × Nat × Nat × Nat)
  /-- This device has sent its own checksums (R294). -/
  sent : Bool
  /-- Shards that wait for a repair transfer: key and the majority's CRC (R346, R347). -/
  repairs : List (Nat × Nat)
  /-- The second exchange has left a shard without a majority (R346). -/
  noMajority : Bool
  regenPend : Bool
  /-- The export of the step was confirmed: tee writes are active (R242). -/
  exporting : Bool
  /-- What the step's APPLY entries leave to be counted at its commit: parameters by unit, LPDDR bytes by unit,
  whether it was a skip step, whether it clipped, and the ssq read (R243; UPD_PARAMS, UPD_BYTES, UPD_COUNTS,
  UPD_GNORM). -/
  params : List (Nat × Nat)
  moved : List (Nat × Nat)
  skipped : Bool
  clipped : Bool
  ssq : Option Nat
deriving DecidableEq, Repr

def UpdSt.reset : UpdSt :=
  { peerCrcs := [], sent := false, repairs := [], noMajority := false, regenPend := false, exporting := false, params := [], moved := [],
    skipped := false, clipped := false, ssq := none }

/-- The state of the device. -/
structure State where
  /-- The commands that wait, first in, first out. -/
  pending : List Instr
  /-- Register fields that differ from their reset values, by `Fld.key`. -/
  flds : List (Nat × Nat)
  /-- Bytes of memory that differ from 0. -/
  mem : List Host.Cell
  /-- Addresses of 64-bit words that hold an uncorrectable error; an LPDDR block holds one while any of its words does
  (R252, R258, R343). -/
  poison : List Nat
  /-- Registers of the row controllers that differ from 0. -/
  xr : List (Nat × Nat)
  rows : List (Nat × RowSt)
  tick : TickSt
  sealA : Option SealCopy
  sealB : Option SealCopy
  err : ErrSt
  lands : List Land
  links : List (Nat × Link)
  host : HostSt
  det : DetSt
  boot : BootSt
  pwr : PwrSt
  arr : ArrSt
  root : RootSt
  sol : SolSt
  upd : UpdSt
  /-- The working disabled-unit map: positions that hold a logical id, and positions that are good (R4, R318). -/
  active : Nat
  good : Nat
  /-- Live census counts of the step in progress (R63), by cell. -/
  census : List (Nat × Nat)
  /-- Counts that no register shows: corrected scrub findings of the pass in progress, by sub-array (32 times the
  physical cluster, plus the sub-array) or 2^20 plus the controller (R351); at 2^21 the bytes moved beyond whole KiB.
  -/
  tallies : List (Nat × Nat)
  resp : Resp
  out : List Msg
  /-- The number of free values drawn so far: the model's own field. -/
  freeCtr : Nat
deriving DecidableEq, Repr

/-- The state of a row controller at reset. DESIGN CHOICE: notes/assumptions/27.md. -/
def RowSt.reset : RowSt := ⟨none, false, []⟩

/-- The link layer of a port at reset. -/
def Link.reset : Link := ⟨0, 0, 0, [], [], [], none, false, none, 0⟩

def TickSt.reset : TickSt :=
  { now := 0, cc := 0, inTick := false, glue := 0, glueStart := 0, startPend := false, dryPend := false,
    haltPend := false, loaded := false, sealing := none, sealLoad := false, freeze := 0, notice := 0,
    future := [], frozen := 0, lastLen := 0, applied := [], recovery := [], causes := 0, opp := 0, lastDone := 0, dryBank := 0,
    dryFault := false, phaseOk := false, permOk := false, firstSquareUp := false, squareUps := 0, tickZeroAt := none, busy := [],
    haltAtBoundary := false, gathers := [], barriers := [], held := false, heldOut := false, mismatch := false,
    actDone := false, sent := false, released := none, sealedAll := false, permStart := 0, permIn := 0, phaseLost := false, exclEnd := 0,
    injectStep := 0, injectLive := false }

def ErrSt.reset : ErrSt :=
  { handling := none, inHand := none, handNext := false, queue := [], log := [], written := 0, named := [], nextNamed := [],
    proc := [], first := none, remote := [], nextRemote := [], gathered := false, parityHere := false, parityNext := false,
    atGlue := [], swaps := [], hostSwap := false, haltAfter := false, noticeAfter := false,
    ueSeen := [], ueSeenPrev := [] }

/-- PRESUMED: queue-pair numbers start at 2 (notes/assumptions/22.md). -/
def HostSt.reset : HostSt :=
  { sessions := [], nextSession := 1, queue := [], busyWith := none, qps := [], nextQpn := 2, events := [],
    lost := false, sub := none, inbox := [], inTbl := [], outTbl := [], bind := none, pushes := [],
    inputGap := false }

def DetSt.reset : DetSt :=
  { startStep := 0, inRun := false, unmeasured := false, snapPend := false, signing := none }

/-- DESIGN CHOICE: the flash holds nothing valid (notes/assumptions/9.md). -/
def BootSt.reset : BootSt :=
  { flash := [], aon := none, write := none, attest := none, kind := 0, configuring := true, regTrim := [], laneTrim := [],
    steering := [], allow := [] }

def PwrSt.reset : PwrSt :=
  { power := .run, por := false, fresh := false, rstLow := false, lastRelease := none, pfLow := false,
    pfTimes := [], thermTrip := false, temps := [], wakePend := false, lastSquareEdge := none, squpStuck := false,
    vnrRetained := false, wakeSrc := none, smbNack := false, shed := false, ir := 2, boundary := 0, tapCut := false, refOk := true }

/-- The device right after its power-on, a cold reset, once the power-on reset is released and while configuration is
under way (R380, R396, R416): every register at its reset value, memory zeroed, no job loaded, no command waiting.
DESIGN CHOICE: notes/assumptions/27.md. -/
def State.reset : State :=
  { pending := [], flds := [], mem := [], poison := [], xr := [], rows := [], tick := TickSt.reset, sealA := none,
    sealB := none, err := ErrSt.reset, lands := [], links := [], host := HostSt.reset, det := DetSt.reset,
    boot := BootSt.reset, pwr := PwrSt.reset, arr := ⟨[], [], []⟩, root := RootSt.reset, sol := ⟨[], []⟩,
    upd := UpdSt.reset, active := 0, good := 0, census := [], tallies := [], resp := ⟨true, 0⟩, out := [],
    freeCtr := 0 }

end Sys2Proof.Machine
end

