-- ==== Sys2Proof/Machine/Store.lean ====
section
/-! DEFINITION. Sparse maps from natural numbers: lists of (key, value) with strictly rising keys. A key that is not
listed has the default that its reader supplies; writing that default removes the entry, so equal maps are equal
lists. Memory (R245), register fields (R9) and the register files of the row controllers are such maps. -/

namespace Sys2Proof.Machine.Store

variable {α : Type}

/-- The value listed for `k`, if any. -/
def find? : List (Nat × α) → Nat → Option α
  | [], _ => none
  | (k', v) :: m, k => if k' = k then some v else find? m k

/-- The value of `k`, `d` where nothing is listed. -/
def get (m : List (Nat × α)) (d : α) (k : Nat) : α := (find? m k).getD d

/-- List `v` for `k`, at its place in the rising order. -/
def insert : List (Nat × α) → Nat → α → List (Nat × α)
  | [], k, v => [(k, v)]
  | (k', v') :: m, k, v =>
    if k = k' then (k, v) :: m
    else if k < k' then (k, v) :: (k', v') :: m
    else (k', v') :: insert m k v

/-- Remove every entry of `k`. -/
def erase (m : List (Nat × α)) (k : Nat) : List (Nat × α) := m.filter fun e => e.1 != k

/-- Give `k` the value `v`, listing it only where it differs from the default `d`. -/
def put [DecidableEq α] (m : List (Nat × α)) (d : α) (k : Nat) (v : α) : List (Nat × α) :=
  if v = d then erase m k else insert m k v

/-- The keys rise strictly. -/
def sorted : List (Nat × α) → Bool
  | [] => true
  | [_] => true
  | a :: b :: m => decide (a.1 < b.1) && sorted (b :: m)

/-- Remove every entry whose key lies in the `n` keys from `a`. -/
def eraseRange (m : List (Nat × α)) (a n : Nat) : List (Nat × α) :=
  m.filter fun e => decide (e.1 < a) || decide (a + n ≤ e.1)

/-- The entries whose key lies in the `n` keys from `a`. -/
def range (m : List (Nat × α)) (a n : Nat) : List (Nat × α) :=
  m.filter fun e => decide (a ≤ e.1) && decide (e.1 < a + n)

end Sys2Proof.Machine.Store
end

