-- ==== Sys2Proof/WellFormed.lean ====
section
/-! DEFINITION. The well-formedness of a command: every number names a unit, port, row or register that the device
has, and every operand fits the field that carries it (R9, R21, R23, R175, R178, R179, R358, R362). -/

namespace Sys2Proof

/-- The number of units of a kind (R21). -/
def UnitKind.count : UnitKind → Nat
  | .cluster => 2176
  | .row => 64
  | .port => 8
  | .update => 16
  | .root => 1
  | .krylov => 1

/-- The code of a unit kind in TICK_FAULT.UNIT_CLASS. -/
def UnitKind.code : UnitKind → Nat
  | .cluster => 0
  | .row => 1
  | .port => 2
  | .update => 3
  | .root => 4
  | .krylov => 5

/-- A number has at most `w` bits. -/
def fits (w n : Nat) : Bool := decide (n < 2 ^ w)

/-- A byte. -/
def byteOk (n : Nat) : Bool := fits 8 n

/-- An element width, in bits. -/
def widthOf (n : Nat) : Bool := n == 8 || n == 16 || n == 32 || n == 64

/-- An entry of a unit's list: its fields have the widths of R23. -/
def Issue.wf (u : UnitKind) (i : Issue) : Bool :=
  decide (i.idx < u.count) && fits 13 i.entry && fits 16 i.tick && fits 20 i.startCc && fits 20 i.busyCc && fits 16 i.desc &&
    fits 16 i.tag && fits 8 i.arg

/-- What every Exeno-L instruction names. -/
def VArgs.wf (v : VArgs) : Bool :=
  widthOf v.ew && decide (v.gc < 32) && (match v.mask with
    | some m => decide (m < 8)
    | none => true)

/-- A source address. -/
def Origin.wf (o : Origin) : Bool := fits 128 o.ip && fits 16 o.port && fits 48 o.mac

/-- An 802.1Q tag: a 12-bit id and a 3-bit priority. -/
def tagOk (t : Nat × Nat) : Bool := fits 12 t.1 && fits 3 t.2

/-- An Ethernet header (R355). -/
def EthHdr.wf (e : EthHdr) : Bool := fits 48 e.dst && fits 48 e.src && e.vlan.all tagOk

/-- What every RoCEv2 packet carries (R356). -/
def RoceHdr.wf (h : RoceHdr) : Bool := h.eth.wf && fits 32 h.qpn && fits 24 h.psn

/-- A request header (R358). -/
def BcpHdr.wf (h : BcpHdr) : Bool := h.src.wf && fits 8 h.version && fits 64 h.seq && fits 64 h.session

/-- A datagram: bytes, as many as UDP says. -/
def Datagram.wf (d : Datagram) : Bool :=
  d.src.wf && fits 48 d.dst && d.vlan.all tagOk && d.bytes.all byteOk && d.bytes.length == d.udpLen

/-- A link frame (R268). -/
def Frame.wf (f : Frame) : Bool := fits 24 f.seq && fits 5 f.rsvd && f.payload.all byteOk

/-- A RoCEv2 packet. -/
def RdmaWrite.wf (w : RdmaWrite) : Bool := w.toRoceHdr.wf && fits 32 w.rkey && fits 64 w.addr && w.data.all byteOk

/-- A RoCEv2 read request. -/
def RdmaRead.wf (w : RdmaRead) : Bool := w.toRoceHdr.wf && fits 32 w.rkey && fits 64 w.addr && fits 32 w.len

/-- The payload of QP_CREATE. -/
def QpArgs.wf (q : QpArgs) : Bool :=
  fits 32 q.rqpn && fits 128 q.rgid && fits 48 q.rmac && fits 32 q.spsn && fits 32 q.rpsn && fits 8 q.mtu

/-- The payload of SUBSCRIBE. -/
def SubArgs.wf (q : SubArgs) : Bool :=
  fits 128 q.dst && fits 16 q.port && fits 16 q.classes && fits 8 q.sampleLog2 && decide (q.addrs.length < 256) &&
    q.addrs.all (fits 64)

/-- A physical cluster, a row, a port, and register numbers of a row. -/
def clusterOk (p : Nat) : Bool := decide (p < 2176)
def rowOk (r : Nat) : Bool := decide (r < 64)
def portOk (p : Nat) : Bool := decide (p < 8)
def regs (l : List Nat) : Bool := l.all fun n => decide (n < 32)

/-- An Exeno-L instruction of row `r` and its registers. -/
def vecOk (r : Nat) (v : VArgs) (l : List Nat) : Bool := rowOk r && v.wf && regs l

/-- A command is well formed; the last arm is that of the commands whose operands can be anything. -/
def Instr.wf : Instr → Bool
  | .tickDryStart bank => fits 8 bank
  | .tickPhaseStepWrite v | .rootRecWrite v | .errInjectArm v | .updExportStepWrite v | .syntSourceWrite v
  | .clkRateWrite v => fits 64 v
  | .listMemoryWrite a v | .descriptorPointerWrite a v | .kernelRegionWrite a v => fits 48 a && fits 64 v
  | .registerWrite a size v => fits 48 a && fits 64 size && fits 64 v
  | .accDebugRead p | .veneerScrub p _ _ => clusterOk p
  | .nop u i | .mark u i => i.wf u
  | .matmul i _ | .gangOn i | .gangOff i | .scarfPeer i _ | .arrayReserve i | .chain i _ | .finisherReserve i
  | .tableLoad i _ | .tap i _ => i.wf .cluster
  | .matmulComplete p q cc => clusterOk p && decide (q < 4) && fits 64 cc
  | .chainComplete p cc | .tableLoadComplete p cc | .tapComplete p cc => clusterOk p && fits 64 cc
  | .kernelCall i _ => i.wf .row
  | .ret r cc _ => rowOk r && fits 64 cc
  | .callDeadline r | .serviceResume r | .serviceEvent r _ | .brk r _ | .fence r _ => rowOk r
  | .integerOp r _ d a b imm _ => rowOk r && regs [d, a, b] && fits 32 imm
  | .multiplyDivide r _ d a b _ => rowOk r && regs [d, a, b]
  | .branch r _ d a b off _ => rowOk r && regs [d, a, b] && fits 18 off
  | .load r bytes _ d a off _ => rowOk r && widthOf (8 * bytes) && decide (d < 64) && regs [a] && fits 16 off
  | .store r bytes a b off _ => rowOk r && widthOf (8 * bytes) && regs [a] && decide (b < 64) && fits 16 off
  | .floatOp r _ _ d a b c _ => rowOk r && regs [d, a, b, c]
  | .conversion r _ rnd d a _ => rowOk r && decide (rnd < 4) && regs [d, a]
  | .csrRead r d csr _ => rowOk r && regs [d] && fits 12 csr
  | .csrWrite r a csr _ => rowOk r && regs [a] && fits 12 csr
  | .exenoSArith r _ ew d a b c _ => rowOk r && widthOf ew && regs [d, a, b, c]
  | .exenoSLane r _ ew d a b lane _ => rowOk r && widthOf ew && regs [d, a, b] && decide (lane < 16)
  | .exenoSLoadStore r _ d a off _ => rowOk r && regs [d, a] && fits 16 off
  | .lanes r ew d _ => rowOk r && widthOf ew && regs [d]
  | .vectorElementwise r v _ d a b c _ => vecOk r v [d, a, b, c]
  | .vdivVsqrt r v _ d a b _ | .vcmp r v _ d a b _ => vecOk r v [d, a, b]
  | .vmerge r v d a b m _ => vecOk r v [d, a, b] && decide (m < 8)
  | .vacco r v f a _ => vecOk r v [f, a]
  | .viacc r v _ d a _ | .vld r v d a _ | .vst r v d a _ | .vlprobe r v d a _ => vecOk r v [d, a]
  | .vlds r v d a st _ | .vsts r v d a st _ => vecOk r v [d, a, st]
  | .vlw r v fmt d a _ => vecOk r v [d, a] && decide (fmt < 11)
  | .vlx r v d a x _ | .vsx r v d a x _ | .vsxaO r v _ d a x _ | .vsxaU r v _ d a x _ => vecOk r v [d, a, x]
  | .vsg r v d a x slot _ => vecOk r v [d, a, x] && decide (slot < 16)
  | .send i _ | .land i | .pass i | .mover i _ => i.wf .port
  | .sendComplete p cc | .moveComplete p cc => portOk p && fits 64 cc
  | .norm i _ | .normSum i _ | .updApply i _ => i.wf .update
  | .normComplete u cc | .applyComplete u cc | .normSumComplete u cc => decide (u < 16) && fits 64 cc
  | .rootSeg i | .gaugeSeg i => i.wf .root
  | .rootPiece _ d p _ => decide (d < 8192) && clusterOk p
  | .solve i => i.wf .krylov
  | .solverPiece ctx _ p _ _ => fits 16 ctx && clusterOk p
  | .stretchClose q => fits 64 q
  | .stretchNotice p _ dev count => portOk p && fits 12 dev && fits 64 count
  | .engineBusyFault u idx _ _ => decide (idx < u.count)
  | .checksumFrame dev key _ rgroup => fits 12 dev && fits 16 rgroup && fits 32 key
  | .repairTransferLanded key data => fits 64 key && data.all byteOk
  | .permutationDone ins => ins.all fun x => portOk x.port
  | .barrierGather p act _ => portOk p && decide (act < 9)
  | .barrierRelease act _ => decide (act < 9)
  | .squareUpGather p _ | .haltNotice p _ | .lnkTrain p | .linkTrainDone p _ | .lnkRestore p | .linkAckTimeout p
  | .replayExhausted p | .laneLockLoss p | .partnerLoss p | .berWarn p _ | .partnerTrainingRequest p
  | .cumulativeAck p => portOk p
  | .errSwap pc => clusterOk pc
  | .frameArrive p cc f => portOk p && fits 64 cc && f.wf
  | .ackReceive p seq | .nakReceive p seq => portOk p && fits 24 seq
  | .squpInEdge cc _ => fits 64 cc.natAbs
  | .lpddrScrub c a _ _ => decide (c < 16) && fits 48 a
  | .mr4Over c mult | .mr4ConditionEnds c mult => decide (c < 16) && fits 3 mult
  | .lpddrReady c _ _ => decide (c < 16)
  | .arpRequest eth ip target | .neighbourSolicitation eth ip target => eth.wf && fits 128 ip && fits 128 target
  | .echoRequest eth ip _ data => eth.wf && fits 128 ip && data.all byteOk
  | .pfcPause prio quanta => decide (prio < 8) && fits 16 quanta
  | .rdmaWrite w | .rdmaRead w _ => w.wf
  | .hostSend qpn psn f | .roceAck qpn psn f | .roceNak qpn psn _ f => (RoceHdr.mk f qpn psn).wf
  | .roceAckTimeout qpn | .pushRateRestore qpn => fits 32 qpn
  | .cnpReceive h | .bye h | .jobStart h | .jobHalt h | .jobUnload h | .stop h => h.wf
  | .bcpDatagram d => d.wf
  | .hello h lo hi => h.wf && fits 8 lo && fits 8 hi
  | .regRead h a n => h.wf && fits 64 a && fits 16 n
  | .regWrite h a vs => h.wf && fits 64 a && vs.all (fits 64)
  | .setupCopy h src dst n => h.wf && fits 64 src && fits 64 dst && fits 64 n
  | .jobLoad h step => h.wf && fits 64 step
  | .dryFit h bank => h.wf && fits 8 bank
  | .inputReady h step b len => h.wf && fits 64 step && fits 16 b && fits 64 len
  | .outboxBind h qpn a rkey ring => h.wf && fits 32 qpn && fits 64 a && fits 32 rkey && fits 16 ring
  | .qpCreate h q | .subscribe h q => h.wf && q.wf
  | .qpDestroy h qpn => h.wf && fits 32 qpn
  | .eventAck h ev => h.wf && fits 64 ev
  | .recordWrite h kind a len => h.wf && fits 8 kind && fits 64 a && fits 64 len
  | .attest h nonce a => h.wf && fits 256 nonce && fits 64 a
  | .railFault rail => decide (rail < 7)
  | .smbAddressMatch addr => fits 7 addr
  | .smbStop pec | .smbWarmReset pec => fits 8 pec
  | _ => true

end Sys2Proof
end

