-- ==== Sys2Proof/Machine/Ops.lean ====
section
/-! DEFINITION. The named operations over the state: register fields (R9 to R12), memory (R245), the working
disabled-unit map (R4), messages and free values. Errors are in Machine/Errors.lean. -/

namespace Sys2Proof.Machine

open Reg

/-! ### Register fields -/

/-- The value of a field: what is held, or its reset value. -/
def State.get (s : State) (f : Fld) : Nat := Store.get s.flds f.reset f.key

/-- Give a field a value, cut to its width. -/
def State.set (s : State) (f : Fld) (v : Nat) : State :=
  { s with flds := Store.put s.flds f.reset f.key (v % 2 ^ f.width) }

/-- Set a one-bit field. -/
def State.setB (s : State) (f : Fld) (b : Bool) : State := s.set f (ofBool b)

/-- A one-bit field as a truth value. -/
def State.is (s : State) (f : Fld) : Bool := s.get f == 1

/-- Add `n` to a counter that saturates (R12). -/
def State.inc (s : State) (f : Fld) (n : Nat := 1) : State := s.set f (min (s.get f + n) (2 ^ f.width - 1))

/-- Add `n` to a counter that wraps. -/
def State.incWrap (s : State) (f : Fld) (n : Nat := 1) : State := s.set f (s.get f + n)

/-- Set several fields in turn. -/
def State.setAll (s : State) (l : List (Fld × Nat)) : State := l.foldl (fun s e => s.set e.1 e.2) s

/-- Return a field to its reset value. -/
def State.clearF (s : State) (f : Fld) : State := s.set f f.reset

/-- Return to reset a field that each of `n` blocks has, `stride` bytes apart. -/
def State.clearEach (s : State) (f : Fld) (stride n : Nat) : State :=
  { s with flds := s.flds.filter fun e =>
      !(e.1 % 64 == f.lo && decide (f.addr ≤ e.1 / 64) && (e.1 / 64 - f.addr) % stride == 0 &&
        decide ((e.1 / 64 - f.addr) / stride < n)) }

/-! ### Messages, answers and free values -/

/-- RST_N is low, or the internal power-on reset is in force (R412). -/
def State.inReset (s : State) : Bool := s.pwr.rstLow || s.pwr.por

/-- A message leaves by a lane or by SQUP_OUT, and not by the management bus, the TAP or XSPI_RESET_N. -/
def Msg.byLane : Msg → Bool
  | .smbWord _ | .smbAck | .smbNack | .smbAlertAddr _ | .tdo _ | .xspiReset => false
  | _ => true

/-- Send a message. In reset the lanes are in electrical idle and SQUP_OUT is low (R412). -/
def State.emit (s : State) (m : Msg) : State := if s.inReset && m.byLane then s else { s with out := s.out ++ [m] }

/-- The Ethernet header of a frame sent to an address: the device's own address, and the tag and priority of ETH_CFG
where tags are enabled (R355). -/
def State.ethTo (s : State) (dst : Nat) : EthHdr :=
  ⟨dst, s.get ETH_MAC.MAC, if s.is ETH_CFG.VLAN_EN then some (s.get ETH_CFG.VLAN_ID, s.get ETH_CFG.PCP) else none⟩

/-- Hand a frame to the Ethernet port; a port that is up sends and counts it (ETH_COUNT0.TX_FRAMES). -/
def State.emitEth (s : State) (dst : Nat) (m : EthMsg) : State :=
  let s := s.emit (.eth (s.ethTo dst) m)
  if s.get ETH_STATUS.STATE == 2 then s.inc ETH_COUNT0.TX_FRAMES else s

/-- Answer a register access (R9). -/
def State.answer (s : State) (ok : Bool) (v : Nat) : State := { s with resp := ⟨ok, v⟩ }

/-- The access succeeded; a write answers no data. -/
def State.okay (s : State) : State := s.answer true 0

/-- The access has no effect and returns an error status (R9). -/
def State.denied (s : State) : State := s.answer false 0

/-- The next value that the spec leaves open, and the state that has drawn it. DESIGN CHOICE: notes/assumptions/2.md.
-/
def State.draw (s : State) : Nat × State := (Config.freeValue s.freeCtr, { s with freeCtr := s.freeCtr + 1 })

/-! ### Job state -/

/-- The job state of R36: 0 IDLE, 1 LOADED, 2 RUN, 3 HALT. -/
def State.job (s : State) : Nat := s.get TICK_STATUS.STATE

/-- A step is running, in RUN or as a dry fit (R34, R36). -/
def State.running (s : State) : Bool := s.job == 2 || s.is TICK_STATUS.DRY

/-- The bank that runs: the active bank, or the bank of the dry fit. -/
def State.runBank (s : State) : Nat :=
  if s.is TICK_STATUS.DRY then s.tick.dryBank else s.get TICK_STATUS.BANK

/-- A bank is active: a job is loaded and the bank is the one TICK_STATUS.BANK names (R33). -/
def State.isActiveBank (s : State) (b : Nat) : Bool := s.tick.loaded && s.get TICK_STATUS.BANK == b

/-- The field that says whether a bank is sealed. -/
def sealedF (b : Nat) : Fld := if b = 0 then TICK_STATUS.SEALED_A else TICK_STATUS.SEALED_B

/-- The device has met a fatal-to-device error (R342). -/
def State.dead (s : State) : Bool := s.is ERR_STATUS.DEVICE_DEAD

/-- The core rails are on. -/
def State.powered (s : State) : Bool := s.pwr.power == .run

/-- The device answers more than the management bus, RST_N and boundary scan: its rails are on, no reset is in force and
the boot has not failed (R377, R406, R412). -/
def State.awake (s : State) : Bool := s.powered && !s.inReset && s.get CFG_STATUS.STATE != 2

/-- A register write takes effect: a device that has met a fatal-to-device error accepts only reads and reset (R342). -/
def State.accepts (s : State) : Bool := !s.dead && s.awake

/-- A register write. -/
def State.write (s : State) (f : State → State) : State := if s.accepts then f s else s.denied

/-- T, the length of a tick in cc (R14). -/
def State.tickLen (s : State) : Nat := 2 ^ s.get TICK_CFG.TICK_LOG2

/-- K, the length of the kerf in cc (R14). -/
def State.kerf (s : State) : Nat := s.get TICK_CFG.KERF_Q * 256

/-- Update the tick controller's own state. -/
def State.updTick (s : State) (f : TickSt → TickSt) : State := { s with tick := f s.tick }
/-- Update the error handling's own state. -/
def State.updErr (s : State) (f : ErrSt → ErrSt) : State := { s with err := f s.err }
/-- Update the host interface's own state. -/
def State.updHost (s : State) (f : HostSt → HostSt) : State := { s with host := f s.host }
/-- Update the determinism block's own state. -/
def State.updDet (s : State) (f : DetSt → DetSt) : State := { s with det := f s.det }
/-- Update the boot state. -/
def State.updBoot (s : State) (f : BootSt → BootSt) : State := { s with boot := f s.boot }
/-- Update the power state. -/
def State.updPwr (s : State) (f : PwrSt → PwrSt) : State := { s with pwr := f s.pwr }

/-- Update the update units' own state. -/
def State.updUpd (s : State) (f : UpdSt → UpdSt) : State := { s with upd := f s.upd }

/-- The link layer of a port. -/
def State.link (s : State) (p : Nat) : Link := ((s.links.find? fun e => e.1 == p).map (·.2)).getD Link.reset

def State.setLink (s : State) (p : Nat) (l : Link) : State := { s with links := Store.put s.links Link.reset p l }

/-- The frames of running SENDs that have not left are gone. -/
def State.dropDue (s : State) : State := s.links.foldl (fun s e => s.setLink e.1 { e.2 with due := [] }) s

/-! ### Memory -/

/-- The byte at an address; 0 where nothing is listed. DESIGN CHOICE: notes/assumptions/4.md. -/
def Memory.read (m : List Host.Cell) (a : Nat) : Byte := Store.get m 0 a

/-- Write one byte; writing 0 removes the entry. -/
def Memory.write (m : List Host.Cell) (a : Nat) (b : Byte) : List Host.Cell := Store.put m 0 a b

/-- The canonical form: addresses rise strictly, and no entry equals what an unlisted address reads as. -/
def Memory.wf (m : List Host.Cell) : Bool := Store.sorted m && m.all fun e => e.2 != 0

/-- Bytes `a` to `a + n - 1`, ascending. -/
def Memory.readBytes (m : List Host.Cell) (a : Nat) : Nat → List Nat
  | 0 => []
  | n + 1 => (Memory.read m a).toNat :: Memory.readBytes m (a + 1) n

/-- Bytes read as one little-endian number. -/
def leNat : List Nat → Nat
  | [] => 0
  | b :: bs => b + 256 * leNat bs

/-- `n` bytes of a list from place `off`. -/
def part (b : List Nat) (off n : Nat) : List Nat := (b.drop off).take n

/-- The little-endian number that `n` bytes of a list from place `off` hold. -/
def field (b : List Nat) (off n : Nat) : Nat := leNat ((b.drop off).take n)

/-- The `n` little-endian bytes of a number. -/
def leBytes : Nat → Nat → List Nat
  | 0, _ => []
  | n + 1, v => v % 256 :: leBytes n (v / 256)

/-- The little-endian number in `n` bytes at `a`. -/
def Memory.rd (m : List Host.Cell) (a n : Nat) : Nat := leNat (Memory.readBytes m a n)

/-- Write bytes at ascending addresses. -/
def Memory.writeBytes (m : List Host.Cell) (a : Nat) : List Nat → List Host.Cell
  | [] => m
  | b :: bs => Memory.writeBytes (Memory.write m a (BitVec.ofNat 8 b)) (a + 1) bs

/-- The bytes that one set of check bits covers at an address: a 64-byte block of LPDDR (R258), a 64-bit word elsewhere
(R252). -/
def eccBytes (a : Nat) : Nat := if a < lpddrEnd then 64 else 8

/-- The start of the block or word of check bits that an address lies in. -/
def eccBase (a : Nat) : Nat := a / eccBytes a * eccBytes a

/-- `n` bytes at `a` cover the 64-bit word at `w` whole. -/
def coversWord (a n w : Nat) : Bool := decide (a ≤ w) && decide (w + 8 ≤ a + n)

def State.rd1 (s : State) (a : Nat) : Nat := (Memory.read s.mem a).toNat
def State.rd (s : State) (a n : Nat) : Nat := Memory.rd s.mem a n
def State.rdBytes (s : State) (a n : Nat) : List Nat := Memory.readBytes s.mem a n

/-- Write bytes; a 64-bit word written whole is no longer poisoned, and an LPDDR block is not once all its words are
(R252, R343). DEDUCED: notes/assumptions/16.md. -/
def State.wrBytes (s : State) (a : Nat) (bs : List Nat) : State :=
  { s with mem := Memory.writeBytes s.mem a bs,
           poison := s.poison.filter fun w => !coversWord a bs.length w }

/-- Write an `n`-byte little-endian number. -/
def State.wr (s : State) (a n v : Nat) : State := s.wrBytes a (leBytes n v)

/-- Give `n` bytes at `a` the value 0. -/
def State.zeroRange (s : State) (a n : Nat) : State :=
  { s with mem := Store.eraseRange s.mem a n, poison := s.poison.filter fun w => !coversWord a n w }

/-- The word or block at `a` is poisoned. -/
def State.poisoned (s : State) (a : Nat) : Bool := s.poison.any fun w => eccBase w == eccBase a

/-- Poisoned words and blocks that a read of `n` bytes at `a` meets, each once (R252, R258). -/
def State.poisonIn (s : State) (a n : Nat) : List Nat :=
  ((s.poison.map eccBase).filter fun w => decide (a < w + eccBytes w) && decide (w < a + n)).foldl
    (fun l w => if w ∈ l then l else l ++ [w]) []

/-- Mark the word or block at `a` poisoned; what it then holds is not stated (R252, R258). DESIGN CHOICE:
notes/assumptions/16.md. -/
def State.poisonWord (s : State) (a : Nat) : State :=
  let w := eccBase a
  if s.poisoned a then s
  else
    let (v, s) := s.draw
    { s with mem := Memory.writeBytes s.mem w (leBytes (eccBytes a) v),
             poison := s.poison ++ (List.range (eccBytes a / 8)).map fun k => w + 8 * k }

/-! ### The disabled-unit map (R4, R22) -/

/-- Physical cluster `p` holds a logical id. -/
def activeIn (map p : Nat) : Bool := bit map p && decide (p < nPhys)

def State.isActive (s : State) (p : Nat) : Bool := activeIn s.active p

/-- The physical columns of a row that hold logical ids, ascending. -/
def activeCols (map row : Nat) : List Nat := (List.range 34).filter fun c => activeIn map (row * 34 + c)

/-- The physical cluster of logical id `l`, under a map. -/
def physOf (map l : Nat) : Option Nat :=
  if l < 2048 then ((activeCols map (l / 32))[l % 32]?).map fun c => l / 32 * 34 + c else none

/-- The logical id of physical cluster `p`, under a map. -/
def logicalOf (map p : Nat) : Option Nat :=
  if activeIn map p then
    some (p / 34 * 32 + ((activeCols map (p / 34)).filter fun c => decide (c < p % 34)).length)
  else none

/-- The physical clusters that hold logical ids, in physical order. -/
def activeList (map : Nat) : List Nat := (List.range nPhys).filter fun p => activeIn map p

/-! ### Address regions (R245, R246) -/

/-- Where an address lies. -/
inductive Region where
  | lpddr
  | veneer (p off : Nat)
  | csr
  | list (u : UnitKind) (idx off : Nat)
  | rowSetup (row off : Nat)
  | hole
deriving DecidableEq, Repr

/-- The region of an address, under a map (R245, R21, R172, R246). -/
def regionOf (map a : Nat) : Region :=
  if a < lpddrEnd then .lpddr
  else if 0x010000000000 ≤ a ∧ a < 0x010220000000 then
    let p := (a - 0x010000000000) / 0x400000
    let o := (a - 0x010000000000) % 0x400000
    if o < veneerSize ∧ activeIn map p then .veneer p o else .hole
  else if 0x030000000000 ≤ a ∧ a < 0x030100000000 then .csr
  else if 0x040000000000 ≤ a ∧ a < 0x040000000000 + 2176 * 0x20000 then
    .list .cluster ((a - 0x040000000000) / 0x20000) ((a - 0x040000000000) % 0x20000)
  else if 0x040020000000 ≤ a ∧ a < 0x040020000000 + 64 * 0x10000 then
    .list .row ((a - 0x040020000000) / 0x10000) ((a - 0x040020000000) % 0x10000)
  else if 0x040030000000 ≤ a ∧ a < 0x040030000000 + 8 * 0x10000 then
    .list .port ((a - 0x040030000000) / 0x10000) ((a - 0x040030000000) % 0x10000)
  else if 0x040040000000 ≤ a ∧ a < 0x040040000000 + 16 * 0x10000 then
    .list .update ((a - 0x040040000000) / 0x10000) ((a - 0x040040000000) % 0x10000)
  else if 0x040050000000 ≤ a ∧ a < 0x040050020000 then .list .root 0 (a - 0x040050000000)
  else if 0x040051000000 ≤ a ∧ a < 0x040051020000 then .list .krylov 0 (a - 0x040051000000)
  else if 0x050010000000 ≤ a ∧ a < 0x050014000000 then
    let o := (a - 0x050010000000) % 0x100000
    if o < 0x40000 ∨ 0x80000 ≤ o then .rowSetup ((a - 0x050010000000) / 0x100000) o else .hole
  else .hole

/-- The bytes of one list memory (R21). -/
def listSize : UnitKind → Nat
  | .cluster | .root | .krylov => 0x20000
  | _ => 0x10000

/-- The base of a unit's list memory (R21). -/
def listBase : UnitKind → Nat → Nat
  | .cluster, i => 0x040000000000 + i * 0x20000
  | .row, i => 0x040020000000 + i * 0x10000
  | .port, i => 0x040030000000 + i * 0x10000
  | .update, i => 0x040040000000 + i * 0x10000
  | .root, _ => 0x040050000000
  | .krylov, _ => 0x040051000000

/-- The end of a range lies in usable LPDDR. -/
def inLpddr (a n : Nat) : Bool := decide (a + n ≤ lpddrEnd)

/-! ### Register blocks (R247) -/

/-- The fields of the register at an address; none where no register stands (R246). -/
def fieldsAt (a : Nat) : List Fld :=
  if a % 8 ≠ 0 then []
  else if 0x030000000000 ≤ a ∧ a < 0x030010000000 then fieldsTICK (a - tickBase)
  else if 0x030010000000 ≤ a ∧ a < 0x030010000000 + 2176 * 0x10000 then
    let p := (a - 0x030010000000) / 0x10000
    let o := (a - 0x030010000000) % 0x10000
    if o < 0x4000 then fieldsARR p o
    else if o < 0x8000 then fieldsACC p (o - 0x4000)
    else if o < 0xC000 then fieldsFIN p (o - 0x8000)
    else fieldsGAU p (o - 0xC000)
  else if 0x030020000000 ≤ a ∧ a < 0x030020000000 + 64 * 0x10000 then
    fieldsEXN ((a - 0x030020000000) / 0x10000) ((a - 0x030020000000) % 0x10000)
  else if 0x030030000000 ≤ a ∧ a < 0x030031000000 then fieldsROOT (a - rootBase)
  else if 0x030031000000 ≤ a ∧ a < 0x030032000000 then fieldsSOL (a - solBase)
  else if 0x030040000000 ≤ a ∧ a < 0x030040100000 then
    fieldsUPD ((a - 0x030040000000) / 0x10000) ((a - 0x030040000000) % 0x10000)
  else if 0x030040100000 ≤ a ∧ a < 0x030040110000 then fieldsUPDC (a - updCommon)
  else if 0x030050000000 ≤ a ∧ a < 0x030050100000 then
    fieldsMEM ((a - 0x030050000000) / 0x10000) ((a - 0x030050000000) % 0x10000)
  else if 0x030058000000 ≤ a ∧ a < 0x030058010000 then fieldsVNR (a - vnrBase)
  else if 0x030060000000 ≤ a ∧ a < 0x030060800000 then
    fieldsLNK ((a - 0x030060000000) / 0x100000) ((a - 0x030060000000) % 0x100000)
  else if 0x030068000000 ≤ a ∧ a < 0x030068010000 then fieldsFAB (a - fabBase)
  else if 0x030070000000 ≤ a ∧ a < 0x030070010000 then fieldsDET (a - detBase)
  else if 0x030071000000 ≤ a ∧ a < 0x030071010000 then fieldsERR (a - errBase)
  else if 0x030080000000 ≤ a ∧ a < 0x030080010000 then fieldsETH (a - ethBase)
  else if 0x030090000000 ≤ a ∧ a < 0x030090010000 then fieldsCFG (a - cfgBase)
  else if 0x0300A0000000 ≤ a ∧ a < 0x0300A0010000 then fieldsPWR (a - pwrBase)
  else if 0x0300F0000000 ≤ a ∧ a < 0x0300F0010000 then fieldsDEV (a - devBase)
  else []

/-- The fields in use: every field that the state lists, as a predicate on keys, is recognised through the address. -/
def fieldOfKey (k : Nat) : Option Fld := (fieldsAt (k / 64)).find? fun f => f.lo == k % 64

/-- Keep a field's value over a job load unless it is a counter that the load zeroes. -/
def zeroCounters (fl : List (Nat × Nat)) : List (Nat × Nat) :=
  fl.filter fun e => match fieldOfKey e.1 with
    | some f => !f.ctr
    | none => true

/-- Keep the fields that survive a warm reset (R12); `level` 2 keeps those that also survive a cold reset. R299's `slice ids` are
read as every field that places the device in its slice: FAB_SLICE's SIZE, ZRING and WRING and LNK_SLICE's FENCE beside the two
ids. DESIGN CHOICE: notes/assumptions/23.md. -/
def keepFields (level : Nat) (fl : List (Nat × Nat)) : List (Nat × Nat) :=
  fl.filter fun e => match fieldOfKey e.1 with
    | some f => decide (level ≤ f.keep)
    | none => false

end Sys2Proof.Machine
end

