-- ==== Sys2Proof/Machine/Lists.lean ====
section
/-! DEFINITION. The sealed private copies of the bank that runs (R26), and cutting lists (R21 to R25): entries, headers,
and the lists of a bank. -/

namespace Sys2Proof.Machine

open Reg

/-! ### Sealed private copies -/

/-- The sealed copy of the bank that runs. -/
def State.copy (s : State) : Option SealCopy := if s.runBank = 0 then s.sealA else s.sealB

/-- The memory as the seal of the running bank read it. -/
def State.sealedMem (s : State) : List Host.Cell :=
  match s.copy with
  | some c => c.mem
  | none => s.mem

/-- A register field as the seal of the running bank read it. -/
def State.sealedGet (s : State) (f : Fld) : Nat :=
  match s.copy with
  | some c => Store.get c.flds f.reset f.key
  | none => s.get f

/-- The field of the running bank, of a pair of bank registers, as its seal read it. -/
def State.bankGet (s : State) (a b : Fld) : Nat := s.sealedGet (if s.runBank = 0 then a else b)

/-- A little-endian number of the running bank's sealed copy. -/
def State.sealedRd (s : State) (a n : Nat) : Nat := Memory.rd s.sealedMem a n

/-- 64-bit words of the sealed copy, ascending. -/
def State.sealedWords (s : State) (a n : Nat) : List Nat := (List.range n).map fun i => s.sealedRd (a + 8 * i) 8

/-! ### Cutting lists -/

/-- A decoded cutting-list entry (R23), with its index in the bank. -/
structure Entry where
  index : Nat
  start : Nat
  opcode : Nat
  busy : Nat
  rsvd : Nat
  tick : Nat
  desc : Nat
  tag : Nat
  arg : Nat
  check : Nat
deriving DecidableEq, Repr

/-- The entry in two 64-bit words. -/
def entryOf (index w0 w1 : Nat) : Entry :=
  ⟨index, bits w0 19 0, bits w0 31 20, bits w0 51 32, bits w0 63 52, bits w1 15 0, bits w1 31 16, bits w1 47 32,
    bits w1 55 48, bits w1 63 56⟩

/-- The engine class of an entry (R25). -/
def Entry.cls (e : Entry) : Nat := e.opcode / 256

/-- The bytes of one bank of a unit's list memory. -/
def bankSize (u : UnitKind) : Nat := listSize u / 2

/-- The base of a unit's list in a bank (R21). -/
def bankBase (u : UnitKind) (idx b : Nat) : Nat := listBase u idx + b * bankSize u

/-- Entry `i` of a unit's list. -/
def entryAt (m : List Host.Cell) (u : UnitKind) (idx b i : Nat) : Entry :=
  let a := bankBase u idx b + i * 16
  entryOf i (Memory.rd m a 8) (Memory.rd m (a + 8) 8)

/-- ENTRY_COUNT of a bank header (R24). -/
def entryCount (m : List Host.Cell) (u : UnitKind) (idx b : Nat) : Nat :=
  bits (Memory.rd m (bankBase u idx b + 8) 8) 28 16

/-- The entries of a list after its header, in order. -/
def entries (m : List Host.Cell) (u : UnitKind) (idx b : Nat) : List Entry :=
  (List.range (entryCount m u idx b)).map fun i => entryAt m u idx b (i + 1)

/-- The entries of a unit under the bank that runs, from its sealed copy. -/
def State.runEntries (s : State) (u : UnitKind) (idx : Nat) : List Entry := entries s.sealedMem u idx s.runBank

end Sys2Proof.Machine
end

