-- ==== Sys2Proof/Machine/Keccak.lean ====
section
/-! DEFINITION. SHAKE256 (the digests of R318 to R325, R199, R376 to R386) and the two checksums that several rules
name: CRC-32 and CRC-64 in the forms the rules give (R268, R241, R358). -/

namespace Sys2Proof.Machine

/-! ### SHAKE256 (FIPS 202, as the table of standards of the scope names it)

The 25 lanes of the sponge's state are a list, lane `5 * y + x` at sheet `x` and plane `y`. The rotation offsets and
the round constants are computed from their definitions, the walk over the lanes and the feedback register. -/

/-- A lane turned towards its high bits. -/
def turnLane (lane by' : Nat) : Nat := lane % 2 ^ (64 - by') * 2 ^ by' + lane / 2 ^ (64 - by')

/-- The walk of the 24 lanes other than lane 0: where a lane stands, where the permutation puts it, and how far it
turns on the way, the triangular number of its turn. -/
def laneWalk : Nat → Nat → Nat → Nat → List (Nat × Nat × Nat)
  | 0, _, _, _ => []
  | left + 1, turn, x, y =>
    let y' := (2 * x + 3 * y) % 5
    (5 * y + x, 5 * y' + y, turn * (turn + 1) / 2 % 64) :: laneWalk left (turn + 1) y y'

/-- The exclusive or of the five lanes of a sheet. -/
def sheetParity (lanes : List Nat) (x : Nat) : Nat :=
  [0, 5, 10, 15, 20].foldl (fun acc o => Nat.xor acc (lanes.getD (o + x % 5) 0)) 0

/-- Every lane takes up the parities of the two neighbouring sheets. -/
def mixSheets (lanes : List Nat) : List Nat :=
  let effect := (List.range 5).map fun x => Nat.xor (sheetParity lanes (x + 4)) (turnLane (sheetParity lanes (x + 1)) 1)
  lanes.zipWith Nat.xor (effect ++ effect ++ effect ++ effect ++ effect)

/-- Every lane turns and moves along the walk. -/
def moveLanes (lanes : List Nat) : List Nat :=
  (laneWalk 24 1 1 0).foldl (fun out m => out.set m.2.1 (turnLane (lanes.getD m.1 0) m.2.2)) lanes

/-- One plane: a lane changes where the next is 0 and the one after it is 1. -/
def mixPlane : List Nat → List Nat
  | [p, q, r, s, t] =>
    let fold (u v w : Nat) := Nat.xor u (Nat.xor w (Nat.land v w))
    [fold p q r, fold q r s, fold r s t, fold s t p, fold t p q]
  | l => l

/-- The feedback register advances: bits 0, 4, 5 and 6 take up the bit that leaves. -/
def feedback (r : Nat) : Nat := if r < 128 then 2 * r else Nat.xor (2 * r) 0x171

/-- The constant of a round from the feedback register, whose seven next outputs stand at bits 0, 1, 3, 7, 15, 31 and
63; and the register after it. -/
def roundConstant (r : Nat) : Nat × Nat :=
  [0, 1, 3, 7, 15, 31, 63].foldl (fun c at' => (c.1 + c.2 % 2 * 2 ^ at', feedback c.2)) (0, r)

/-- One round over the lanes and the feedback register. -/
def spongeRound (st : List Nat × Nat) : List Nat × Nat :=
  let moved := moveLanes (mixSheets st.1)
  let c := roundConstant st.2
  match (List.range 5).flatMap fun y => mixPlane ((moved.drop (5 * y)).take 5) with
  | l0 :: rest => (Nat.xor l0 c.1 :: rest, c.2)
  | [] => ([], c.2)

/-- The permutation: 24 rounds. -/
def spongeMix (lanes : List Nat) : List Nat := ((List.range 24).foldl (fun st _ => spongeRound st) (lanes, 1)).1

/-- The bytes a block of SHAKE256 takes up. -/
def shakeRate : Nat := 136

/-- The padding after a message: the suffix 1111 of SHAKE with the first 1 of the padding, zeros, and the last 1 in the
top bit of the block's last byte. -/
def shakeTail (len : Nat) : List Nat :=
  match shakeRate - len % shakeRate - 1 with
  | 0 => [0x9F]
  | z + 1 => 0x1F :: List.replicate z 0 ++ [0x80]

/-- Take up the next `n` blocks of the padded bytes. -/
def takeUp (bytes : List Nat) (n : Nat) : List Nat :=
  (List.range n).foldl (fun lanes k =>
    let block := (bytes.drop (shakeRate * k)).take shakeRate
    spongeMix ((List.range 25).map fun i => Nat.xor (lanes.getD i 0) (leNat ((block.drop (8 * i)).take 8))))
    (List.replicate 25 0)

/-- The first 32 bytes of SHAKE256 over a message. -/
def shake256 (m : List Nat) : List Nat :=
  ((takeUp (m ++ shakeTail m.length) (m.length / shakeRate + 1)).take 4).flatMap (leBytes 8)

/-! ### CRCs -/

/-- One byte of a reflected CRC with the reflected polynomial `poly`. -/
def crcByte (poly : Nat) (c b : Nat) : Nat :=
  (List.range 8).foldl (fun c _ => if c % 2 = 1 then Nat.xor (c / 2) poly else c / 2) (Nat.xor c b)

/-- CRC-32 as IEEE 802.3 defines it (R268). -/
def crc32 (m : List Nat) : Nat := Nat.xor (m.foldl (crcByte 0xEDB88320) 0xFFFFFFFF) 0xFFFFFFFF

/-- CRC-32C: polynomial 0x1EDC_6F41, reflected, initial value and final XOR all ones (R358). -/
def crc32c (m : List Nat) : Nat := Nat.xor (m.foldl (crcByte 0x82F63B78) 0xFFFFFFFF) 0xFFFFFFFF

/-- CRC-64/XZ: polynomial 0x42F0_E1EB_A9EA_3693, reflected, initial value and final XOR all ones (R241). -/
def crc64 (m : List Nat) : Nat := Nat.xor (m.foldl (crcByte 0xC96C5795D7870F42) (2 ^ 64 - 1)) (2 ^ 64 - 1)

/-- One byte of an unreflected CRC of `w` bits. -/
def crcByteMsb (w poly : Nat) (c b : Nat) : Nat :=
  (List.range 8).foldl (fun c _ => if bit c (w - 1) then Nat.xor (c * 2 % 2 ^ w) poly else c * 2 % 2 ^ w)
    (Nat.xor c (b * 2 ^ (w - 8)))

/-- CRC-8 with polynomial 0x07, initial value 0, no reflection and no final XOR (R24). -/
def crc8 (m : List Nat) : Nat := m.foldl (crcByteMsb 8 0x07) 0

end Sys2Proof.Machine
end

