-- ==== Sys2Proof/Machine/Errors.lean ====
section
/-! DEFINITION. Events to the host (R369, R370), the error log (R352), and the one shared operation that every
detected error goes through: counting, logging, nesting and consequence (R327 to R342, R426, R427). -/

namespace Sys2Proof.Machine

open Reg

/-! ### Events -/

/-- The class bit of an event code (table "Events"). -/
def evClass : Nat → Nat
  | 0x02 => 1
  | 0x03 => 2
  | 0x04 | 0x05 | 0x06 => 3
  | 0x08 => 2
  | _ => 0

/-- The event's payload (R369). -/
def eventPayload (e : Event) : List Nat := leBytes 2 e.code ++ leBytes 2 e.flags ++ leBytes 4 0 ++ leBytes 8 e.step ++ e.body

/-- A whole BCP datagram: the header of R358, with its check over header and payload, and the payload. -/
def bcpBytes (ver typ op seq session status : Nat) (payload : List Nat) : List Nat :=
  let head (check : Nat) := leBytes 2 0x5142 ++ leBytes 1 ver ++ leBytes 1 typ ++ leBytes 2 op ++ leBytes 2 payload.length ++
    leBytes 8 seq ++ leBytes 8 session ++ leBytes 2 status ++ leBytes 2 0 ++ leBytes 4 check
  head (crc32c (head 0 ++ payload)) ++ payload

/-- Send an event to the subscription's endpoint, through its next hop (R369). -/
def State.sendEvent (s : State) (b : Sub) (e : Event) : State :=
  s.emitEth b.mac (.bcp b.args.dst b.args.port (bcpBytes b.ver 2 0 e.evseq b.session 0 (eventPayload e)))

/-- Remove the oldest SAMPLE or CENSUS event; `none` if there is none (R370). -/
def dropOldSample : List Event → Option (List Event)
  | [] => none
  | e :: es => if e.code == 2 || e.code == 3 then some es else (dropOldSample es).map (e :: ·)

/-- Queue and send an event that nothing displaces (R369). -/
def State.pushEvent (s : State) (b : Sub) (code : Nat) (body : List Nat) : State :=
  let e : Event := ⟨s.get BCP_EVT_SEQ.NEXT, code, ofBool s.host.lost, s.get TICK_STEP.STEP, body⟩
  let s := (s.incWrap BCP_EVT_SEQ.NEXT).updHost fun h => { h with events := h.events ++ [e], lost := false }
  (s.set BCP_EVT.QUEUED s.host.events.length).sendEvent b e

/-- An event forms: it is queued and sent if its class is subscribed; a full queue displaces a SAMPLE or CENSUS event,
or drops the new one (R370). -/
def State.event (s : State) (code : Nat) (body : List Nat) : State :=
  match s.host.sub with
  | none => s
  | some b =>
    if !bit b.args.classes (evClass code) then s
    else if s.host.events.length < 1024 then s.pushEvent b code body
    else
      let s := (s.inc BCP_EVT.LOST).updHost fun h => { h with lost := true }
      match dropOldSample s.host.events with
      | some es => (s.updHost fun h => { h with events := es }).pushEvent b code body
      | none => s

/-! ### The log -/

/-- The 32 bytes of a log entry (R352). -/
def logBytes (e : LogEntry) : List Nat :=
  leBytes 4 e.seq ++ leBytes 4 (e.err.cls + e.err.scope * 4 + e.err.index % 65536 * 2 ^ 8 + e.err.source * 2 ^ 24)
    ++ leBytes 2 e.err.code
    ++ leBytes 2 (ofBool e.merged + ofBool e.queued * 2 + ofBool e.preempted * 4 + ofBool e.remote * 8 + e.attempt * 16)
    ++ leBytes 8 e.step ++ leBytes 6 e.tick ++ leBytes 6 e.err.detail

/-- The slot after a write to slot `n` (R352): the first 16 entries stay pinned. -/
def nextLogSlot (n : Nat) : Nat := if n = 255 then 16 else n + 1

/-- Write a log entry; entries of class contained or higher also go to the host as events (R352). DEDUCED:
notes/assumptions/10.md. -/
def State.log (s : State) (e : Err) (merged queued remote : Bool) : State :=
  let n := s.get ERR_LOG_STATUS.NEXT
  let s := (s.inc ERR_LOG_STATUS.TOTAL).updErr fun x => { x with written := x.written + 1 }
  let entry : LogEntry :=
    ⟨s.err.written % 2 ^ 32, e, merged, queued, false, remote, s.get ERR_LADDER.ATTEMPT,
      s.get TICK_STEP.STEP, s.get TICK_COUNT.COUNT % 2 ^ 48⟩
  let wrapped := s.get ERR_LOG_STATUS.TOTAL > 256
  let s := s.updErr fun x => { x with log := Store.insert x.log n entry }
  let s := s.set ERR_LOG_STATUS.NEXT (nextLogSlot n)
  let s := if wrapped then s.set ERR_LOG_STATUS.WRAPPED 1 else s
  if e.cls = 0 then s else s.event 0x01 (logBytes entry)

/-- Set PREEMPTED on the entry of the error in hand, unless the log has been emptied since (R331). -/
def markPreempted (log : List (Nat × LogEntry)) (seq : Option Nat) : List (Nat × LogEntry) :=
  log.map fun x => if some x.2.seq == seq then (x.1, { x.2 with preempted := true }) else x

/-- The SEQ of the entry logged last. -/
def State.lastSeq (s : State) : Nat := s.err.written % 2 ^ 32

/-- An error that is detected now belongs to the next attempt: after the gather of action 2, and outside the procedure of
R346 (R329). -/
def State.nextAttempt (s : State) : Bool := s.err.gathered && !s.tick.mismatch

/-- An error is taken in hand; its log entry is the last one (R330). -/
def State.takeInHand (s : State) (e : Err) : State :=
  let n := s.lastSeq
  let next := s.nextAttempt
  s.updErr fun x => { x with handling := some e, inHand := some n, handNext := next }

/-! ### Class counters -/

/-- Count an error in its class (R331, R353). -/
def State.countErr (s : State) (c : Nat) : State :=
  match c with
  | 0 => s.inc ERR_COUNT0.CORRECTED
  | 1 => s.inc ERR_COUNT0.CONTAINED
  | 2 => s.inc ERR_COUNT1.FATAL_SLICE
  | _ => s.inc ERR_COUNT1.FATAL_DEVICE

/-! ### The spanning tree (R286) -/

/-- The ports towards children. -/
def State.children (s : State) : List Nat := (List.range 8).filter fun p => bit (s.get FAB_TREE.CHILDREN) p

/-- The port towards the parent; none at the root. -/
def State.parent (s : State) : Option Nat := if s.get FAB_TREE.PARENT < 8 then some (s.get FAB_TREE.PARENT) else none

/-- Every tree port. -/
def State.treePorts (s : State) : List Nat := s.parent.toList ++ s.children

/-- Send a message on every tree port but one. -/
def State.emitTree (s : State) (except : Option Nat) (m : Nat → Msg) : State :=
  (s.treePorts.filter fun p => some p != except).foldl (fun s p => s.emit (m p)) s

/-! ### Scopes and sources (R328, R352) -/

def scCluster : Nat := 0
def scPair : Nat := 1
def scRow : Nat := 2
def scUnit : Nat := 3
def scPort : Nat := 4
def scSeq : Nat := 5
def scDevice : Nat := 6
def scSlice : Nat := 7

def srcTICK : Nat := 0x01
def srcARR : Nat := 0x02
def srcACC : Nat := 0x03
def srcFIN : Nat := 0x04
def srcGAU : Nat := 0x05
def srcEXN : Nat := 0x06
def srcROOT : Nat := 0x07
def srcSOL : Nat := 0x08
def srcUPD : Nat := 0x09
def srcMEM : Nat := 0x0A
def srcVNR : Nat := 0x0B
def srcLNK : Nat := 0x0C
def srcFAB : Nat := 0x0D
def srcDET : Nat := 0x0E
def srcETH : Nat := 0x0F
def srcCFG : Nat := 0x10
def srcPWR : Nat := 0x11
def srcERR : Nat := 0x12
def srcCORE : Nat := 0x13

/-! ### Consequences -/

/-- The job state changes, and a STATE event reports it with the log SEQ of its cause, or 0 (R36, R369). -/
def State.setJob (s : State) (j cause : Nat) : State :=
  if s.job = j then s else (s.set TICK_STATUS.STATE j).event 0x07 (j :: leBytes 4 cause)

/-- The arrays return to single mode and every held total is discarded (R79). -/
def State.arrSingle (s : State) : State :=
  (({ s with arr := ⟨[], [], []⟩ }).clearEach (ARR_STATUS.GANG 0) 0x10000 nPhys).clearEach (ARR_STATUS.HOLDING 0) 0x10000 nPhys

/-- What the step has left to its commit, or would have left, is dropped. -/
def State.dropOutcomes (s : State) : State :=
  ({ s with upd := { s.upd with exporting := false, params := [], moved := [], skipped := false, clipped := false, ssq := none,
                                peerCrcs := [], sent := false, repairs := [], noMajority := false },
            root := { s.root with runs := [], outcomes := [] }, sol := ⟨[], []⟩,
            census := [] }).setAll [(SOL_STATUS.ACTIVE, 0), (SOL_STATUS.GATED, 0)]

/-- No tick is open and no engine runs: the step in progress is abandoned (DESIGN CHOICE: notes/assumptions/18.md),
but for what a commit in HALT would still take (R341). -/
def State.stopTicks (s : State) : State :=
  let s := if s.is ERR_STATUS.COMMIT_READY then s else s.dropOutcomes
  ({ s.arrSingle.dropDue with lands := [] }.updTick fun t =>
    { t with inTick := false, glue := 0, busy := [], freeze := 0, notice := 0, frozen := 0, startPend := false,
             dryPend := false, haltPend := false, tickZeroAt := none, haltAtBoundary := false, gathers := [],
             barriers := [], held := false, heldOut := false, mismatch := false, recovery := [], causes := 0, actDone := false,
             sent := false, released := none, injectLive := false }).setAll
    [(TICK_STATUS.DRY, 0), (TICK_STATUS.STRETCHING, 0)]

/-- The handling in progress ends, and with it everything queued (R330, R332). -/
def State.endHandling (s : State) : State :=
  (s.updErr fun e => { e with handling := none, handNext := false, queue := [], named := [], nextNamed := [], proc := [],
                              first := none, gathered := false, parityHere := false, parityNext := false, atGlue := [], haltAfter := false,
                              noticeAfter := false }).setAll
    [(ERR_STATUS.HANDLING, 0), (ERR_STATUS.PENDING, 0), (ERR_STATUS.QDEPTH, 0)]

/-- The job kernel of a row controller ends: the service context resumes if it was suspended or has events (R170,
R171). -/
def State.endCall (s : State) (r : Nat) : State :=
  let x := Store.get s.rows RowSt.reset r
  match x.call with
  | none => s
  | some c =>
    ({ s with rows := Store.put s.rows RowSt.reset r { x with call := none } }).set (EXN_STATUS.CTX r)
      (if c.svcWasRunning || !x.events.isEmpty then 3 else 0)

/-- Every row controller stops its job kernel. -/
def State.stopRows (s : State) : State := s.rows.foldl (fun s r => s.endCall r.1) s

/-- The device enters HALT with the committed generation intact (R340). Outside a run nothing stops (R36). -/
def State.enterHalt (s : State) (cause : Nat) : State :=
  if s.running then (s.stopTicks.stopRows.setJob 3 cause).endHandling
  else s.endHandling

/-- The error as another device sees it (R427). -/
def carry (dev : Nat) (halts : Bool) (e : Err) : CarriedErr := ⟨e.cls, e.source, e.code, e.detail, dev, halts⟩

/-- The halt notice that the device sends on its own word: it carries the first error of the step that the device
detected, or the error at hand where none was (R340, R427). -/
def State.haltNotice (s : State) (e : Err) : State :=
  s.emitTree none fun p => .halt p (carry (s.get FAB_ID.DEV) false (s.err.first.getD e))

/-- A fatal-to-slice error: stop, send the halt notice, enter HALT (R340); a spare swap in progress ends first (R332).
DESIGN CHOICE: notes/assumptions/11.md. -/
def State.fatalSlice (s : State) (e : Err) (cause : Nat) : State :=
  if s.is ERR_SWAP.BUSY then (s.updErr fun x => { x with haltAfter := true }).set ERR_STATUS.HANDLING 1
  else
    ((s.haltNotice e).updTick fun t => { t with startPend := false, dryPend := false }).enterHalt cause

/-- What the device had under way outside a tick stops: a regeneration, a measurement, a signing or an attestation, a
seal, a flash write. -/
def State.stopEngines (s : State) : State :=
  ({ s with upd := { s.upd with regenPend := false }, det := { s.det with signing := none, snapPend := false },
            boot := { s.boot with write := none, attest := none }, host := { s.host with busyWith := none } }.updTick
    fun t => { t with sealing := none, sealLoad := false }).setAll
    [(CFG_FLASH.BUSY, 0), (DET_STATE_CTRL.BUSY, 0), (DET_PROV_STATUS.SIGNING, 0), (TICK_STATUS.SEALING, 0), (FAB_PERM.RUNNING, 0)]

/-- A fatal-to-device error (R342): the halt notice goes out, every engine stops, the lanes go to electrical idle,
DEVICE_DEAD is set; a spare swap in progress has failed. -/
def State.fatalDevice (s : State) (e : Err) (cause : Nat) : State :=
  let s := (s.haltNotice e).stopEngines
  let s := if s.is ERR_SWAP.BUSY then s.setAll [(ERR_SWAP.BUSY, 0), (ERR_SWAP.FAILED, 1)] else s
  let s := (s.updErr fun x => { x with swaps := [], haltAfter := false }).enterHalt cause
  let s := (List.range 8).foldl (fun s p => s.setAll [(LNK_STATUS.STATE p, 0), (LNK_STATUS.LANES_UP p, 0)]) s
  s.setAll [(ETH_STATUS.STATE, 0), (ETH_STATUS.LANES_UP, 0), (ERR_STATUS.DEVICE_DEAD, 1)]

/-- A sealed private copy has failed its parity in a step (R426). -/
def State.noteParity (s : State) : State :=
  if !s.running then s
  else if s.nextAttempt then s.updErr fun x => { x with parityNext := true }
  else s.updErr fun x => { x with parityHere := true }

/-- The procedure of R346 has met a contained error (R348). -/
def State.noteProc (s : State) (e : Err) : State :=
  if s.err.gathered && s.tick.mismatch then s.updErr fun x => { x with proc := x.proc ++ [e] } else s

/-- A contained error of the attempt in progress or, after the gather of action 2 and outside the procedure of R346, of
the next one (R329). It belongs to an attempt only while a step runs; a dry fit is its only attempt (R335). -/
def State.contained (s : State) (e : Err) : State :=
  if s.running then
    if s.nextAttempt then s.updErr fun x => { x with nextNamed := x.nextNamed ++ [e] }
    else ((s.updErr fun x => { x with named := x.named ++ [e] }).noteProc e).set ERR_STATUS.PENDING 1
  else s

/-- The consequence of an error that is now in hand (R330, R333, R340, R342). A fatal-to-slice error that was to be
reported at the glue-up (`atCheck`) is carried by the gather of action 2, whose barrier halts the slice. -/
def State.consequence (s : State) (e : Err) (cause : Nat) (atCheck : Bool := false) : State :=
  match e.cls with
  | 0 => s
  | 1 => if s.running then (s.contained e).set ERR_STATUS.HANDLING 1 else s.updErr fun x => { x with handling := none }
  | 2 => if atCheck then s.set ERR_STATUS.HANDLING 1 else s.fatalSlice e cause
  | _ => s.fatalDevice e cause

/-- The first error of the step that this device detects is the one its gathers and notices carry (R427); in a dry fit
an error above corrected class clears PASS (R335). -/
def State.noteFirst (s : State) (e : Err) : State :=
  if e.cls = 0 ∨ s.running = false then s
  else (s.updErr fun x => { x with first := x.first.or (some e) }).updTick fun t =>
    { t with dryFault := t.dryFault || s.is TICK_STATUS.DRY }

/-- An error of class contained or higher that arrives while `h` is being handled (R331, R332). One that finds 16
entries queued is logged in its own class and escalates to the fatal-to-slice error QUEUE_OVF of R352. DESIGN CHOICE:
notes/assumptions/16.md. -/
def State.nested (s : State) (h e : Err) (atCheck : Bool := false) : State :=
  if h.cls < e.cls then
    let s := (s.updErr fun x => { x with log := markPreempted x.log x.inHand }).inc ERR_COUNT3.PREEMPTED
    let s := (s.log e false false false).takeInHand e
    s.consequence e s.lastSeq atCheck
  else if h.scope = e.scope ∧ h.index = e.index then
    (s.log e true false false).inc ERR_COUNT2.MERGED
  else if s.err.queue.length < 16 then
    let s := (s.log e false true false).inc ERR_COUNT2.QUEUED
    let n := s.lastSeq
    let next := s.nextAttempt
    let s := (s.updErr fun x => { x with queue := x.queue ++ [⟨e, next, some n⟩] }).noteProc e
    s.set ERR_STATUS.QDEPTH s.err.queue.length
  else
    let (v, s) := ((s.set ERR_STATUS.QUEUE_OVF 1).inc ERR_COUNT3.ESCALATED).draw
    let e2 : Err := { e with cls := 2, source := srcERR, code := 4, detail := v % 2 ^ 48 }
    let s := (s.log e false false false).countErr 2
    let s := if h.cls < 2 then
        (s.updErr fun x => { x with log := markPreempted x.log x.inHand }).inc ERR_COUNT3.PREEMPTED
      else s
    let s := s.log e2 false false false
    let s := if h.cls < 2 then s.takeInHand e2 else s
    s.consequence e2 s.lastSeq atCheck

/-- An error is detected: it is counted in its class, logged, nested into the handling in progress or taken in hand,
and has the consequence of its class (R327 to R332, R352). -/
def State.raise (s : State) (e : Err) (atCheck : Bool := false) : State :=
  let s := (s.countErr e.cls).noteFirst e
  if e.cls = 0 then (if s.is ERR_CTRL.LOG_CORR then s.log e false false false else s)
  else match s.err.handling with
    | some h => s.nested h e atCheck
    | none =>
      let s := (s.log e false false false).takeInHand e
      s.consequence e s.lastSeq atCheck

/-- Two carried errors are one: the mark of R426 tells what the slice does, not which error it is. -/
def sameErr (a b : CarriedErr) : Bool := { a with halts := false } == { b with halts := false }

/-- Log an error that another device detected, once; `next` says that it belongs to the next attempt (R329, R427).
DEDUCED: notes/assumptions/16.md. -/
def State.logRemote (s : State) (next : Bool) (c : CarriedErr) : State :=
  if (s.err.remote ++ s.err.nextRemote).any (sameErr c) then s
  else
    let e : Err := ⟨c.cls, 7, c.dev, c.source, c.code, c.detail⟩
    (s.updErr fun x =>
      if next then { x with nextRemote := x.nextRemote ++ [c] } else { x with remote := x.remote ++ [c] }).log e false false true

/-! ### The ways to raise an error -/

/-- The scope and index of a unit's error (R27). -/
def unitScope : UnitKind → Nat → Nat × Nat
  | .cluster, i => (scCluster, i)
  | .row, i => (scRow, i)
  | .port, i => (scPort, i)
  | .update, i => (scUnit, i)
  | .root, _ => (scSeq, 1)
  | .krylov, _ => (scSeq, 2)

/-- An error whose DETAIL the spec does not name (DESIGN CHOICE: notes/assumptions/17.md). -/
def State.raiseOpen (s : State) (cls scope index source code : Nat) : State :=
  let (v, s) := s.draw
  s.raise ⟨cls, scope, index, source, code, v % 2 ^ 48⟩

/-- A corrected-class event of a block for which no field names a CODE (DESIGN CHOICE: notes/assumptions/17.md). -/
def State.corrected (s : State) (scope index source : Nat) : State :=
  let (v, s) := s.draw
  s.raiseOpen 0 scope index source (v % 2 ^ 16)

/-- The scope, index and source of a block, for a write that is logged (R10). -/
def blockOf (a : Nat) : Nat × Nat × Nat :=
  if arrBase 0 ≤ a ∧ a < arrBase nPhys then
    let o := (a - arrBase 0) % 0x10000
    (scCluster, (a - arrBase 0) / 0x10000,
      if o < 0x4000 then srcARR else if o < 0x8000 then srcACC else if o < 0xC000 then srcFIN else srcGAU)
  else if exnBase 0 ≤ a ∧ a < exnBase 64 then (scRow, (a - exnBase 0) / 0x10000, srcEXN)
  else if a / 0x1000000 = 0x030030 then (scSeq, 1, srcROOT)
  else if a / 0x1000000 = 0x030031 then (scSeq, 2, srcSOL)
  else if updCommon ≤ a ∧ a < updCommon + 0x10000 then (scDevice, 0, srcUPD)
  else if a / 0x1000000 = 0x030040 then (scUnit, a / 0x10000 % 16, srcUPD)
  else if a / 0x1000000 = 0x030050 then (scUnit, a / 0x10000 % 16, srcMEM)
  else if a / 0x1000000 = 0x030058 then (scDevice, 0, srcVNR)
  else if a / 0x1000000 = 0x030060 then (scPort, a / 0x100000 % 8, srcLNK)
  else if a / 0x1000000 = 0x030068 then (scDevice, 0, srcFAB)
  else if a / 0x1000000 = 0x030070 then (scDevice, 0, srcDET)
  else if a / 0x1000000 = 0x030071 then (scDevice, 0, srcERR)
  else if a / 0x1000000 = 0x030080 then (scDevice, 0, srcETH)
  else if a / 0x1000000 = 0x030090 then (scDevice, 0, srcCFG)
  else if a / 0x1000000 = 0x0300A0 then (scDevice, 0, srcPWR)
  else if a / 0x1000000 = 0x0300F0 then (scDevice, 0, srcCORE)
  else (scSeq, 0, srcTICK)

/-- A write of an RW-L field (R10, R422): while a job is loaded a value that would change it is logged instead. -/
def State.setLocked (s : State) (f : Fld) (x : Nat) : State :=
  if s.tick.loaded then
    (if x % 2 ^ f.width = s.get f then s else let b := blockOf f.addr; s.corrected b.1 b.2.1 b.2.2)
  else s.set f x

/-- A fatal-to-slice error that is detected now and reported at the next glue-up (R81, R188, R278, R282). -/
def State.fatalAtGlue (s : State) (scope index source code : Nat) : State :=
  let (v, s) := s.draw
  let e : Err := ⟨2, scope, index, source, code, v % 2 ^ 48⟩
  s.updErr fun x => { x with atGlue := x.atGlue ++ [e] }

/-- An error of which the spec names neither scope nor index nor DETAIL (DESIGN CHOICE: notes/assumptions/17.md). -/
def State.raiseFree (s : State) (cls source code : Nat) : State :=
  let (x, s) := s.draw
  let (i, s) := s.draw
  s.raiseOpen cls (x % 8) (i % 2 ^ 16) source code

/-- Record a schedule fault in TICK_FAULT, unless a record is held (TICK_FAULT.VALID). -/
def State.recordFault (s : State) (code cls idx entry bank atTick : Nat) : State :=
  if s.is TICK_FAULT.VALID then s
  else s.setAll [(TICK_FAULT.CODE, code), (TICK_FAULT.UNIT_CLASS, cls), (TICK_FAULT.UNIT_INDEX, idx),
    (TICK_FAULT.ENTRY, entry), (TICK_FAULT.BANK, bank), (TICK_FAULT.VALID, 1), (TICK_FAULT_TICK.AT_TICK, atTick)]

/-- A run-time schedule fault of a unit: recorded, and raised in its class with the unit's scope (R26, R27). -/
def State.schedFault (s : State) (cls code : Nat) (u : UnitKind) (idx entry : Nat) : State :=
  let s := s.recordFault code u.code idx entry s.runBank (s.get TICK_COUNT.COUNT)
  let sc := unitScope u idx
  s.raiseOpen cls sc.1 sc.2 srcTICK code

def fBUSY : Nat := 0x10
def fOVERRUN : Nat := 0x11
def fSTRETCH : Nat := 0x12

/-! ### Memory errors (R252, R258, R352) -/

/-- Record an error in VNR_ERR or MEM_ERR unless a record is held. -/
def State.memRecord (s : State) (a typ vsrc msrc : Nat) : State :=
  if a < lpddrEnd then
    let c := a / lpddrWindow
    if s.is (MEM_ERR.VALID c) then s
    else s.setAll [(MEM_ERR.ADDR c, a), (MEM_ERR.TYPE c, typ), (MEM_ERR.SOURCE c, msrc), (MEM_ERR.VALID c, 1)]
  else if s.is VNR_ERR.VALID then s
  else s.setAll [(VNR_ERR.PCLUSTER, (a - veneerBase 0) / 0x400000), (VNR_ERR.OFFSET, (a - veneerBase 0) % 0x400000),
    (VNR_ERR.TYPE, typ), (VNR_ERR.SOURCE, vsrc), (VNR_ERR.VALID, 1)]

/-- The error of a memory access, in the scope of R352. -/
def memErr (cls a typ : Nat) : Err :=
  if a < lpddrEnd then ⟨cls, scUnit, a / lpddrWindow, srcMEM, typ, a⟩
  else ⟨cls, scCluster, (a - veneerBase 0) / 0x400000, srcVNR, typ, (a - veneerBase 0) % 0x400000⟩

/-- A corrected error at an address (R252, R258). -/
def State.memCorrected (s : State) (a vsrc msrc : Nat) : State :=
  let s := if a < lpddrEnd then s.inc (MEM_ECC.CE (a / lpddrWindow)) else s.inc VNR_ECC.CE
  (s.memRecord a 0 vsrc msrc).raise (memErr 0 a 0)

/-- An uncorrectable error met by a data-path read (R252, R258): contained, and fatal-to-slice when the replay of the
same step meets it again. `f` widens the scope (R90, R96). DEDUCED: notes/assumptions/16.md. -/
def State.memUncorrectableAs (s : State) (f : Err → Err) (a vsrc msrc : Nat) : State :=
  let was := s.poisoned a
  let typ := if was && !decide (a < lpddrEnd) then 3 else 1
  let s := s.poisonWord a
  let s := if a < lpddrEnd then s.inc (MEM_ECC.UE (a / lpddrWindow)) else s.inc VNR_ECC.UE
  let again := decide (eccBase a ∈ s.err.ueSeenPrev)
  let s := s.updErr fun x => { x with ueSeen := eccBase a :: x.ueSeen }
  (s.memRecord a typ vsrc msrc).raise (f (memErr (if again then 2 else 1) a typ))

/-- An uncorrectable error in the scope of R352. -/
def State.memUncorrectable (s : State) (a vsrc msrc : Nat) : State := s.memUncorrectableAs id a vsrc msrc

/-- A byte lies in some range. -/
def inRanges (rs : List (Nat × Nat)) (b : Nat) : Bool := rs.any fun r => decide (r.1 ≤ b) && decide (b < r.1 + r.2)

/-- A write that covers ranges together, before it is made: a poisoned veneer word that it covers in part meets the
error on the read half, and one that it covers whole is no longer poisoned (R252). DEDUCED: notes/assumptions/16.md.
-/
def State.noteWrite (s : State) (f : Err → Err) (rs : List (Nat × Nat)) (vsrc : Nat) : State :=
  let met := s.poison.filter fun w => decide (lpddrEnd ≤ w) && (List.range 8).any fun k => inRanges rs (w + k)
  let half := met.filter fun w => !(List.range 8).all fun k => inRanges rs (w + k)
  let s := half.foldl (fun s w => s.memUncorrectableAs f w vsrc 4) s
  { s with poison := s.poison.filter fun w => !met.contains w || half.contains w }

/-- The words of the ranges a data-path entry reads that are poisoned raise their errors (R252). -/
def State.readPoison (s : State) (rs : List (Nat × Nat)) (vsrc msrc : Nat) : State :=
  (rs.flatMap fun r => s.poisonIn r.1 r.2).foldl (fun s w => s.memUncorrectable w vsrc msrc) s

end Sys2Proof.Machine
end

