-- ==== Sys2Proof/Machine/Det.lean ====
section
/-! DEFINITION. Determinism and provenance (R316 to R326): the map digest, the input chain, and provenance records. -/

namespace Sys2Proof.Machine

open Reg

/-- The use of a feature that STRICT replaces sets its bit (R316); FIRST_STEP is taken at the first use of any. -/
def State.ndUsed (s : State) (f : Fld) : State :=
  let none := !(s.is DET_ND_USED.SCATTER_U || s.is DET_ND_USED.VSXA_U || s.is DET_ND_USED.SRE ||
    s.is DET_ND_USED.REROUTE || s.is DET_ND_USED.OPP_STRETCH)
  let s := if none then s.set DET_ND_USED.FIRST_STEP (s.get TICK_STEP.STEP % 2 ^ 48) else s
  s.set f 1

/-- Write a 32-byte digest to four registers (word i holds bytes 8i to 8i + 7). -/
def State.setDigest (s : State) (fs : List Fld) (d : List Nat) : State :=
  s.setAll ((fs.zip (List.range 4)).map fun p => (p.1, leNat ((d.drop (8 * p.2)).take 8)))

/-- The 32 bytes that four registers hold. -/
def State.digestOf (s : State) (fs : List Fld) : List Nat := fs.flatMap fun f => leBytes 8 (s.get f)

def mapDigestRegs : List Fld :=
  [DET_MAP_DIGEST0.DIGEST, DET_MAP_DIGEST1.DIGEST, DET_MAP_DIGEST2.DIGEST, DET_MAP_DIGEST3.DIGEST]
def stateDigestRegs : List Fld :=
  [DET_STATE_DIGEST0.DIGEST, DET_STATE_DIGEST1.DIGEST, DET_STATE_DIGEST2.DIGEST, DET_STATE_DIGEST3.DIGEST]
def inputDigestRegs : List Fld :=
  [DET_INPUT_DIGEST0.DIGEST, DET_INPUT_DIGEST1.DIGEST, DET_INPUT_DIGEST2.DIGEST, DET_INPUT_DIGEST3.DIGEST]
def inputLastRegs : List Fld :=
  [DET_INPUT_LAST0.DIGEST, DET_INPUT_LAST1.DIGEST, DET_INPUT_LAST2.DIGEST, DET_INPUT_LAST3.DIGEST]
def imageRegs : List Fld := [DET_IMAGE0.DIGEST, DET_IMAGE1.DIGEST, DET_IMAGE2.DIGEST, DET_IMAGE3.DIGEST]

/-- The 272-byte bitmap of a map (R318). -/
def mapBitmap (map : Nat) : List Nat := leBytes 272 map

/-- A change of the map during a run takes effect from step `k` (R318). -/
def State.mapChange (s : State) (k : Nat) : State :=
  if s.det.inRun then
    ((s.setDigest mapDigestRegs (shake256 (s.digestOf mapDigestRegs ++ leBytes 8 k ++ mapBitmap s.active))).inc
      DET_MAP_CHG.COUNT).set DET_MAP_CHG.LAST_STEP (k % 2 ^ 48)
  else s

/-- A run begins at the transition from LOADED to RUN (R318, R320, R322, R323). -/
def State.beginRun (s : State) : State :=
  let s := s.setDigest mapDigestRegs (shake256 (mapBitmap s.active))
  let s := s.setDigest inputDigestRegs (List.replicate 32 0)
  s.updDet fun d => { d with startStep := s.get TICK_STEP.STEP, inRun := true, unmeasured := !s.is DET_STATE_CTRL.VALID }

/-- The buffer digest B of an input buffer (R323). -/
def bufDigest (x : InBuf) : List Nat := if x.gap then List.replicate 32 0xFF else shake256 x.bytes

/-- The state of a buffer of a step, or an empty one. -/
def State.bufAt (s : State) (step b : Nat) : InBuf :=
  match s.host.inbox.find? fun e => e.1 == (step, b) with
  | some e => e.2
  | none => ⟨false, 0, 0, [], false⟩

/-- The step digest H_n (R323). -/
def State.stepDigest (s : State) (n : Nat) : List Nat :=
  shake256 ((List.range (s.get BCP_INBOX_TBL.COUNT)).flatMap fun b =>
    let x := s.bufAt n b
    leBytes 4 b ++ leBytes 8 x.len ++ bufDigest x)

/-- The input chain grows at the commit of step `n` (R323). -/
def State.chainInput (s : State) (n : Nat) : State :=
  let h := s.stepDigest n
  let s := s.setDigest inputLastRegs h
  s.setDigest inputDigestRegs (shake256 (s.digestOf inputDigestRegs ++ leBytes 8 n ++ h))

/-- DET_MODE in a record's MODE byte. -/
def State.detModeByte (s : State) : Nat := s.get DET_MODE.CLASS + 2 * s.get DET_MODE.STRICT

/-- DET_ND_USED, STATE_UNMEASURED and INPUT_GAP in a record's FLAGS byte. -/
def State.detFlagsByte (s : State) : Nat :=
  s.get DET_ND_USED.SCATTER_U + s.get DET_ND_USED.VSXA_U * 2 + s.get DET_ND_USED.SRE * 4 +
    s.get DET_ND_USED.REROUTE * 8 + s.get DET_ND_USED.OPP_STRETCH * 16 + ofBool s.det.unmeasured * 32 +
    ofBool s.host.inputGap * 64

/-- The 192 bytes of a provenance record (R320). -/
def State.provRecord (s : State) : List Nat :=
  s.digestOf imageRegs ++ leBytes 8 (s.get DET_FW.VERSION) ++ s.digestOf mapDigestRegs ++
    leBytes 2 (s.get DEV_VERSION.AREV) ++ [s.detModeByte, s.detFlagsByte] ++ leBytes 2 (s.get FAB_SLICE.SIZE) ++
    leBytes 2 (s.get FAB_ID.DEV) ++ leBytes 8 (s.get DET_SEED_LO.SEED) ++ leBytes 8 (s.get DET_SEED_HI.SEED) ++
    (if s.det.unmeasured then List.replicate 32 0 else s.digestOf stateDigestRegs) ++ s.digestOf inputDigestRegs ++
    leBytes 8 s.det.startStep ++ leBytes 8 (s.get TICK_STEP.STEP) ++ List.replicate 16 0

/-- The base of the provenance ring. -/
def State.provBase (s : State) : Nat := s.get DET_PROV_BASE.ADDR * 2 ^ 11

/-- The ring of 16 slots lies in usable LPDDR. -/
def State.provOk (s : State) : Bool := inLpddr s.provBase 0x8000

/-- Form a record (R324): record, digest, SIG_LEN 0, SEQ; a signing of the slot that is overwritten is abandoned; the
signing of the new record begins, or is skipped (R325). -/
def State.formRecord (s : State) : State :=
  if !s.provOk then s
  else
    let n := s.get DET_PROV_STATUS.SEQ
    let slot := n % 16
    let a := s.provBase + slot * 2048
    let r := s.provRecord
    let s := s.wrBytes a (r ++ shake256 r ++ List.replicate 8 0 ++ leBytes 8 (n + 1) ++ List.replicate 16 0)
    let s := s.wrBytes (a + 1536) (List.replicate 512 0)
    let s := s.inc DET_PROV_STATUS.SEQ
    let s := match s.det.signing with
      | some p => if p.1 = slot then (s.updDet fun d => { d with signing := none }).set DET_PROV_STATUS.SIGNING 0 else s
      | none => s
    let s := s.event 0x04 (leBytes 2 slot ++ leBytes 8 (n + 1) ++ [0])
    if s.is DET_PROV_CTRL.SIGN && !s.is CFG_STATUS.ID_FAIL then
      (match s.det.signing with
      | some _ => s.inc DET_PROV_STATUS.SIGN_SKIPPED
      | none => (s.updDet fun d => { d with signing := some (slot, n + 1) }).set DET_PROV_STATUS.SIGNING 1)
    else s

/-- A record is formed after the commit that makes TICK_STEP what it now is, if one is due (R324). -/
def State.provAtCommit (s : State) (exported : Bool) : State :=
  let auto := s.is DET_PROV_CTRL.AUTO && s.get TICK_STEP.STEP % 2 ^ s.get DET_PROV_CTRL.EVERY_LOG2 == 0
  if s.det.snapPend || auto || (exported && s.is DET_PROV_CTRL.ON_EXPORT) then
    (s.updDet fun d => { d with snapPend := false }).formRecord
  else s

/-- DET_PROV_CTRL.SNAP (R324). -/
def State.actSnap (s : State) : State :=
  if s.provOk then (s.updDet fun d => { d with snapPend := true }).okay else s.okay

/-- DET_PROV_SNAP. -/
def execDetProvSnap (s : State) : Host.Outcome State Fault Refusal := .next (s.write State.actSnap)

/-- PROVENANCE_SIGN_DONE (R325): the firmware writes the signature over bytes 0 to 223 and then SIG_LEN. -/
def execProvenanceSignDone (s : State) : Host.Outcome State Fault Refusal :=
  .next (match s.det.signing with
    | none => s
    | some p =>
      let a := s.provBase + p.1 * 2048
      let sec := match s.boot.aon with
        | some x => x.sec
        | none => []
      let sig := ((Config.falconSign sec (s.rdBytes a 224)).map (· % 256) ++ List.replicate 1280 0).take 1280
      let s := s.wrBytes (a + 256) sig
      let s := s.wr (a + 224) 2 1280
      let s := (s.updDet fun d => { d with signing := none }).set DET_PROV_STATUS.SIGNING 0
      (s.inc DET_PROV_STATUS.SIGNED).event 0x04 (leBytes 2 p.1 ++ leBytes 8 p.2 ++ [1]))

end Sys2Proof.Machine
end

