-- ==== Sys2Proof/Machine/BcpCore.lean ====
section
/-! DEFINITION. Completions of BCP requests, the sequence window and the residency of inputs (R358 to R368), which the
tick controller's rows use. -/

namespace Sys2Proof.Machine

open Reg

/-! Completion status codes (table "Completion status codes"). -/

def stOK : Nat := 0
def stSTALE : Nat := 1
def stVERSION : Nat := 2
def stSESSION : Nat := 3
def stBUSY : Nat := 4
def stOPCODE : Nat := 5
def stFORMAT : Nat := 6
def stSTATE : Nat := 7
def stACCESS : Nat := 8
def stSEAL_FAIL : Nat := 9
def stNOT_RESIDENT : Nat := 10
def stREFUSED : Nat := 11
def stLENGTH : Nat := 12

/-! Request opcodes (table "BCP requests"). -/

def opHELLO : Nat := 0x0001
def opBYE : Nat := 0x0002
def opREG_READ : Nat := 0x0010
def opREG_WRITE : Nat := 0x0011
def opSETUP_COPY : Nat := 0x0012
def opJOB_LOAD : Nat := 0x0020
def opJOB_START : Nat := 0x0021
def opJOB_HALT : Nat := 0x0022
def opJOB_UNLOAD : Nat := 0x0023
def opDRY_FIT : Nat := 0x0024
def opINPUT_READY : Nat := 0x0030
def opOUTBOX_BIND : Nat := 0x0031
def opQP_CREATE : Nat := 0x0040
def opQP_DESTROY : Nat := 0x0041
def opSUBSCRIBE : Nat := 0x0050
def opEVENT_ACK : Nat := 0x0051
def opSTOP : Nat := 0x0060
def opRECORD_WRITE : Nat := 0x0070
def opATTEST : Nat := 0x0071

/-- Store a completion in the window of its session (R361). -/
def storeCompletion (h : BcpHdr) (op status : Nat) (payload : List Nat) (ss : List Session) : List Session :=
  ss.map fun x => if x.id = h.session then
      { x with window := (h.seq, some (op, status, payload)) :: x.window.filter fun w => w.1 != h.seq }
    else x

/-- The bytes of a completion: the header's fields are the request's, but VERSION is 0 for a HELLO (R358). DESIGN
CHOICE: notes/assumptions/22.md (the VERSION of a completion that no session gives one). -/
def completionBytes (h : BcpHdr) (op session status : Nat) (payload : List Nat) : List Nat :=
  bcpBytes (if op = opHELLO then 0 else h.version) 1 op h.seq session status payload

/-- Send a completion to the source of its request (R359). -/
def State.respond (s : State) (h : BcpHdr) (op session status : Nat) (payload : List Nat) : State :=
  s.emitEth h.src.mac (.bcp h.src.ip h.src.port (completionBytes h op session status payload))

/-- A request of a session completes: its completion is sent, and is kept whole in the window (R359, R361). -/
def State.complete (s : State) (h : BcpHdr) (op status : Nat) (payload : List Nat) : State :=
  (s.updHost fun x => { x with sessions := storeCompletion h op status payload x.sessions }).respond h op h.session status
    payload

/-- The long command that delays the queue completes (R359). -/
def State.completeLong (s : State) (op status : Nat) (payload : List Nat) : State :=
  match s.host.busyWith with
  | some r =>
    if r.op = op then (s.updHost fun x => { x with busyWith := none }).complete r.hdr op status payload else s
  | none => s

/-- The word of TICK_FAULT. -/
def State.faultWord (s : State) : Nat :=
  s.get TICK_FAULT.CODE + s.get TICK_FAULT.UNIT_CLASS * 2 ^ 8 + s.get TICK_FAULT.UNIT_INDEX * 2 ^ 12 +
    s.get TICK_FAULT.ENTRY * 2 ^ 28 + s.get TICK_FAULT.BANK * 2 ^ 41 + s.get TICK_FAULT.VALID * 2 ^ 63

/-- A load was refused with CFG: a JOB_LOAD that waits completes with the word of that fault, whether or not TICK_FAULT
holds an earlier one (R362). -/
def State.loadRefused (s : State) (code : Nat) : State :=
  s.completeLong opJOB_LOAD stSEAL_FAIL (leBytes 8 (code + 15 * 2 ^ 8 + 2 ^ 63))

/-- A load has failed: a JOB_LOAD that waits for it completes with the TICK_FAULT word. -/
def State.loadFailed (s : State) : State := s.completeLong opJOB_LOAD stSEAL_FAIL (leBytes 8 s.faultWord)

/-! ### Residency (R366, R367) -/

/-- Set a buffer's state. -/
def State.setInBuf (s : State) (step b : Nat) (x : InBuf) : State :=
  s.updHost fun h => { h with inbox := ((step, b), x) :: h.inbox.filter fun e => e.1 != (step, b) }

/-- Step `m` is resident when every buffer is READY for it (R366). -/
def State.resident (s : State) (m : Nat) : Bool :=
  (List.range (s.get BCP_INBOX_TBL.COUNT)).all fun b => (s.bufAt m b).ready

end Sys2Proof.Machine
end

