-- ==== Sys2Proof/Machine/Tick.lean ====
section
/-! DEFINITION. The tick controller (R14 to R20, R27, R35, R36): the cycle count, issuing entries, engines that are
busy, closing, stretching and freezing ticks, and the requests of TICK_CTRL, TICK_DRY and TICK_PHASE. -/

namespace Sys2Proof.Machine

open Reg

/-! ### Time -/

/-- Core cycles pass outside the count of the tick. DESIGN CHOICE: notes/assumptions/1.md. -/
def State.pass (s : State) (n : Nat) : State := s.updTick fun t => { t with now := t.now + n }

/-- The tick's count reaches `cc`, if it has not passed it. DESIGN CHOICE: notes/assumptions/15.md. -/
def State.atCc (s : State) (cc : Nat) : State :=
  s.updTick fun t => { t with now := t.now + (cc - t.cc), cc := max t.cc cc }

/-! ### Issuing entries (R15, R17, R18, R27) -/

/-- The unit has a list: a cluster that holds no logical id never issues an entry (R22). -/
def State.hasList (s : State) (u : UnitKind) (idx : Nat) : Bool := u != .cluster || s.isActive idx

/-- An entry can issue: its unit has a list, a tick is open and not frozen, the entry belongs to it, and its START_CC
lies in the work window and is not past. -/
def State.canIssue (s : State) (u : UnitKind) (i : Issue) : Bool :=
  s.hasList u i.idx && s.running && s.tick.inTick && s.tick.freeze == 0 && i.tick == s.get TICK_STATUS.TICK_IN_STEP &&
    decide (s.tick.cc ≤ i.startCc) && decide (i.startCc < s.tickLen - s.kerf)

/-- The record of a busy engine. -/
def State.busyRec (s : State) (u : UnitKind) (idx eng : Nat) : Option Busy :=
  s.tick.busy.find? fun b => b.unit == u && b.idx == idx && b.eng == eng

/-- The record of a busy engine that is not paused: in a freeze every engine stands still, and nothing completes (R18). -/
def State.runningRec (s : State) (u : UnitKind) (idx eng : Nat) : Option Busy :=
  if s.tick.freeze = 0 then s.busyRec u idx eng else none

/-- An engine is busy at cycle `cc`: its completion has not come, or its declared interval has not ended. -/
def State.engineBusy (s : State) (u : UnitKind) (idx eng cc : Nat) : Bool :=
  match s.busyRec u idx eng with
  | some b => b.waits || decide (cc < b.endCc)
  | none => false

/-- The engine is occupied by an entry. -/
def State.occupy (s : State) (u : UnitKind) (eng : Nat) (i : Issue) (waits : Bool) : State :=
  s.updTick fun t =>
    { t with busy := t.busy.filter (fun b => !(b.unit == u && b.idx == i.idx && b.eng == eng)) ++
               [⟨u, i.idx, eng, i.entry, i.startCc + i.busyCc, waits, [], []⟩] }

/-- Note the memory that the running entry of an engine writes. -/
def State.noteDst (s : State) (u : UnitKind) (idx eng : Nat) (dst : List (Nat × Nat)) : State :=
  s.updTick fun t =>
    { t with busy := t.busy.map fun b => if b.unit == u && b.idx == idx && b.eng == eng then { b with dst := dst } else b }

/-- Note what the completion of an engine's running entry counts. -/
def State.noteInfo (s : State) (u : UnitKind) (idx eng : Nat) (info : List Nat) : State :=
  s.updTick fun t =>
    { t with busy := t.busy.map fun b => if b.unit == u && b.idx == idx && b.eng == eng then { b with info := info } else b }

/-- The entry that issued last: its unit, index and engine. -/
def State.lastIssued (s : State) : Option (UnitKind × Nat × Nat) := s.tick.busy.getLast?.map fun b => (b.unit, b.idx, b.eng)

/-- An in-tick retry delays the running entry of an engine (R258). -/
def State.retryOf (s : State) (who : Option (UnitKind × Nat × Nat)) : State :=
  s.updTick fun t => { t with recovery := t.recovery ++ who.toList }

/-- An engine completes at cycle `cc` of the tick: it is idle from then on, and no retry delays it (R17). -/
def State.engineDone (s : State) (u : UnitKind) (idx eng cc : Nat) : State :=
  (s.atCc cc).updTick fun t =>
    { t with busy := t.busy.filter (fun b => !(b.unit == u && b.idx == idx && b.eng == eng)),
             lastDone := max t.lastDone cc, recovery := t.recovery.filter (· != (u, idx, eng)) }

/-- An entry issues (R17, R27): it has no effect outside its tick; on a busy engine it raises BUSY; otherwise it
occupies the engine and does its work. `busy` says whether the engine is busy at its START_CC. DESIGN CHOICE:
notes/assumptions/5.md. -/
def State.issueWhen (s : State) (busy : Bool) (u : UnitKind) (eng : Nat) (i : Issue) (waits : Bool)
    (body : State → State) : Host.Outcome State Fault Refusal :=
  if i.idx < u.count then
    .next (if s.canIssue u i then
        (if busy then (s.atCc i.startCc).schedFault 2 fBUSY u i.idx i.entry
         else body ((s.atCc i.startCc).occupy u eng i waits))
      else s)
  else .fault .noSuchUnit

/-- An entry issues on an engine of its own. -/
def State.issue (s : State) (u : UnitKind) (eng : Nat) (i : Issue) (waits : Bool) (body : State → State) :
    Host.Outcome State Fault Refusal :=
  s.issueWhen (s.engineBusy u i.idx eng i.startCc) u eng i waits body

/-- A command that names a unit by number. DESIGN CHOICE: notes/assumptions/14.md. -/
def State.forUnit (n : Nat) (i : Nat) (s : State) : Host.Outcome State Fault Refusal :=
  if i < n then .next s else .fault .noSuchUnit

/-! ### Stretch causes (R17, R261, R270, R298, R405) -/

/-- A port carries a transfer of the open tick: its list has a SEND, a LAND or a PASS in it. DEDUCED:
notes/assumptions/21.md. -/
def State.carriesNow (s : State) (p : Nat) : Bool :=
  (s.runEntries .port p).any fun e =>
    e.tick == s.get TICK_STATUS.TICK_IN_STEP && (e.opcode == 0x500 || e.opcode == 0x501 || e.opcode == 0x502)

/-- A port that carries a transfer of the tick is rerouted, or a replay event is in progress on it: at its sender, or at
its receiver from the NAK until every frame that it knows to have been outstanding is accepted (R270, R298). DEDUCED:
notes/assumptions/21.md. -/
def State.linkCause (s : State) : Bool :=
  (List.range 8).any fun p =>
    (s.is (LNK_STATUS.REPLAYING p) || (s.link p).rxEvent.isSome || s.is (LNK_STATUS.REROUTED p)) && s.carriesNow p

/-- Cause RECOVERY is active: an in-tick retry delays an entry that still runs (R17, R258). -/
def State.retrying (s : State) : Bool := !s.tick.recovery.isEmpty

/-- A package needs more than 2× refresh (R261). -/
def State.mr4Cause (s : State) : Bool := (List.range 16).any fun c => decide (1 < s.get (MEM_TEMP.REFRESH_MULT c))

/-- A cause is active that excuses work still outstanding. -/
def State.excused (s : State) : Bool := s.linkCause || s.retrying || s.mr4Cause

/-- The cycles for which firmware's opportunistic request holds the close (R392). -/
def State.oppHold (s : State) : Nat := if s.is DET_MODE.STRICT then 0 else s.tick.opp * 256

/-- The cycles for which the close of the open tick is held: THERMAL, OPPORTUNISTIC and notices (R17, R18, R405). -/
def State.hold (s : State) : Nat := max (s.get THERM_STRETCH.Q * 256) (max s.oppHold s.tick.notice)

/-- A LAND of the open tick has not landed (R278). -/
def Land.open (l : Land) (count : Nat) : Bool := l.atTick == count && decide (l.landed < l.bytes) && !l.abandoned

/-- An engine is busy at cycle `cc`, or a transfer of the tick has not landed (R17). -/
def State.outstanding (s : State) (cc : Nat) : Bool :=
  s.tick.busy.any (fun b => b.waits || decide (cc < b.endCc)) ||
    s.lands.any (fun (l : Land) => l.open (s.get TICK_COUNT.COUNT))

/-! ### Ticks begin and close -/

/-- The thermal quanta at a tick boundary (R405). -/
def State.thermalQ (s : State) : Nat :=
  let q := s.get THERM_STRETCH.Q
  let qmax := min (s.get THERM_CFG.QMAX) (4 * s.get TICK_STRETCH_LIMIT.LIMIT_KCC)
  let hot := s.pwr.temps.foldl max (-128)
  if s.get THERM_STATUS.LEVEL ≥ 1 then min (q + 1) qmax
  else if hot < (s.get THERM_CFG.THROTTLE_C : Int) - s.get THERM_CFG.HYST_C then q - 1
  else q

/-- Firmware's request for a tick is counted and ignored under STRICT (R316, R392). -/
def State.oppAtBoundary (s : State) : State :=
  if s.tick.opp = 0 ∨ s.is DET_MODE.STRICT = false then s else s.inc TICK_STRETCH_LIMIT.OPP_IGNORED

/-- An opportunistic stretch that has held the tick is recorded as used at its close (R316). -/
def State.oppAtClose (s : State) (causes : Nat) : State := if bit causes 3 then s.ndUsed DET_ND_USED.OPP_STRETCH else s

/-- A tick begins (R15, R405): its count starts at 0, TICK_COUNT increments, the thermal quanta are updated. LANDs of
closed ticks are gone. -/
def State.beginTick (s : State) : State :=
  let s := (s.incWrap TICK_COUNT.COUNT).set THERM_STRETCH.Q s.thermalQ
  let c := s.get TICK_COUNT.COUNT
  let n := (s.tick.future.filter fun e => e.1 == c).foldl (fun m e => max m e.2) 0
  (({ s with lands := s.lands.filter fun (l : Land) => decide (c ≤ l.atTick) || l.abandoned }).updTick fun t =>
    { t with cc := 0, inTick := true, notice := n, future := (t.future.filter fun e => e.1 != c), frozen := 0,
             lastDone := 0, recovery := [], causes := 0 }).oppAtBoundary

/-- The step's ticks under the bank that runs (R24): kept in TICK_ABI for the active bank, read from the sealed header
of the bank of a dry fit. -/
def State.stepTicks (s : State) : Nat :=
  match (if s.runBank = 0 then s.sealA else s.sealB) with
  | some c => Memory.rd c.mem (listBase .krylov 0 + s.runBank * 0x10000 + 12) 2
  | none => s.get TICK_ABI.STEP_TICKS

/-- The causes of the device's own stretch (R17, TICK_STRETCH.CAUSE). -/
def State.ownCauses (s : State) (work : Bool) : Nat :=
  ofBool (work && s.linkCause) + ofBool (work && s.retrying) * 2 +
    ofBool (decide (0 < s.get THERM_STRETCH.Q) || (work && s.mr4Cause)) * 4 + ofBool (decide (0 < s.oppHold)) * 8

/-- The own causes that are active now have held or excused the close of the open tick (R18). -/
def State.noteCauses (s : State) (work : Bool) : State :=
  let c := s.ownCauses work
  s.updTick fun t => { t with causes := Nat.lor t.causes c }

/-- Record that a tick was lengthened by `n` in all (R18). -/
def State.recordStretch (s : State) (n whole : Nat) (first : Bool) : State :=
  let s := (s.set TICK_STRETCH.LAST_CC (min whole (2 ^ 26 - 1))).inc TICK_STRETCH_TOTAL.TOTAL_CC n
  if first then s.inc TICK_STRETCH.TICKS_STRETCHED else s

/-- The cycle at which the last engine of the tick became idle or the last transfer landed: an engine that waits for no
completion is idle at the end of its declared interval; control entries occupy no engine. -/
def State.lastIdle (s : State) : Nat :=
  (s.tick.busy.filter fun b => !b.waits && b.eng != 0).foldl (fun m b => max m b.endCc) s.tick.lastDone

/-- The slack of an unstretched tick (TICK_MARGIN). -/
def State.recordMargin (s : State) : State :=
  let slack := min (s.tickLen - s.lastIdle) 0xFFFFF
  if slack < s.get TICK_MARGIN.MIN_SLACK_CC then
    s.setAll [(TICK_MARGIN.MIN_SLACK_CC, slack), (TICK_MARGIN.AT_TICK_IN_STEP, s.get TICK_STATUS.TICK_IN_STEP)]
  else s

/-- The open tick closes, stretched by `n` cc; `causes` are the device's own and `send` says that it sends a notice
(R17, R18). The notice leaves at the close: R19 bounds its arrival from cc T, yet the amount of a LINK or RECOVERY
stretch is known only then. DESIGN CHOICE: notes/assumptions/15.md. After the last tick of the step the glue-up begins (R30). -/
def State.closeTick (s : State) (n causes : Nat) (send : Bool) : State :=
  let count := s.get TICK_COUNT.COUNT
  let causes := Nat.lor s.tick.causes causes
  let s := if 0 < n then
      let s := (s.oppAtClose causes).recordStretch n (n + s.tick.frozen) (s.tick.frozen == 0)
      let s := s.set TICK_STRETCH.CAUSE (Nat.lor (s.get TICK_STRETCH.CAUSE) causes)
      let s := if bit causes 2 then s.inc THERM_STRETCH.TICKS else s
      if send then s.emitTree none fun p => .stretch p n (s.get FAB_ID.DEV) count else s
    else if s.tick.frozen = 0 then s.recordMargin else s
  let last := decide (s.stepTicks ≤ s.get TICK_STATUS.TICK_IN_STEP + 1)
  let s := (s.set TICK_STATUS.STRETCHING 0).updTick fun t =>
    { t with inTick := false, lastLen := n + t.frozen, applied := (count, n) :: t.applied.take 7,
             busy := t.busy.filter fun b => b.waits, recovery := [], causes := 0 }
  if last then
    s.updTick fun t => { t with glue := 1, glueStart := t.now, actDone := true, sent := false, released := none }
  else s.set TICK_STATUS.TICK_IN_STEP (s.get TICK_STATUS.TICK_IN_STEP + 1)

/-! ### OVERRUN (R27) -/

/-- What was outstanding: unit, index, entry. -/
def State.overrunCandidates (s : State) (cc : Nat) : List (UnitKind × Nat × Nat) :=
  (s.tick.busy.filter fun b => b.waits || decide (cc < b.endCc)).map (fun b => (b.unit, b.idx, b.entry)) ++
    (s.lands.filter fun (l : Land) => l.open (s.get TICK_COUNT.COUNT)).map fun l => (UnitKind.port, l.port, l.entry)

/-- The order in which R27 names a cause. -/
def candLe (a b : UnitKind × Nat × Nat) : Bool :=
  decide (a.1.code < b.1.code) || (a.1.code == b.1.code &&
    (decide (a.2.1 < b.2.1) || (a.2.1 == b.2.1 && decide (a.2.2 ≤ b.2.2))))

/-- The first of several causes. -/
def firstCand : List (UnitKind × Nat × Nat) → Option (UnitKind × Nat × Nat)
  | [] => none
  | c :: cs => match firstCand cs with
    | some d => if candLe c d then some c else some d
    | none => some c

/-- The tick-closing check has failed without a cause: OVERRUN, fatal-to-slice (R17, R27). -/
def State.overrun (s : State) (cc : Nat) : State :=
  match firstCand (s.overrunCandidates cc) with
  | some c => s.schedFault 2 fOVERRUN c.1 c.2.1 c.2.2
  | none => s

/-! ### The rows of ticks -/

/-- TICK_BOUNDARY (R15, R340, R405): the next tick begins; a device told to halt enters HALT instead, without the
tick-closing check. -/
def execTickBoundary (s : State) : Host.Outcome State Fault Refusal :=
  .next (if s.running && s.tick.haltAtBoundary then
      (s.set ERR_STATUS.HALT_NOTICE 1).enterHalt s.lastSeq
    else if s.running && !s.tick.inTick && s.tick.glue == 0 && s.tick.tickZeroAt.isNone && s.tick.freeze == 0 then s.beginTick
    else s)

/-- At cc T the tick closes, stretches, or raises OVERRUN (R17). DESIGN CHOICE (notes/assumptions/15.md): work that
nothing excuses, in a tick that a notice, THERMAL or OPPORTUNISTIC holds open, raises OVERRUN at the end of the hold. -/
def State.tickClose (s : State) : State :=
  if s.running && s.tick.inTick && s.tick.freeze == 0 && !s.is TICK_STATUS.STRETCHING && !s.tick.haltAtBoundary then
      let s := s.atCc s.tickLen
      let work := s.outstanding s.tickLen
      if !work && s.hold == 0 then s.closeTick 0 0 false
      else if work && !s.excused && s.hold == 0 then s.overrun s.tickLen
      else (s.noteCauses work).set TICK_STATUS.STRETCHING 1
    else s

/-- The stretched tick reaches the q-th 256-cc boundary after cc T. It closes if it is held no longer and nothing is outstanding; work outstanding without a cause raises OVERRUN (R17, R18). -/
def State.stretchClose (s : State) (q : Nat) : State :=
  if s.running && s.tick.inTick && s.tick.freeze == 0 && s.is TICK_STATUS.STRETCHING && decide (0 < q) &&
      !s.tick.haltAtBoundary then
      let s := s.atCc (s.tickLen + q * 256)
      let work := s.outstanding (s.tickLen + q * 256)
      let s := s.noteCauses work
      if s.get TICK_STRETCH_LIMIT.LIMIT_KCC * 1024 < q * 256 then s
      else if q * 256 < s.hold then s
      else if work then (if s.excused then s else s.overrun (s.tickLen + q * 256))
      else
        let n := q * 256
        let own := decide (s.hold < n) || decide (s.tick.notice < n)
        s.closeTick n (s.ownCauses (decide (s.hold < n))) own
    else s

/-- What `n` bytes at `a` hold is no longer stated (R20). -/
def State.havoc (s : State) (a : Nat) : Nat → State
  | 0 => s
  | n + 1 => let (v, s) := s.draw; ({ s with mem := Memory.write s.mem a (BitVec.ofNat 8 v) }).havoc (a + 1) n

/-- The finisher and the gauge tap of a cluster. -/
def engFin : Nat := 2
def engTap : Nat := 3

/-- The engine of an entry that is stopped shows it: a kernel ends, and the unit's status says that it is idle (R20). -/
def State.stopEngine (s : State) (b : Busy) : State :=
  match b.unit with
  | .row => s.endCall b.idx
  | .cluster =>
    if b.eng = engFin then s.set (FIN_STATUS.BUSY b.idx) 0
    else if b.eng = engTap then s.set (GAU_STATUS.TAPPING b.idx) 0
    else s
  | .update => s.setAll [(UPD_STATUS.BUSY b.idx, 0), (UPD_STATUS.OP b.idx, 0)]
  | _ => s

/-- The engines still busy stop, and the transfers still outstanding are abandoned; what they leave in memory is not
stated (R20). -/
def State.abandonWork (s : State) (cc : Nat) (landRange : Land → List (Nat × Nat)) : State :=
  let stopped := s.tick.busy.filter fun b => b.waits || decide (cc < b.endCc)
  let ranges := stopped.flatMap (·.dst) ++
    (s.lands.filter fun (l : Land) => l.open (s.get TICK_COUNT.COUNT)).flatMap landRange
  let s := stopped.foldl State.stopEngine (ranges.foldl (fun s r => s.havoc r.1 r.2) s)
  let c := s.get TICK_COUNT.COUNT
  ({ s.dropDue with lands := s.lands.map fun (l : Land) => if l.open c then { l with abandoned := true } else l }).updTick
    fun t => { t with busy := [] }

/-- FREEZE_END (R18): the freeze ends, and the engines resume where they stopped. -/
def execFreezeEnd (s : State) : Host.Outcome State Fault Refusal :=
  .next (if s.tick.freeze = 0 then s else (s.pass s.tick.freeze).updTick fun t => { t with freeze := 0 })

/-- STRETCH_NOTICE (R18): forwarded along the tree; the amount is added to an open tick's close, freezes a device that
has closed that tick, or is only recorded for the last tick of a step. -/
def execStretchNotice (p amount dev count : Nat) (s : State) : Host.Outcome State Fault Refusal :=
  if p < 8 then
    .next (
      let s := s.emitTree (some p) fun q => .stretch q amount dev count
      let c := s.get TICK_COUNT.COUNT
      if !s.running then s
      else if count = c && s.tick.inTick then s.updTick fun t => { t with notice := max t.notice amount }
      else if c < count then s.updTick fun t => { t with future := (count, amount) :: t.future }
      else
        let prior := (s.tick.applied.filter fun e => e.1 == count).foldl (fun m e => max m e.2) 0
        let extra := amount - prior
        if extra = 0 then s
        else
          let s := s.updTick fun t =>
            { t with applied := (count, amount) :: (t.applied.filter fun e => e.1 != count) }
          if s.tick.inTick then
            (s.recordStretch extra (s.tick.frozen + extra) (s.tick.frozen == 0)).updTick fun t =>
              { t with freeze := t.freeze + extra, frozen := t.frozen + extra }
          else
            (s.recordStretch extra (s.tick.lastLen + extra) (s.tick.lastLen == 0)).updTick fun t =>
              { t with lastLen := t.lastLen + extra, freeze := t.freeze + (if t.glue = 0 then extra else 0),
                       exclEnd := (if t.glue = 0 then t.exclEnd else t.glueStart + extra) })
  else .fault .noSuchUnit

/-- ENGINE_BUSY_FAULT (R17, R27): an engine that runs past its declared interval with no active cause, or is still busy
when its next entry issues, raises BUSY. In a freeze every engine is paused, and none runs past anything (R18). -/
def execEngineBusyFault (u : UnitKind) (idx eng entry : Nat) (s : State) : Host.Outcome State Fault Refusal :=
  if idx < u.count then
    .next (if s.running && (s.runningRec u idx eng).isSome && !s.excused then s.schedFault 2 fBUSY u idx entry else s)
  else .fault .noSuchUnit

/-! ### Control entries (R25, R424) -/

/-- The number of the control engine of a unit (R424). -/
def engControl : Nat := 0

/-- NOP (R424). -/
def execNop (u : UnitKind) (i : Issue) (s : State) : Host.Outcome State Fault Refusal :=
  s.issue u engControl i false id

/-- MARK (R25). -/
def execMark (u : UnitKind) (i : Issue) (s : State) : Host.Outcome State Fault Refusal :=
  s.issue u engControl i false fun s =>
    s.setAll [(TICK_MARK.LAST_TAG, i.tag), (TICK_MARK.AT_TICK, s.get TICK_COUNT.COUNT)]

/-! ### Banks (R26, R33, R426) -/

/-- The bank is not sealed any more; its private copies are gone. -/
def State.unseal (s : State) (b : Nat) : State :=
  let s := s.set (sealedF b) 0
  if b = 0 then { s with sealA := none } else { s with sealB := none }

/-- A bank is active while a job is loaded (R33). -/
def State.activeBank (s : State) (b : Nat) : Bool := decide (s.job ≠ 0) && s.get TICK_STATUS.BANK == b

/-- The inactive bank. -/
def State.inactive (s : State) : Nat := 1 - s.get TICK_STATUS.BANK

/-- The seal of a bank ends as aborted (R26). -/
def State.abortSeal (s : State) (b : Nat) : State :=
  if s.tick.sealing = some b then
    let load := s.tick.sealLoad
    let s := (s.set TICK_STATUS.SEALING 0).updTick fun t =>
      { t with sealing := none, sealLoad := false, loaded := (if load then false else t.loaded) }
    let s := s.recordFault 0x0C 15 0 0 b 0
    if load then s.loadFailed else s
  else s

/-- A write reaches a bank's lists, pointers or kernels (R26, R33): `none` where the bank is active under a loaded
job, which logs the write; otherwise a seal of the bank is aborted, the bank is unsealed and ARM clears. DEDUCED:
notes/assumptions/13.md. -/
def State.touchBank (s : State) (b scope index source : Nat) : Option State × State :=
  let s := s.abortSeal b
  if s.activeBank b then (none, s.corrected scope index source)
  else
    let s := (s.unseal b).set TICK_PHASE.ARM 0
    (some s, s)

/-! ### Requests of the tick controller (R26, R33 to R36, R367, R426) -/

/-- A START in LOADED or HALT is held until the square-up (R35, R36, R367, R426). -/
def State.startOk (s : State) : Bool :=
  ((s.job == 1 && !s.tick.dryPend && !s.is TICK_STATUS.DRY) ||
    (s.job == 3 && s.is (sealedF (s.get TICK_STATUS.BANK)))) &&
  s.resident (s.get TICK_STEP.STEP) && s.resident (s.get TICK_STEP.STEP + 1)

/-- A dry fit request is permitted (R34, R35, R367). -/
def State.dryOk (s : State) : Bool :=
  s.job == 1 && !s.tick.startPend && !s.is TICK_STATUS.DRY && s.resident (s.get TICK_STEP.STEP)

/-- TICK_CTRL.HALT (R36). -/
def State.actHalt (s : State) : State :=
  if s.job = 2 then (s.updTick fun t => { t with haltPend := true }).okay else s.denied

/-- Every bank becomes unsealed, and the tick controller returns to IDLE (R36). -/
def State.unload (s : State) : State :=
  let s := ((((s.set ERR_STATUS.COMMIT_READY 0).stopTicks.stopRows.unseal 0).unseal 1).endHandling).setAll
    [(TICK_PHASE.ARM, 0), (TICK_STATUS.SEALING, 0), (DET_STATE_CTRL.VALID, 0), (DET_STATE_CTRL.BUSY, 0), (FAB_PERM.ARM, 0),
     (FAB_PERM.CONFIRMED, 0), (ERR_LADDER.ATTEMPT, 0), (ERR_STATUS.COMMIT_READY, 0)]
  let s := { s with upd := { s.upd with regenPend := false } }
  let s := s.zeroRange (accumBase 0) (nPhys * 0x40000)
  let s := s.updTick fun t =>
    { t with loaded := false, sealing := none, sealLoad := false, phaseOk := false, permOk := false, injectStep := 0 }
  let s := s.updDet fun d => { d with inRun := false, snapPend := false }
  s.setJob 0 0

/-- TICK_CTRL.UNLOAD (R36). -/
def State.actUnload (s : State) : State := if s.job = 1 ∨ s.job = 3 then s.unload.okay else s.denied

/-- TICK_PHASE.ARM (R33): without effect unless the inactive bank is sealed and AT_STEP exceeds TICK_STEP + 1. -/
def State.actPhaseArm (s : State) : State :=
  if s.is (sealedF s.inactive) && decide (s.get TICK_STEP.STEP + 1 < s.get TICK_PHASE_STEP.AT_STEP) then
    (s.set TICK_PHASE.ARM 1).okay
  else s.okay

/-- A write to TICK_PHASE_STEP (R33): without effect and logged while ARM is 1. -/
def State.actPhaseStep (s : State) (v : Nat) : State :=
  if s.is TICK_PHASE.ARM then (s.corrected scSeq 0 srcTICK).okay
  else (s.set TICK_PHASE_STEP.AT_STEP v).okay

/-- A write of TICK_SEAL.SEAL (R26, R426): the inactive bank, or the unsealed active bank in HALT; nothing while a
seal is in progress, and an error status in IDLE. DEDUCED: notes/assumptions/13.md. -/
def State.actSeal (s : State) : State :=
  if s.job = 0 then s.denied
  else if s.tick.sealing.isSome then s.okay
  else
    let b := if s.job = 3 ∧ s.is (sealedF (s.get TICK_STATUS.BANK)) = false then s.get TICK_STATUS.BANK else s.inactive
    ((s.unseal b).set TICK_STATUS.SEALING 1).updTick (fun t => { t with sealing := some b, sealLoad := false }) |>.okay

/-- TICK_CTRL_HALT. -/
def execTickCtrlHalt (s : State) : Host.Outcome State Fault Refusal := .next (s.write State.actHalt)

/-- TICK_CTRL_UNLOAD. -/
def execTickCtrlUnload (s : State) : Host.Outcome State Fault Refusal := .next (s.write State.actUnload)

/-- TICK_PHASE_ARM. -/
def execTickPhaseArm (s : State) : Host.Outcome State Fault Refusal := .next (s.write State.actPhaseArm)

/-- TICK_PHASE_STEP_WRITE. -/
def execTickPhaseStepWrite (v : Nat) (s : State) : Host.Outcome State Fault Refusal := .next (s.write fun s => s.actPhaseStep v)

/-- TICK_SEAL. -/
def execTickSeal (s : State) : Host.Outcome State Fault Refusal := .next (s.write State.actSeal)

end Sys2Proof.Machine
end

