-- ==== Sys2Proof/Machine/Gates.lean ====
section
/-! DEFINITION. What every data-path engine shares: the format gates and the census
(R59 to R63), summation by the fixed tree (R114), and the memory errors that its accesses meet (R252, R258). -/

namespace Sys2Proof.Machine

open Reg

/-! ### Gates -/

/-- A decoded GATE word (R60). -/
structure Gate where
  fmt : Nat
  rnd : Nat
  ovf : Bool
  ftz : Bool
  mxs : Bool
deriving DecidableEq, Repr

/-- Decode a GATE word. -/
def gateOf (w : Nat) : Gate := ⟨bits w 4 0, bits w 7 5, bit w 8, bit w 9, bit w 10⟩

/-- The destination format of a GATE word. -/
def gateFmt (w : Nat) : Nat := bits w 4 0

/-- The gate that does the fixed rounding of R223 to a format. -/
def fixedGate (fmt : Nat) : Gate := ⟨fmt, 0, true, false, false⟩

/-- The rounding of one element at a gate (R50 to R53). -/
def State.gateRnd (s : State) (g : Gate) (tensor index : Nat) : Rnd :=
  match g.rnd with
  | 0 => .rne
  | 1 => .rtz
  | 2 => .rup
  | 3 => .rdn
  | m =>
    let e := if m = 5 ∧ s.is DET_MODE.STRICT = false then s.get FAB_ENTROPY.WORD else 0
    .sr (srDraw (s.get DET_SEED_LO.SEED) (s.get DET_SEED_HI.SEED) (tensor % 2 ^ 32) index (s.get TICK_STEP.STEP) e)

/-- The counters of one census cell: CONVERTED, OVERFLOWED, FLUSHED, SUBNORMAL, NAN (R62, R64). -/
def outcomeKind : Outcome5 → Option Nat
  | .plain => none
  | .overflowed => some 1
  | .flushed => some 2
  | .subnormal => some 3
  | .nan => some 4

/-- Add to a live census counter; it stays at 2^48 − 1 (R64). -/
def bumpCensus (c : List (Nat × Nat)) (cls fmt kind n : Nat) : List (Nat × Nat) :=
  let k := (cls * 32 + fmt) * 5 + kind
  Store.put c 0 k (min (Store.get c 0 k + n) (2 ^ 48 - 1))

/-- Count the outcomes of one gate's elements (R62). -/
def State.countGate (s : State) (cls fmt : Nat) (os : List Outcome5) : State :=
  let n (k : Nat) := (os.filter fun o => outcomeKind o == some k).length
  { s with census := (List.range 4).foldl (fun c k => bumpCensus c cls fmt (k + 1) (n (k + 1)))
                       (bumpCensus s.census cls fmt 0 os.length) }

/-- A gate that rounds with SRE converts an element outside STRICT: the use is recorded (R316). -/
def State.noteSre (s : State) (g : Gate) (n : Nat) : State :=
  if g.rnd = 5 ∧ s.is DET_MODE.STRICT = false ∧ 0 < n then s.ndUsed DET_ND_USED.SRE else s

/-- One element through a gate, by value: code and outcome. -/
def State.gateOne (s : State) (g : Gate) (tensor index : Nat) (v : Val) : Nat × Outcome5 :=
  conv g.fmt (s.gateRnd g tensor index) g.ovf g.ftz v

/-- Elements through a gate that is not MX: their codes, and the state with the census counted. -/
def State.gateAll (s : State) (cls : Nat) (g : Gate) (tensor : Nat) (xs : List (Nat × Val)) : List Nat × State :=
  let r := xs.map fun x => s.gateOne g tensor x.1 x.2
  (r.map (·.1), (s.countGate cls g.fmt (r.map (·.2))).noteSre g xs.length)

/-- One block through an MX gate: scale code, element codes, outcomes (R49). -/
def State.gateBlock (s : State) (g : Gate) (tensor : Nat) (xs : List (Nat × Val)) : Nat × List (Nat × Outcome5) :=
  convBlock g.fmt (xs.map fun x => s.gateRnd g tensor x.1) g.mxs g.ftz (xs.map (·.2))

/-! ### Sums whose order is open (R135, R185) -/

/-- What is left after every order of `l`, at most `n` long, applied to `x`; none where two orders leave different
things. -/
def agree {α β : Type} [DecidableEq α] (f : α → β → α) : Nat → List β → α → Option α
  | 0, _, x => some x
  | n + 1, l, x =>
    if l.isEmpty then some x
    else ((List.range l.length).foldl (fun (r : Option (Option α)) i =>
      match r with
      | some none => some none
      | r => match l[i]? with
        | none => r
        | some b => match agree f n (l.eraseIdx i) (f x b), r with
          | none, _ => some none
          | some y, none => some (some y)
          | some y, some (some z) => if y = z then some (some z) else some none
          | some _, some none => some none) none).join

/-! ### Summation by split_k (R114) -/

/-- One level of the tree: neighbours are added, the lower on the left; a last one without a partner passes up. -/
def pairUp (f : Nat) : List Val → List Val
  | a :: b :: l => (Val.add a b).inFmt f :: pairUp f l
  | l => l

/-- The tree over at most `2 ^ n` partials. -/
def splitKAux (f : Nat) : Nat → List Val → List Val
  | 0, l => l
  | n + 1, l => splitKAux f n (pairUp f l)

/-- split_k over the partials in a format; nothing for no partial. -/
def splitK (f : Nat) (l : List Val) : Option Val := (splitKAux f (bitLen l.length + 1) l).head?

/-! ### Errors that accesses meet -/

/-- The memory errors among what the checkers saw (R252, R258); a link-ECC retry delays the entry that met it, the one
that issued last unless another is named. -/
def State.hwMem (s : State) (hw : List HwFault) (vsrc msrc : Nat)
    (who : State → Option (UnitKind × Nat × Nat) := State.lastIssued) : State :=
  hw.foldl (fun s h => match h with
    | .memCe a => s.memCorrected a vsrc msrc
    | .memUe a => s.memUncorrectable a vsrc msrc
    | .linkEcc a =>
      (((s.retryOf (who s)).memRecord a 3 vsrc msrc).raise (memErr 0 a 3))
    | _ => s) s

/-- Data bytes that controller `c` moves (MEM_BYTES); how many requests were in flight at most is not stated. -/
def State.memBytes (s : State) (c n : Nat) : State :=
  let (v, s) := s.draw
  (s.inc (MEM_BYTES.BYTES c) n).set (MEM_REQ.MAX_INFLIGHT c) (max (s.get (MEM_REQ.MAX_INFLIGHT c)) (v % 513))

/-- The LPDDR traffic of ranges, by controller. -/
def State.memTraffic (s : State) (rs : List (Nat × Nat)) : State :=
  rs.foldl (fun s r =>
    if lpddrEnd ≤ r.1 ∨ r.2 = 0 then s
    else
      let c := r.1 / lpddrWindow
      let head := min r.2 ((c + 1) * lpddrWindow - r.1)
      let s := s.memBytes c head
      if head < r.2 then s.memBytes (c + 1) (r.2 - head) else s) s

/-- A parity failure of sealed private copies: contained, and the rollback halts and unseals the bank (R426). -/
def State.descPar (s : State) (scope index source code : Nat) : State :=
  s.noteParity.raiseOpen 1 scope index source code

/-! ### Elements in memory -/

/-- The code of element `i` of an array of whole-byte elements. -/
def State.elemAt (s : State) (f a i : Nat) : Nat := s.rd (a + i * fmtBytes f) (fmtBytes f)

/-- The value of element `i` of an array. -/
def State.valAt (s : State) (f a i : Nat) : Val := decode f (s.elemAt f a i)

/-- The bytes of element codes stored one after another. -/
def codesBytes (f : Nat) (cs : List Nat) : List Nat := cs.flatMap fun c => leBytes (fmtBytes f) c

/-- A value is not finite. -/
def Val.nonfinite (v : Val) : Bool := !v.isFin

end Sys2Proof.Machine
end

