-- ==== Sys2Proof/Machine/Totals.lean ====
section
/-! DEFINITION. How totals are formed (R98 to R110): the chunk register, promotion with saturation and long-sum
widening, and the totals of a block. The array, the root engine and the solver share it. -/

namespace Sys2Proof.Machine

/-- Operand classes (R67): 0 16-bit, 1 8-bit, 2 MX, 3 FP32, 4 FP64; 5 for a format that is no array operand. -/
def opClass : Nat → Nat
  | 0 => 4
  | 1 => 3
  | 2 | 3 => 0
  | 4 | 5 => 1
  | 6 | 7 | 8 => 2
  | _ => 5

/-- The width of the chunk register (R98). -/
def chunkBits (cls : Nat) : Nat := if cls = 4 then 192 else 64

/-- The format a chain's totals start in (table "Total formats"). -/
def startFmt (cls : Nat) (wide : Bool) : Nat :=
  if cls = 4 then (if wide then fDD else fFP64) else (if wide then fFP64 else fFP32)

/-- The bytes of one total (table "Accumulator capacity"). -/
def totalBytes (fmt : Nat) : Nat := fmtBits fmt / 8

/-- Floor division of `±m · 2^(e - q)`: the product truncated toward −∞ in units of `2^q` (R100). -/
def truncUnits (neg : Bool) (m : Nat) (e q : Int) : Int :=
  if q ≤ e then Val.sgn neg (m * 2 ^ (e - q).toNat) else (Val.sgn neg m).fdiv (2 ^ (q - e).toNat)

/-- The finite parts of a list. -/
def finParts : List Val → List (Bool × Nat × Int)
  | [] => []
  | .fin s m e :: l => if m = 0 then finParts l else (s, m, e) :: finParts l
  | _ :: l => finParts l

/-- The largest leading exponent of a nonempty list of nonzero parts. -/
def maxLead : List (Bool × Nat × Int) → Int
  | [] => 0
  | [p] => leadExp p.2.1 p.2.2
  | p :: l => max (leadExp p.2.1 p.2.2) (maxLead l)

/-- The chunk register's value of finite products, with the sticky bit's ℓ/4 (R100, R101, R103). -/
def registerValue (w : Nat) (ps : List (Bool × Nat × Int)) : Val :=
  match ps with
  | [] => .zero
  | _ =>
    let q := maxLead ps - ((w : Int) - 8)
    let sum := ps.foldl (fun (a : Int) p => a + truncUnits p.1 p.2.1 p.2.2 q) 0
    let sticky := ps.any fun p => decide (p.2.2 < q) && (p.2.1 % 2 ^ (q - p.2.2).toNat != 0)
    if sticky then
      let v := sum * 4 + 1
      .fin (decide (v < 0)) v.natAbs (q - 2)
    else .fin (decide (sum < 0)) sum.natAbs q

/-- The value of a chunk, and whether it made a NaN of both infinities (R68, R100, R108). -/
def chunkValue (w : Nat) (ps : List Val) : Val × Bool :=
  match ps.find? Val.isNan with
  | some v => (v, false)
  | none =>
    let pos := ps.any fun v => v == .inf false
    let neg := ps.any fun v => v == .inf true
    if pos && neg then (Val.dflt, true)
    else if pos then (.inf false, false)
    else if neg then (.inf true, false)
    else (registerValue w (finParts ps), false)

/-- A product is −0. -/
def isNegZero : Val → Bool
  | .fin true 0 _ => true
  | _ => false

/-- The total before the first chunk (R103). -/
def Total.init : Total := ⟨.zero, false, true⟩

/-- Promote a chunk into a total by one rounding (R103, R104, R109, R110): the total, whether it saturated now, whether
a NaN was made. -/
def promote (fmt : Nat) (t : Total) (v : Val) (negs : Bool) : Total × Bool × Bool :=
  let allNeg := t.allNeg && negs
  match t.val with
  | .nan s p => (⟨.nan s p, t.sat, allNeg⟩, false, false)
  | tv =>
    match v with
    | .nan s p => (⟨.nan s p, t.sat, allNeg⟩, false, false)
    | _ =>
      let x := tv.add v
      match x with
      | .nan s p => (⟨.nan s p, t.sat, allNeg⟩, false, true)
      | .inf s => (⟨.inf s, t.sat, allNeg⟩, false, false)
      | .fin _ m _ =>
        if m = 0 then (⟨.fin allNeg 0 0, t.sat, allNeg⟩, false, false)
        else
          let r := conv fmt .rne false false x
          let exceeded := r.2 == .overflowed
          (⟨decode fmt r.1, t.sat || exceeded, allNeg⟩, exceeded, false)

/-- What a block's formation produced. -/
structure BlockOut where
  fmt : Nat
  totals : List Total
  to64 : Bool
  to128 : Bool
  nanMade : Bool
  sat : Bool
deriving DecidableEq, Repr

/-- Promote one chunk into every total of a block, widening first (R105). -/
def chunkStep (w : Nat) (A B : Nat → Nat → Val) (cells : List (Nat × Nat)) (ks : List Nat) (last : Nat) (o : BlockOut) :
    BlockOut :=
  let to64 := o.fmt == fFP32 && decide (65536 ≤ last)
  let fmt := if to64 then fFP64 else o.fmt
  let to128 := fmt == fFP64 && decide (2 ^ 20 ≤ last)
  let fmt := if to128 then fDD else fmt
  let r := (cells.zip o.totals).map fun c =>
    let ps := ks.map fun k => (A c.1.1 k).mul (B k c.1.2)
    let made := ks.any fun k =>
      let a := A c.1.1 k
      let b := B k c.1.2
      (a.mul b).isNan && !a.isNan && !b.isNan
    let v := chunkValue w ps
    let p := promote fmt c.2 v.1 (ps.all isNegZero)
    (p.1, p.2.1, made || v.2 || p.2.2)
  { fmt := fmt, totals := r.map (·.1), to64 := o.to64 || to64, to128 := o.to128 || to128,
    nanMade := o.nanMade || r.any (·.2.2), sat := o.sat || r.any (·.2.1) }

/-- The totals of one block: chunks of `L` positions in ascending order (R70, R98, R99, R112). `pos0` is the chain
position of K position 0. -/
def blockTotals (L w K pos0 : Nat) (A B : Nat → Nat → Val) (cells : List (Nat × Nat)) (o : BlockOut) : BlockOut :=
  (List.range (ceilDiv K L)).foldl (fun o c =>
    let hi := min K ((c + 1) * L)
    chunkStep w A B cells ((List.range (hi - c * L)).map (· + c * L)) (pos0 + hi - 1) o) o

/-- A block whose chain starts here. -/
def BlockOut.fresh (fmt n : Nat) : BlockOut := ⟨fmt, List.replicate n Total.init, false, false, false, false⟩

/-- Look a value up in a matrix held by rows. -/
def matAt (m : List (List Val)) (i j : Nat) : Val := (m.getD i []).getD j .zero

end Sys2Proof.Machine
end

