-- ==== Sys2Proof/Machine/Array.lean ====
section
/-! DEFINITION. The matrix array (R66 to R119): descriptors, operand fetch with the jig, scarf pairs and gang, the
work of MATMUL and SCARF_PEER, and its flags, records and counters. -/

namespace Sys2Proof.Machine

open Reg

/-! ### Pairs (R91, R94, R95) -/

/-- ROLE, HOPS and PARTNER of an active cluster under a map (ARR_SCARF). -/
def scarfOf (map p : Nat) : Option (Nat × Nat × Nat) :=
  match logicalOf map p with
  | none => none
  | some l =>
    let mate := if l % 2 = 0 then l + 1 else l - 1
    match physOf map mate with
    | none => none
    | some m => some (l % 2, max p m - min p m - 1, m)

/-- The partner of a cluster. -/
def State.partner (s : State) (p : Nat) : Option Nat := (scarfOf s.active p).map (·.2.2)

/-- The even and the odd member of a cluster's pair. -/
def State.pairOf (s : State) (p : Nat) : Option (Nat × Nat) :=
  (scarfOf s.active p).map fun r => if r.1 = 0 then (p, r.2.2) else (r.2.2, p)

/-- The address of `n` bytes at an offset of an operand space (R80, R94); `none` out of range (R81). -/
def State.spaceAddr (s : State) (p space off n : Nat) : Option Nat :=
  match space with
  | 0 => if off + n ≤ veneerSize then some (veneerBase p + off) else none
  | 1 =>
    match s.pairOf p with
    | none => none
    | some (ev, od) =>
      if off + n ≤ veneerSize then some (veneerBase ev + off)
      else if veneerSize ≤ off ∧ off + n ≤ 2 * veneerSize then some (veneerBase od + (off - veneerSize))
      else none
  | 2 => if off + n ≤ 0x40000 then some (opbufBase p + off) else none
  | _ => none

/-- The bytes at an offset of an operand space as ranges of addresses: in the pair view they may lie in both halves
(R94); `none` where some byte is out of range (R81). -/
def State.spaceParts (s : State) (p space off n : Nat) : Option (List (Nat × Nat)) :=
  match s.spaceAddr p space off n with
  | some a => some [(a, n)]
  | none =>
    if space = 1 ∧ off < veneerSize ∧ veneerSize < off + n ∧ off + n ≤ 2 * veneerSize then
      (s.pairOf p).map fun m => [(veneerBase m.1 + off, veneerSize - off), (veneerBase m.2, off + n - veneerSize)]
    else none

/-- The little-endian number in ranges of memory, one after another. -/
def State.rdParts (s : State) : List (Nat × Nat) → Nat
  | [] => 0
  | x :: l => s.rd x.1 x.2 + 2 ^ (8 * x.2) * s.rdParts l

/-- Bytes to ranges of memory, one after another. -/
def State.wrParts (s : State) : List (Nat × Nat) → List Nat → State
  | [], _ => s
  | x :: l, bs => (s.wrBytes x.1 (bs.take x.2)).wrParts l (bs.drop x.2)

/-! ### Descriptors (R80, R84) -/

/-- A decoded array descriptor. -/
structure ArrDesc where
  aOff : Nat
  aSpace : Nat
  bOff : Nat
  bSpace : Nat
  cOff : Nat
  cSpace : Nat
  eOff : Nat
  eSpace : Nat
  m : Nat
  k : Nat
  n : Nat
  aFmt : Nat
  bFmt : Nat
  eFmt : Nat
  shape : Nat
  quad : Nat
  epi : Nat
  accIn : Bool
  accHold : Bool
  wide : Bool
  jig : Bool
  aT : Bool
  bT : Bool
  gate : Nat
  mBlk : Nat
  tensor : Nat
  kTotal : Nat
  lda : Nat
  ldc : Nat
  batch : Nat
  ldb : Nat
  lde : Nat
  jigIdx : Nat
  aBstr : Nat
  bBstr : Nat
  cBstr : Nat
  eBstr : Nat
deriving DecidableEq, Repr

/-- Decode the eight words of an array descriptor (table "Array descriptor"). -/
def arrDescOf (w : List Nat) : ArrDesc :=
  let g (i : Nat) := w.getD i 0
  { aOff := bits (g 0) 23 0, aSpace := bits (g 0) 25 24, bOff := bits (g 0) 55 32, bSpace := bits (g 0) 57 56,
    cOff := bits (g 1) 23 0, cSpace := bits (g 1) 25 24, eOff := bits (g 1) 55 32, eSpace := bits (g 1) 57 56,
    m := bits (g 2) 19 0, k := bits (g 2) 39 20, n := bits (g 2) 59 40, aFmt := bits (g 3) 4 0,
    bFmt := bits (g 3) 9 5, eFmt := bits (g 3) 14 10, shape := bits (g 3) 17 15, quad := bits (g 3) 19 18,
    epi := bits (g 3) 21 20, accIn := bit (g 3) 22, accHold := bit (g 3) 23, wide := bit (g 3) 24, jig := bit (g 3) 25,
    aT := bit (g 3) 26, bT := bit (g 3) 27, gate := bits (g 3) 47 32, mBlk := bits (g 3) 63 48, tensor := bits (g 4) 31 0,
    kTotal := bits (g 4) 63 32, lda := bits (g 5) 23 0, ldc := bits (g 5) 47 24, batch := bits (g 5) 63 48,
    ldb := bits (g 6) 23 0, lde := bits (g 6) 47 24, jigIdx := bits (g 6) 53 48, aBstr := bits (g 7) 15 0,
    bBstr := bits (g 7) 31 16, cBstr := bits (g 7) 47 32, eBstr := bits (g 7) 63 48 }

/-- The reserved bits of an array descriptor, as one number (R7). -/
def arrDescRsvd (w : List Nat) : Nat :=
  let g (i : Nat) := w.getD i 0
  bits (g 0) 31 26 + bits (g 0) 63 58 + bits (g 1) 31 26 + bits (g 1) 63 58 + bits (g 2) 63 60 + bits (g 3) 31 28 +
    bits (g 6) 63 54

/-- The offset of a cluster's array table in its veneer region, under the running bank. -/
def State.arrTbl (s : State) (p : Nat) : Nat := s.bankGet (ARR_DESC_A.OFF p) (ARR_DESC_B.OFF p) * 64

/-- Array descriptor `d` of a cluster: the address words from memory at issue, the rest from the sealed copy (R80). -/
def State.arrDesc (s : State) (p d : Nat) : ArrDesc :=
  let a := veneerBase p + s.arrTbl p + d * 64
  arrDescOf ([s.rd a 8, s.rd (a + 8) 8] ++ s.sealedWords (a + 16) 6)

/-- One dimension of a jig. -/
structure JigDim where
  size : Nat
  ks : Nat
  str : Nat
  dil : Nat
  idl : Nat
  plo : Nat
  phi : Nat
deriving DecidableEq, Repr

/-- A decoded jig descriptor (R84). -/
structure Jig where
  w : JigDim
  h : JigDim
  d : JigDim
  nImg : Nat
  cg : Nat
  groups : Nat
  pixStr : Nat
  rsvd : Nat
deriving DecidableEq, Repr

/-- Decode the words of a jig descriptor (table "Jig descriptor"). -/
def jigOf (l : List Nat) : Jig :=
  let g (i : Nat) := l.getD i 0
  { w := ⟨bits (g 0) 15 0, bits (g 1) 7 0, bits (g 1) 35 32, bits (g 1) 47 44, bits (g 1) 59 56, bits (g 2) 7 0,
      bits (g 2) 15 8⟩
    h := ⟨bits (g 0) 31 16, bits (g 1) 15 8, bits (g 1) 39 36, bits (g 1) 51 48, bits (g 1) 63 60, bits (g 2) 23 16,
      bits (g 2) 31 24⟩
    d := ⟨bits (g 0) 47 32, bits (g 1) 23 16, bits (g 1) 43 40, bits (g 1) 55 52, bits (g 2) 51 48, bits (g 2) 39 32,
      bits (g 2) 47 40⟩
    nImg := bits (g 0) 63 48, cg := bits (g 3) 15 0, groups := bits (g 3) 31 16, pixStr := bits (g 3) 55 32
    rsvd := bits (g 1) 31 24 + bits (g 2) 63 52 + bits (g 3) 63 56 + g 4 + g 5 + g 6 + g 7 }

/-- Jig descriptor `j` of a cluster, from the sealed copy. -/
def State.jigDesc (s : State) (p j : Nat) : Jig :=
  jigOf (s.sealedWords (veneerBase p + s.arrTbl p + 0x4000 + j * 64) 8)

/-- The output size of a dimension (R85); 0 where it would be less than 1. -/
def JigDim.out (x : JigDim) : Nat :=
  let span : Int := ((x.size : Int) - 1) * x.idl + 1 + x.plo + x.phi - x.dil * ((x.ks : Int) - 1) - 1
  if span < 0 then 0 else span.toNat / x.str + 1

/-- The input position of one dimension; `none` for padding (R85). -/
def JigDim.pos (x : JigDim) (o kk : Nat) : Option Nat :=
  let p : Int := (o * x.str + kk * x.dil : Int) - x.plo
  if p < 0 then none
  else
    let n := p.toNat
    if n % x.idl ≠ 0 then none
    else if n / x.idl < x.size then some (n / x.idl) else none

/-- The offset of element (m, k) of group `g`; `none` for padding (R85, jig_element). -/
def Jig.elem (j : Jig) (aOff esize g m k : Nat) : Option Nat :=
  let ow := m % j.w.out
  let t := m / j.w.out
  let oh := t % j.h.out
  let t := t / j.h.out
  let od := t % j.d.out
  let n := t / j.d.out
  let c := k % j.cg
  let t := k / j.cg
  let kw := t % j.w.ks
  let t := t / j.w.ks
  let kh := t % j.h.ks
  let kd := t / j.h.ks
  match j.d.pos od kd, j.h.pos oh kh, j.w.pos ow kw with
  | some d, some h, some w =>
    some (aOff + (((n * j.d.size + d) * j.h.size + h) * j.w.size + w) * j.pixStr + (g * j.cg + c) * esize)
  | _, _, _ => none

/-! ### Fetching elements (R48, R68, R71, R73, R81, R85) -/

/-- An operand element: its value, +0 where it is out of range; the bytes it was read from; whether it was out of
range. -/
structure Fetched where
  val : Val
  read : List (Nat × Nat)
  oob : Bool
deriving DecidableEq, Repr

/-- The offset of the scale stream of an MX operand with `rows` stored rows of `cols` elements (R73). -/
def mxScaleOff (base rows cols ld fmt : Nat) : Nat :=
  ceilDiv (base + (rows - 1) * ld + ceilDiv cols 32 * (4 * fmtBits fmt)) 64 * 64

/-- An element of a stored matrix. Where an operand's extent lies partly outside its space, each element is judged by its
own bytes. DESIGN CHOICE: notes/assumptions/29.md. -/
def State.fetchElem (s : State) (p space fmt base row col ld rows cols : Nat) : Fetched :=
  if isMx fmt then
    let b := fmtBits fmt * (col % 32)
    let off := base + row * ld + col / 32 * (4 * fmtBits fmt) + b / 8
    let nb := ceilDiv (b % 8 + fmtBits fmt) 8
    match s.spaceParts p space off nb,
        s.spaceAddr p space (mxScaleOff base rows cols ld fmt + row * ceilDiv cols 32 + col / 32) 1 with
    | some a, some c =>
      ⟨decodeMx fmt (s.rdParts a / 2 ^ (b % 8) % 2 ^ fmtBits fmt) (s.rd1 c), a ++ [(c, 1)], false⟩
    | _, _ => ⟨.zero, [], true⟩
  else
    match s.spaceParts p space (base + row * ld + col * fmtBytes fmt) (fmtBytes fmt) with
    | some a => ⟨decode fmt (s.rdParts a), a, false⟩
    | none => ⟨.zero, [], true⟩

/-- One member of an operation: its physical cluster and its descriptor. -/
structure Member where
  p : Nat
  d : ArrDesc
deriving DecidableEq, Repr

/-- Element (m, k) of A of an item, as a member addresses it. -/
def State.fetchA (s : State) (x : Member) (jig : Option Jig) (item m k : Nat) : Fetched :=
  let d := x.d
  match jig with
  | some j =>
    match j.elem d.aOff (fmtBytes d.aFmt) item m k with
    | none => ⟨.zero, [], false⟩
    | some off => s.fetchElem x.p d.aSpace d.aFmt off 0 0 0 1 1
  | none =>
    let base := d.aOff + item * d.aBstr * 64
    if d.aT then s.fetchElem x.p d.aSpace d.aFmt base k m d.lda d.k d.m
    else s.fetchElem x.p d.aSpace d.aFmt base m k d.lda d.m d.k

/-- Element (k, n) of B of an item. -/
def State.fetchB (s : State) (x : Member) (item k n : Nat) : Fetched :=
  let d := x.d
  let base := d.bOff + item * d.bBstr * 64
  if d.bT then s.fetchElem x.p d.bSpace d.bFmt base n k d.ldb d.n d.k
  else s.fetchElem x.p d.bSpace d.bFmt base k n d.ldb d.k d.n

/-- Element (m, n) of E of an item. -/
def State.fetchE (s : State) (x : Member) (item m n : Nat) : Fetched :=
  s.fetchElem x.p x.d.eSpace x.d.eFmt (x.d.eOff + item * x.d.eBstr * 64) m n x.d.lde x.d.m x.d.n

/-! ### One operation -/

/-- The tile width of one cluster or quadrant (tables "Array mode parameters" and "Gang and scarf parameters"). -/
def tileWidth (cls shape : Nat) : Nat :=
  let w := if cls = 1 then 64 else if cls = 2 then 128 else 32
  if shape = 1 then w / 2 else w

/-- The chunk length, which is the depth of a pass (R98). -/
def chunkLen (shape : Nat) : Nat := if shape = 1 then 16 else if shape = 2 then 64 else 32

/-- An operation as one member executes it: the member, the even and the odd member, its quadrant, the jig and the tile
loaded ahead. -/
structure Op where
  me : Member
  even : Member
  odd : Member
  desc : Nat
  jig : Option Jig
  pre : List ((Nat × Nat) × Val)
deriving DecidableEq, Repr

/-- The member that supplies K position `k` of A. -/
def Op.aBy (o : Op) (k : Nat) : Member :=
  if o.me.d.shape = 2 then (if k % 64 < 32 then o.even else o.odd)
  else if o.me.d.shape = 3 then o.even else o.me

/-- The member that supplies K position `k` of B for the columns this member drains. -/
def Op.bBy (o : Op) (k : Nat) : Member :=
  if o.me.d.shape = 2 then (if k % 64 < 32 then o.even else o.odd) else o.me

/-- The quadrant whose flags and records the operation uses (R89). -/
def Op.quad (o : Op) : Nat := if o.me.d.shape = 1 then o.me.d.quad else 0

/-- The member drains totals: all but the even member of a K-scarf (R92). -/
def Op.drains (o : Op) : Bool := !(o.me.d.shape == 2 && o.me.p == o.even.p)

/-- The tiles of columns that this member drains: tile index and columns (R70, R93). -/
def Op.tiles (o : Op) : List (Nat × List Nat) :=
  let d := o.me.d
  let nt := tileWidth (opClass d.aFmt) d.shape
  let wide := if d.shape = 3 then 2 * nt else nt
  let first := if d.shape = 3 ∧ o.me.p = o.odd.p then nt else 0
  ((List.range (ceilDiv d.n wide)).map fun t =>
    (t, (List.range nt).filterMap fun c =>
      let n := t * wide + first + c
      if n < d.n then some n else none)).filter fun t => !t.2.isEmpty

/-- The rows of each block (R70). -/
def Op.blocks (o : Op) : List (Nat × List Nat) :=
  (List.range (ceilDiv o.me.d.m o.me.d.mBlk)).map fun b =>
    (b, (List.range (min o.me.d.mBlk (o.me.d.m - b * o.me.d.mBlk))).map (· + b * o.me.d.mBlk))

/-- A of an item by rows, and B by rows over the columns of a tile (a tile loaded ahead replaces what memory holds,
R76). -/
def State.opA (s : State) (o : Op) (item : Nat) : List (List Fetched) :=
  (List.range o.me.d.m).map fun m => (List.range o.me.d.k).map fun k => s.fetchA (o.aBy k) o.jig item m k

def State.opB (s : State) (o : Op) (item : Nat) (cols : List Nat) : List (List Fetched) :=
  (List.range o.me.d.k).map fun k => cols.map fun n =>
    match (if item = 0 then o.pre.find? fun e => e.1 == (k, n) else none) with
    | some e => ⟨e.2, [], false⟩
    | none => s.fetchB (o.bBy k) item k n

/-- One drained block: its item, tile and block indices, the accumulator half, its columns and rows, and its totals. -/
structure Drained where
  item : Nat
  tile : Nat
  blk : Nat
  half : Nat
  cols : List Nat
  rows : List Nat
  out : BlockOut
deriving DecidableEq, Repr

/-- The chain that an ACC_IN entry continues (R83). -/
def State.chainOf (s : State) (eng : Nat) : Option Chain := s.arr.chains.find? fun c => c.eng == eng

/-- Form every block of the operation, in the order of R70. The spec does not say which totals each block of an ACC_IN
entry of several blocks continues from: here every block starts from the same held totals. DESIGN CHOICE:
notes/assumptions/29.md. -/
def State.formBlocks (s : State) (o : Op) : List Drained :=
  let d := o.me.d
  let cls := opClass d.aFmt
  let held := if d.accIn then s.chainOf (o.me.p * 16 + o.quad) else none
  let blks := (List.range d.batch).flatMap fun item =>
    let A := (s.opA o item).map fun r => r.map (·.val)
    o.tiles.flatMap fun t =>
      let B := (s.opB o item t.2).map fun r => r.map (·.val)
      o.blocks.map fun b => (item, t, b, A, B)
  (blks.zip (List.range blks.length)).map fun x =>
    let (item, t, b, A, B) := x.1
    let cells := b.2.flatMap fun m => (List.range t.2.length).map fun j => (m, j)
    let o0 : BlockOut := match held with
      | some c => ⟨c.fmt, c.totals, false, false, false, false⟩
      | none => BlockOut.fresh (startFmt cls d.wide) cells.length
    let pos0 := match held with
      | some c => c.pos
      | none => 0
    ⟨item, t.1, b.1, x.2 % 2, t.2, b.2,
      blockTotals (chunkLen d.shape) (chunkBits cls) d.k pos0 (matAt A) (matAt B) cells o0⟩

/-! ### Flags, records and errors -/

/-- The elements that a member reads in an operation, and those whose NaNs, infinities and out-of-range accesses it
flags as the member that drains the affected outputs (R89, R96). -/
def State.opReads (s : State) (o : Op) : List Fetched × List Fetched :=
  let d := o.me.d
  let items := List.range d.batch
  let ks := List.range d.k
  let a (mine : Bool) := items.flatMap fun i => (List.range d.m).flatMap fun m => (ks.filter fun k =>
    !mine || (o.aBy k).p == o.me.p).map fun k => s.fetchA (o.aBy k) o.jig i m k
  let cols := if o.drains then o.tiles.flatMap (·.2) else List.range d.n
  let b (mine : Bool) := items.flatMap fun i => (ks.filter fun k => !mine || (o.bBy k).p == o.me.p).flatMap fun k =>
    cols.map fun n =>
      match (if i = 0 then o.pre.find? fun e => e.1 == (k, n) else none) with
      | some e => ⟨e.2, [], false⟩
      | none => s.fetchB (o.bBy k) i k n
  let e := if d.epi ≠ 0 ∧ o.drains then
      items.flatMap fun i => (List.range d.m).flatMap fun m => cols.map fun n => s.fetchE o.me i m n
    else []
  (a true ++ b true ++ e, if o.drains && !cols.isEmpty then a false ++ b false ++ e else [])

/-- The scope of a hardware error of an operation: the pair in a scarf (R96), else the cluster (R90). -/
def Op.widen (o : Op) (e : Err) : Err :=
  if o.me.d.shape = 2 ∨ o.me.d.shape = 3 then
    { e with scope := scPair, index := o.me.p, detail := if o.me.p = o.even.p then o.odd.p else o.even.p }
  else e

/-- A contained hardware error of an operation. -/
def State.opHwErr (s : State) (o : Op) (source code : Nat) : State :=
  let (v, s) := s.draw
  s.raise (o.widen ⟨1, scCluster, o.me.p, source, code, v % 2 ^ 48⟩)

/-- What the checkers saw during an operation (R97, R117, R252, R426). -/
def State.arrHw (s : State) (o : Op) (hw : List HwFault) : State :=
  let p := o.me.p
  hw.foldl (fun s h => match h with
    | .wregPar => ((s.set (ARR_HWERR.WREG_PAR p) 1).inc (ARR_HWERR.COUNT p)).opHwErr o srcARR 0
    | .residue => ((s.set (ARR_HWERR.RESIDUE p) 1).inc (ARR_HWERR.COUNT p)).opHwErr o srcARR 1
    | .scarfPar => ((s.set (ARR_HWERR.SCARF_PAR p) 1).inc (ARR_HWERR.COUNT p)).opHwErr o srcARR 2
    | .descPar =>
      let s := ((s.set (ARR_HWERR.DESC_PAR p) 1).inc (ARR_HWERR.COUNT p)).noteParity
      s.opHwErr o srcARR 3
    | .ownCe => ((s.set (ACC_HWERR.ECC_CE p) 1).inc (ACC_HWERR.CE_COUNT p)).raiseOpen 0 scCluster p srcACC 0
    | .ownUe => ((s.set (ACC_HWERR.ECC_UE p) 1).inc (ACC_HWERR.UE_COUNT p)).opHwErr o srcACC 1
    | .bufCe => s.corrected scCluster p srcARR
    | .bufUe => let (v, s) := s.draw; s.opHwErr o srcARR (v % 2 ^ 16)
    | .memUe a => s.memUncorrectableAs o.widen a 1 0
    | h => s.hwMem [h] 1 0) s

/-- The poisoned words that an operation reads raise their errors (R252). -/
def State.arrPoison (s : State) (o : Op) (reads : List (Nat × Nat)) : State :=
  (s.poison.filter fun w => reads.any fun r => decide (r.1 < w + eccBytes w) && decide (w < r.1 + r.2)).foldl
    (fun s w => s.memUncorrectableAs o.widen w 1 0) s

/-- The address words of the member's descriptor, which the array reads again at issue (R80). -/
def State.descReads (s : State) (o : Op) : List (Nat × Nat) := [(veneerBase o.me.p + s.arrTbl o.me.p + o.desc * 64, 16)]

/-- An out-of-range access of an operation (R81). -/
def State.arrOob (s : State) (p q : Nat) : State :=
  (s.set (ARR_QFLAGS.OOB p q) 1).fatalAtGlue scCluster p srcARR (8 * q + 5)

/-! ### Draining (R72, R73, R111, R113, R116) -/

/-- The offset of the totals of a block in the accumulators (R107, R116). -/
def accOff (p q half : Nat) : Nat := accumBase p + half * 0x10000 + q * 0x4000

/-- The bytes of totals one after another. -/
def totalsBytes (fmt : Nat) (ts : List Total) : List Nat :=
  ts.flatMap fun t => leBytes (totalBytes fmt) (rne fmt t.val)

/-- The totals of a block in an accumulator half: `rows` rows of `cols` totals, `stride` totals apart (R116). -/
def State.putTotals (s : State) (a fmt rows cols stride : Nat) (ts : List Total) : State :=
  (List.range rows).foldl (fun s r =>
    s.wrBytes (a + r * stride * totalBytes fmt) (totalsBytes fmt ((ts.drop (r * cols)).take cols))) s

/-- The field that says which format a half holds. -/
def halfFmt (p half : Nat) : Fld := if half = 0 then ACC_STATUS.HALF0_FMT p else ACC_STATUS.HALF1_FMT p

/-- The code of a total format in ACC_STATUS. -/
def fmtCode (fmt : Nat) : Nat := if fmt = fFP32 then 0 else if fmt = fFP64 then 1 else 2

/-- A SAT halts the slice while any cluster's STOP_ON_SAT is 1 (R119). The model halts at every SAT, so also at one
after a restart. DESIGN CHOICE: notes/assumptions/29.md. -/
def State.stopOnSat (s : State) : State :=
  if s.job == 2 && (List.range nPhys).any fun p => s.is (ACC_DEBUG.STOP_ON_SAT p) then
    s.updTick fun t => { t with haltPend := true }
  else s

/-- The flags and accumulator contents that a formed block of quadrant `q` of cluster `p` leaves, in a half of `stride`
totals a row (R105, R108 to R110, R116, R119). -/
def State.noteOut (s : State) (p q half rows cols stride : Nat) (b : BlockOut) : State :=
  let s := (s.putTotals (accOff p q half) b.fmt rows cols stride b.totals).set (halfFmt p half) (fmtCode b.fmt)
  let s := if b.nanMade then s.set (ARR_QFLAGS.NAN_MADE p q) 1 else s
  let s := if b.to64 then s.inc (ACC_LONGSUM.TO_FP64 p) else s
  let s := if b.to128 then s.inc (ACC_LONGSUM.TO_DD128 p) else s
  let s := if b.to64 || b.to128 then s.set (ARR_QFLAGS.LONGSUM p q) 1 else s
  if b.sat then (s.set (ARR_QFLAGS.SAT p q) 1).stopOnSat else s

/-- What a formed block leaves; a row of a half is as wide as the member's tile (R116). -/
def State.noteBlock (s : State) (o : Op) (b : Drained) : State :=
  s.noteOut o.me.p o.quad b.half b.rows.length b.cols.length
    (min o.me.d.n (tileWidth (opClass o.me.d.aFmt) o.me.d.shape)) b.out

/-- The tile record and the counters of a drained tile (R111). -/
def State.noteTotals (s : State) (p q desc item blk tile : Nat) (ts : List Total) : State :=
  let sats := ts.filter (·.sat)
  let nonf := ts.filter fun t => t.val.nonfinite
  let s := (s.inc (ACC_COUNTS.SAT_TOTALS p) sats.length).inc (ACC_COUNTS.NONFINITE_TOTALS p) nonf.length
  if (sats.isEmpty && nonf.isEmpty) || s.is (ACC_TILE.VALID p q) then s
  else s.setAll [(ACC_TILE.DESC p q, desc), (ACC_TILE.ITEM p q, item), (ACC_TILE.M_BLOCK p q, blk),
    (ACC_TILE.N_TILE p q, tile), (ACC_TILE.SAT p q, ofBool !sats.isEmpty),
    (ACC_TILE.NONFINITE p q, ofBool !nonf.isEmpty), (ACC_TILE.VALID p q, 1)]

/-- The tile record and the counters of a drained block. -/
def State.noteTile (s : State) (o : Op) (b : Drained) : State :=
  s.noteTotals o.me.p o.quad o.desc b.item b.blk b.tile b.out.totals

/-- The epilogue of one total (R72). -/
def epilogue (epi : Nat) (t e : Val) : Val := if epi = 1 then t.add e else if epi = 2 then t.mul e else t

/-- The results of a drained block after the epilogue: row, column, value. -/
def State.results (s : State) (o : Op) (b : Drained) : List (Nat × Nat × Val) :=
  let cells := b.rows.flatMap fun m => b.cols.map fun n => (m, n)
  (cells.zip b.out.totals).map fun c =>
    (c.1.1, c.1.2, if o.me.d.epi = 0 then c.2.val
      else epilogue o.me.d.epi c.2.val (s.fetchE o.me b.item c.1.1 c.1.2).val)

/-- The epilogue made a NaN of operands that are none. -/
def State.epiNan (s : State) (o : Op) (b : Drained) : Bool :=
  o.me.d.epi != 0 && ((s.results o b).zip b.out.totals).any fun r =>
    r.1.2.2.isNan && !r.2.val.isNan && !(s.fetchE o.me b.item r.1.1 r.1.2.1).val.isNan

/-- Write ranges of memory of C (R252). -/
def State.wrC (s : State) (o : Op) (a : List (Nat × Nat)) (bs : List Nat) : State :=
  (s.noteWrite o.widen a 1).wrParts a bs

/-- Write `bs` at an offset of C's space, as far as it is in range (R81); whether any of it was not. -/
def State.writeC (s : State) (o : Op) (off unit : Nat) (bs : List Nat) : State × Bool :=
  match s.spaceParts o.me.p o.me.d.cSpace off bs.length with
  | some a => (s.wrC o a bs, false)
  | none =>
    ((List.range (bs.length / unit)).foldl (fun s i =>
      match s.spaceParts o.me.p o.me.d.cSpace (off + i * unit) unit with
      | some a => s.wrC o a ((bs.drop (i * unit)).take unit)
      | none => s) s, true)

/-- The bit string of MX element codes (R48). -/
def packBits (w : Nat) : List Nat → Nat
  | [] => 0
  | c :: cs => c + 2 ^ w * packBits w cs

/-- One row of a drained block through the gate and to memory; whether any of it was out of range. -/
def State.drainRow (s : State) (o : Op) (item m : Nat) (xs : List (Nat × Val)) : State × Bool :=
  let d := o.me.d
  let g := gateOf d.gate
  let base := d.cOff + item * d.cBstr * 64
  let ix (n : Nat) := (item * d.m + m) * d.n + n
  if isMx g.fmt then
    let w := fmtBits g.fmt
    ((List.range (ceilDiv d.n 32)).foldl (fun (r : State × Bool) j =>
      let vs := xs.filter fun x => x.1 / 32 == j
      if vs.isEmpty then r
      else
        let blk := r.1.gateBlock g d.tensor (vs.map fun x => (ix x.1, x.2))
        let s := (r.1.countGate 0 g.fmt (blk.2.map (·.2))).noteSre g vs.length
        let e := s.writeC o (base + m * d.ldc + j * (4 * w)) (4 * w) (leBytes (4 * w) (packBits w (blk.2.map (·.1))))
        let c := e.1.writeC o (mxScaleOff base d.m d.n d.ldc g.fmt + m * ceilDiv d.n 32 + j) 1 [blk.1]
        (c.1, r.2 || e.2 || c.2)) (s, false))
  else
    let r := s.gateAll 0 g d.tensor (xs.map fun x => (ix x.1, x.2))
    match xs with
    | [] => (s, false)
    | x :: _ => r.2.writeC o (base + m * d.ldc + x.1 * fmtBytes g.fmt) (fmtBytes g.fmt) (codesBytes g.fmt r.1)

/-- The rows of the results that leave the gate: item, row, and the columns with their values. An MX row leaves whole,
since its blocks may span tiles. -/
def State.drainRows (s : State) (o : Op) (bs : List Drained) : List (Nat × Nat × List (Nat × Val)) :=
  let rs := bs.map fun b => (b, s.results o b)
  if isMx (gateOf o.me.d.gate).fmt then
    (List.range o.me.d.batch).flatMap fun item => (List.range o.me.d.m).map fun m =>
      (item, m, rs.flatMap fun r => if r.1.item = item then (r.2.filter fun x => x.1 == m).map (·.2) else [])
  else rs.flatMap fun r => r.1.rows.map fun m => (r.1.item, m, (r.2.filter fun x => x.1 == m).map (·.2))

/-- Hold the totals of an ACC_HOLD entry (R83), or close the chain. -/
def State.keepChain (s : State) (o : Op) (bs : List Drained) : State :=
  let eng := o.me.p * 16 + o.quad
  let pos := match (if o.me.d.accIn then s.chainOf eng else none) with
    | some c => c.pos
    | none => 0
  let rest := s.arr.chains.filter fun c => c.eng != eng
  let chains := match (if o.me.d.accHold then bs.getLast? else none) with
    | some b => ⟨eng, b.out.fmt, pos + o.me.d.k, b.out.totals⟩ :: rest
    | none => rest
  ({ s with arr := { s.arr with chains := chains } }).setB (ARR_STATUS.HOLDING o.me.p)
    (chains.any fun c => c.eng / 16 == o.me.p)

/-- The rows of the results that leave the gate before the operation's last pass starts, and those of its last block. -/
def lastRows (bs : List Drained) (rows : List (Nat × Nat × List (Nat × Val))) :
    List (Nat × Nat × List (Nat × Val)) × List (Nat × Nat × List (Nat × Val)) :=
  let k := rows.length - ((bs.getLast?.map fun b => b.rows.length).getD 0)
  (rows.take k, rows.drop k)

/-- The whole work of one member (R70 to R113); `ahead` is what happens when its last pass starts, before its last block
drains (R76). -/
def State.runOp (s : State) (o : Op) (hw : List HwFault) (ahead : State → State) : State :=
  let reads := s.opReads o
  let bs := if o.drains then s.formBlocks o else []
  let s0 := s
  let p := o.me.p
  let q := o.quad
  let s := (s.arrPoison o (s.descReads o ++ reads.1.flatMap (·.read))).arrHw o hw
  if !s.running then s
  else
    let s := if reads.2.any fun f => f.val.isNan then s.set (ARR_QFLAGS.NAN_IN p q) 1 else s
    let s := if reads.2.any fun f => f.val.isInf then s.set (ARR_QFLAGS.INF_IN p q) 1 else s
    let s := bs.foldl (fun s b => s.noteBlock o b) s
    let r := if o.me.d.accHold || !o.drains then (ahead s, false)
      else
        let rows := lastRows bs (s0.drainRows o bs)
        let s := if bs.any (s0.epiNan o) then s.set (ARR_QFLAGS.NAN_MADE p q) 1 else s
        let s := bs.foldl (fun s b => s.noteTile o b) s
        let drain (r : State × Bool) (x : Nat × Nat × List (Nat × Val)) : State × Bool :=
          let y := r.1.drainRow o x.1 x.2.1 x.2.2
          (y.1, r.2 || y.2)
        let r := rows.1.foldl drain (s, false)
        rows.2.foldl drain (ahead r.1, r.2)
    let s := if o.drains then r.1.keepChain o bs else r.1
    if r.2 || reads.2.any (·.oob) then s.arrOob p q else s

/-! ### Issue, preload and completion (R75, R76, R79, R91) -/

/-- The engine that executes an operation of a descriptor: the whole array, or a quadrant (R88). -/
def arrEng (d : ArrDesc) : Nat := if d.shape = 1 then 16 + d.quad else 1

/-- The array, or the quadrant, cannot take an entry at cycle `cc`: it is busy, or the whole array is (R79, R88). -/
def State.arrBusyAt (s : State) (p eng cc : Nat) : Bool :=
  s.engineBusy .cluster p eng cc || s.engineBusy .cluster p 1 cc ||
    (eng == 1 && (List.range 4).any fun q => s.engineBusy .cluster p (16 + q) cc)

/-- The descriptor of the entry of a cluster's running list that has an opcode and a start: the other half of a scarf
operation (R91). -/
def State.peerDesc (s : State) (p opcode tick start dflt : Nat) : Nat :=
  match (s.runEntries .cluster p).find? fun e => e.opcode == opcode && e.tick == tick && e.start == start with
  | some e => e.desc
  | none => dflt

/-- The jig of a descriptor, if it uses one. -/
def State.jigFor (s : State) (p : Nat) (d : ArrDesc) : Option Jig := if d.jig then some (s.jigDesc p d.jigIdx) else none

/-- The operation of a MATMUL of cluster `p`. -/
def State.opOf (s : State) (p desc tick start : Nat) (pre : List ((Nat × Nat) × Val)) : Op :=
  let me : Member := ⟨p, s.arrDesc p desc⟩
  let odd : Member :=
    if me.d.shape = 2 ∨ me.d.shape = 3 then
      match s.partner p with
      | some m => ⟨m, s.arrDesc m (s.peerDesc m 0x103 tick start desc)⟩
      | none => me
    else me
  ⟨me, me, odd, desc, s.jigFor p me.d, pre⟩

/-- The odd member's half of a scarf operation. -/
def State.peerOp (s : State) (p desc tick start : Nat) (pre : List ((Nat × Nat) × Val)) : Op :=
  let me : Member := ⟨p, s.arrDesc p desc⟩
  let even : Member := match s.partner p with
    | some m => ⟨m, s.arrDesc m (s.peerDesc m 0x100 tick start desc)⟩
    | none => me
  ⟨me, even, me, desc, s.jigFor p me.d, pre⟩

/-- The tile loaded ahead for the operation of an engine that is scheduled at (tick, start), where it was loaded for this
descriptor. -/
def State.preFor (s : State) (eng desc tick start : Nat) : List ((Nat × Nat) × Val) :=
  match s.arr.preloads.find? fun x => x.eng == eng && x.desc == desc && x.tick == tick && x.start == start with
  | some x => x.tile
  | none => []

/-- The tile loaded ahead for the operation of an engine at (tick, start) is used up. -/
def State.dropPre (s : State) (eng tick start : Nat) : State :=
  { s with arr := { s.arr with
      preloads := s.arr.preloads.filter fun x => !(x.eng == eng && x.tick == tick && x.start == start) } }

/-- Load the first weight tile of the operation at (tick, start) ahead, for one member (R76). -/
def State.loadTile (s : State) (o : Op) (tick start : Nat) : State :=
  let d := o.me.d
  let eng := o.me.p * 16 + o.quad
  let cols := match o.tiles with
    | t :: _ => if t.1 = 0 then t.2 else []
    | [] => []
  let els := (List.range (min (chunkLen d.shape) d.k)).flatMap fun k => cols.map fun n => ((k, n), s.fetchB (o.bBy k) 0 k n)
  let s := s.arrPoison o (els.flatMap fun e => e.2.read)
  let s := if els.any fun e => e.2.oob then s.arrOob o.me.p o.quad else s
  let t : Preload := ⟨eng, o.desc, tick, start, els.map fun e => (e.1, e.2.val)⟩
  let s := s.dropPre eng tick start
  { s with arr := { s.arr with preloads := t :: s.arr.preloads } }

/-- The next MATMUL entry of the same engine after an entry of the running list: its tick and start. -/
def State.nextMatmul (s : State) (p entry eng : Nat) : Nat × Nat :=
  match (s.runEntries .cluster p).find? fun e =>
      decide (entry < e.index) && e.opcode == 0x100 && arrEng (s.arrDesc p e.desc) == eng with
  | some e => (e.tick, e.start)
  | none => (0, 0)

/-- The preload that a TAG requests (R76). Where the next operation is a scarf operation, the even member's TAG loads the
first tiles of both members, since a SCARF_PEER's TAG is 0 (R78). DESIGN CHOICE: notes/assumptions/29.md. -/
def State.preload (s : State) (p : Nat) (i : Issue) (eng : Nat) : State :=
  if bit i.tag 15 then
    let at' := s.nextMatmul p i.entry eng
    let o := s.opOf p (i.tag % 256) at'.1 at'.2 []
    let s := if o.drains then s.loadTile o at'.1 at'.2 else s
    if o.odd.p ≠ p then
      s.loadTile (s.peerOp o.odd.p (s.peerDesc o.odd.p 0x103 at'.1 at'.2 (i.tag % 256)) at'.1 at'.2 []) at'.1 at'.2
    else s
  else s

/-- The passes of an operation, counted by each member: those of R70, in which the limb passes of R69 are not counted
again. DESIGN CHOICE: notes/assumptions/29.md. -/
def opPasses (d : ArrDesc) : Nat :=
  let nt := tileWidth (opClass d.aFmt) d.shape * (if d.shape = 3 then 2 else 1)
  d.batch * ceilDiv d.n nt * ceilDiv d.m d.mBlk * ceilDiv d.k (chunkLen d.shape)

/-- The multiply-accumulates of an operation that a member forms (ARR_MACS). -/
def Op.macs (o : Op) : Nat :=
  let d := o.me.d
  let ks := if d.shape = 2 then ((List.range d.k).filter fun k => (o.aBy k).p == o.me.p).length else d.k
  let ns := if d.shape = 3 then (o.tiles.flatMap (·.2)).length else d.n
  d.batch * d.m * ks * ns

/-- The array of a cluster begins to be busy. -/
def State.arrBegin (s : State) (p : Nat) : State :=
  if s.arr.since.any fun e => e.1 == p then s
  else { s with arr := { s.arr with since := (p, s.tick.now) :: s.arr.since } }

/-- The work of a MATMUL or SCARF_PEER of (tick, start) that has issued. -/
def State.startOp (s : State) (o : Op) (eng tick start : Nat) (hw : List HwFault) (ahead : State → State) : State :=
  (((s.arrBegin o.me.p).noteInfo .cluster o.me.p eng [o.desc, o.quad, opPasses o.me.d, o.macs]).dropPre
    (o.me.p * 16 + o.quad) tick start).runOp o hw ahead

/-- MATMUL. DEDUCED: notes/assumptions/29.md. -/
def execMatmul (i : Issue) (hw : List HwFault) (s : State) : Host.Outcome State Fault Refusal :=
  let d := s.arrDesc i.idx i.desc
  let eng := arrEng d
  let pre := s.preFor (i.idx * 16 + (if d.shape = 1 then d.quad else 0)) i.desc i.tick i.startCc
  s.issueWhen (s.arrBusyAt i.idx eng i.startCc) .cluster eng i true fun s =>
    s.startOp (s.opOf i.idx i.desc i.tick i.startCc pre) eng i.tick i.startCc hw fun t => t.preload i.idx i eng

/-- SCARF_PEER: the odd member's half of the even member's scarf operation (R91 to R93). DEDUCED:
notes/assumptions/29.md. -/
def execScarfPeer (i : Issue) (hw : List HwFault) (s : State) : Host.Outcome State Fault Refusal :=
  let pre := s.preFor (i.idx * 16) i.desc i.tick i.startCc
  s.issueWhen (s.arrBusyAt i.idx 1 i.startCc) .cluster 1 i true fun s =>
    s.startOp (s.peerOp i.idx i.desc i.tick i.startCc pre) 1 i.tick i.startCc hw id

/-- GANG_ON: the array splits into four quadrant engines. -/
def execGangOn (i : Issue) (s : State) : Host.Outcome State Fault Refusal :=
  s.issueWhen (s.arrBusyAt i.idx 1 i.startCc) .cluster 1 i false fun s =>
    (s.set (ARR_STATUS.GANG i.idx) 1).inc (ARR_BUSY.BUSY_CC i.idx) 8

/-- GANG_OFF: the quadrants rejoin. -/
def execGangOff (i : Issue) (s : State) : Host.Outcome State Fault Refusal :=
  s.issueWhen (s.arrBusyAt i.idx 1 i.startCc) .cluster 1 i false fun s =>
    (s.set (ARR_STATUS.GANG i.idx) 0).inc (ARR_BUSY.BUSY_CC i.idx) 8

/-- RESERVE: the array is held for a sequencer over the declared interval (R79). -/
def execArrayReserve (i : Issue) (s : State) : Host.Outcome State Fault Refusal :=
  s.issueWhen (s.arrBusyAt i.idx 1 i.startCc) .cluster 1 i false fun s =>
    (s.noteInfo .cluster i.idx 1 [0x104, i.tag]).inc (ARR_BUSY.BUSY_CC i.idx) i.busyCc

/-- A RESERVE interval of an engine is in progress. -/
def State.reserved (s : State) (p eng : Nat) : Bool :=
  match s.runningRec .cluster p eng with
  | some b => b.info.head? == some 0x104 && decide (s.tick.cc < b.endCc)
  | none => false

/-- The busy bits of ARR_STATUS at the current cycle; a RESERVE in gang occupies all four quadrants (R79). -/
def State.arrBusyBits (s : State) (p : Nat) : Nat :=
  let all := s.reserved p 1 && s.is (ARR_STATUS.GANG p)
  ofBool (s.engineBusy .cluster p 1 s.tick.cc || s.engineBusy .cluster p 16 s.tick.cc) +
    2 * ofBool (all || s.engineBusy .cluster p 17 s.tick.cc) + 4 * ofBool (all || s.engineBusy .cluster p 18 s.tick.cc) +
    8 * ofBool (all || s.engineBusy .cluster p 19 s.tick.cc)

/-- The operation of an engine completes (R75): counters, ARR_LAST. -/
def State.matmulDone (s : State) (p eng cc : Nat) : State :=
  match s.runningRec .cluster p eng with
  | none => s
  | some b =>
    if !b.waits then s
    else
      let s := s.engineDone .cluster p eng cc
      let s := ((s.inc (ARR_OPS.ENTRIES p)).inc (ARR_OPS.PASSES p) (b.info.getD 2 0)).inc (ARR_MACS.MACS p)
        (b.info.getD 3 0)
      let s := s.setAll [(ARR_LAST.DESC p, b.info.getD 0 0), (ARR_LAST.QUAD p, b.info.getD 1 0),
        (ARR_LAST.AT_TICK p, s.get TICK_COUNT.COUNT % 2 ^ 48)]
      if s.tick.busy.any fun x => x.unit == .cluster && x.idx == p && x.waits && (x.eng == 1 || decide (16 ≤ x.eng)) then s
      else
        match s.arr.since.find? fun e => e.1 == p with
        | some e => { s.inc (ARR_BUSY.BUSY_CC p) (s.tick.now - e.2) with
            arr := { s.arr with since := s.arr.since.filter fun e => e.1 != p } }
        | none => s

/-- MATMUL_COMPLETE: the array, or quadrant `q` in gang, has finished its operation. -/
def execMatmulComplete (p q cc : Nat) (s : State) : Host.Outcome State Fault Refusal :=
  State.forUnit nPhys p (s.matmulDone p (if (s.runningRec .cluster p (16 + q)).isSome ∧ q < 4 then 16 + q else 1) cc)

/-- ACC_DEBUG_READ: a read of ACC_DBG_DATA (R118). -/
def State.accDebug (s : State) (p : Nat) : State :=
  if s.is (ACC_DEBUG.ENABLE p) ∧ s.job = 3 then
    s.answer true (s.rd (accOff p 0 (s.get (ACC_DBG_INDEX.HALF p)) + s.get (ACC_DBG_INDEX.WORD p) * 8) 8)
  else s.denied

/-- ACC_DEBUG_READ. -/
def execAccDebugRead (p : Nat) (s : State) : Host.Outcome State Fault Refusal := State.forUnit nPhys p (s.accDebug p)

end Sys2Proof.Machine
end

