-- ==== Sys2Proof/Machine/Link.lean ====
section
/-! DEFINITION. The link layer of the eight ports (R265 to R273, R282, R283, R298): frames with their CRC, sequence
numbers, acknowledgement and replay, training, routing and link faults. -/

namespace Sys2Proof.Machine

open Reg

/-! ### Ports (R265) -/

/-- Active lanes of a port. -/
def portLanes (p : Nat) : Nat := if p < 2 then 64 else if p < 6 then 48 else 40

/-- The one-way delay limit of a port's class, in ns (R266). -/
def portLimitNs (p : Nat) : Nat := if p < 2 then 133 else if p < 6 then 213 else 600

/-- The scheduled rate of a port in B per cc (R265, R271): halved at rate 1. -/
def portRate (rate p : Nat) : Nat := if rate = 1 then portLanes p * 15 / 2 else portLanes p * 15

/-! ### Frames (R268) -/

/-- Header bytes 0 to 11 as a number. -/
def frameHead (f : Frame) : Nat :=
  f.slice % 2 ^ 12 + f.dst % 2 ^ 12 * 2 ^ 12 + f.src % 2 ^ 12 * 2 ^ 24 + f.tag % 2 ^ 16 * 2 ^ 36 +
    (f.payload.length / 16 - 1) % 16 * 2 ^ 52 + ofBool f.ctrl * 2 ^ 56 + f.epoch % 4 * 2 ^ 57 +
    f.rsvd % 2 ^ 5 * 2 ^ 59 + f.seq % 2 ^ 16 * 2 ^ 64 + f.offset % 2 ^ 16 * 2 ^ 80

/-- The CRC that a frame should carry. -/
def frameCrc (f : Frame) : Nat := crc32 (leBytes 12 (frameHead f) ++ f.payload)

/-- A data frame as the sender of a transfer forms it, without its link number. -/
def mkFrame (slice dst src tag epoch offset : Nat) (payload : List Nat) : Frame :=
  { slice := slice, dst := dst, src := src, tag := tag, ctrl := false, epoch := epoch, rsvd := 0, seq := 0,
    offset := offset, crc := 0, payload := payload, badCw := 0 }

/-! ### Sending (R269, R282, R283) -/

/-- Most frames that may be unacknowledged on a port (R269). -/
def window : Nat := 6144

/-- A frame goes out of a port: it takes the port's next SEQ and its CRC, and stays in the replay buffer; a full window
holds it. -/
def State.transmit (s : State) (p : Nat) (f : Frame) : State :=
  let l := s.link p
  if window ≤ l.replay.length then s.setLink p { l with held := l.held ++ [f] }
  else
    let f := { f with seq := l.txSeq, badCw := 0 }
    let f := { f with crc := frameCrc f }
    let s := s.setLink p { l with txSeq := (l.txSeq + 1) % 2 ^ 16, replay := l.replay ++ [(f.seq, f)] }
    (s.inc (LNK_TX_BYTES.BYTES p) f.payload.length).emit (.frame p f)

/-- Held frames go out as the window opens. -/
def State.release (s : State) (p : Nat) : Nat → State
  | 0 => s
  | n + 1 =>
    let l := s.link p
    match l.held with
    | [] => s
    | f :: fs =>
      if window ≤ l.replay.length then s else ((s.setLink p { l with held := fs }).transmit p f).release p n

/-- A frame of another slice, or on a fenced port (R283). -/
def State.foreign (s : State) (p : Nat) : State :=
  ((s.inc (LNK_DROP.FOREIGN p)).set FAB_FLAGS.FOREIGN 1).raiseOpen 0 scPort p srcFAB 1

/-- A frame without a route (R282). -/
def State.noRoute (s : State) (p : Nat) : State :=
  ((s.inc (LNK_DROP.NOROUTE p)).set FAB_FLAGS.NOROUTE 1).fatalAtGlue scPort p srcFAB 2

/-- A frame that no LAND takes (R278). -/
def State.unmatched (s : State) (p : Nat) : State :=
  ((s.inc (LNK_DROP.UNMATCHED p)).set FAB_FLAGS.UNMATCHED 1).fatalAtGlue scPort p srcFAB 3

/-- A port carries data of the slice of a frame (R283). -/
def State.carries (s : State) (p slice : Nat) : Bool :=
  !s.is (LNK_SLICE.FENCE p) && s.get (LNK_SLICE.SLICE p) == slice && s.get FAB_SLICE.ID == slice && slice != 0

/-- The egress of what goes out of port `q`: its alternate while the port is rerouted; none where no port is left. A
port that is not up and not rerouted, as under STRICT, sends nothing (R282, R298). -/
def State.egress (s : State) (q alt : Nat) : Option Nat :=
  if s.is (LNK_STATUS.REROUTED q) then (if alt < 8 then some alt else none)
  else if s.get (LNK_STATUS.STATE q) = 2 then some q
  else none

/-- Send a frame by port `q`, or by `alt` while that port is rerouted; `p` is the port that counts a drop. The slice check
is one of data frames; a fenced port carries nothing but link maintenance (R283). -/
def State.sendVia (s : State) (p q alt : Nat) (f : Frame) : State :=
  match s.egress q alt with
  | none => s.noRoute p
  | some out =>
    if f.ctrl then (if s.is (LNK_SLICE.FENCE out) then s else s.transmit out f)
    else if s.carries out f.slice then s.transmit out f
    else s.foreign out

/-- The payloads of a transfer's frames: every frame but the last carries 256 bytes. -/
def chunks : Nat → List Nat → List (List Nat)
  | 0, _ => []
  | n + 1, l => if l.length ≤ 256 then [l] else l.take 256 :: chunks n (l.drop 256)

/-- Something of `n` data bytes that the device routes by its tables to a device of its slice: `m` for the port it
leaves by. It has no ingress; which port's table it is looked up in is not stated (DESIGN CHOICE:
notes/assumptions/21.md). -/
def State.sendRouted (s : State) (dev n : Nat) (m : Nat → Msg) : State :=
  let q := Config.ownTable % 8
  let out := s.get (LNK_RTBL.OUT q (dev / 8) (dev % 8))
  if 8 ≤ out then s.noRoute q
  else match s.egress out (s.get (LNK_RTBL.ALT q (dev / 8) (dev % 8))) with
    | none => s.noRoute q
    | some o => if s.carries o (s.get FAB_SLICE.ID) then (s.inc (LNK_TX_BYTES.BYTES o) n).emit (m o) else s.foreign o

/-- Data that the device routes by its tables leaves as link frames (R268, R296). Which TAG they carry is not stated
(DESIGN CHOICE: notes/assumptions/21.md). -/
def State.sendData (s : State) (dev : Nat) (data : List Nat) : State :=
  let q := Config.ownTable % 8
  let out := s.get (LNK_RTBL.OUT q (dev / 8) (dev % 8))
  let cs := chunks (ceilDiv data.length 256) data
  ((List.range cs.length).zip cs).foldl (fun s c =>
    if 8 ≤ out then s.noRoute q
    else
      let (v, s) := s.draw
      s.sendVia q out (s.get (LNK_RTBL.ALT q (dev / 8) (dev % 8)))
        (mkFrame (s.get FAB_SLICE.ID) dev (s.get FAB_ID.DEV) (v % 2 ^ 16) (s.tick.squareUps % 4) c.1 c.2)) s

/-- A SEND's frame leaves by its own port, or by LNK_ALT while that is rerouted (R282, R298). -/
def State.sendOwn (s : State) (p : Nat) (f : Frame) : State := s.sendVia p p (s.get (LNK_ALT.PORT p)) f

/-- A passing frame leaves by the egress that the routing table of its ingress names (R282). -/
def State.forward (s : State) (p q alt : Nat) (f : Frame) : State := s.sendVia p q alt f

/-! ### Link faults (R298) -/

/-- The permuting collective has failed: a timeout, a link fault or an uncorrectable memory error (R297). -/
def State.permFail (s : State) : State :=
  (s.setAll [(FAB_PERM.RUNNING, 0), (FAB_PERM.FAILED, 1), (FAB_PERM.CONFIRMED, 0)]).raiseOpen 2 scSlice
    (s.get FAB_ID.DEV) srcFAB 5

/-- A link fault on a port. The port's replay buffer is discarded; without STRICT its traffic is rerouted and the step
replays, under STRICT the fault is fatal-to-slice. -/
def State.linkFault (s : State) (p : Nat) : State :=
  let s := s.setAll [(LNK_STATUS.STATE p, 3), (LNK_FLAGS.LINK_FAULT p, 1), (LNK_STATUS.REPLAYING p, 0)]
  let s := s.setLink p { s.link p with replay := [], held := [], event := none, naked := false, rxEvent := none, rxUnacked := 0 }
  let s := if s.is FAB_PERM.RUNNING then s.permFail else s
  if s.is DET_MODE.STRICT then s.raiseOpen 2 scSlice (s.get FAB_ID.DEV) srcLNK 0
  else
    let s := s.setAll [(LNK_STATUS.REROUTED p, 1), (FAB_FLAGS.REROUTED, 1)]
    (s.ndUsed DET_ND_USED.REROUTE).raiseOpen 1 scSlice (s.get FAB_ID.DEV) srcLNK 0

/-- A link fault arises only on a port that is up. -/
def State.faultIfUp (s : State) (p : Nat) : State := if s.get (LNK_STATUS.STATE p) = 2 then s.linkFault p else s

/-! ### Replay events (R270) -/

/-- An event begins with the frames that are outstanding now; in a tick that is stretching it is a cause of its own
(R18). -/
def State.beginEvent (s : State) (p : Nat) : State :=
  let l := s.link p
  match l.event, l.replay.getLast? with
  | none, some f =>
    let s := (s.setLink p { l with event := some (f.1, 0, s.tick.now) }).set (LNK_STATUS.REPLAYING p) 1
    if s.is TICK_STATUS.STRETCHING then s.noteCauses (s.outstanding s.tick.cc) else s
  | _, _ => s

/-- Resend in order the frames from SEQ `seq`; a ninth resend exhausts the event. -/
def State.resend (s : State) (p seq : Nat) : State :=
  let l := s.link p
  match l.event with
  | none => s
  | some e =>
    if 8 ≤ e.2.1 then (s.inc (LNK_REPLAY.EXHAUSTED p)).linkFault p
    else
      let s := s.setLink p { l with event := some (e.1, e.2.1 + 1, e.2.2) }
      (l.replay.dropWhile fun f => f.1 != seq).foldl (fun s f => s.emit (.frame p f.2)) s

/-- The frames up to SEQ `seq` are acknowledged: none if `seq` is not outstanding. -/
def ackFrames (l : List (Nat × Frame)) (seq : Nat) : List (Nat × Frame) :=
  if l.any fun f => f.1 == seq then (l.dropWhile fun f => f.1 != seq).drop 1 else l

/-- ACK_RECEIVE (R269, R270): frames leave the replay buffer; an event ends when its newest frame is acknowledged. -/
def execAckReceive (p seq : Nat) (s : State) : Host.Outcome State Fault Refusal :=
  if p < 8 then .next (
    let l := s.link p
    let rest := ackFrames l.replay seq
    let s := s.setLink p { l with replay := rest }
    let s := match l.event with
      | none => s
      | some e =>
        if rest.any fun f => f.1 == e.1 then s
        else
          let n := s.tick.now - e.2.2
          let s := (s.setLink p { s.link p with event := none }).set (LNK_STATUS.REPLAYING p) 0
          (s.inc (LNK_REPLAY.EVENTS p)).set (LNK_REPLAY.MAX_CC p) (max (s.get (LNK_REPLAY.MAX_CC p)) (min n 65535))
    s.release p (s.link p).held.length)
  else .fault .noSuchUnit

/-- NAK_RECEIVE (R269, R270). -/
def execNakReceive (p seq : Nat) (s : State) : Host.Outcome State Fault Refusal :=
  if p < 8 then .next ((s.beginEvent p).resend p seq) else .fault .noSuchUnit

/-- LINK_ACK_TIMEOUT (R270): everything outstanding is sent again. -/
def execLinkAckTimeout (p : Nat) (s : State) : Host.Outcome State Fault Refusal :=
  if p < 8 then
    .next (match (s.link p).replay with
      | [] => s
      | f :: _ => (s.beginEvent p).resend p f.1)
  else .fault .noSuchUnit

/-- REPLAY_EXHAUSTED (R270): the event in progress has outrun its bound. -/
def execReplayExhausted (p : Nat) (s : State) : Host.Outcome State Fault Refusal :=
  if p < 8 then
    .next (if (s.link p).event.isSome then (s.inc (LNK_REPLAY.EXHAUSTED p)).linkFault p else s)
  else .fault .noSuchUnit

/-- LANE_LOCK_LOSS (R298). -/
def execLaneLockLoss (p : Nat) (s : State) : Host.Outcome State Fault Refusal :=
  if p < 8 then .next (s.faultIfUp p) else .fault .noSuchUnit

/-- PARTNER_LOSS (R298). -/
def execPartnerLoss (p : Nat) (s : State) : Host.Outcome State Fault Refusal :=
  if p < 8 then .next (s.faultIfUp p) else .fault .noSuchUnit

/-- BER_WARN (R272): the corrected codewords of the last window of 2^20. -/
def execBerWarn (p corr : Nat) (s : State) : Host.Outcome State Fault Refusal :=
  if p < 8 then
    .next (
      let s := s.inc (LNK_FEC.CORR_CW p) corr
      if s.get (LNK_BER.THRESH p) < corr then (s.set (LNK_FLAGS.BER_WARN p) 1).raiseOpen 0 scPort p srcLNK 5 else s)
  else .fault .noSuchUnit

/-- Acknowledge what has been accepted. -/
def State.acknowledge (s : State) (p : Nat) : State :=
  let l := s.link p
  if l.rxUnacked = 0 then s
  else (s.setLink p { l with rxUnacked := 0 }).emit (.linkAck p ((l.rxSeq + 2 ^ 16 - 1) % 2 ^ 16))

/-- CUMULATIVE_ACK (R269): 256 cc have passed since the last acknowledgement. -/
def execCumulativeAck (p : Nat) (s : State) : Host.Outcome State Fault Refusal :=
  if p < 8 then .next (s.acknowledge p) else .fault .noSuchUnit

/-! ### Receiving (R269) -/

/-- The later of the newest SEQ known and another, counted from the SEQ that is awaited. -/
def Link.newest (l : Link) (seq : Nat) : Nat :=
  match l.rxEvent with
  | some t => if (t + 2 ^ 16 - l.rxSeq) % 2 ^ 16 < (seq + 2 ^ 16 - l.rxSeq) % 2 ^ 16 then seq else t
  | none => seq

/-- A NAK for the frame that is awaited; `seq` is the newest SEQ that is known to be outstanding. -/
def State.nak (s : State) (p seq : Nat) : State :=
  let l := s.link p
  (s.setLink p { l with naked := true, rxEvent := some (l.newest seq) }).emit (.linkNak p l.rxSeq)

/-- The link layer takes a frame: true if it is accepted. A frame with a bad codeword or CRC is discarded and each time
answered by a NAK; frames ahead of the awaited one are not accepted, and the first of them asks for it. They were
outstanding when the event began, so it lasts until their resends are accepted. -/
def State.accept (s : State) (p : Nat) (f : Frame) : Bool × State :=
  let l := s.link p
  if f.badCw ≠ 0 then (false, (s.inc (LNK_FEC.UNCORR_CW p) f.badCw).nak p l.rxSeq)
  else if f.crc ≠ frameCrc f then (false, (s.inc (LNK_CRC.CRC_ERR p)).nak p l.rxSeq)
  else if f.seq = l.rxSeq then
    let s := s.setLink p { l with rxSeq := (l.rxSeq + 1) % 2 ^ 16, naked := false, rxUnacked := l.rxUnacked + 1,
                                  rxEvent := if l.rxEvent = some f.seq then none else l.rxEvent }
    let s := s.inc (LNK_RX_BYTES.BYTES p) f.payload.length
    (true, if 64 ≤ l.rxUnacked + 1 then s.acknowledge p else s)
  else if (l.rxSeq + 2 ^ 16 - f.seq) % 2 ^ 16 ≤ 2 ^ 15 then (false, s.inc (LNK_CRC.DUP_DROPPED p))
  else (false, if l.naked then s.setLink p { l with rxEvent := some (l.newest f.seq) } else s.nak p f.seq)

/-- A run of data frames of the device's slice is received in order by port `p`: true if it is accepted. -/
def State.takeFrames (s : State) (p : Nat) (data : List Nat) : Bool × State :=
  let n := ceilDiv data.length 256
  if s.get (LNK_STATUS.STATE p) ≠ 2 then (false, s)
  else
    let l := s.link p
    let s := (s.setLink p { l with rxSeq := (l.rxSeq + n) % 2 ^ 16, rxUnacked := l.rxUnacked + n }).inc (LNK_RX_BYTES.BYTES p)
      data.length
    let s := if 64 ≤ l.rxUnacked + n then s.acknowledge p else s
    if s.carries p (s.get FAB_SLICE.ID) then (true, s)
    else (false, (List.range n).foldl (fun s _ => s.foreign p) s)

/-! ### Training (R271, R273, R298) -/

/-- A port begins to train. -/
def State.train (s : State) (p : Nat) : State :=
  (s.setLink p { Link.reset with partnerMhz := (s.link p).partnerMhz }).setAll
    [(LNK_STATUS.STATE p, 1), (LNK_STATUS.RATE p, 0), (LNK_STATUS.LANES_UP p, 0), (LNK_STATUS.REPLAYING p, 0)]

/-- Every port trains (R271, R393). -/
def State.trainAll (s : State) : State := (List.range 8).foldl (fun s p => s.train p) s

/-- Every port that does not train or run yet trains (R271, R380). -/
def State.trainIdle (s : State) : State :=
  (List.range 8).foldl (fun s p => if s.get (LNK_STATUS.STATE p) = 0 then s.train p else s) s

/-- LNK_CTRL.TRAIN: effective in IDLE or HALT only. -/
def State.actTrain (s : State) (p : Nat) : State := (if s.job = 0 ∨ s.job = 3 then s.train p else s).okay

/-- LNK_CTRL.RESTORE: ends the reroute of a port that is up, in IDLE or HALT. -/
def State.actRestore (s : State) (p : Nat) : State :=
  (if (s.job = 0 ∨ s.job = 3) ∧ s.get (LNK_STATUS.STATE p) = 2 then s.set (LNK_STATUS.REROUTED p) 0 else s).okay

/-- LNK_TRAIN. -/
def execLnkTrain (p : Nat) (s : State) : Host.Outcome State Fault Refusal :=
  if p < 8 then .next (s.write fun s => s.actTrain p) else .fault .noSuchUnit

/-- LNK_RESTORE. -/
def execLnkRestore (p : Nat) (s : State) : Host.Outcome State Fault Refusal :=
  if p < 8 then .next (s.write fun s => s.actRestore p) else .fault .noSuchUnit

/-- PARTNER_TRAINING_REQUEST (R271): this end takes part, unless its lanes are in electrical idle (R342, R377, R406,
R412). -/
def execPartnerTrainingRequest (p : Nat) (s : State) : Host.Outcome State Fault Refusal :=
  if p < 8 then .next (if s.accepts then s.train p else s) else .fault .noSuchUnit

/-- The port that a source value names. -/
def syntPort (v : Nat) : Nat := if v = 1 then 6 else 7

/-- A port has come up that the frequency source waits for since a wake: it is selected again, and the PLL relocks (R291,
R402). -/
def State.sourceUp (s : State) (p : Nat) : State :=
  match s.pwr.wakeSrc with
  | some v =>
    if syntPort v = p then
      (s.setAll [(FAB_SYNT.SRC, v), (FAB_SYNT.LOCKED, 0), (CLK_STATUS.PLL_LOCK, 0)]).updPwr fun x => { x with wakeSrc := none }
    else s
  | none => s

/-- LINK_TRAIN_DONE (R271, R273): more than two failed lanes, no common rate or a delay beyond the class limit end in
FAILED, each with what the stages before it recorded; otherwise the spare map, the rate, the partner and the shim are
recorded. DESIGN CHOICE: notes/assumptions/21.md. -/
def execLinkTrainDone (p : Nat) (t : TrainResult) (s : State) : Host.Outcome State Fault Refusal :=
  if p < 8 then
    .next (if s.get (LNK_STATUS.STATE p) ≠ 1 ∨ s.accepts = false then s
      else
        let s := s.setAll [(LNK_LANEMAP.SPARE0_FOR p, t.failedLanes.getD 0 0xFF),
          (LNK_LANEMAP.SPARE1_FOR p, t.failedLanes.getD 1 0xFF), (LNK_LANEMAP.FAILED p, min t.failedLanes.length 255)]
        let late := decide (portLimitNs p * s.get CLK_STATUS.CORE_MHZ < t.shimQc * 250)
        if 2 < t.failedLanes.length ∨ t.partnerRate = 0 then s.set (LNK_STATUS.STATE p) 3
        else
          let s := (s.setLink p { s.link p with partnerMhz := t.partnerMhz }).setAll
            [(LNK_SHIM.PARTNER p, t.partner), (LNK_SHIM.PARTNER_PORT p, t.partnerPort)]
          if late then s.set (LNK_STATUS.STATE p) 3
          else (s.setAll [(LNK_STATUS.STATE p, 2), (LNK_STATUS.RATE p, min t.partnerRate 2),
            (LNK_STATUS.LANES_UP p, portLanes p), (LNK_SHIM.SHIM_QC p, t.shimQc)]).sourceUp p)
  else .fault .noSuchUnit

end Sys2Proof.Machine
end

