-- ==== Sys2Proof/Machine/Fabric.lean ====
section
/-! DEFINITION. Transfers of the fabric (R274 to R281), the frequency source (R291) and the permuting collective
(R295 to R297). -/

namespace Sys2Proof.Machine

open Reg

/-! ### Transfer descriptors (R275, R276) -/

structure Xfer where
  addr : Nat
  veneer : Bool
  ncl : Nat
  rowBytes : Nat
  rows : Nat
  str : Nat
  peer : Nat
  add : Bool
  fmt : Nat
  order : Bool
  rdiv : Nat
  span : Nat
deriving DecidableEq, Repr

def xferOf (w : List Nat) : Xfer :=
  let g (i : Nat) := w.getD i 0
  { addr := bits (g 0) 47 0, veneer := bit (g 0) 48, ncl := bits (g 0) 54 49, rowBytes := bits (g 1) 23 0,
    rows := bits (g 1) 47 24, str := bits (g 2) 23 0, peer := bits (g 2) 35 24, add := bit (g 2) 36,
    fmt := bits (g 2) 41 37, order := bit (g 2) 42, rdiv := bits (g 2) 46 43, span := bits (g 3) 19 0 }

/-- BYTES (R276). -/
def Xfer.bytes (x : Xfer) : Nat := x.rowBytes * x.rows

/-- send_duration (R277) at a port's scheduled rate. -/
def Xfer.sendCc (x : Xfer) (bp : Nat) : Nat := 16 + ceilDiv (x.bytes * x.rdiv) bp

/-- The base of the transfer table of the running bank. -/
def State.xferTbl (s : State) : Nat := s.bankGet FAB_XFER_A.ADDR FAB_XFER_B.ADDR * 32

/-- The words of transfer descriptor `d`, from the sealed copy. -/
def State.xferWords (s : State) (d : Nat) : List Nat := s.sealedWords (s.xferTbl + d * 32) 4

/-- An end's address: LPDDR, or logical cluster and offset of a veneer end (R276). -/
def endAddr (map : Nat) (veneer : Bool) (addr cl off : Nat) : Option Nat :=
  if veneer then (physOf map (bits addr 39 24 + cl)).map fun p => veneerBase p + bits addr 21 0 + off
  else some (addr + off)

/-- The address of transfer offset `o` at the local end. -/
def Xfer.at (map : Nat) (x : Xfer) (o : Nat) : Option Nat :=
  let r := o / x.rowBytes
  let j := o % x.rowBytes
  if x.veneer then endAddr map true x.addr (r % (x.ncl + 1)) (r / (x.ncl + 1) * x.str + j)
  else endAddr map false x.addr 0 (r * x.str + j)

/-- The rows of the local end: address and length. -/
def Xfer.ranges (map : Nat) (x : Xfer) : List (Nat × Nat) :=
  (List.range x.rows).filterMap fun r => (x.at map (r * x.rowBytes)).map fun a => (a, x.rowBytes)

/-! ### SEND and PASS (R277, R281) -/

/-- Egress, ingress and mover of a port. -/
def engEgress : Nat := 1
def engIngress : Nat := 2
def engMover : Nat := 3

/-- What the checkers of a port saw (R252, R258, R426). -/
def State.portHw (s : State) (p : Nat) (hw : List HwFault) : State :=
  hw.foldl (fun s h => match h with
    | .descPar => let (v, s) := s.draw; s.descPar scPort p srcFAB (v % 2 ^ 16)
    | h => let (v, s) := s.draw; s.hwMem [h] 5 (v % 8)) s

/-- Poisoned words that a transfer reads raise their errors; which source a link transfer has in MEM_ERR is not
stated. -/
def State.linkPoison (s : State) (rs : List (Nat × Nat)) : State :=
  let (v, s) := s.draw
  s.readPoison rs 5 (v % 8)

/-- The frames of port `p`'s running SEND that are due at cycle `cc` leave, in order. -/
def State.leave (s : State) (p cc : Nat) : State :=
  let l := s.link p
  ((l.due.filter fun d => decide (d.1 ≤ cc)).map (·.2)).foldl (fun s f => s.sendOwn p f)
    (s.setLink p { l with due := l.due.filter fun d => !decide (d.1 ≤ cc) })

/-- The cycle at which frame `k` of `n` leaves: evenly between START_CC + 16 and the end of the SEND (R277). -/
def departure (i : Issue) (dur n k : Nat) : Nat := i.startCc + 16 + (dur - 16) * k / n

/-- SEND: the frames of the transfer are formed, and leave in ascending offset over its duration: when what passes on
the same egress comes to the cycle of their departure, or at the latest when the SEND completes. DESIGN CHOICE:
notes/assumptions/21.md. -/
def execSend (i : Issue) (hw : List HwFault) (s : State) : Host.Outcome State Fault Refusal :=
  s.issue .port engEgress i true fun s =>
    let x := xferOf (s.xferWords i.desc)
    let rs := x.ranges s.active
    let s := ((s.portHw i.idx hw).linkPoison rs).memTraffic rs
    if !s.running then s
    else
      let bs := rs.flatMap fun r => s.rdBytes r.1 r.2
      let cs := chunks (ceilDiv x.bytes 256) bs
      let dur := x.sendCc (portRate (s.get FAB_CFG.RATE) i.idx)
      let due := ((List.range cs.length).zip cs).map fun c =>
        (departure i dur cs.length c.1,
          mkFrame (s.get FAB_SLICE.ID) x.peer (s.get FAB_ID.DEV) i.tag (s.tick.squareUps % 4) c.1 c.2)
      s.setLink i.idx { s.link i.idx with due := due }

/-- The frames of port `p`'s running SEND that have not left, all of them, leave. -/
def State.leaveAll (s : State) (p : Nat) : State := s.leave p ((s.link p).due.foldl (fun m d => max m d.1) 0)

/-- SEND_COMPLETE. -/
def execSendComplete (p cc : Nat) (s : State) : Host.Outcome State Fault Refusal :=
  State.forUnit 8 p (match s.runningRec .port p engEgress with
    | some b => if b.waits then (s.leaveAll p).engineDone .port p engEgress cc else s
    | none => s)

/-- PASS: the egress is held for forwarded frames. -/
def execPass (i : Issue) (s : State) : Host.Outcome State Fault Refusal := s.issue .port engEgress i false id

/-! ### LAND (R278, R279) -/

/-- A landing that has been declared. -/
def mkLand (port : Nat) (e : Entry) (atTick : Nat) (ws : List Nat) : Land :=
  let x := xferOf ws
  { port := port, entry := e.index, atTick := atTick, startCc := e.start, span := x.span, tag := e.tag, src := x.peer,
    bytes := x.bytes, landed := 0, words := ws, abandoned := false }

/-- LAND. -/
def execLand (i : Issue) (s : State) : Host.Outcome State Fault Refusal :=
  s.issue .port engIngress i false fun s =>
    let c := s.get TICK_COUNT.COUNT
    if s.lands.any fun l => l.port == i.idx && l.entry == i.entry && l.atTick == c then s
    else
      { s with lands := s.lands ++ [mkLand i.idx ⟨i.entry, i.startCc, 0x501, i.busyCc, 0, i.tick, i.desc, i.tag, i.arg, 0⟩
                                      c (s.xferWords i.desc)] }

/-- One element of a landing add: code, whether a finite sum overflowed, whether a NaN was made. -/
def landAdd (fmt : Nat) (a b : Val) : Nat × Bool × Bool :=
  let x := a.add b
  let r := conv fmt .rne true false x
  (r.1, a.isFin && b.isFin && fmt != fI32 && r.2 == .overflowed, x.isNan && !a.isNan && !b.isNan)

/-- The formats that a landing may add (R279). -/
def landFmt (f : Nat) : Bool := f == fBF16 || f == fFP16 || f == fFP32 || f == fFP64 || f == fDD || f == fI32

/-- Land a frame's payload of transfer `x` that arrives on port `p`. -/
def State.landBytes (s : State) (p : Nat) (x : Xfer) (off : Nat) (bs : List Nat) : State :=
  let n := if x.add then fmtBytes x.fmt else 16
  if n = 0 then s
  else
    let s := if x.add then s
      else s.noteWrite id ((List.range (bs.length / n)).filterMap fun k =>
        (x.at s.active (off + k * n)).map fun a => (a, n)) 5
    (List.range (bs.length / n)).foldl (fun s k =>
      match x.at s.active (off + k * n) with
      | none => s
      | some a =>
        let s := s.memTraffic [(a, n)]
        let c := (bs.drop (k * n)).take n
        if x.add then
          let s := (s.linkPoison [(a, n)]).memTraffic [(a, n)]
          let new := decode x.fmt (leNat c)
          let old := decode x.fmt (s.rd a n)
          let r := if x.order then landAdd x.fmt new old else landAdd x.fmt old new
          let s := if r.2.1 then s.set (LNK_FLAGS.ADD_OVF p) 1 else s
          let s := if r.2.2 then s.set (LNK_FLAGS.ADD_NAN p) 1 else s
          s.wr a n r.1
        else s.wrBytes a c) s

/-- The LAND entry that a frame matches by (TAG, SRC), of tick `t` of the step: port and entry. -/
def State.landEntry (s : State) (t : Nat) (f : Frame) : Option (Nat × Entry) :=
  (List.range 8).findSome? fun p =>
    ((s.runEntries .port p).find? fun e =>
      e.opcode == 0x501 && e.tick == t && e.tag == f.tag && (xferOf (s.xferWords e.desc)).peer == f.src).map fun e => (p, e)

/-- Update one landing. -/
def State.setLand (s : State) (l : Land) : State :=
  { s with lands := s.lands.filter (fun m => !(m.port == l.port && m.entry == l.entry && m.atTick == l.atTick)) ++ [l] }

/-- A frame lands in `l` at cycle `cc`; `next` says that `l` belongs to the next tick. -/
def State.landIn (s : State) (p cc : Nat) (next : Bool) (l : Land) (f : Frame) : State :=
  let x := xferOf l.words
  let off := f.offset * 256
  if l.bytes < off + f.payload.length then s.unmatched p
  else
    let s := if next || decide (cc < l.startCc) then s.set (LNK_FLAGS.EARLY p) 1 else s
    let s := if !next && decide (l.startCc + l.span < cc) then s.set (LNK_FLAGS.LATE p) 1 else s
    let l := { l with landed := l.landed + f.payload.length }
    let s := (s.setLand l).landBytes p x off f.payload
    if l.bytes ≤ l.landed && !next then s.updTick fun t => { t with lastDone := max t.lastDone cc } else s

/-- A data frame for this device (R278). -/
def State.landFrame (s : State) (p cc : Nat) (f : Frame) : State :=
  if f.epoch ≠ s.tick.squareUps % 4 then s.inc (LNK_DROP.STALE p)
  else if s.lands.any fun l => l.abandoned && l.tag == f.tag && l.src == f.src then s.inc (LNK_DROP.STALE p)
  else if !s.running || s.tick.glue != 0 then s.unmatched p
  else
    let t := s.get TICK_STATUS.TICK_IN_STEP
    let c := s.get TICK_COUNT.COUNT
    let c0 := if s.tick.inTick then c else c + 1
    let go (dt : Nat) (q : Nat × Entry) : State :=
      let l := (s.lands.find? fun l => l.port == q.1 && l.entry == q.2.index && l.atTick == c0 + dt).getD
        (mkLand q.1 q.2 (c0 + dt) (s.xferWords q.2.desc))
      s.landIn p cc (dt == 1 || !s.tick.inTick) l f
    match s.landEntry t f, s.landEntry (t + 1) f with
    | some q, _ => go 0 q
    | none, some q => go 1 q
    | none, none => s.unmatched p

/-- A passing frame leaves at cycle `cc`, after the frames of a SEND on the same egress that are due by then (R281). -/
def State.passOn (s : State) (p out alt cc : Nat) (f : Frame) : State :=
  match s.egress out alt with
  | some q => (s.leave q cc).forward p out alt f
  | none => s.forward p out alt f

/-- FRAME_ARRIVE (R269, R278, R281, R282, R283). A frame with a reserved header bit set is refused (R7), and so is
nothing else once the link layer has accepted it; what a control frame for this device says comes with a command of its
own, and one on a fenced port is link maintenance. DEDUCED: notes/assumptions/21.md. -/
def execFrameArrive (p cc : Nat) (f : Frame) (s : State) : Host.Outcome State Fault Refusal :=
  if p < 8 then
    .next (if s.get (LNK_STATUS.STATE p) ≠ 2 then s
      else
        let s := if s.tick.inTick && s.tick.freeze == 0 then s.atCc cc else s
        let cc := if s.tick.freeze = 0 then cc else s.tick.cc
        let r := s.accept p f
        if !r.1 then r.2
        else
          let s := r.2
          if f.rsvd % 2 ^ 5 ≠ 0 then s
          else if f.ctrl && s.is (LNK_SLICE.FENCE p) then s
          else if !f.ctrl && !s.carries p f.slice then s.foreign p
          else
            let out := s.get (LNK_RTBL.OUT p (f.dst / 8) (f.dst % 8))
            if out = 8 then (if f.ctrl then s else s.landFrame p cc f)
            else if out < 8 then s.passOn p out (s.get (LNK_RTBL.ALT p (f.dst / 8) (f.dst % 8))) cc f
            else s.noRoute p)
  else .fault .noSuchUnit

/-- What the transfers abandoned at a STRETCH_LIMIT close leave in memory is not stated (R20). -/
def State.landRange (s : State) (l : Land) : List (Nat × Nat) := (xferOf l.words).ranges s.active

/-! ### The frequency source (R291) -/

/-- A write of FAB_SYNT: SRC and ALT_SRC are RW-L (R10, R422), and a change of SRC relocks. -/
def State.actSynt (s : State) (v : Nat) : State :=
  let was := s.get FAB_SYNT.SRC
  let s := (s.setLocked FAB_SYNT.SRC (bits v 1 0)).setLocked FAB_SYNT.ALT_SRC (bits v 3 2)
  let same := s.get FAB_SYNT.SRC == was
  (if same then s else s.setAll [(FAB_SYNT.LOCKED, 0), (CLK_STATUS.PLL_LOCK, 0), (FAB_SYNT.HOLDOVER, 0)]).okay

/-- SYNT_SOURCE_WRITE. -/
def execSyntSourceWrite (v : Nat) (s : State) : Host.Outcome State Fault Refusal := .next (s.write fun s => s.actSynt v)

/-- SYNT_SOURCE_LOSS: the device switches to ALT_SRC if that port is up, and holds its frequency otherwise. -/
def execSyntSourceLoss (s : State) : Host.Outcome State Fault Refusal :=
  let src := s.get FAB_SYNT.SRC
  let alt := s.get FAB_SYNT.ALT_SRC
  .next (if src = 0 then s
    else if (alt = 1 ∨ alt = 2) ∧ alt ≠ src ∧ s.get (LNK_STATUS.STATE (syntPort alt)) = 2 then s.set FAB_SYNT.SRC alt
    else s.set FAB_SYNT.HOLDOVER 1)

/-- HOLDOVER_TIMEOUT: a holdover of 1 s is fatal-to-slice. -/
def execHoldoverTimeout (s : State) : Host.Outcome State Fault Refusal :=
  .next (if s.is FAB_SYNT.HOLDOVER then
      (let (v, s) := s.draw; s.raiseOpen 2 scDevice 0 srcFAB (v % 2 ^ 16))
    else s)

/-! ### The permuting collective (R295 to R297) -/

/-- FAB_PERM.ARM: refused for a slice of more than 512 devices. -/
def State.actPermArm (s : State) : State :=
  (if 512 < s.get FAB_SLICE.SIZE then s.set FAB_PERM.REFUSED 1 else s.set FAB_PERM.ARM 1).okay

/-- FAB_PERM.CANCEL: clears an arm that is not confirmed. -/
def State.actPermCancel (s : State) : State := (if s.is FAB_PERM.CONFIRMED then s else s.set FAB_PERM.ARM 0).okay

/-- FAB_PERM_ARM. -/
def execFabPermArm (s : State) : Host.Outcome State Fault Refusal := .next (s.write State.actPermArm)

/-- FAB_PERM_CANCEL. -/
def execFabPermCancel (s : State) : Host.Outcome State Fault Refusal := .next (s.write State.actPermCancel)

/-- An entry of the permutation table: source, destination, destination device and bytes (R296); whether its reserved
bits are 0: all but address and KIND in the two ends and, in a veneer end, those that R276 reserves; in word 2 all but
DEV and BYTES; word 3. -/
structure PermEntry where
  src : Nat
  srcV : Bool
  dst : Nat
  dstV : Bool
  dev : Nat
  bytes : Nat
  clean : Bool
deriving DecidableEq, Repr

/-- The reserved bits of an end's word are 0 (R276, R296): KIND stands above the address, and nothing above KIND. -/
def endClean (w : Nat) : Bool := bits w 63 49 == 0 && (!bit w 48 || (bits w 23 22 == 0 && bits w 47 40 == 0))

/-- Entry `k` of the permutation table, read when the permutation runs. -/
def State.permEntry (s : State) (k : Nat) : PermEntry :=
  let a := s.get FAB_PERM_TBL.ADDR * 32 + k * 32
  let w (i : Nat) := s.rd (a + 8 * i) 8
  ⟨bits (w 0) 47 0, bit (w 0) 48, bits (w 1) 47 0, bit (w 1) 48, bits (w 2) 11 0, bits (w 2) 39 12,
    endClean (w 0) && endClean (w 1) && bits (w 2) 63 40 == 0 && w 3 == 0⟩

/-- `n` bytes from an end's address lie where a transfer may reach: usable LPDDR, or the veneer region of one active
cluster (R245, R246, R276). -/
def State.endRange (s : State) (veneer : Bool) (addr n : Nat) : Option Nat :=
  match endAddr s.active veneer addr 0 0 with
  | some a => if (veneer && decide (bits addr 21 0 + n ≤ veneerSize)) || (!veneer && inLpddr a n) then some a else none
  | none => none

/-- Bytes of the permutation are written; those for a place where nothing is are discarded and reported at the next
glue-up, in the scope given (R81, R246). -/
def State.permLand (s : State) (scope index : Nat) (x : PermIn) : State :=
  let s := s.updTick fun t => { t with permIn := t.permIn + x.data.length }
  match s.endRange x.veneer x.addr x.data.length with
  | some a => ((s.noteWrite id [(a, x.data.length)] 5).wrBytes a x.data).memTraffic [(a, x.data.length)]
  | none => let (v, s) := s.draw; s.fatalAtGlue scope index srcFAB (v % 2 ^ 16)

/-- Bytes of the permutation arrive by a port: link frames of the slice (R282, R283). -/
def State.permArrive (s : State) (x : PermIn) : State :=
  let r := s.takeFrames x.port x.data
  if r.1 then r.2.permLand scPort x.port x else r.2

/-- The source of a permutation entry that the device can send: its reserved bits are 0, BYTES is a multiple of 64, and
its source is memory. -/
def State.permSrc (s : State) (e : PermEntry) : Option Nat :=
  if e.clean && e.bytes % 64 == 0 then s.endRange e.srcV e.src e.bytes else none

/-- One entry is sent: routed by the tables, or landed here where it names this device. -/
def State.permSend (s : State) (e : PermEntry) : State :=
  match s.permSrc e with
  | none => s
  | some a =>
    let data := s.rdBytes a e.bytes
    let s := s.memTraffic [(a, e.bytes)]
    if e.dev = s.get FAB_ID.DEV then s.permLand scDevice 0 { addr := e.dst, veneer := e.dstV, data := data }
    else s.sendData e.dev data

/-- What the permutation reads: its table, and the sources of its entries. -/
def State.permReads (s : State) (es : List PermEntry) : List (Nat × Nat) :=
  (s.get FAB_PERM_TBL.ADDR * 32, es.length * 32) :: es.filterMap fun e => (s.permSrc e).map fun a => (a, e.bytes)

/-- An uncorrectable error that the permutation meets is recorded; the permutation's failure is its consequence (R297).
Which source a link transfer has in MEM_ERR is not stated. -/
def State.permUe (s : State) (a : Nat) : State :=
  let (v, s) := (s.poisonWord a).draw
  (if a < lpddrEnd then s.inc (MEM_ECC.UE (a / lpddrWindow)) else s.inc VNR_ECC.UE).memRecord a 1 5 (v % 8)

/-- RESHARD_PERMUTATION: at action 5 the device sends its entries in table order; an uncorrectable error in the table or
in a source fails the permutation. An entry that is refused (R7) is never sent, so the action stays incomplete until its limit.
DESIGN CHOICE: notes/assumptions/21.md. -/
def execReshardPermutation (s : State) (hw : List HwFault := []) : Host.Outcome State Fault Refusal :=
  .next (if s.tick.glue ≠ 5 ∨ s.is FAB_PERM.RUNNING = true ∨ s.tick.actDone = true then s
    else
      let s := (s.set FAB_PERM.RUNNING 1).updTick fun t => { t with permStart := t.now, permIn := 0 }
      let es := (List.range (s.get FAB_PERM_TBL.COUNT)).map s.permEntry
      let new := hw.filterMap fun h => match h with
        | .memUe a => some a
        | _ => none
      let s := hw.foldl (fun s h => match h with
        | .memUe _ => s
        | h => let (v, s) := s.draw; s.hwMem [h] 5 (v % 8)) s
      match new ++ (s.permReads es).flatMap fun r => s.poisonIn r.1 r.2 with
      | [] => es.foldl (fun s e => s.permSend e) s
      | as => (as.foldl State.permUe s).permFail)

/-- The permutation is complete on this device. -/
def State.permEnd (s : State) : State :=
  (s.setAll [(FAB_PERM.RUNNING, 0), (FAB_PERM.CONFIRMED, 0), (FAB_PERM.DONE, 1),
    (FAB_PERM_LIMIT.LAST_KCC, ceilDiv (s.tick.now - s.tick.permStart) 1024)]).updTick fun t => { t with actDone := true }

/-- Bytes of the permutation arrive; with IN_BYTES of them, and every entry sent and no frame held back, it is complete. -/
def State.permDone (s : State) (ins : List PermIn) : State :=
  if s.is FAB_PERM.RUNNING = false then s
  else
    let s := ins.foldl State.permArrive s
    let sent := ((List.range (s.get FAB_PERM_TBL.COUNT)).all fun k => (s.permSrc (s.permEntry k)).isSome) &&
      (List.range 8).all fun p => (s.link p).held.isEmpty
    if sent && decide (s.get FAB_PERM_IN.IN_BYTES ≤ s.tick.permIn) then s.permEnd else s

/-- PERMUTATION_TIMEOUT. -/
def execPermutationTimeout (s : State) : Host.Outcome State Fault Refusal :=
  .next (if s.is FAB_PERM.RUNNING then s.permFail else s)

end Sys2Proof.Machine
end

