-- ==== Sys2Proof/Machine/Memory.lean ====
section
/-! DEFINITION. Memory moves, patrol scrubs, refresh and initialisation of veneer and LPDDR (R248 to R264, R351). -/

namespace Sys2Proof.Machine

open Reg

/-! ### Moves (R263, R264) -/

structure MoveDesc where
  src : Nat
  dst : Nat
  rowBytes : Nat
  rows : Nat
  srcStr : Nat
  dstStr : Nat
  srcV : Bool
  dstV : Bool
deriving DecidableEq, Repr

def moveDescOf (w : List Nat) : MoveDesc :=
  let g (i : Nat) := w.getD i 0
  ⟨bits (g 0) 47 0, bits (g 1) 47 0, bits (g 2) 23 0, bits (g 2) 47 24, bits (g 3) 23 0, bits (g 3) 47 24,
    bit (g 3) 48, bit (g 3) 49⟩

/-- move_duration (R264). -/
def MoveDesc.cc (m : MoveDesc) : Nat :=
  64 + (if m.srcV && m.dstV then 166 else 1500) + ceilDiv (m.rows * m.rowBytes) 64

/-- The rows of one end: address and length. -/
def moveRanges (map : Nat) (v : Bool) (addr str rows n : Nat) : List (Nat × Nat) :=
  (List.range rows).filterMap fun r => (endAddr map v addr 0 (r * str)).map fun a => (a, n)

def MoveDesc.from (m : MoveDesc) (map : Nat) : List (Nat × Nat) := moveRanges map m.srcV m.src m.srcStr m.rows m.rowBytes
def MoveDesc.to (m : MoveDesc) (map : Nat) : List (Nat × Nat) := moveRanges map m.dstV m.dst m.dstStr m.rows m.rowBytes

/-- Move descriptor `d` of the running bank, from its sealed copy. -/
def State.moveDesc (s : State) (d : Nat) : MoveDesc :=
  moveDescOf (s.sealedWords (s.bankGet VNR_MOVE_A.ADDR VNR_MOVE_B.ADDR * 32 + d * 32) 4)

/-- Copy ranges as they stood before the copy. -/
def State.copyRanges (s : State) (src dst : List (Nat × Nat)) : State :=
  let old := s
  (src.zip dst).foldl (fun s p => s.wrBytes p.2.1 (old.rdBytes p.1.1 p.1.2)) s

/-- MOVE. -/
def execMover (i : Issue) (hw : List HwFault) (s : State) : Host.Outcome State Fault Refusal :=
  s.issue .port engMover i true fun s =>
    let m := s.moveDesc i.desc
    let src := m.from s.active
    let dst := m.to s.active
    let s := hw.foldl (fun s h => match h with
      | .descPar => let (v, s) := s.draw; s.descPar scPort i.idx srcVNR (v % 2 ^ 16)
      | h => s.hwMem [h] 5 1) s
    let s := s.readPoison src 5 1
    if !s.running then s
    else (((((s.noteDst .port i.idx engMover dst).noteInfo .port i.idx engMover [m.rows * m.rowBytes]).memTraffic src).memTraffic
      dst).noteWrite id dst 5).copyRanges src dst

/-- Where the bytes moved beyond whole KiB are kept. -/
def kibTally : Nat := 2 ^ 21

/-- MOVE_COMPLETE. -/
def execMoveComplete (p cc : Nat) (s : State) : Host.Outcome State Fault Refusal :=
  State.forUnit 8 p (match s.runningRec .port p engMover with
    | some b =>
      if b.waits then
        let n := Store.get s.tallies 0 kibTally + b.info.headD 0
        let s := ((s.engineDone .port p engMover cc).inc VNR_MOVES.MOVES).inc VNR_MOVES.KIB (n / 1024)
        { s with tallies := Store.put s.tallies 0 kibTally (n % 1024) }
      else s
    | none => s)

/-! ### Advisories and scrubs (R254, R260, R351) -/

/-- An advisory: corrected-class, and logged whatever LOG_CORR is (R351, R352). -/
def State.advise (s : State) (scope index detail : Nat) : State :=
  (s.countErr 0).log ⟨0, scope, index, srcERR, 8, detail⟩ false false false

/-- The sub-array of a veneer offset: bit 7 selects the die, and each die holds 12 sub-arrays of 128 KiB (R248). -/
def subArray (off : Nat) : Nat := bits off 7 7 * 12 + (off / 256 * 128 + off % 128) / 0x20000

/-- The tally of a sub-array. -/
def vnrTally (p off : Nat) : Nat := p * 32 + subArray off

/-- The tally of a controller. -/
def memTally (c : Nat) : Nat := 2 ^ 20 + c

def State.bumpTally (s : State) (k : Nat) : State := { s with tallies := Store.put s.tallies 0 k (Store.get s.tallies 0 k + 1) }

/-- One finding of the veneer scrub. -/
def State.scrubFinding (s : State) (p : Nat) (f : ScrubFinding) : State :=
  let a := veneerBase p + f.off
  if f.ue then
    let s := (s.poisonWord a).inc VNR_SCRUB_STAT.SCRUB_UE
    let s := (s.memRecord a 2 0xF 4).raise (memErr 0 a 2)
    s.advise scCluster p (a % 2 ^ 48)
  else if f.written then s
  else (s.inc VNR_SCRUB_STAT.SCRUB_CE).bumpTally (vnrTally p f.off)

/-- The tallies of the sub-arrays that a veneer pass reads: 24 in each powered position. -/
def State.subArrays (s : State) : List Nat :=
  (List.range (nPhys * 32)).filter fun k => decide (k % 32 < 24) && bit s.good (k / 32)

/-- The sub-arrays whose count in the pass is at least the threshold; at a threshold of 0, every one. -/
def State.weakSubArrays (s : State) : List Nat :=
  if s.get ERR_ADVISE.VNR_CE = 0 then s.subArrays
  else (s.tallies.filter fun e => decide (e.1 < 2 ^ 20) && decide (s.get ERR_ADVISE.VNR_CE ≤ e.2)).map (·.1)

/-- The end of a veneer pass: sub-arrays at or above the threshold log an advisory, and the counts start again. -/
def State.vnrPassEnd (s : State) : State :=
  let s := s.weakSubArrays.foldl (fun s k => let (v, s) := s.draw; s.advise scCluster (k / 32) (v % 2 ^ 48)) s
  { s.inc VNR_SCRUB_STAT.PASSES with tallies := s.tallies.filter fun e => decide (2 ^ 20 ≤ e.1) }

/-- VENEER_SCRUB: what one patrol read of position `p` found; a position marked faulty is powered off (R248), and on a dead device
no engine runs (R342). -/
def execVeneerScrub (p : Nat) (f : List ScrubFinding) (passEnd : Bool) (s : State) : Host.Outcome State Fault Refusal :=
  State.forUnit nPhys p
    (if !s.dead && s.is VNR_SCRUB.ENABLE && s.is VNR_STATUS.INIT_DONE && bit s.good p then
      let s := f.foldl (fun s x => s.scrubFinding p x) s
      if passEnd then s.vnrPassEnd else s
    else s)

/-- LPDDR_SCRUB: what the scrub of the block at `a` by controller `c` found: corrected and written back, or
uncorrectable. -/
def execLpddrScrub (c a : Nat) (f : Option Bool) (passEnd : Bool) (s : State) : Host.Outcome State Fault Refusal :=
  if c < 16 ∧ a / lpddrWindow = c then
    .next (if !s.dead && s.is (MEM_CFG.SCRUB_EN c) && s.get (MEM_STATUS.STATE c) == 1 then
      let s := match f with
        | none => s
        | some false => (s.inc (MEM_SCRUB_STAT.SCRUB_CE c)).bumpTally (memTally c)
        | some true =>
          let s := (s.poisonWord a).inc (MEM_SCRUB_STAT.SCRUB_UE c)
          let s := (s.memRecord a 2 0xF 4).raise (memErr 0 a 2)
          s.advise scUnit c (a % 2 ^ 48)
      if passEnd then
        let n := Store.get s.tallies 0 (memTally c)
        let s := if s.get ERR_ADVISE.MEM_CE ≤ n then (let (v, s) := s.draw; s.advise scUnit c (v % 2 ^ 48)) else s
        { s.inc (MEM_SCRUB_STAT.PASSES c) with tallies := Store.erase s.tallies (memTally c) }
      else s
    else s)
  else .fault .noSuchUnit

/-! ### Refresh (R261) -/

/-- MR4_OVER: the highest refresh requirement of the controller's packages exceeds 2×. -/
def execMr4Over (c mult : Nat) (s : State) : Host.Outcome State Fault Refusal :=
  State.forUnit 16 c
    (let s := s.set (MEM_TEMP.REFRESH_MULT c) mult
     if 1 < s.get (MEM_TEMP.REFRESH_MULT c) then s.set (MEM_TEMP.OVER c) 1 else s)

/-- MR4_CONDITION_ENDS. -/
def execMr4ConditionEnds (c mult : Nat) (s : State) : Host.Outcome State Fault Refusal :=
  State.forUnit 16 c (if mult ≤ 1 then s.set (MEM_TEMP.REFRESH_MULT c) mult else s)

/-! ### Initialisation (R255, R262) -/

/-- VENEER_INIT_DONE: every powered veneer word holds 0. -/
def execVeneerInitDone (s : State) : Host.Outcome State Fault Refusal :=
  .next (if s.is VNR_STATUS.INIT_DONE then s
    else (s.zeroRange (veneerBase 0) (nPhys * 0x400000)).set VNR_STATUS.INIT_DONE 1)

/-- LPDDR_READY: training has ended; after a cold reset the controller writes its window with 0. -/
def execLpddrReady (c : Nat) (pkg0 pkg1 : Bool) (s : State) : Host.Outcome State Fault Refusal :=
  State.forUnit 16 c
    (if s.get (MEM_STATUS.STATE c) = 1 then s
     else
       let s := s.setAll [(MEM_STATUS.PKG0_OK c, ofBool pkg0), (MEM_STATUS.PKG1_OK c, ofBool pkg1)]
       if pkg0 && pkg1 then
         let s := if s.boot.kind ≤ 1 then s.zeroRange (c * lpddrWindow) lpddrWindow else s
         s.setAll [(MEM_STATUS.STATE c, 1), (MEM_STATUS.RATE c, 10667)]
       else s.set (MEM_STATUS.STATE c) 3)

end Sys2Proof.Machine
end

