-- ==== Sys2Proof/Machine/Records.lean ====
section
/-! DEFINITION. The configuration flash and what it holds, byte by byte (R373 to R382): regions, certificates, image
slots, the copies of the device and the site record, their signers and their checks. Magic numbers, the lengths of the
trims and the layout of a site record's fields are the parts that the spec does not give (DESIGN CHOICE:
notes/assumptions/12.md). -/

namespace Sys2Proof.Machine

/-! ### The flash (R373, R374) -/

/-- The offset of image slot 0 (A) or 1 (B). -/
def slotOff (k : Nat) : Nat := k * 0x800000

/-- The offset of a copy of the device record, and its size. -/
def devOff (k : Nat) : Nat := 0x1000000 + k * 0x40000
def devSize : Nat := 0x40000

/-- The offset of a copy of the site record, and its size. -/
def siteOff (k : Nat) : Nat := 0x1080000 + k * 0x20000
def siteSize : Nat := 0x20000

/-- The bytes of an image slot. -/
def slotSize : Nat := 0x800000

/-- `n` bytes of the flash from an offset; an erased byte reads 0xFF. -/
def flashBytes (fl : List Host.Cell) (off n : Nat) : List Nat :=
  (List.range n).map fun i => (Store.get fl 0xFF (off + i)).toNat

/-- Erase the 4 KiB sector at an offset. -/
def flashErase (fl : List Host.Cell) (off : Nat) : List Host.Cell := Store.eraseRange fl off 4096

/-- Give bytes of the flash from an offset their values. -/
def flashPut (fl : List Host.Cell) (off : Nat) : List Nat → List Host.Cell
  | [] => fl
  | b :: bs => flashPut (Store.put fl 0xFF off (BitVec.ofNat 8 b)) (off + 1) bs

/-! ### Certificates (R381, R382) -/

def certLen : Nat := 3144
def sigLen : Nat := 1280

def certType (c : List Nat) : Nat := field c 4 1
def certPerms (c : List Nat) : Nat := field c 6 2
def certSubject (c : List Nat) : List Nat := part c 16 16
def certKey (c : List Nat) : List Nat := part c 64 1793

/-- The format of a certificate: its reserved bytes, its TYPE, and the permissions an owner certificate may have. -/
def certFormat (c : List Nat) : Bool :=
  c.length == certLen && field c 5 1 == 0 && field c 1857 7 == 0 && (certType c == 1 || certType c == 3 ||
    (certType c == 2 && decide (certPerms c < 8))) && field c 0 4 == Config.certMagic % 2 ^ 32

/-- A certificate is issued by a key: ISSUER is the key's hash, and SIG verifies under it. -/
def certBy (c key : List Nat) : Bool :=
  part c 32 32 == shake256 key && Config.falconVerify key (part c 0 1864) (part c 1864 sigLen)

/-- A certificate of TYPE 1 or 2, issued by the root key, that carries a permission bit. -/
def certMay (root c : List Nat) (typ bit' : Nat) : Bool :=
  certFormat c && certType c == typ && bit (certPerms c) bit' && certBy c root

/-- The signer's certificate of a signed section, which stands before the signature that ends it. -/
def sectionCert (b : List Nat) : List Nat := part b (b.length - certLen - sigLen) certLen

/-- The signature of a section verifies over what stands before it. DEDUCED: notes/assumptions/12.md. -/
def sectionSigned (b : List Nat) : Bool :=
  Config.falconVerify (certKey (sectionCert b)) (b.take (b.length - sigLen)) (b.drop (b.length - sigLen))

/-! ### Image slots (R376) -/

def imageVersion (b : List Nat) : Nat := field b 8 8
def imageRoot (b : List Nat) : List Nat := part b 64 1793
def imageCert (b : List Nat) : List Nat := part b 1864 certLen

/-- The lengths of the boot loader, the management firmware and the row firmware. -/
def imageLens (b : List Nat) : Nat × Nat × Nat := (field b 16 4, field b 20 4, field b 24 4)

/-- The bytes of an image: its header, to offset 8,192, and its three parts. -/
def imageLen (b : List Nat) : Nat := 8192 + (imageLens b).1 + (imageLens b).2.1 + (imageLens b).2.2

def imageBoot (b : List Nat) : List Nat := part b 8192 (imageLens b).1
def imageMgmt (b : List Nat) : List Nat := part b (8192 + (imageLens b).1) (imageLens b).2.1
def imageRow (b : List Nat) : List Nat := part b (8192 + (imageLens b).1 + (imageLens b).2.1) (imageLens b).2.2

/-- The header's reserved bytes, the limits on the parts, and BODY_DIGEST. -/
def imageFormat (b : List Nat) : Bool :=
  field b 4 4 == 0 && field b 28 4 == 0 && field b 1857 7 == 0 && decide ((imageLens b).1 ≤ 0x40000) &&
    decide ((imageLens b).2.1 ≤ 0x200000) && decide ((imageLens b).2.2 ≤ 0x20000) &&
    field b 0 4 == Config.imageMagic % 2 ^ 32 && part b 32 32 == shake256 (imageBoot b ++ imageMgmt b ++ imageRow b)

/-- ROOT_KEY matches the ROM's digest, CERT may sign images, and SIG verifies over bytes 0 to 63 (R376, R382). -/
def imageSigned (b : List Nat) : Bool :=
  shake256 (imageRoot b) == Config.rootDigest && certMay (imageRoot b) (imageCert b) 1 0 &&
    Config.falconVerify (certKey (imageCert b)) (part b 0 64) (part b 5008 sigLen)

def imageValid (b : List Nat) : Bool := imageFormat b && imageSigned b

/-- The image in a slot, as long as its header says. -/
def imageAt (fl : List Host.Cell) (k : Nat) : List Nat :=
  flashBytes fl (slotOff k) (min slotSize (imageLen (flashBytes fl (slotOff k) 32)))

/-! ### Record copies (R375) -/

/-- A record copy: its 64-byte header and its body. DEDUCED: notes/assumptions/12.md (the fields stand in the order in
which R375 names them). -/
def recordCopy (kind seqno : Nat) (body : List Nat) : List Nat :=
  leBytes 4 (Config.recordMagic kind) ++ leBytes 8 seqno ++ leBytes 4 body.length ++ shake256 body ++
    List.replicate 16 0 ++ body

def recordSeqno (b : List Nat) : Nat := field b 4 8
def recordBody (b : List Nat) : List Nat := part b 64 (field b 12 4)

/-- The header of a record copy is in order and its DIGEST matches. -/
def recordFormat (kind size : Nat) (b : List Nat) : Bool :=
  field b 48 16 == 0 && decide (64 + field b 12 4 ≤ size) && field b 0 4 == Config.recordMagic kind % 2 ^ 32 &&
    part b 16 32 == shake256 (recordBody b)

/-- The record copy at an offset, as long as its header says. -/
def recordAt (fl : List Host.Cell) (off size : Nat) : List Nat :=
  flashBytes fl off (min size (64 + field (flashBytes fl off 16) 12 4))

/-! ### The device record (R378) -/

/-- The bytes of a factory section: SERIAL, REG_TRIM, LANE_TRIM, PUF_HELPER, ID_CERT, the signer's certificate and SIG.
-/
def factoryLen : Nat := 16 + Config.regTrimLen + Config.laneTrimLen + 4096 + certLen + certLen + sigLen

def factorySection (body : List Nat) : List Nat := body.take factoryLen
def repairSection (body : List Nat) : List Nat := body.drop factoryLen

def devSerial (body : List Nat) : List Nat := part body 0 16
def devRegTrim (body : List Nat) : List Nat := part body 16 Config.regTrimLen
def devLaneTrim (body : List Nat) : List Nat := part body (16 + Config.regTrimLen) Config.laneTrimLen
def devPufHelper (body : List Nat) : List Nat := part body (16 + Config.regTrimLen + Config.laneTrimLen) 4096
def devIdCert (body : List Nat) : List Nat :=
  part body (16 + Config.regTrimLen + Config.laneTrimLen + 4096) certLen

/-- One veneer repair from its 32-bit word. -/
def repairOf (w : Nat) : Repair :=
  ⟨bits w 11 0, bits w 12 12, bits w 16 13, bit w 17, bits w 20 18, bits w 31 21⟩

/-- The bytes of a repair section besides its repairs: MAP, the signer's certificate and SIG. -/
def repairFixed : Nat := 272 + certLen + sigLen

/-- The disabled-unit map of a repair section, in the bitmap encoding of R318. -/
def repairMap (r : List Nat) : Nat := leNat (r.take 272)

/-- The veneer repairs of a repair section. -/
def repairsOf (r : List Nat) : List Repair :=
  (List.range ((r.length - repairFixed) / 4)).map fun k => repairOf (field r (272 + 4 * k) 4)

/-- Every row of a map marks 32 positions active. -/
def mapRowsOk (map : Nat) : Bool :=
  (List.range 64).all fun r => ((List.range 34).filter fun c => bit map (r * 34 + c)).length == 32

/-- The checks of a repair section's content, and the format of its certificate. -/
def repairFormat (r : List Nat) : Bool :=
  decide (repairFixed ≤ r.length) && (r.length - repairFixed) % 4 == 0 && decide (r.length ≤ repairFixed + 4 * 4096) &&
    mapRowsOk (repairMap r) && certFormat (sectionCert r)

/-- The signer of a repair section is permitted, under an OWNER_ID (R382). -/
def repairSigner (root c owner : List Nat) : Bool :=
  certMay root c 1 1 || (certMay root c 2 1 && certSubject c == owner)

/-- The identity certificate: TYPE 3 for this module, issued by a TYPE 1 key with PERMS bit 4; the TYPE 1 certificates
at hand are the signers of the record's sections. DEDUCED: notes/assumptions/12.md. -/
def idCertOk (root body : List Nat) : Bool :=
  let c := devIdCert body
  certFormat c && certType c == 3 && certSubject c == devSerial body &&
    [sectionCert (factorySection body), sectionCert (repairSection body)].any fun i => certMay root i 1 4 && certBy c (certKey i)

/-- A copy of the device record is valid, under an OWNER_ID (R375, R378, R382). -/
def devValid (root owner b : List Nat) : Bool :=
  recordFormat 0 devSize b &&
    (let body := recordBody b
     let f := factorySection body
     let r := repairSection body
     decide (factoryLen ≤ body.length) && repairFormat r && certMay root (sectionCert f) 1 3 && sectionSigned f &&
       repairSigner root (sectionCert r) owner && sectionSigned r && idCertOk root body)

/-! ### The site record (R379) -/

/-- OWNER_ID: 16 bytes. -/
def siteOwner (body : List Nat) : List Nat := leBytes 16 (Config.siteField body 0)

/-- At most 8 prefixes, and a signed section with its certificate. -/
def siteFormat (body : List Nat) : Bool :=
  decide (certLen + sigLen ≤ body.length) && decide ((Config.siteAllow body).length ≤ 8) && certFormat (sectionCert body)

/-- The signer of a site record is permitted (R382), under the current OWNER_ID: `none` while no site record is valid, as
at a configuration, which has not yet selected one. DEDUCED: notes/assumptions/12.md. -/
def siteSigner (root c : List Nat) (owner : Option (List Nat)) : Bool :=
  certMay root c 1 2 || (certMay root c 2 2 && match owner with
    | none => true
    | some o => certSubject c == o || o.all (· == 0))

/-- The content of a site record and its signature. -/
def siteBodyOk (root body : List Nat) (owner : Option (List Nat)) : Bool :=
  siteSigner root (sectionCert body) owner && sectionSigned body

/-- A copy of the site record is valid (R375, R379, R382). -/
def siteValid (root b : List Nat) : Bool :=
  recordFormat 1 siteSize b && siteFormat (recordBody b) && siteBodyOk root (recordBody b) none

/-! ### What the ROM selects (R375, R376) -/

/-- The valid one of two with the higher number, or the first when the numbers are equal: its place and its bytes. -/
def select (a b : List Nat) (ok : List Nat → Bool) (num : List Nat → Nat) : Option (Nat × List Nat) :=
  if ok a && (!ok b || decide (num b ≤ num a)) then some (0, a)
  else if ok b then some (1, b)
  else none

/-- The bytes over which the digest of the stored contents is taken: the image, the records, the working map and the key
pair (R383). DESIGN CHOICE: notes/assumptions/12.md. -/
def Aon.contents (x : Aon) : List Nat :=
  x.image ++ x.dev ++ x.site.getD [] ++ leBytes 272 x.map ++ x.pub ++ x.sec

/-- The stored contents with their digest taken anew. -/
def Aon.sealed (x : Aon) : Aon := { x with digest := shake256 x.contents }

/-- The body of the selected device record. -/
def Aon.devBody (x : Aon) : List Nat := recordBody x.dev

/-- The body of the selected site record, if one is selected. -/
def Aon.siteBody (x : Aon) : Option (List Nat) := x.site.map recordBody

/-- The OWNER_ID in force; 0 without a site record. -/
def Aon.owner (x : Aon) : List Nat :=
  match x.siteBody with
  | some b => siteOwner b
  | none => List.replicate 16 0

/-- Bytes with some of them changed: place and value. -/
def withBytes (b : List Nat) (lost : List (Nat × Nat)) : List Nat := lost.foldl (fun b e => b.set e.1 (e.2 % 256)) b

/-- The site record that a configuration under a root key selects from the flash. -/
def flashSite (fl : List Host.Cell) (root : List Nat) : Option (Nat × List Nat) :=
  select (recordAt fl (siteOff 0) siteSize) (recordAt fl (siteOff 1) siteSize) (siteValid root) recordSeqno

/-- The image that a configuration selects from the flash. -/
def flashImage (fl : List Host.Cell) : Option (Nat × List Nat) :=
  select (imageAt fl 0) (imageAt fl 1) imageValid imageVersion

/-- What the ROM accepts from the flash; `none` when the boot fails (R377). -/
def fromFlash (fl : List Host.Cell) : Option Aon :=
  match flashImage fl with
  | none => none
  | some i =>
    let root := imageRoot i.2
    let site := flashSite fl root
    let owner := match site with
      | some x => siteOwner (recordBody x.2)
      | none => List.replicate 16 0
    match select (recordAt fl (devOff 0) devSize) (recordAt fl (devOff 1) devSize) (devValid root owner) recordSeqno with
    | none => none
    | some d =>
      let body := recordBody d.2
      let keys := Config.falconKeys (Config.pufSeed (devPufHelper body))
      some (Aon.sealed
        { image := i.2, otherValid := imageValid (imageAt fl (1 - i.1)), slot := i.1, dev := d.2, devCopy := d.1,
          site := site.map (·.2), siteCopy := (site.map (·.1)).getD 0, map := repairMap (repairSection body),
          pub := keys.1, sec := keys.2, digest := [] })

end Sys2Proof.Machine
end

