-- ==== Sys2Proof/Machine/Finisher.lean ====
section
/-! DEFINITION. The finisher (R120 to R141): chains of instructions over element groups, reductions, gathers and
scatters, table-driven functions, and TABLE_LOAD. -/

namespace Sys2Proof.Machine

open Reg

/-! ### Descriptors (R125, R127) -/

/-- A decoded chain descriptor. -/
structure ChainDesc where
  progOff : Nat
  nInstr : Nat
  cls : Nat
  hfmt : Nat
  nInner : Nat
  nOuter : Nat
  slots : List Nat
  rsvd : Nat
deriving DecidableEq, Repr

/-- Decode the words of a chain descriptor (table "Chain descriptor"). -/
def chainDescOf (w : List Nat) : ChainDesc :=
  let g (i : Nat) := w.getD i 0
  { progOff := bits (g 0) 23 0, nInstr := bits (g 0) 29 24, cls := bits (g 0) 34 32, hfmt := bits (g 0) 39 35,
    nInner := bits (g 1) 23 0, nOuter := bits (g 1) 47 24,
    slots := (List.range 8).map fun i => bits (g (2 + i / 4)) (16 * (i % 4) + 15) (16 * (i % 4)),
    rsvd := bits (g 0) 31 30 + bits (g 0) 63 40 + bits (g 1) 63 48 + g 4 + g 5 + g 6 + g 7 }

/-- A decoded stream descriptor. -/
structure Stream where
  off : Nat
  space : Nat
  fmt : Nat
  store : Bool
  scaleOff : Nat
  inner : Int
  outer : Int
  tensor : Nat
  gate : Nat
  mask : Bool
  smode : Nat
  indexed : Bool
  idxSlot : Nat
  maxPass : Nat
  rsvd : Nat
deriving DecidableEq, Repr

/-- Decode the words of a stream descriptor (table "Stream descriptor"). -/
def streamOf (w : List Nat) : Stream :=
  let g (i : Nat) := w.getD i 0
  { off := bits (g 0) 23 0, space := bits (g 0) 25 24, fmt := bits (g 0) 30 26, store := bit (g 0) 31,
    scaleOff := bits (g 0) 55 32, inner := toSigned 32 (g 1), outer := toSigned 32 (g 1 / 2 ^ 32),
    tensor := bits (g 2) 31 0, gate := bits (g 2) 47 32, mask := bit (g 2) 48, smode := bits (g 2) 50 49,
    indexed := bit (g 2) 51, idxSlot := bits (g 2) 54 52, maxPass := bits (g 2) 60 55,
    rsvd := bits (g 0) 63 56 + bits (g 2) 63 61 + g 3 }

/-- A decoded instruction (table "Finisher instruction"). -/
structure FinInstr where
  op : Nat
  dst : Nat
  a : Nat
  b : Nat
  c : Nat
  msk : Nat
  minv : Bool
  imm : Nat
  immHi : Nat
  aux : Nat
  rsvd : Nat
deriving DecidableEq, Repr

/-- Decode the two words of an instruction. -/
def finInstrOf (w0 w1 : Nat) : FinInstr :=
  ⟨bits w0 7 0, bits w0 12 8, bits w0 17 13, bits w0 22 18, bits w0 27 23, bits w0 30 28, bit w0 31, bits w0 63 32,
    bits w1 31 0, bits w1 39 32, bits w1 63 40⟩

/-- The offset of a cluster's finisher table, under the running bank. -/
def State.finTbl (s : State) (p : Nat) : Nat := s.bankGet (FIN_DESC_A.OFF p) (FIN_DESC_B.OFF p) * 64

/-- Chain descriptor `c`, from the sealed copy. -/
def State.chainDesc (s : State) (p c : Nat) : ChainDesc :=
  chainDescOf (s.sealedWords (veneerBase p + s.finTbl p + c * 64) 8)

/-- Stream descriptor `i`: OFF and SCALE_OFF from memory at issue, the rest from the sealed copy (R125). -/
def State.stream (s : State) (p i : Nat) : Stream :=
  let a := veneerBase p + s.finTbl p + 0x4000 + i * 32
  let st := streamOf (s.sealedWords a 4)
  { st with off := bits (s.rd a 8) 23 0, scaleOff := bits (s.rd a 8) 55 32 }

/-- The instructions of a chain, from the sealed copy. -/
def State.finProg (s : State) (p : Nat) (d : ChainDesc) : List FinInstr :=
  (List.range d.nInstr).map fun i =>
    let a := veneerBase p + d.progOff + i * 16
    finInstrOf (s.sealedRd a 8) (s.sealedRd (a + 8) 8)

/-- The compute format of a chain (R120). -/
def ChainDesc.fmt (d : ChainDesc) : Nat :=
  match d.cls with
  | 0 => d.hfmt
  | 1 => fFP32
  | 2 => fFP64
  | 3 => fDD
  | _ => fI32

/-- The group width W (R120). -/
def finW (cls : Nat) : Nat :=
  match cls with
  | 0 => 32
  | 2 => 4
  | 3 => 1
  | _ => 16

/-- The element groups of one row. -/
def ChainDesc.groups (d : ChainDesc) : Nat := ceilDiv d.nInner (finW d.cls)

/-! ### Streams (R125, R126, R134, R140) -/

/-- The bytes at a signed offset of a space (R94, R140); `none` where the offset is negative or some byte is outside. -/
def State.spaceInt (s : State) (p space : Nat) (off : Int) (n : Nat) : Option (List (Nat × Nat)) :=
  if off < 0 then none else s.spaceParts p space off.toNat n

/-- The first byte of row `o` of a stream of `w`-bit elements; a stride that is no whole number of bytes is rounded down
to one. DESIGN CHOICE: notes/assumptions/29.md. -/
def Stream.row (st : Stream) (o w : Nat) : Int := (st.off : Int) + ((o : Int) * st.outer * w) / 8

/-- The bit at which element (o, i) of a stream of `w`-bit elements starts: within its row, or by its index. -/
def Stream.bitAt (st : Stream) (w o i : Nat) (idx : Option Int) : Int :=
  match idx with
  | some x => if x < 0 then -1 else (st.off : Int) * 8 + x * w
  | none => st.row o w * 8 + (i * w : Nat)

/-- The offset of the scale of element (o, i) of an MX stream: by its row, or by its index (DESIGN CHOICE:
notes/assumptions/29.md). -/
def Stream.scaleAt (st : Stream) (nInner o i : Nat) (idx : Option Int) : Nat :=
  match idx with
  | some x => st.scaleOff + x.toNat / 32
  | none => st.scaleOff + o * ceilDiv nInner 32 + i / 32

/-- The offset of element (o, i) of a stream of whole-byte elements; `idx` is the index of an indexed stream. -/
def Stream.elem (st : Stream) (size o i : Nat) (idx : Option Int) : Int :=
  match idx with
  | some x => if x < 0 then -1 else (st.off : Int) + x * size
  | none => (st.off : Int) + ((o : Int) * st.outer + (i : Int) * st.inner) * size

/-- Load one lane: a data element, or a mask bit as 0 or 1. -/
def State.loadLane (s : State) (p : Nat) (st : Stream) (nInner o i : Nat) (idx : Option Int) : Fetched :=
  let w := if st.mask then 1 else fmtBits st.fmt
  let at' := st.bitAt w o i idx
  let b := (at' % 8).toNat
  if st.mask then
    match s.spaceInt p st.space (at' / 8) 1 with
    | some a => ⟨.ofInt (ofBool (bit (s.rdParts a) b)), a, false⟩
    | none => ⟨.zero, [], true⟩
  else if isMx st.fmt then
    match s.spaceInt p st.space (at' / 8) (ceilDiv (b + w) 8), s.spaceAddr p st.space (st.scaleAt nInner o i idx) 1 with
    | some a, some c => ⟨decodeMx st.fmt (s.rdParts a / 2 ^ b % 2 ^ w) (s.rd1 c), a ++ [(c, 1)], false⟩
    | _, _ => ⟨.zero, [], true⟩
  else
    match s.spaceInt p st.space (st.elem (fmtBytes st.fmt) o i idx) (fmtBytes st.fmt) with
    | some a => ⟨decode st.fmt (s.rdParts a), a, false⟩
    | none => ⟨.zero, [], true⟩

/-- The integer that an INT32 value holds. -/
def Val.toInt : Val → Int
  | .fin s m e => Val.sgn s (Val.scaled m e 0)
  | _ => 0

/-! ### Arithmetic (R121, R129) -/

/-- A result with the FIN_FLAGS bits it sets. -/
structure Res where
  val : Val
  flags : List Nat
deriving DecidableEq, Repr

/-- Saturate to the INT32 range, with ISAT. -/
def satI32 (x : Int) : Res :=
  if x > 2 ^ 31 - 1 then ⟨.ofInt (2 ^ 31 - 1), [4]⟩
  else if x < -(2 ^ 31) then ⟨.ofInt (-(2 ^ 31)), [4]⟩
  else ⟨.ofInt x, []⟩

/-- Round an exact result once to a format, with NAN_MADE and OVF_ARITH. -/
def roundRes (f : Nat) (ops : List Val) (x : Val) : Res :=
  let r := x.inFmt f
  ⟨r, (if x.isNan && !ops.any Val.isNan then [1] else []) ++ (if x.isFin && r.isInf then [2] else [])⟩

/-- A DD128 quotient or root from its leading part `hi` and the exact rest (R121). -/
def ddPair (hi rest : Val) : Val := if hi.isFin && !hi.isZero && rest.isFin then hi.add (rne64 rest) else hi

/-- Division in a compute format (R121). -/
def finDiv (f : Nat) (a b : Val) : Res :=
  let x := a.div b
  let z := if a.isFin && !a.isZero && b.isZero then [3] else []
  let r := roundRes f [a, b] x
  let v := if f = fDD ∧ a.isFin ∧ b.isFin ∧ !b.isZero then
      let hi := rne64 x
      ddPair hi ((a.sub (hi.mul b)).div b)
    else r.val
  ⟨v, r.flags ++ z⟩

/-- The root of an exact value to more bits than any value of DD128 distinguishes. -/
def sqrtDeep : Val → Val
  | .fin false m e =>
    let sh : Nat := 2 * (2 * bitLen m + 256) + (if e % 2 = 0 then 0 else 1)
    let n := m * 2 ^ sh
    let r := Val.isqrt n
    .fin false (2 * r + (if r * r = n then 0 else 1)) ((e - sh) / 2 - 1)
  | v => v.sqrt

/-- The square root in a compute format (R121). -/
def finSqrt (f : Nat) (a : Val) : Res :=
  if f = fDD ∧ a.isFin ∧ !a.isZero ∧ !a.isNeg then
    let x := sqrtDeep a
    let hi := rne64 x
    ⟨ddPair hi (x.sub hi), []⟩
  else roundRes f [a] a.sqrt

/-- A predicate of CMP (R129). -/
def finCmp (aux : Nat) (a b : Val) : Bool :=
  if a.isNan || b.isNan then aux == 1 || aux == 4
  else
    match aux with
    | 0 => Val.cmp a b == 0
    | 1 => Val.cmp a b != 0
    | 2 => decide (Val.cmp a b < 0)
    | 3 => decide (Val.cmp a b ≤ 0)
    | _ => false

/-- INT32 bits of a value. -/
def Val.i32 (v : Val) : Nat := ofSigned 32 v.toInt

/-- An INT32 value from bits. -/
def ofI32 (x : Nat) : Val := .ofInt (toSigned 32 x)

/-- The class I operations 0x20 to 0x28. -/
def finInt (op : Nat) (a b : Val) : Val :=
  match op with
  | 0x20 => ofI32 (ofSigned 32 (a.toInt + b.toInt))
  | 0x21 => ofI32 (ofSigned 32 (a.toInt - b.toInt))
  | 0x22 => ofI32 (ofSigned 32 (a.toInt * b.toInt))
  | 0x23 => ofI32 (Nat.land a.i32 b.i32)
  | 0x24 => ofI32 (Nat.lor a.i32 b.i32)
  | 0x25 => ofI32 (Nat.xor a.i32 b.i32)
  | 0x26 => ofI32 (a.i32 * 2 ^ (b.i32 % 32) % 2 ^ 32)
  | 0x27 => ofI32 (a.i32 / 2 ^ (b.i32 % 32))
  | _ => .ofInt (a.toInt / 2 ^ (b.i32 % 32))

/-! ### Tables (R137, R138) -/

/-- A decoded table directory entry. -/
structure TblDir where
  valid : Bool
  f64 : Bool
  segBits : Nat
  sym : Nat
  rsvd : Nat
  eLo : Int
  eHi : Int
  segBase : Nat
deriving DecidableEq, Repr

def tblDirOf (w0 w1 : Nat) : TblDir :=
  ⟨bit w0 0, bit w0 1, bits w0 4 2, bits w0 6 5, bits w0 7 7 + bits w0 63 48 + w1, toSigned 12 (w0 / 2 ^ 8),
    toSigned 12 (w0 / 2 ^ 20), bits w0 47 32⟩

/-- The segments of one sign. -/
def TblDir.nseg (d : TblDir) : Nat := 2 + (d.eHi - d.eLo + 1).toNat * 2 ^ d.segBits

/-- The bytes of one segment. -/
def TblDir.segSize (d : TblDir) : Nat := if d.f64 then 32 else 16

/-- TABLE_LOAD refuses the entry (R137). The spec gives SEG_BITS 0 to 6 and no check of it: an entry with SEG_BITS = 7
loads, with seven fraction bits. DESIGN CHOICE: notes/assumptions/29.md. -/
def TblDir.bad (d : TblDir) : Bool :=
  d.rsvd != 0 || decide (d.eHi < d.eLo) ||
    (if d.f64 then decide (d.eLo < -1022) || decide (1023 < d.eHi) else decide (d.eLo < -126) || decide (127 < d.eHi)) ||
    decide (0x8000 < d.segBase * 16 + (if d.sym = 0 then 2 else 1) * d.nseg * d.segSize)

/-- Coefficient `k` of segment `i` from a base in 16-byte units. -/
def State.tblCoef (s : State) (p : Nat) (d : TblDir) (base i k : Nat) : Val :=
  let n := d.segSize / 4
  decodeFp (if d.f64 then 0 else 1) (s.rd (ftabBase p + base * 16 + i * d.segSize + k * n) n)

/-- One rounded step of a table's polynomial, and whether a finite result became infinite (R121). -/
def hornerStep (f : Nat) (t : Val) (y : Val × Bool) (c : Val) : Val × Bool :=
  let x := Val.fma y.1 t c
  let r := x.inFmt f
  (r, y.2 || (x.isFin && r.isInf))

/-- table_eval of R138, and whether a step overflowed. -/
def State.tableEval (s : State) (p : Nat) (d : TblDir) (x : Val) : Val × Bool :=
  if x.isNan then (x, false)
  else
    let F := if d.f64 then fFP64 else fFP32
    let sgn := if d.sym = 0 ∧ x.isNeg then 1 else 0
    let base := d.segBase + sgn * d.nseg * d.segSize / 16
    let y := match x with
      | .fin _ m e =>
        if m ≠ 0 ∧ d.eHi + 1 ≤ leadExp m e then (s.tblCoef p d base 1 0, false)
        else
          let (i, t) : Nat × Val :=
            if m = 0 ∨ leadExp m e < d.eLo then (0, .fin false m e)
            else
              let l := leadExp m e
              let q := l - d.segBits
              let top := if q ≤ e then m * 2 ^ (e - q).toNat else m / 2 ^ (q - e).toNat
              let f := top - 2 ^ d.segBits
              (2 + (l - d.eLo).toNat * 2 ^ d.segBits + f, (Val.fin false m e).sub (.fin false top q))
          [2, 1, 0].foldl (fun y k => hornerStep F t y (s.tblCoef p d base i k)) (s.tblCoef p d base i 3, false)
      | _ => (s.tblCoef p d base 1 0, false)
    if d.sym = 1 ∧ x.isNeg then (y.1.neg, y.2) else y

/-- TBL on one value in a compute format (R138). -/
def State.finTable (s : State) (p f t : Nat) (x : Val) : Res :=
  let a := ftabBase p + t * 16
  let d := tblDirOf (s.rd a 8) (s.rd (a + 8) 8)
  if !d.valid then ⟨.dflt, 7 :: (if x.isNan then [] else [1])⟩
  else
    let x := if f = fDD then rne64 x else x
    let y := s.tableEval p d x
    let r := roundRes f [x] y.1
    ⟨r.val, (if y.2 then [2] else []) ++ r.flags⟩

/-! ### One instruction on one lane -/

/-- The arithmetic of an instruction on one lane. -/
def State.finOp (s : State) (p f : Nat) (x : FinInstr) (a b c : Val) : Res :=
  match x.op with
  | 0x02 => roundRes f [a, b] (a.add b)
  | 0x03 => roundRes f [a, b] (a.sub b)
  | 0x04 => roundRes f [a, b] (a.mul b)
  | 0x05 => roundRes f [a, b, c] (Val.fma a b c)
  | 0x06 => finDiv f a b
  | 0x07 => finSqrt f a
  | 0x08 => ⟨Val.minimum a b, []⟩
  | 0x09 => ⟨Val.maximum a b, []⟩
  | 0x0A => if f = fI32 then satI32 a.toInt.natAbs else ⟨a.abs, []⟩
  | 0x0B => if f = fI32 then satI32 (-a.toInt) else ⟨a.neg, []⟩
  | 0x0E => s.finTable p f (x.aux % 8) a
  | 0x01 => ⟨a, []⟩
  | op => ⟨finInt op a b, []⟩

/-- The immediate as a value (R128). -/
def FinInstr.immVal (x : FinInstr) (cls hfmt : Nat) : Val :=
  match cls with
  | 0 => decodeFp hfmt (x.imm % 2 ^ 16)
  | 1 => decodeFp fFP32 x.imm
  | 4 => ofI32 x.imm
  | _ => decodeFp fFP64 (x.imm + x.immHi * 2 ^ 32)

/-! ### Reductions (R131 to R133) -/

/-- One level of the tree over lanes: a lane without a value takes no part. -/
def pairOpt (comb : Val → Val → Res) : List (Option Val) → List (Option Val) × List Nat
  | x :: y :: l =>
    let r := pairOpt comb l
    match x, y with
    | some a, some b => let c := comb a b; (some c.val :: r.1, c.flags ++ r.2)
    | some a, none => (some a :: r.1, r.2)
    | none, y => (y :: r.1, r.2)
  | l => (l, [])

/-- The tree over at most `2 ^ n` lanes. -/
def treeOpt (comb : Val → Val → Res) : Nat → List (Option Val) → Option Val × List Nat
  | 0, l => (l.head?.join, [])
  | n + 1, l =>
    let r := pairOpt comb l
    let t := treeOpt comb n r.1
    (t.1, r.2 ++ t.2)

/-- Accumulate the elements of one lane in order, from the first. -/
def foldLane (first : Val → Val → Res) (step : Val → Val → Val → Res) : List (Val × Val) → Option Val × List Nat
  | [] => (none, [])
  | x :: l =>
    let r0 := first x.1 x.2
    let r := l.foldl (fun (acc : Res) e =>
      let y := step acc.val e.1 e.2
      ⟨y.val, acc.flags ++ y.flags⟩) r0
    (some r.val, r.flags)

/-- The included elements of a row: inner index and operands. -/
abbrev RowElems := List (Nat × Val × Val)

/-- Sum, product or dot over a row (R132). -/
def reduceSum (cls w op f : Nat) (row : RowElems) : Res :=
  let add (a b : Val) : Res := if cls = 4 then satI32 (a.toInt + b.toInt) else roundRes f [a, b] (a.add b)
  let mul (a b : Val) : Res := if cls = 4 then satI32 (a.toInt * b.toInt) else roundRes f [a, b] (a.mul b)
  let first (a b : Val) : Res := if op = 7 then mul a b else ⟨a, []⟩
  let step (acc a b : Val) : Res :=
    if op = 7 then (if cls = 4 then satI32 (acc.toInt + a.toInt * b.toInt) else roundRes f [a, b, acc] (Val.fma a b acc))
    else if op = 1 then mul acc a else add acc a
  let lanes := (List.range w).map fun l => foldLane first step ((row.filter fun e => e.1 % w == l).map (·.2))
  let t := treeOpt (if op = 1 then mul else add) 6 (lanes.map (·.1))
  ⟨t.1.getD .zero, lanes.flatMap (·.2) ++ t.2⟩

/-- The extreme of a row, with the lowest index that holds it; a NaN wins, the first in inner order (R132). -/
def extreme (mx : Bool) : RowElems → Option (Nat × Val)
  | [] => none
  | e :: l =>
    if e.2.1.isNan then some (e.1, e.2.1)
    else
      match extreme mx l with
      | none => some (e.1, e.2.1)
      | some r =>
        if r.2.isNan then some r
        else
          let c := Val.cmp e.2.1 r.2
          let keep := if c = 0 then !(e.2.1.isZero && (e.2.1.isNeg != r.2.isNeg) && (e.2.1.isNeg == mx)) else decide (0 < c) == mx
          if keep then some (e.1, e.2.1) else some r

/-- The result of REDUCE for one row; the last component says that the row was empty (R131 to R133). -/
def reduceRow (cls w op f : Nat) (row : RowElems) : Res × Bool :=
  if row.isEmpty then
    (match op with
    | 1 => ⟨.one, [5]⟩
    | 2 => ⟨if cls = 4 then .ofInt (-(2 ^ 31)) else .inf true, [5]⟩
    | 3 => ⟨if cls = 4 then .ofInt (2 ^ 31 - 1) else .inf false, [5]⟩
    | 4 => ⟨.nan false 0xE, [5, 1]⟩
    | 5 | 6 => ⟨.ofInt (-1), [5]⟩
    | _ => ⟨.zero, [5]⟩, true)
  else
    (match op with
    | 2 => ⟨((extreme true row).map (·.2)).getD .zero, []⟩
    | 3 => ⟨((extreme false row).map (·.2)).getD .zero, []⟩
    | 4 =>
      let t := reduceSum cls w 0 f row
      let m := finDiv f t.val (.ofInt row.length)
      ⟨m.val, t.flags ++ m.flags⟩
    | 5 => ⟨.ofInt (((extreme true row).map (·.1)).getD 0), []⟩
    | 6 => ⟨.ofInt (((extreme false row).map (·.1)).getD 0), []⟩
    | _ => reduceSum cls w op f row, false)

/-- The accumulation format of REDUCE (R131). -/
def accFmt (cls aux f : Nat) : Nat :=
  if bits aux 5 4 = 1 then (match cls with | 0 => fFP32 | 1 => fFP64 | 2 => fDD | _ => f) else f

/-! ### Running a chain (R122, R129, R136) -/

/-- A destination element of a store: the bytes that hold it, the bit of the first at which it starts, and for an MX
stream the byte of its scale. -/
structure Dest where
  place : List (Nat × Nat)
  bit : Nat
  scale : Option Nat
deriving DecidableEq, Repr

/-- A chain in progress: the state, the memory that loads of the current group see, the stores not visible yet with
their group, the hand-off registers, the mask latches, the group's loads by slot, each REDUCE's row by instruction, the
elements of MX blocks not complete by slot, the flags, and the destinations that unordered adds have reached, each with
its contents before them and the adds in the order of their groups. -/
structure FinRun where
  s : State
  vis : List Host.Cell
  pend : List (Nat × Nat × List Nat)
  h : List (List Val)
  q : List (List Bool)
  loads : List (Nat × List Val)
  red : List (Nat × RowElems)
  mx : List (Nat × List (Nat × Option Int × Val))
  flags : List Nat
  oob : Bool
  passOver : Bool
  touched : List (Dest × Nat × List (Nat × Val))

/-- Where a chain runs: cluster, descriptor, streams by slot, compute format, source class for memory errors. -/
structure FinCtx where
  p : Nat
  d : ChainDesc
  st : List (Nat × Stream)
  f : Nat

/-- The stream of a slot. -/
def FinCtx.slot (c : FinCtx) (k : Nat) : Option Stream := (c.st.find? fun e => e.1 == k).map (·.2)

/-- The number of a lane's group within the chain. -/
def FinCtx.groupNo (c : FinCtx) (o g : Nat) : Nat := o * c.d.groups + g

/-- Stores of group `n - 24` and earlier become visible (R136). -/
def FinRun.settle (r : FinRun) (n : Nat) : FinRun :=
  let old := r.pend.filter fun e => decide (e.1 + 24 ≤ n)
  { r with vis := old.foldl (fun m e => Memory.writeBytes m e.2.1 e.2.2) r.vis,
           pend := r.pend.filter fun e => decide (n < e.1 + 24) }

/-- Write bytes in group `n` to ranges of memory, one after another. -/
def FinRun.put (n : Nat) : List (Nat × Nat) → List Nat → FinRun → FinRun
  | [], _, r => r
  | x :: l, bs, r =>
    let b := bs.take x.2
    FinRun.put n l (bs.drop x.2)
      { r with s := r.s.wrBytes x.1 b, pend := r.pend ++ [(n, x.1, b)] }

/-- The index of a lane of an indexed stream. -/
def FinRun.idx (r : FinRun) (st : Stream) (j : Nat) : Option Int :=
  if st.indexed then
    match r.loads.find? fun e => e.1 == st.idxSlot with
    | some e => some (e.2.getD j .zero).toInt
    | none => some 0
  else none

/-- Load one slot's group. -/
def FinRun.loadSlot (c : FinCtx) (o g : Nat) (lanes : Nat) (r : FinRun) (k : Nat) (st : Stream) : FinRun :=
  let sv := { r.s with mem := r.vis }
  let ls := (List.range lanes).map fun j => sv.loadLane c.p st c.d.nInner o (g * finW c.d.cls + j) (r.idx st j)
  let s := r.s.readPoison (ls.flatMap (·.read)) 2 0
  { r with s := s, loads := (k, ls.map (·.val)) :: r.loads, oob := r.oob || ls.any (·.oob),
           flags := (if ls.any fun l => l.val.isNan then [0] else []) ++ r.flags }

/-- Load the slots that are not loaded yet and whose index stream, if they have one, is. -/
def FinRun.loadReady (c : FinCtx) (o g lanes : Nat) (r : FinRun) : FinRun :=
  (c.st.filter fun e => !e.2.store).foldl (fun r e =>
    let has (k : Nat) := r.loads.any fun l => l.1 == k
    if has e.1 || (e.2.indexed && !has e.2.idxSlot) then r else r.loadSlot c o g lanes e.1 e.2) r

/-- A slot whose index streams form a ring: the spec gives its elements no place, and they are free values. -/
def FinRun.loadRing (lanes : Nat) (r : FinRun) (k : Nat) : FinRun :=
  if r.loads.any fun l => l.1 == k then r
  else
    let x := (List.range lanes).foldl (fun (x : List Val × State) _ =>
      let (v, s) := x.2.draw
      (x.1 ++ [.ofInt (toSigned 32 v)], s)) ([], r.s)
    { r with s := x.2, loads := (k, x.1) :: r.loads }

/-- Load every load slot, an index stream before the streams that it indexes. -/
def FinRun.loadAll (c : FinCtx) (o g lanes : Nat) (r : FinRun) : FinRun :=
  let r := (List.range 8).foldl (fun r _ => r.loadReady c o g lanes) { r with loads := [] }
  (c.st.filter fun e => !e.2.store).foldl (fun r e => r.loadRing lanes e.1) r

/-- The value of an operand in a lane. -/
def FinRun.src (c : FinCtx) (x : FinInstr) (r : FinRun) (code j : Nat) : Val :=
  if code < 4 then (r.h.getD code []).getD j .zero
  else if 8 ≤ code ∧ code < 16 then
    (match r.loads.find? fun e => e.1 == code - 8 with
    | some e => e.2.getD j .zero
    | none => .zero)
  else if 16 ≤ code ∧ code < 20 then .ofInt (ofBool ((r.q.getD (code - 16) []).getD j false))
  else x.immVal c.d.cls c.d.hfmt

/-- The mask of an instruction in a lane. -/
def FinRun.maskBit (x : FinInstr) (r : FinRun) (j : Nat) : Bool :=
  if x.msk = 0 then true else ((r.q.getD (x.msk - 1) []).getD j false) != x.minv

/-- The element's index for the rounding draw (R52): its position in the chain, for an indexed store too, whatever
element of the destination its index selects. DESIGN CHOICE: notes/assumptions/29.md. -/
def FinCtx.index (c : FinCtx) (o i : Nat) : Nat := o * c.d.nInner + i

/-- A plain store of lanes: inner index and value of each lane that is written. A store's format, size and layout are
those of its GATE: its FMT, of which the spec says nothing where the two differ, is not used. DESIGN CHOICE:
notes/assumptions/29.md. -/
def FinRun.storePlain (c : FinCtx) (st : Stream) (n o : Nat) (r : FinRun) (xs : List (Nat × Nat × Val)) : FinRun :=
  let g := gateOf st.gate
  let y := r.s.gateAll 1 g st.tensor (xs.map fun x => (c.index o x.2.1, x.2.2))
  let s := y.2.noteWrite id (xs.flatMap fun x =>
    (y.2.spaceInt c.p st.space (st.elem (fmtBytes g.fmt) o x.2.1 (r.idx st x.1)) (fmtBytes g.fmt)).getD []) 2
  (xs.zip y.1).foldl (fun (r : FinRun) x =>
    match r.s.spaceInt c.p st.space (st.elem (fmtBytes g.fmt) o x.1.2.1 (r.idx st x.1.1)) (fmtBytes g.fmt) with
    | some a => r.put n a (leBytes (fmtBytes g.fmt) x.2)
    | none => { r with oob := true }) { r with s := s }

/-- The bytes that hold `w` bits from a bit of a stream's space. -/
def State.bitParts (s : State) (c : FinCtx) (st : Stream) (w : Nat) (at' : Int) : Option (List (Nat × Nat)) :=
  s.spaceInt c.p st.space (at' / 8) (ceilDiv ((at' % 8).toNat + w) 8)

/-- The bits of one stored element of a stream: one of a bit mask, otherwise those of the gate's format. -/
def Stream.storeBits (st : Stream) : Nat := if st.mask then 1 else fmtBits (gateFmt st.gate)

/-- The destination of element (o, i) of a store; none where it is outside the space. -/
def State.destOf (s : State) (c : FinCtx) (st : Stream) (o i : Nat) (idx : Option Int) : Option Dest :=
  let f := gateFmt st.gate
  let at' := st.bitAt st.storeBits o i idx
  if st.mask then (s.bitParts c st 1 at').map fun a => ⟨a, (at' % 8).toNat, none⟩
  else if isMx f then
    match s.bitParts c st st.storeBits at', s.spaceAddr c.p st.space (st.scaleAt c.d.nInner o i idx) 1 with
    | some a, some sa => some ⟨a, (at' % 8).toNat, some sa⟩
    | _, _ => none
  else (s.spaceInt c.p st.space (st.elem (fmtBytes f) o i idx) (fmtBytes f)).map fun a => ⟨a, 0, none⟩

/-- The bits that a destination holds. -/
def State.destCode (s : State) (st : Stream) (d : Dest) : Nat := s.rdParts d.place / 2 ^ d.bit % 2 ^ st.storeBits

/-- The value that a destination holds. -/
def State.destVal (s : State) (st : Stream) (d : Dest) : Val :=
  let x := s.destCode st d
  if st.mask then .ofInt x
  else match d.scale with
    | some sa => decodeMx (gateFmt st.gate) x (s.rd1 sa)
    | none => decode (gateFmt st.gate) x

/-- Write `w` bits to a destination in group `n`; the bits beside them stay. -/
def FinRun.putDest (n w : Nat) (d : Dest) (code : Nat) (r : FinRun) : FinRun :=
  let old := r.s.rdParts d.place
  r.put n d.place (leBytes (ceilDiv (d.bit + w) 8) (old - old / 2 ^ d.bit % 2 ^ w * 2 ^ d.bit + code * 2 ^ d.bit))

/-- Write a code of `w` bits at a bit of a stream's space; the bits beside it stay. -/
def FinRun.putBits (c : FinCtx) (st : Stream) (n w : Nat) (at' : Int) (code : Nat) (r : FinRun) : FinRun :=
  match r.s.bitParts c st w at' with
  | some a => r.putDest n w ⟨a, (at' % 8).toNat, none⟩ code
  | none => { r with oob := true }

/-- One element under a given scale of its MX block (R49): a scale of 255 is a NaN. -/
def State.gateScaled (s : State) (g : Gate) (tensor index scale : Nat) (v : Val) : Nat × Outcome5 :=
  if scale = 255 then (0, .nan) else convFp g.fmt (s.gateRnd g tensor index) false g.ftz (v.scale (127 - (scale : Int)))

/-- One scatter-add of a value into its destination (R135). The spec gives a single element of an MX block no scale: the
scale is a free value, and the sum is rounded under it. The sum of two ones in a bit mask is a free bit. DESIGN CHOICE:
notes/assumptions/29.md. -/
def FinRun.addOne (c : FinCtx) (st : Stream) (n o i : Nat) (r : FinRun) (d : Dest) (v : Val) : FinRun :=
  let g := gateOf st.gate
  let s := r.s.readPoison (d.place ++ (d.scale.map fun a => (a, 1)).toList) 2 0
  let sum := (s.destVal st d).add v
  if st.mask then
    if sum.toInt ≤ 1 then { r with s := s }.putDest n 1 d sum.toInt.toNat
    else
      let (x, s) := s.draw
      { r with s := s }.putDest n 1 d (x % 2)
  else match d.scale with
    | some sa =>
      let (x, s) := s.draw
      let y := s.gateScaled g st.tensor (c.index o i) (x % 256) sum
      let s := (s.countGate 1 g.fmt [y.2]).noteSre g 1
      ({ r with s := s }.putDest n st.storeBits d y.1).put n [(sa, 1)] [x % 256]
    | none =>
      let y := s.gateAll 1 g st.tensor [(c.index o i, sum)]
      { r with s := y.2 }.putDest n st.storeBits d (y.1.getD 0 0)

/-- The destinations of the lanes of a scatter-add. -/
def FinRun.scatterAddrs (c : FinCtx) (st : Stream) (o : Nat) (r : FinRun) (xs : List (Nat × Nat × Val)) :
    List (Option Dest × Nat × Val) :=
  xs.map fun x => (r.s.destOf c st o x.2.1 (r.idx st x.1), x.2.1, x.2.2)

/-- The largest number of lanes that share a destination. -/
def maxShare (l : List Dest) : Nat := (l.map fun a => (l.filter (· == a)).length).foldl max 0

/-- An ordered scatter-add of one group (R135). -/
def FinRun.addOrdered (c : FinCtx) (st : Stream) (n o : Nat) (r : FinRun) (xs : List (Nat × Nat × Val)) : FinRun :=
  let ys := r.scatterAddrs c st o xs
  let exceeded := decide (st.maxPass < maxShare (ys.filterMap (·.1)))
  let r := { r with s := r.s.inc (FIN_SCATTER.ORDERED_GROUPS c.p), passOver := r.passOver || exceeded }
  ys.foldl (fun (r : FinRun) y =>
    match y.1 with
    | some a => r.addOne c st n o y.2.1 a y.2.2
    | none => { r with oob := true }) r

/-- The adds of one group's lanes by destination, in the order of their first lanes; lanes that share one are combined
in lane order in the compute format (R135). DESIGN CHOICE: notes/assumptions/29.md (the rounding of a combination). -/
def combineLanes (f : Nat) : List (Option Dest × Nat × Val) → List (Dest × Nat × Res)
  | [] => []
  | (none, _) :: l => combineLanes f l
  | (some a, i, v) :: l =>
    let same := l.filterMap fun y => if y.1 = some a then some y.2.2 else none
    let sum := same.foldl (fun (acc : Res) w =>
      let r := roundRes f [acc.val, w] (acc.val.add w)
      ⟨r.val, acc.flags ++ r.flags⟩) ⟨v, []⟩
    (a, i, sum) :: (combineLanes f l).filter fun y => y.1 != a

/-- What a destination with the bits `code` holds after unordered adds (index for the rounding draw, value), where every
order of them leaves the same: one that the lists' order and all others agree on. INT32 sums that can leave the range in
no order, or only upwards or only downwards, need no search. -/
def State.sumAlike (s : State) (f : Nat) (st : Stream) (code : Nat) (ups : List (Nat × Val)) : Option Nat :=
  let g := gateOf st.gate
  if st.mask then
    let t := ups.foldl (fun t u => t + u.2.toInt.toNat) code
    if t ≤ 1 then some t else none
  else if isMx g.fmt then none
  else
    let xs := ups.map (·.2.toInt)
    let d := (decode g.fmt code).toInt
    let up := (xs.filter fun x => decide (0 < x)).foldl (· + ·) d
    let down := (xs.filter fun x => decide (x < 0)).foldl (· + ·) d
    if f = fI32 ∧ g.fmt = fI32 ∧ (up = d ∨ down = d ∨ (up < 2 ^ 31 ∧ -(2 ^ 31) ≤ down)) then
      some (conv fI32 .rne g.ovf g.ftz (.ofInt (up + down - d))).1
    else agree (fun x u => (s.gateOne g st.tensor u.1 ((decode g.fmt x).add u.2)).1) ups.length ups code

/-- An unordered scatter-add of one group: a destination that adds of an earlier group of the chain reached holds a
value that the spec leaves open, unless every order of the adds leaves the same (R135). -/
def FinRun.addUnordered (c : FinCtx) (st : Stream) (n o : Nat) (r : FinRun) (xs : List (Nat × Nat × Val)) : FinRun :=
  let ys := r.scatterAddrs c st o xs
  let zs := combineLanes c.f ys
  let r := { r with s := r.s.ndUsed DET_ND_USED.SCATTER_U, oob := r.oob || ys.any fun y => y.1.isNone,
                    flags := (zs.flatMap fun z => z.2.2.flags) ++ r.flags }
  zs.foldl (fun (r : FinRun) z =>
    let old := ((r.touched.find? fun t => t.1 == z.1).map (·.2)).getD (r.s.destCode st z.1, [])
    let ups := old.2 ++ [(c.index o z.2.1, z.2.2.val)]
    let r1 := r.addOne c st n o z.2.1 z.1 z.2.2.val
    let r2 := if ups.length ≤ 1 then r1
      else match r.s.sumAlike c.f st old.1 ups with
        | some x => r1.putDest n st.storeBits z.1 x
        | none =>
          let (v, s) := r1.s.draw
          { r1 with s := s }.putDest n st.storeBits z.1 (v % 2 ^ st.storeBits)
    { r2 with touched := (z.1, old.1, ups) :: r2.touched.filter fun t => t.1 != z.1 }) r

/-- Store bits of a mask latch to a bit-mask slot. -/
def FinRun.storeMask (c : FinCtx) (st : Stream) (n o : Nat) (r : FinRun) (xs : List (Nat × Nat × Val)) : FinRun :=
  let ys := xs.map fun x => (st.bitAt 1 o x.2.1 (r.idx st x.1), ofBool (!x.2.2.isZero))
  let s := r.s.noteWrite id (ys.flatMap fun y => (r.s.bitParts c st 1 y.1).getD []) 2
  ys.foldl (fun (r : FinRun) y => r.putBits c st n 1 y.1 y.2) { r with s := s }

/-- The elements of an MX block go to the places that their indices give, and the block's scale to the scale of each.
DESIGN CHOICE: notes/assumptions/29.md. -/
def FinRun.scatterBlock (c : FinCtx) (st : Stream) (n w scale : Nat) (xs : List (Option Int × Nat)) (r : FinRun) : FinRun :=
  xs.foldl (fun (r : FinRun) x =>
    let at' := st.bitAt w 0 0 x.1
    match r.s.bitParts c st w at', r.s.spaceAddr c.p st.space (st.scaleAt c.d.nInner 0 0 x.1) 1 with
    | some a, some sa =>
      ({ r with s := r.s.noteWrite id (a ++ [(sa, 1)]) 2 }.putBits c st n w at' x.2).put n [(sa, 1)] [scale]
    | _, _ => { r with oob := true }) r

/-- The elements of a complete MX block of a row of `n1` leave the gate (R49, R73): positions that are not written keep
their codes. -/
def FinRun.storeBlock (c : FinCtx) (st : Stream) (n o blk n1 : Nat) (r : FinRun) (xs : List (Nat × Option Int × Val)) :
    FinRun :=
  if xs.isEmpty then r
  else
    let g := gateOf st.gate
    let w := fmtBits g.fmt
    let b : Nat × List (Nat × Outcome5) := r.s.gateBlock g st.tensor (xs.map fun x => (o * n1 + x.1, x.2.2))
    let r := { r with s := (r.s.countGate 1 g.fmt (b.2.map Prod.snd)).noteSre g xs.length }
    if st.indexed then r.scatterBlock c st n w b.1 ((xs.zip b.2).map fun x => (x.1.2.1, x.2.1))
    else
      match r.s.spaceInt c.p st.space (st.row o w + (blk * (4 * w) : Nat)) (4 * w),
          r.s.spaceAddr c.p st.space (st.scaleAt c.d.nInner o (blk * 32) none) 1 with
      | some a, some sa =>
        let old := r.s.rdParts a
        let codes := (List.range 32).map fun k =>
          match (xs.zip b.2).find? (fun (x : (Nat × Option Int × Val) × (Nat × Outcome5)) => x.1.1 == blk * 32 + k) with
          | some x => x.2.1
          | none => if blk * 32 + k < n1 then old / 2 ^ (w * k) % 2 ^ w else 0
        (({ r with s := r.s.noteWrite id (a ++ [(sa, 1)]) 2 }.put n a (leBytes (4 * w) (packBits w codes))).put n [(sa, 1)] [b.1])
      | _, _ => { r with oob := true }

/-- Elements of an MX store wait until their block is complete. -/
def FinRun.storeMx (c : FinCtx) (st : Stream) (k n o g lanes : Nat) (r : FinRun) (xs : List (Nat × Nat × Val)) : FinRun :=
  let held := ((r.mx.find? fun e => e.1 == k).map (·.2)).getD [] ++ xs.map fun x => (x.2.1, r.idx st x.1, x.2.2)
  let hi := g * finW c.d.cls + lanes
  let done := (List.range (ceilDiv c.d.nInner 32)).filter fun b =>
    decide (g * finW c.d.cls / 32 ≤ b) && (decide ((b + 1) * 32 ≤ hi) || decide (c.d.nInner ≤ hi))
  let r := done.foldl (fun (r : FinRun) b => r.storeBlock c st n o b c.d.nInner (held.filter fun x => x.1 / 32 == b)) r
  { r with mx := (k, held.filter fun x => !(done.contains (x.1 / 32))) :: r.mx.filter fun e => e.1 != k }

/-- Store lanes as the slot's SMODE says (R134, R135): plain ones of whole-byte elements, adds of any. -/
def FinRun.storeAs (c : FinCtx) (st : Stream) (n o : Nat) (r : FinRun) (xs : List (Nat × Nat × Val)) : FinRun :=
  match st.smode with
  | 0 => r.storePlain c st n o xs
  | 2 => if r.s.is DET_MODE.STRICT then r.addOrdered c st n o xs else r.addUnordered c st n o xs
  | _ => r.addOrdered c st n o xs

/-- The index of position (o, 0), for the store that REDUCE writes; an index stream that is itself indexed has its own
index of that position loaded first, through at most the eight slots (R131, R134). -/
def FinRun.loadIndex (c : FinCtx) (o : Nat) : Nat → FinRun → Stream → FinRun
  | 0, r, _ => r
  | n + 1, r, st =>
    if st.indexed then
      match c.slot st.idxSlot with
      | some ix => (FinRun.loadIndex c o n r ix).loadSlot c o 0 1 st.idxSlot ix
      | none => r
    else r

/-- Store a group's lanes to a slot. -/
def FinRun.store (c : FinCtx) (k o g lanes : Nat) (r : FinRun) (xs : List (Nat × Nat × Val)) : FinRun :=
  match c.slot k with
  | none => r
  | some st =>
    let n := c.groupNo o g
    if st.smode ≠ 0 then r.storeAs c st n o xs
    else if st.mask then r.storeMask c st n o xs
    else if isMx (gateOf st.gate).fmt then r.storeMx c st k n o g lanes xs
    else r.storeAs c st n o xs

/-- Note flags. -/
def FinRun.flag (r : FinRun) (fs : List Nat) : FinRun := { r with flags := fs ++ r.flags }

/-- The elements a REDUCE has met in this row, with those of a group added. -/
def FinRun.rowOf (r : FinRun) (k : Nat) : RowElems := ((r.red.find? fun e => e.1 == k).map (·.2)).getD []

/-- REDUCE on one group: at the row's last group the result leaves to its slot, which advances once per row (R131). -/
def FinRun.reduce (c : FinCtx) (k : Nat) (x : FinInstr) (o g lanes : Nat) (r : FinRun) : FinRun :=
  let js := (List.range lanes).filter fun j => r.maskBit x j
  let row := r.rowOf k ++ js.map fun j => (g * finW c.d.cls + j, r.src c x x.a j, r.src c x x.b j)
  let rest := r.red.filter fun e => e.1 != k
  if g + 1 < c.d.groups then { r with red := (k, row) :: rest }
  else
    let op := x.aux % 16
    let y := reduceRow c.d.cls (finW c.d.cls) op (accFmt c.d.cls x.aux c.f) row
    let r := { r with red := rest }.flag y.1.flags
    let r := if y.2 then { r with s := r.s.inc (FIN_EMPTY_REDUCE.COUNT c.p) } else r
    match c.slot (x.dst - 8) with
    | none => r
    | some st =>
      let n := c.groupNo o g
      let ri := FinRun.loadIndex c o 8 r st
      if st.smode = 0 ∧ isMx (gateOf st.gate).fmt then { ri.storeBlock c st n o 0 1 [(0, ri.idx st 0, y.1.val)] with loads := r.loads }
      else { ri.storeAs { c with d := { c.d with nInner := 1 } } st n o [(0, 0, y.1.val)] with loads := r.loads }

/-- One instruction on one group (R129). -/
def FinRun.instr (c : FinCtx) (k : Nat) (x : FinInstr) (o g lanes : Nat) (r : FinRun) : FinRun :=
  if x.op = 0x0F then r.reduce c k x o g lanes
  else
    let js := List.range lanes
    let res (j : Nat) : Res :=
      if x.op = 0x0C then ⟨if r.maskBit x j then r.src c x x.a j else r.src c x x.b j, []⟩
      else if x.op = 0x0D then ⟨.ofInt (ofBool (finCmp (x.aux % 8) (r.src c x x.a j) (r.src c x x.b j))), []⟩
      else r.s.finOp c.p c.f x (r.src c x x.a j) (r.src c x x.b j) (r.src c x x.c j)
    let on (j : Nat) : Bool := x.op == 0x0C || r.maskBit x j
    let vs := js.map fun j => if on j then res j else ⟨.zero, []⟩
    let r := r.flag (vs.flatMap (·.flags))
    if x.dst < 4 then { r with h := r.h.set x.dst (vs.map (·.val)) }
    else if 16 ≤ x.dst ∧ x.dst < 20 then { r with q := r.q.set (x.dst - 16) (vs.map fun v => !v.val.isZero) }
    else if 8 ≤ x.dst ∧ x.dst < 16 then
      r.store c (x.dst - 8) o g lanes ((js.filter on).map fun j => (j, g * finW c.d.cls + j, (vs.getD j ⟨.zero, []⟩).val))
    else r

/-- One element group (R122). -/
def FinRun.group (c : FinCtx) (prog : List FinInstr) (o g : Nat) (r : FinRun) : FinRun :=
  let lanes := min (finW c.d.cls) (c.d.nInner - g * finW c.d.cls)
  let r := (r.settle (c.groupNo o g)).loadAll c o g lanes
  (prog.zip (List.range prog.length)).foldl (fun (r : FinRun) x => r.instr c x.2 x.1 o g lanes) r

/-- Set a bit of FIN_FLAGS. -/
def finFlag (p : Nat) : Nat → Fld
  | 0 => FIN_FLAGS.NAN_IN p
  | 1 => FIN_FLAGS.NAN_MADE p
  | 2 => FIN_FLAGS.OVF_ARITH p
  | 3 => FIN_FLAGS.DIV_ZERO p
  | 4 => FIN_FLAGS.ISAT p
  | 5 => FIN_FLAGS.EMPTY p
  | 6 => FIN_FLAGS.OOB p
  | 7 => FIN_FLAGS.TBL_INVALID p
  | _ => FIN_FLAGS.TBL_REJECT p

/-- The stores of a chain that are unordered and run as ordered under STRICT (R135). -/
def State.serialised (s : State) (c : FinCtx) (prog : List FinInstr) : Nat :=
  if s.is DET_MODE.STRICT then
    (prog.filter fun (x : FinInstr) => 8 ≤ x.dst ∧ x.dst < 16 ∧ ((c.slot (x.dst - 8)).map (·.smode)) = some 2).length
  else 0

/-- What a chain leaves: flags, OOB and TBL_INVALID at the next glue-up, and BUSY where a group needed too many
passes. -/
def FinRun.finish (c : FinCtx) (entry : Nat) (r : FinRun) : State :=
  let s := r.flags.eraseDups.foldl (fun s b => s.set (finFlag c.p b) 1) r.s
  let s := if r.oob then (s.set (FIN_FLAGS.OOB c.p) 1).fatalAtGlue scCluster c.p srcFIN 6 else s
  let s := if r.flags.contains 7 then s.fatalAtGlue scCluster c.p srcFIN 7 else s
  if r.passOver then (s.set (FIN_STATUS.PASS_OVER c.p) 1).schedFault 2 fBUSY .cluster c.p entry else s

/-- Run chain `ch` of cluster `p` (R122 to R136). -/
def State.runChain (s : State) (p ch entry : Nat) : State :=
  let d := s.chainDesc p ch
  let st := ((List.range 8).zip d.slots).filterMap fun e =>
    if e.2 = 0xFFFF then none else some (e.1, s.stream p e.2)
  let c : FinCtx := ⟨p, d, st, d.fmt⟩
  let prog := s.finProg p d
  -- the address words of the streams are read again at issue (R125, R252)
  let s := s.readPoison (d.slots.filterMap fun i =>
    if i = 0xFFFF then none else some (veneerBase p + s.finTbl p + 0x4000 + i * 32, 8)) 2 0
  let s := s.inc (FIN_SCATTER.SERIALISED p) (s.serialised c prog)
  let z : List (List Val) := List.replicate 4 []
  let r : FinRun := ⟨s, s.mem, [], z, List.replicate 4 [], [], [], [], [], false, false, []⟩
  let r := (List.range d.nOuter).foldl (fun r o => (List.range d.groups).foldl (fun (r : FinRun) g => r.group c prog o g) r) r
  r.finish c entry

/-- What the checkers of a finisher saw (R141, R252, R426). -/
def State.finHw (s : State) (p : Nat) (hw : List HwFault) : State :=
  hw.foldl (fun s h => match h with
    | .ownUe => ((s.set (FIN_HWERR.TBL_PAR p) 1).inc (FIN_HWERR.COUNT p)).raiseOpen 1 scCluster p srcFIN 0
    | .handoffPar => ((s.set (FIN_HWERR.HANDOFF_PAR p) 1).inc (FIN_HWERR.COUNT p)).raiseOpen 1 scCluster p srcFIN 1
    | .residue => ((s.set (FIN_HWERR.RESIDUE p) 1).inc (FIN_HWERR.COUNT p)).raiseOpen 1 scCluster p srcFIN 2
    | .descPar | .chainPar => ((s.set (FIN_HWERR.DESC_PAR p) 1).inc (FIN_HWERR.COUNT p)).descPar scCluster p srcFIN 3
    | .bufCe => s.corrected scCluster p srcFIN
    | .bufUe => let (v, s) := s.draw; s.raiseOpen 1 scCluster p srcFIN (v % 2 ^ 16)
    | h => s.hwMem [h] 2 0) s

/-- The FIN_FLAGS bits that one element of an element-wise statement sets: its operands, and its exact result before the
rounding to a format (R121). -/
def elFlags (f : Nat) (x : List Val × Val) : List Nat :=
  (if x.1.any Val.isNan then [0] else []) ++ (roundRes f x.1 x.2).flags

/-- Set bits of FIN_FLAGS. -/
def State.finNote (s : State) (p : Nat) (flags : List Nat) : State :=
  flags.eraseDups.foldl (fun s b => s.set (finFlag p b) 1) s

/-- What a completed chain counts. -/
def State.chainCounts (s : State) (p desc groups : Nat) : State :=
  ((s.inc (FIN_OPS.CHAINS p)).inc (FIN_GROUPS.GROUPS p) groups).setAll
    [(FIN_LAST.DESC p, desc), (FIN_LAST.AT_TICK p, s.get TICK_COUNT.COUNT % 2 ^ 48)]

/-- CHAIN. DESIGN CHOICE: notes/assumptions/29.md. -/
def execChain (i : Issue) (hw : List HwFault) (s : State) : Host.Outcome State Fault Refusal :=
  s.issue .cluster engFin i true fun s =>
    let d := s.chainDesc i.idx i.desc
    let s := (s.set (FIN_STATUS.BUSY i.idx) 1).noteInfo .cluster i.idx engFin [0x200, i.desc, d.nOuter * d.groups]
    let s := s.finHw i.idx hw
    if s.running then s.runChain i.idx i.desc i.entry else s

/-- CHAIN_COMPLETE. -/
def execChainComplete (p cc : Nat) (s : State) : Host.Outcome State Fault Refusal :=
  State.forUnit nPhys p (match s.runningRec .cluster p engFin with
    | some b =>
      if b.waits && b.info.head? == some 0x200 then
        ((s.engineDone .cluster p engFin cc).set (FIN_STATUS.BUSY p) 0).chainCounts p (b.info.getD 1 0) (b.info.getD 2 0)
      else s
    | none => s)

/-- RESERVE: the finisher is held for a sequencer (R124). -/
def execFinisherReserve (i : Issue) (s : State) : Host.Outcome State Fault Refusal :=
  s.issue .cluster engFin i false fun s => s.noteInfo .cluster i.idx engFin [0x104, i.tag]

/-- Copy the table image and check its directory (R137). -/
def State.loadTable (s : State) (p : Nat) : State :=
  let off := s.bankGet (FIN_TBL_A.OFF p) (FIN_TBL_B.OFF p) * 64
  let src := veneerBase p + off
  let s := s.readPoison [(src, 0x8000)] 2 0
  let cells := (Store.range s.mem src 0x8000).map fun e => (e.1 - src + ftabBase p, e.2)
  let s := cells.foldl (fun s e => { s with mem := Memory.write s.mem e.1 e.2 }) (s.zeroRange (ftabBase p) 0x8000)
  (List.range 8).foldl (fun s t =>
    let a := ftabBase p + t * 16
    let d := tblDirOf (s.rd a 8) (s.rd (a + 8) 8)
    if d.bad then (s.wr a 1 (s.rd1 a / 2 * 2)).set (FIN_FLAGS.TBL_REJECT p) 1 else s) s

/-- TABLE_LOAD. -/
def execTableLoad (i : Issue) (hw : List HwFault) (s : State) : Host.Outcome State Fault Refusal :=
  s.issue .cluster engFin i true fun s =>
    let s := (s.set (FIN_STATUS.BUSY i.idx) 1).noteInfo .cluster i.idx engFin [0x202]
    let s := s.finHw i.idx hw
    if s.running then s.loadTable i.idx else s

/-- TABLE_LOAD_COMPLETE. -/
def execTableLoadComplete (p cc : Nat) (s : State) : Host.Outcome State Fault Refusal :=
  State.forUnit nPhys p (match s.runningRec .cluster p engFin with
    | some b =>
      if b.waits && b.info.head? == some 0x202 then
        ((s.engineDone .cluster p engFin cc).set (FIN_STATUS.BUSY p) 0).inc (FIN_OPS.TABLE_LOADS p)
      else s
    | none => s)

end Sys2Proof.Machine
end

