-- ==== Sys2Proof/Machine/Gauge.lean ====
section
/-! DEFINITION. The gauge's tap (R142 to R149): factor descriptors, cadences, subsample tables, and TAP. -/

namespace Sys2Proof.Machine

open Reg

/-! ### Factor descriptors (R154) -/

/-- A decoded factor descriptor. -/
structure Factor where
  foldFirst : Nat
  hostFirst : Nat
  bsz : Nat
  bReal : Nat
  gate : Nat
  fOff : Nat
  tmpOff : Nat
  applyIdx : Nat
  wsOff : Nat
  capOff : Nat
  mCap : Nat
  capCount : Nat
  gCad : Nat
  gPhase : Nat
  rootCad : Nat
  rootPhase : Nat
  pcode : Nat
  fp64 : Bool
  iters : Nat
  ips : Nat
  gslot : Nat
  nfSkip : Bool
  beta : Nat
  tau : Nat
  lamRel : Nat
  lamAbs : Nat
  wFold : Nat
  wFirst : Nat
  rsvd : Nat
deriving DecidableEq, Repr

/-- Decode the words of a factor descriptor (table "Factor descriptor"). -/
def factorOf (w : List Nat) : Factor :=
  let g (i : Nat) := w.getD i 0
  { foldFirst := bits (g 0) 15 0, hostFirst := bits (g 0) 31 16, bsz := bits (g 0) 34 32, bReal := bits (g 0) 46 35,
    gate := bits (g 0) 63 48, fOff := bits (g 1) 23 0, tmpOff := bits (g 1) 47 24, applyIdx := bits (g 1) 60 48,
    wsOff := bits (g 2) 23 0, capOff := bits (g 2) 41 24, mCap := bits (g 2) 53 42, capCount := bits (g 2) 61 54,
    gCad := bits (g 3) 8 0, gPhase := bits (g 3) 16 9, rootCad := bits (g 3) 29 17, rootPhase := bits (g 3) 41 30,
    pcode := bits (g 3) 43 42, fp64 := bit (g 3) 44, iters := bits (g 3) 50 45, ips := bits (g 3) 56 51,
    gslot := bits (g 3) 60 57, nfSkip := bit (g 3) 61, beta := bits (g 4) 31 0, tau := bits (g 4) 63 32,
    lamRel := g 5, lamAbs := g 6, wFold := bits (g 7) 31 0, wFirst := bits (g 7) 63 32,
    rsvd := bits (g 0) 47 47 + bits (g 1) 63 61 + bits (g 2) 63 62 + bits (g 3) 63 62 }

/-- The factor table's address under the running bank. -/
def State.rootTbl (s : State) : Nat := s.bankGet ROOT_TBL_A.ADDR ROOT_TBL_B.ADDR * 64

/-- The number of factor descriptors under the running bank. -/
def State.rootCount (s : State) : Nat := s.bankGet ROOT_TBL_A.COUNT ROOT_TBL_B.COUNT

/-- Factor descriptor `d`, from the root engine's private copy. -/
def State.factor (s : State) (d : Nat) : Factor := factorOf (s.sealedWords (s.rootTbl + d * 64) 8)

/-- b, the block size. -/
def Factor.b (f : Factor) : Nat := 128 * 2 ^ f.bsz

/-- The clusters of the fold group (table "Block groups"). -/
def Factor.foldN (f : Factor) : Nat := if f.bsz = 0 then 1 else 4 ^ (f.bsz - 1)

/-- Gh, the clusters of the host group (R143). -/
def Factor.hostN (f : Factor) : Nat := if f.fp64 then 2 * f.foldN else f.foldN

/-- p of the root. -/
def Factor.p (f : Factor) : Nat := 2 ^ f.pcode

/-- The step is a gauge step for the block (R145). -/
def Factor.gaugeStep (f : Factor) (n : Nat) : Bool := decide (f.gPhase ≤ n) && (n - f.gPhase) % f.gCad == 0

/-- The fold index of a gauge step (R145). -/
def Factor.foldIdx (f : Factor) (n : Nat) : Nat := (n - f.gPhase) / f.gCad

/-- kb(n), the folds before step `n` (R145). -/
def Factor.folds (f : Factor) (n : Nat) : Nat := if n ≤ f.gPhase then 0 else (n - 1 - f.gPhase) / f.gCad + 1

/-- The generation committed at the start of step `n` (R151). -/
def Factor.gen (f : Factor) (n : Nat) : Nat := (f.folds n + 1) % 2

/-- The window step of a step, where there is one (R145). -/
def Factor.window (f : Factor) (n : Nat) : Option Nat :=
  if f.rootPhase ≤ n then some ((n - f.rootPhase) % f.rootCad) else none

/-- S_run (R156). -/
def Factor.sRun (f : Factor) : Nat := if f.ips = f.iters then 1 else ceilDiv f.iters f.ips + 2

/-! ### Tap (R146 to R149) -/

/-- A decoded tap descriptor. -/
structure TapDesc where
  factor : Nat
  nblk : Nat
  col0 : Nat
  arrDesc : Nat
  subOff : Nat
  subCount : Nat
  rsvd : Nat
deriving DecidableEq, Repr

/-- Decode the words of a tap descriptor (table "Tap descriptor"). -/
def tapDescOf (w : List Nat) : TapDesc :=
  let g (i : Nat) := w.getD i 0
  ⟨bits (g 0) 11 0, bits (g 0) 15 12 + 1, bits (g 0) 35 16, bits (g 0) 43 36, bits (g 1) 23 0, bits (g 1) 28 24,
    bits (g 0) 63 44 + bits (g 1) 63 29 + g 2 + g 3⟩

/-- Tap descriptor `t` of a cluster, from the sealed copy. -/
def State.tapDesc (s : State) (p t : Nat) : TapDesc :=
  tapDescOf (s.sealedWords (veneerBase p + s.bankGet (GAU_DESC_A.OFF p) (GAU_DESC_B.OFF p) * 32 + t * 32) 4)

/-- The bytes of one subsample table of `rows` rows (R148). -/
def subSize (rows : Nat) : Nat := ceilDiv (ceilDiv rows 8) 64 * 64

/-- The rows that a table selects, ascending. -/
def selectedRows (m : List Host.Cell) (a rows : Nat) : List Nat :=
  (List.range rows).filter fun r => bit (Memory.read m (a + r / 8)).toNat (r % 8)

/-- The code of a fetched element, which may lie in both halves of the pair view: 0 where it was out of range or
padding. -/
def State.fetchedCode (s : State) (f : Fetched) : Nat := s.rdParts f.read

/-- The TAP entries of the running bank that capture factor `d`, as (TICK, START_CC, logical cluster). -/
def State.tapPlaces (s : State) (d : Nat) : List (Nat × Nat × Nat) :=
  (activeList s.active).flatMap fun p =>
    ((s.runEntries .cluster p).filter fun e =>
      let t := s.tapDesc p e.desc
      e.opcode == 0x300 && decide (t.factor ≤ d) && decide (d < t.factor + t.nblk)).map fun e =>
        (e.tick, e.start, (logicalOf s.active p).getD 0)

/-- The number of a capture: the TAP entries of the factor that come before it (R149). -/
def State.captureNo (s : State) (i : Issue) (d : Nat) : Nat :=
  let l := (logicalOf s.active i.idx).getD 0
  ((s.tapPlaces d).filter fun x => decide (x.1 < i.tick) || (x.1 == i.tick && (decide (x.2.1 < i.startCc) ||
    (x.2.1 == i.startCc && decide (x.2.2 < l))))).length

/-- The captured codes of one row for one block: b elements, the padding +0 (R147, R149). -/
def State.capRow (s : State) (o : Op) (col0 : Nat) (f : Factor) (row : Option Nat) : List Fetched :=
  (List.range f.b).map fun j =>
    match row with
    | some r =>
      if j < f.bReal then s.fetchA (o.aBy (col0 + j)) o.jig (r / o.me.d.m) (r % o.me.d.m) (col0 + j)
      else ⟨.zero, [], false⟩
    | none => ⟨.zero, [], false⟩

/-- Write a capture to every fold member (R149). -/
def State.writeCapture (s : State) (f : Factor) (half esize : Nat) (rows : List (List Nat)) : State :=
  let bytes := rows.flatMap fun r => r.flatMap fun c => leBytes esize c
  (List.range f.foldN).foldl (fun s i =>
    match physOf s.active (f.foldFirst + i) with
    | some q => s.wrBytes (opbufBase q + f.capOff + half * (f.mCap * f.b * esize)) bytes
    | none => s) s

/-- Capture one block. -/
def State.captureBlock (s : State) (i : Issue) (o : Op) (fmt col0 d : Nat) (rows : List (Option Nat)) : State :=
  let f := s.factor d
  let els := rows.map fun r => s.capRow o col0 f r
  let c := s.captureNo i d
  let codes := els.map fun r => r.map s.fetchedCode
  let s := s.readPoison (els.flatMap fun r => r.flatMap fun e => e.read) 3 0
  let s := if els.any fun r => r.any fun e => e.val.isNan then s.set (GAU_FLAGS.NAN_TAP o.me.p) 1 else s
  let s := if els.any fun r => r.any fun e => e.val.isInf then s.set (GAU_FLAGS.INF_TAP o.me.p) 1 else s
  let s := s.writeCapture f (c % 2) (fmtBytes fmt) codes
  { s with root := { s.root with capFmt := Store.insert s.root.capFmt d fmt } }

/-- What a tap captures on a gauge step (R146 to R149). -/
def State.runTap (s : State) (i : Issue) (t : TapDesc) (f : Factor) : State :=
  let p := i.idx
  let o := s.opOf p t.arrDesc i.tick i.startCc []
  let total := o.me.d.batch * o.me.d.m
  let table := veneerBase p + t.subOff + (f.foldIdx (s.get TICK_STEP.STEP) % t.subCount) * subSize total
  let sel := selectedRows s.mem table total
  let rows := (List.range f.mCap).map fun r => sel[r]?
  let s := s.readPoison [(table, ceilDiv total 8)] 3 0
  let s := if sel.length = f.mCap then s
    else (s.set (GAU_FLAGS.SUB_COUNT p) 1).fatalAtGlue scCluster p srcGAU 2
  let s := (List.range t.nblk).foldl (fun s j =>
    s.captureBlock i o o.me.d.aFmt (t.col0 + j * f.b) (t.factor + j) rows) s
  (s.inc (GAU_CAPTURES.CAPTURES p)).inc (GAU_CAPTURES.ROWS p) f.mCap

/-- What the checkers of a tap saw (R165, R426). -/
def State.gauHw (s : State) (p : Nat) (hw : List HwFault) : State :=
  hw.foldl (fun s h => match h with
    | .descPar => ((s.set (GAU_HWERR.DESC_PAR p) 1).inc (GAU_HWERR.COUNT p)).descPar scCluster p srcGAU 0
    | .ownUe => ((s.set (GAU_HWERR.TAP_PAR p) 1).inc (GAU_HWERR.COUNT p)).raiseOpen 1 scCluster p srcGAU 1
    | h => s.hwMem [h] 3 0) s

/-- TAP (R146): on a step that is not a gauge step it captures nothing. -/
def execTap (i : Issue) (hw : List HwFault) (s : State) : Host.Outcome State Fault Refusal :=
  s.issue .cluster engTap i true fun s =>
    let s := s.gauHw i.idx hw
    let t := s.tapDesc i.idx i.desc
    let f := s.factor t.factor
    if !s.running then s
    else if f.gaugeStep (s.get TICK_STEP.STEP) then
      ((s.setAll [(GAU_STATUS.TAPPING i.idx, 1), (GAU_STATUS.GATED i.idx, 0)]).noteInfo .cluster i.idx engTap
        [i.desc]).runTap i t f
    else s.set (GAU_STATUS.GATED i.idx) 1

/-- TAP_COMPLETE. -/
def execTapComplete (p cc : Nat) (s : State) : Host.Outcome State Fault Refusal :=
  State.forUnit nPhys p (match s.runningRec .cluster p engTap with
    | some b =>
      let s := (s.engineDone .cluster p engTap cc).set (GAU_STATUS.TAPPING p) 0
      match b.info with
      | d :: _ => s.setAll [(GAU_LAST.DESC p, d), (GAU_LAST.AT_TICK p, s.get TICK_COUNT.COUNT % 2 ^ 48)]
      | [] => s
    | none => s)

end Sys2Proof.Machine
end

