-- ==== Sys2Proof/Machine/Update.lean ====
section
/-! DEFINITION. The update units (R221 to R244): shard descriptors, schedule values, norms, the APPLY pipeline, shard
checksums, bindings, exports and regeneration. -/

namespace Sys2Proof.Machine

open Reg

/-! ### Shard descriptors (R229) -/

/-- A decoded shard descriptor. -/
structure Shard where
  count : Nat
  rule : Nat
  master64 : Bool
  carry : Bool
  ema : Bool
  norm : Bool
  verify : Bool
  exp : Bool
  bind : Bool
  gradFmt : Nat
  rsvd0 : Nat
  stateAddr : Nat
  expAddr : Nat
  gradAddr : Nat
  wcAddr : Nat
  baseIndex : Nat
  wcGate : Nat
  tensor : Nat
  momGate : Nat
  smGate : Nat
  beta1 : Nat
  beta2 : Nat
  eps : Nat
  wdMult : Nat
  lrMult : Nat
  key : Nat
  rgroup : Nat
  ngradAddr : Nat
  bindIdx : Nat
  /-- The other reserved bits, as one number. -/
  rsvd : Nat
deriving DecidableEq, Repr

/-- Decode the sixteen words of a shard descriptor (table "Shard descriptor"). -/
def shardOf (w : List Nat) : Shard :=
  let g (i : Nat) := w.getD i 0
  { count := bits (g 0) 31 0, rule := bits (g 0) 33 32, master64 := bit (g 0) 34, carry := bit (g 0) 35,
    ema := bit (g 0) 36, norm := bit (g 0) 37, verify := bit (g 0) 38, exp := bit (g 0) 39, bind := bit (g 0) 40,
    gradFmt := bits (g 0) 45 41, rsvd0 := bits (g 0) 63 46, stateAddr := bits (g 1) 47 0, expAddr := bits (g 2) 47 0,
    gradAddr := bits (g 3) 47 0, wcAddr := bits (g 4) 47 0, baseIndex := bits (g 5) 47 0, wcGate := bits (g 5) 63 48,
    tensor := bits (g 6) 31 0, momGate := bits (g 6) 47 32, smGate := bits (g 6) 63 48, beta1 := bits (g 7) 31 0,
    beta2 := bits (g 7) 63 32, eps := bits (g 8) 31 0, wdMult := bits (g 8) 63 32, lrMult := bits (g 9) 31 0,
    key := bits (g 9) 63 32, rgroup := bits (g 10) 15 0, ngradAddr := bits (g 10) 63 16, bindIdx := bits (g 11) 12 0,
    rsvd := bits (g 1) 63 48 + bits (g 2) 63 48 + bits (g 3) 63 48 + bits (g 4) 63 48 + bits (g 11) 63 13 +
      g 12 + g 13 + g 14 + g 15 }

/-- The shard table's address under the running bank. -/
def State.shardTbl (s : State) : Nat := s.bankGet UPD_TBL_A.ADDR UPD_TBL_B.ADDR * 128

/-- The number of shards under the running bank. -/
def State.shardCount (s : State) : Nat := s.bankGet UPD_TBL_A.COUNT UPD_TBL_B.COUNT

/-- Shard descriptor `d`, from the sealed copy. -/
def State.shard (s : State) (d : Nat) : Shard := shardOf (s.sealedWords (s.shardTbl + d * 128) 16)

/-- Every shard, by descriptor index. -/
def State.shards (s : State) : List (Nat × Shard) := (List.range s.shardCount).map fun d => (d, s.shard d)

/-- The compute format F: FP64 or FP32 (R222). -/
def Shard.F (d : Shard) : Nat := if d.master64 || d.carry then fFP64 else fFP32

/-- The stored format of the master. -/
def Shard.masterFmt (d : Shard) : Nat := if d.master64 then fFP64 else fFP32

/-- The state arrays present, in the order of R224, with their formats: 0 master, 1 carry, 2 momentum, 3 second moment,
4 EMA. -/
def Shard.arrays (d : Shard) : List (Nat × Nat) :=
  [(0, d.masterFmt)] ++ (if d.carry then [(1, fBF16)] else []) ++ [(2, gateFmt d.momGate)] ++
    (if d.rule = 1 then [(3, gateFmt d.smGate)] else []) ++ (if d.ema then [(4, fFP32)] else [])

/-- Round up to whole 64-byte blocks. -/
def pad64 (n : Nat) : Nat := ceilDiv n 64 * 64

/-- The offset of an array within a generation, and whether it is present (R224). -/
def arrayOff (count : Nat) : List (Nat × Nat) → Nat → Option (Nat × Nat)
  | [], _ => none
  | (k, f) :: l, x =>
    if k = x then some (0, f) else (arrayOff count l x).map fun r => (r.1 + pad64 (count * fmtBytes f), r.2)

/-- GB: the bytes of one generation (R224). -/
def Shard.GB (d : Shard) : Nat := d.arrays.foldl (fun n a => n + pad64 (d.count * fmtBytes a.2)) 0

/-- WB: the bytes of one generation of the working copy (R224). -/
def Shard.WB (d : Shard) : Nat := pad64 (d.count * fmtBytes (gateFmt d.wcGate))

/-- S: the bytes per parameter of one generation (R240). -/
def Shard.S (d : Shard) : Nat := d.arrays.foldl (fun n a => n + fmtBytes a.2) 0

/-- The address of generation `g`. -/
def Shard.genAddr (d : Shard) (g : Nat) : Nat := d.stateAddr + g * d.GB

/-- The address of generation `g` of the working copy. -/
def Shard.wcGen (d : Shard) (g : Nat) : Nat := d.wcAddr + g * d.WB

/-- The value of element `i` of an array of a generation; +0 where the array is absent. -/
def State.stateVal (s : State) (d : Shard) (gen kind i : Nat) : Val :=
  match arrayOff d.count d.arrays kind with
  | some r => s.valAt r.2 (gen + r.1) i
  | none => .zero

/-! ### Schedule (R234, R235) -/

/-- Breakpoints of channel `k`: (STEP, VALUE), from a memory. -/
def breakpoints (m : List Host.Cell) (base k : Nat) : List (Nat × Nat) :=
  (List.range (Memory.rd m (base + 2 * k) 2)).map fun i =>
    let a := base + 64 + k * 0x10000 + i * 16
    (Memory.rd m a 8, Memory.rd m (a + 8) 4)

/-- An FP32 code as a value. -/
def v32 (x : Nat) : Val := decodeFp fFP32 x

/-- Between two breakpoints, the rounded interpolation of R235. -/
def between (p q : Nat × Nat) (n : Nat) : Nat :=
  let t := (Val.div (Val.inFmt 0 (.ofInt (n - p.1))) (Val.inFmt 0 (.ofInt (q.1 - p.1)))).inFmt 0
  let d := (Val.sub (v32 q.2) (v32 p.2)).inFmt 0
  rne fFP32 (((v32 p.2).add ((d.mul t).inFmt 0)).inFmt 0)

/-- The value of a channel at a step after its first breakpoint: the last one's value from there on. -/
def channelAfter : List (Nat × Nat) → Nat → Nat
  | [], _ => 0
  | [p], _ => p.2
  | p :: q :: l, n => if n < q.1 then between p q n else channelAfter (q :: l) n

/-- The value of a channel at step `n`, as an FP32 code (R235); the value 0 of an empty channel (R234). -/
def channelValue (l : List (Nat × Nat)) (n : Nat) : Nat :=
  match l with
  | p :: _ => if n ≤ p.1 then p.2 else channelAfter l n
  | [] => 0

/-- The schedule table's address under the running bank. -/
def State.schedBase (s : State) : Nat := s.bankGet UPD_SCHED_A.ADDR UPD_SCHED_B.ADDR * 64

/-- Evaluate every channel for the step about to start (R235). -/
def State.evalSchedule (s : State) : State :=
  let n := s.get TICK_STEP.STEP
  let c (k : Nat) := channelValue (breakpoints s.sealedMem s.schedBase k) n
  s.setAll [(UPD_SCHED_VAL0.LR, c 0), (UPD_SCHED_VAL0.WD, c 1), (UPD_SCHED_VAL1.EMA_DECAY, c 2),
    (UPD_SCHED_VAL1.CLIP, c 3)]

/-! ### Bindings (R227) -/

/-- A decoded apply or bind entry (table "Apply entry"). -/
structure ApplyEntry where
  cluster : Nat
  desc : Nat
  field : Nat
  last : Bool
  slot0 : Nat
  slot1 : Nat
deriving DecidableEq, Repr

def applyEntryOf (w0 w1 : Nat) : ApplyEntry :=
  ⟨bits w0 15 0, bits w0 23 16, bits w0 24 24, bit w0 25, bits w0 55 32, bits w1 23 0⟩

/-- Entries of a table from an index, up to one with LAST = 1. -/
def applyEntries (m : List Host.Cell) (base idx : Nat) : Nat → List ApplyEntry
  | 0 => []
  | n + 1 =>
    let e := applyEntryOf (Memory.rd m (base + idx * 16) 8) (Memory.rd m (base + idx * 16 + 8) 8)
    if e.last then [e] else e :: applyEntries m base (idx + 1) n

/-- Write a slot's offset into the FIELD word of the array descriptor that an entry names (R161, R227): space 0. The
narrow write reads the other half of its word (R252); beyond the region it is discarded, and `oob` reports it (R246). -/
def State.writeSlot (s : State) (vsrc : Nat) (oob : State → State) (e : ApplyEntry) (slot : Nat) : State :=
  match physOf s.active e.cluster with
  | none => s
  | some p =>
    let off := s.bankGet (ARR_DESC_A.OFF p) (ARR_DESC_B.OFF p) * 64 + e.desc * 64 + e.field * 4
    if veneerSize < off + 4 then oob s
    else (s.noteWrite id [(veneerBase p + off, 4)] vsrc).wr (veneerBase p + off) 4 (if slot = 0 then e.slot0 else e.slot1)

/-- The bind list of a shard. -/
def State.bindList (s : State) (d : Shard) : List ApplyEntry :=
  if d.bind then applyEntries s.sealedMem (s.shardTbl + 0x80000) d.bindIdx 8192 else []

/-! ### Norms (R231, R232) -/

/-- The sum of squares of one lane, in ascending order, each step rounded to FP64. -/
def laneSum (l : List Val) : Val := l.foldl (fun acc x => (acc.add (x.mul x)).inFmt 0) .zero

/-- The elements of lane `l` of 16. -/
def laneOf (l : Nat) (xs : List Val) : List Val := ((xs.zip (List.range xs.length)).filter fun p => p.2 % 16 == l).map (·.1)

/-- The FP64 sum of squares of R231. -/
def sumSquares (xs : List Val) : Nat :=
  match splitK 0 ((List.range 16).map fun l => laneSum (laneOf l xs)) with
  | some v => rne 0 v
  | none => 0

/-- The norm table's address. -/
def State.normBase (s : State) : Nat := s.get UPD_NORM_BASE.ADDR * 64

/-- The checksum table's address. -/
def State.chkBase (s : State) : Nat := s.get UPD_CHK_BASE.ADDR * 64

/-- A range lies where an update unit can reach: wholly in usable LPDDR, or in the veneer region of one active cluster
(R226, R245). -/
def State.dataOk (s : State) (a n : Nat) : Bool :=
  decide (a + n ≤ lpddrEnd) ||
    (decide (veneerBase 0 ≤ a) && (let p := (a - veneerBase 0) / 0x400000
      activeIn s.active p && decide (a + n ≤ veneerBase p + veneerSize)))

/-- An access of unit `u` outside what it can reach is out of range: reported at the next glue-up (R81, R246). -/
def State.updOob (s : State) (u : Nat) : State :=
  let (v, s) := s.draw
  s.fatalAtGlue scUnit u srcUPD (v % 2 ^ 16)

/-- Every bound descriptor is pointed at a generation's slot by the unit of its shard (R227). DEDUCED:
notes/assumptions/30.md. -/
def State.bindAll (s : State) (slot : Nat) : State :=
  s.shards.foldl (fun s p => (s.bindList p.2).foldl (fun s e =>
    s.writeSlot 6 (fun s => s.updOob (p.2.stateAddr / lpddrWindow % 16)) e slot) s) s

/-- Unit `u` writes a long range: the bytes that it cannot reach are discarded. -/
def State.updWriteRange (s : State) (u a : Nat) (bs : List Nat) : State :=
  if s.dataOk a bs.length then s.wrBytes a bs
  else (((List.range bs.length).zip bs).foldl (fun s b => if s.dataOk (a + b.1) 1 then s.wrBytes (a + b.1) [b.2] else s) s).updOob u

/-- Unit `u` writes bytes; where it cannot reach, they are discarded. -/
def State.updWrite (s : State) (u a : Nat) (bs : List Nat) : State :=
  if s.dataOk a bs.length then s.wrBytes a bs else s.updOob u

/-- The 8 bytes that unit `u` reads at an address; +0 where it cannot reach. -/
def State.updWord (s : State) (a : Nat) : Nat := if s.dataOk a 8 then s.rd a 8 else 0

/-- Unit `u` reads 8-byte slots: what is poisoned raises its error, and what it cannot reach is reported. -/
def State.updReads (s : State) (u : Nat) (as : List Nat) : State :=
  let s := s.readPoison ((as.filter fun a => s.dataOk a 8).map fun a => (a, 8)) 6 0
  if as.all fun a => s.dataOk a 8 then s else s.updOob u

/-- An update unit starts an entry. -/
def State.updStart (s : State) (u op : Nat) : State :=
  s.setAll [(UPD_STATUS.BUSY u, 1), (UPD_STATUS.OP u, op)]

/-- What the checkers of an update unit saw (R244, R252, R258). `lost` says whether an address holds committed state. -/
def State.updHw (s : State) (u d : Nat) (lost : Nat → Bool) (hw : List HwFault) : State :=
  hw.foldl (fun s h => match h with
    | .descPar => ((s.set (UPD_HWERR.DESC_PAR u) 1).inc (UPD_HWERR.COUNT u)).descPar scUnit u srcUPD 0
    | .residue => ((s.set (UPD_HWERR.RESIDUE u) 1).inc (UPD_HWERR.COUNT u)).raiseOpen 1 scUnit u srcUPD 1
    | .memUe a =>
      if lost a then
        let s := ((s.set (UPD_HWERR.STATE_UE u) 1).inc (UPD_HWERR.COUNT u)).set (UPD_LAST.DESC u) d
        ((s.inc (MEM_ECC.UE (a / lpddrWindow))).memRecord a 1 6 0).raise (memErr 2 a 1)
      else s.memUncorrectable a 6 0
    | h => s.hwMem [h] 6 0) s

/-- The unit whose window an address lies in and the shard whose committed generation holds it, if one does. -/
def State.lostShard (s : State) (a : Nat) : Option Nat :=
  (s.shards.find? fun d =>
    let old := d.2.genAddr ((s.get TICK_STEP.STEP + 1) % 2)
    let wc := d.2.wcGen ((s.get TICK_STEP.STEP + 1) % 2)
    inRanges ((old, d.2.GB) :: if d.2.verify && decide (d.2.wcAddr < lpddrEnd) then
      [(wc, d.2.count * fmtBytes (gateFmt d.2.wcGate))] else []) a).map (·.1)

/-- What the checkers saw while several units worked at once: a memory error is that of the unit in whose window it
lies; which unit met the others is not stated. -/
def State.updHwAny (s : State) (hw : List HwFault) : State :=
  hw.foldl (fun s h =>
    let (v, s) := s.draw
    let u := match h with
      | .memUe a => a / lpddrWindow % 16
      | _ => v % 16
    let d := match h with
      | .memUe a => (s.lostShard a).getD 0
      | _ => 0
    s.updHw u d (fun a => (s.lostShard a).isSome) [h]) s

/-- Add to a unit's count of what the commit of the step counts. -/
def addTo (l : List (Nat × Nat)) (u n : Nat) : List (Nat × Nat) := Store.put l 0 u (Store.get l 0 u + n)

/-- LPDDR bytes of an entry, counted at the commit of its step (R243). -/
def State.updMoved (s : State) (u n : Nat) : State := s.updUpd fun x => { x with moved := addTo x.moved u n }

/-- The work of NORM (R231). -/
def State.runNorm (s : State) (u d : Nat) : State :=
  let sh := s.shard d
  let xs := (List.range sh.count).map fun i => s.valAt sh.gradFmt sh.ngradAddr i
  let s := if xs.any Val.nonfinite then s.set (UPD_FLAGS.GRAD_NF u) 1 else s
  let s := if sh.ngradAddr < lpddrEnd then (s.updMoved u (sh.count * fmtBytes sh.gradFmt)).memTraffic
      [(sh.ngradAddr, sh.count * fmtBytes sh.gradFmt)] else s
  s.updWrite u (s.normBase + d * 8) (leBytes 8 (sumSquares xs))

/-- The norm slots that NORM_SUM reads, ascending (R232). -/
def State.normSlots (s : State) : List Nat := (s.shards.filter fun p => p.2.norm).map fun p => s.normBase + p.1 * 8

/-- The device sum of R232, as a code; a sum over no shard is not stated. -/
def State.normTotal (s : State) : Nat :=
  match splitK 0 (s.normSlots.map fun a => decodeFp 0 (s.updWord a)) with
  | some v => rne 0 v
  | none => Config.emptyNorm

/-- The work of NORM_SUM (R232). -/
def State.runNormSum (s : State) (u : Nat) : State := s.updWrite u (s.normBase + 0x8000) (leBytes 8 s.normTotal)

/-! ### APPLY (R233, R236 to R241) -/

/-- The clip factor of R233 and the flags it sets. -/
def State.clipFactor (s : State) (u : Nat) (sh : Shard) : Val × State :=
  let reads := sh.norm || s.is UPD_POLICY.NF_SKIP
  let ssqCode := s.updWord (s.normBase + 0x8008)
  let ssq := decodeFp 0 ssqCode
  let s := if reads then s.updUpd fun x => { x with ssq := some ssqCode } else s
  let s := if reads && ssq.nonfinite then s.set (UPD_FLAGS.GNORM_NF u) 1 else s
  let thrCode := s.get UPD_SCHED_VAL1.CLIP
  if thrCode = 0 ∨ sh.norm = false ∨ ssq.nonfinite then (.one, s)
  else
    let nrm := (Val.sqrt ssq).inFmt 0
    let thr := v32 thrCode
    if Val.le nrm thr then (.one, s)
    else
      let c := (thr.div nrm).inFmt 0
      (c, if c.isNan then s else (s.set (UPD_FLAGS.CLIPPED u) 1).updUpd fun x => { x with clipped := true })

/-- The step is a skip step (R233, R237). -/
def State.skipStep (s : State) : Bool :=
  s.is UPD_POLICY.NF_SKIP && (decodeFp 0 (s.updWord (s.normBase + 0x8008))).nonfinite

/-- The powers of R236: binary exponentiation in FP64, most significant bit first, one rounding per multiply. -/
def powAux (b : Val) (n : Nat) : Nat → Val → Val
  | 0, r => r
  | k + 1, r =>
    let r := (r.mul r).inFmt 0
    powAux b n k (if bit n k then (r.mul b).inFmt 0 else r)

def pow64 (b : Val) (n : Nat) : Val := if n = 0 then .one else powAux b n (bitLen n - 1) b

/-- What one APPLY computes with for every parameter. -/
structure ApplyK where
  F : Nat
  rule : Nat
  c : Val
  kwd : Val
  lr : Val
  b1 : Val
  b2 : Val
  eps : Val
  ib1 : Val
  ib2 : Val
  ema : Option Val
deriving DecidableEq, Repr

/-- The start of an APPLY (R236). -/
def State.applyK (s : State) (sh : Shard) (c : Val) : ApplyK :=
  let F := sh.F
  let lr := (v32 (s.get UPD_SCHED_VAL0.LR) |>.mul (v32 sh.lrMult)).inFmt fFP32
  let wd := (v32 (s.get UPD_SCHED_VAL0.WD) |>.mul (v32 sh.wdMult)).inFmt fFP32
  let kwd := (Val.sub .one ((lr.mul wd).inFmt F)).inFmt F
  let n := s.get TICK_STEP.STEP
  let inv (b : Nat) := (Val.div .one ((Val.sub .one (pow64 (v32 b) (n + 1))).inFmt F)).inFmt F
  { F := F, rule := sh.rule, c := c, kwd := kwd, lr := lr, b1 := v32 sh.beta1, b2 := v32 sh.beta2, eps := v32 sh.eps,
    ib1 := inv sh.beta1, ib2 := inv sh.beta2,
    ema := if sh.ema then some (v32 (s.get UPD_SCHED_VAL1.EMA_DECAY)) else none }

/-- One parameter (R236): gradient, master + carry, momentum, second moment and EMA in; w, m, v and e out. -/
def ApplyK.step (k : ApplyK) (G w m v e : Val) : Val × Val × Val × Val :=
  let fp (x : Val) := x.inFmt k.F
  let g := if k.c = .one then G else fp (G.mul k.c)
  let w := fp (w.mul k.kwd)
  let (w, m, v) :=
    if k.rule = 1 then
      let m := fp (Val.fma k.b1 (fp (m.sub g)) g)
      let q := fp (g.mul g)
      let v := fp (Val.fma k.b2 (fp (v.sub q)) q)
      let x := fp ((fp (m.mul k.ib1)).div (fp ((fp (Val.sqrt (fp (v.mul k.ib2)))).add k.eps)))
      (fp (Val.fma k.lr.neg x w), m, v)
    else
      let m := fp (Val.fma k.b1 m g)
      (fp (Val.fma k.lr.neg m w), m, v)
  let e := match k.ema with
    | some d => fp (Val.fma d (fp (e.sub w)) w)
    | none => e
  (w, m, v, e)

/-- The stored codes of one array, with the census of the gate it goes through (R221, R223, R239). `count` says whether
the census counts (R346). -/
def State.storeArray (s : State) (sh : Shard) (kind fmt : Nat) (vs : List Val) (count : Bool) : List Nat × State :=
  let xs := (List.range vs.length).map (fun i => sh.baseIndex + i) |>.zip vs
  let r : List Nat × State :=
    if kind = 2 then s.gateAll 3 (gateOf sh.momGate) (sh.tensor + 1) xs
    else if kind = 3 then s.gateAll 3 (gateOf sh.smGate) (sh.tensor + 2) xs
    else if kind ≠ 1 ∧ fmt = sh.F then (vs.map fun v => rne fmt v, s)
    else s.gateAll 3 (fixedGate fmt) 0 xs
  if count then r else (r.1, s)

/-- Write the state arrays of a generation at `gen`, and its copy at `tee` if any. -/
def State.writeArray (s : State) (sh : Shard) (gen : Nat) (tee : Option Nat) (kind : Nat) (cs : List Nat) : State :=
  match arrayOff sh.count sh.arrays kind with
  | none => s
  | some r =>
    let s := s.wrBytes (gen + r.1) (codesBytes r.2 cs)
    match tee with
    | some t => s.wrBytes (t + r.1) (codesBytes r.2 cs)
    | none => s

/-- The bytes of the arrays of a generation that checksums cover (R241). -/
def State.genBytes (s : State) (sh : Shard) (gen : Nat) : List Nat :=
  sh.arrays.flatMap fun a =>
    match arrayOff sh.count sh.arrays a.1 with
    | some r => s.rdBytes (gen + r.1) (sh.count * fmtBytes a.2)
    | none => []

/-- Unit `u` writes a shard's checksum slot (R241). -/
def State.writeChk (s : State) (u d : Nat) (sh : Shard) (crc : Nat) : State :=
  s.updWrite u (s.chkBase + d * 16) (leBytes 8 crc ++ leBytes 4 sh.key ++ leBytes 2 sh.rgroup ++ [0, 0])

/-- The stored master of parameter `i`; +0 where no unit can reach it (R81, R246). -/
def State.masterVal (s : State) (sh : Shard) (g i : Nat) : Val :=
  if s.dataOk (sh.genAddr g + i * fmtBytes sh.masterFmt) (fmtBytes sh.masterFmt) then s.stateVal sh (sh.genAddr g) 0 i else .zero

/-- The working copy of a generation from its stored master (R236, R238). A write to part of a poisoned veneer word meets
its error (R252), and the bytes that unit `u` cannot reach are discarded (R245, R246). -/
def State.regenWc (s : State) (u : Nat) (sh : Shard) (g : Nat) (count : Bool) : State :=
  let xs := (List.range sh.count).map fun i => (sh.baseIndex + i, s.masterVal sh g i)
  let r := s.gateAll 2 (gateOf sh.wcGate) sh.tensor xs
  let t := if count then r.2 else s
  let bs := codesBytes (gateFmt sh.wcGate) r.1
  let t := if s.dataOk (sh.genAddr g) (sh.count * fmtBytes sh.masterFmt) then t else t.updOob u
  (t.noteWrite id [(sh.wcGen g, bs.length)] 6).updWriteRange u (sh.wcGen g) bs

/-- The first parameter whose committed working copy differs from its committed master through the gate (R238). -/
def State.wcMismatch (s : State) (sh : Shard) (g : Nat) : Option Nat :=
  (List.range sh.count).find? fun i =>
    (s.gateOne (gateOf sh.wcGate) sh.tensor (sh.baseIndex + i) (s.stateVal sh (sh.genAddr g) 0 i)).1 !=
      s.elemAt (gateFmt sh.wcGate) (sh.wcGen g) i

/-- The pass over the parameters (R236, R237): generation n mod 2 and its working copy are written, with the tee copy on
an export step. -/
def State.applyPass (s : State) (u : Nat) (sh : Shard) (count : Bool) : State :=
  let n := s.get TICK_STEP.STEP
  let old := sh.genAddr ((n + 1) % 2)
  let new := sh.genAddr (n % 2)
  let tee := if sh.exp && s.upd.exporting && !s.is TICK_STATUS.DRY then some sh.expAddr else none
  let (c, s) := s.clipFactor u sh
  let s :=
    if s.skipStep then
      let s := (s.set (UPD_FLAGS.SKIPPED u) 1).updUpd fun x => { x with skipped := true }
      sh.arrays.foldl (fun s a =>
        s.writeArray sh new tee a.1 ((List.range sh.count).map fun i =>
          match arrayOff sh.count sh.arrays a.1 with
          | some r => s.elemAt a.2 (old + r.1) i
          | none => 0)) s
    else
      let k := s.applyK sh c
      let grads := (List.range sh.count).map fun i => s.valAt sh.gradFmt sh.gradAddr i
      let s := if grads.any Val.nonfinite then s.set (UPD_FLAGS.GRAD_NF u) 1 else s
      let outs := (grads.zip (List.range sh.count)).map fun p =>
        k.step p.1 ((s.stateVal sh old 0 p.2).add (s.stateVal sh old 1 p.2)) (s.stateVal sh old 2 p.2)
          (s.stateVal sh old 3 p.2) (s.stateVal sh old 4 p.2)
      let master := s.storeArray sh 0 sh.masterFmt (outs.map (·.1)) count
      let s := master.2.writeArray sh new tee 0 master.1
      let s := if sh.carry then
          let cv := (outs.zip master.1).map fun p => p.1.1.sub (decodeFp fFP32 p.2)
          let r := s.storeArray sh 1 fBF16 cv count
          r.2.writeArray sh new tee 1 r.1
        else s
      let r := s.storeArray sh 2 (gateFmt sh.momGate) (outs.map (·.2.1)) count
      let s := r.2.writeArray sh new tee 2 r.1
      let s := if sh.rule = 1 then
          let r := s.storeArray sh 3 (gateFmt sh.smGate) (outs.map (·.2.2.1)) count
          r.2.writeArray sh new tee 3 r.1
        else s
      if sh.ema then
        let r := s.storeArray sh 4 fFP32 (outs.map (·.2.2.2)) count
        r.2.writeArray sh new tee 4 r.1
      else s
  let nf := sh.arrays.any fun a => (List.range sh.count).any fun i => (s.stateVal sh new a.1 i).nonfinite
  let s := if nf then s.set (UPD_FLAGS.STATE_NF u) 1 else s
  s.regenWc u sh (n % 2) count

/-- The bytes per parameter that an APPLY moves to and from LPDDR (R240), the gated tee writes excluded. -/
def Shard.lpddrBytes (sh : Shard) (tee : Bool) : Nat :=
  let sw := fmtBytes (gateFmt sh.wcGate)
  2 * sh.S + (if tee then sh.S else 0) + (if sh.gradAddr < lpddrEnd then fmtBytes sh.gradFmt else 0) +
    (if sh.wcAddr < lpddrEnd then (if sh.verify then 2 * sw else sw) else 0)

/-- The work of APPLY (R236 to R241): a committed working copy that VERIFY finds inconsistent is fatal-to-slice. -/
def State.runApply (s : State) (u d : Nat) (count : Bool) : State :=
  let sh := s.shard d
  let n := s.get TICK_STEP.STEP
  match (if sh.verify then s.wcMismatch sh ((n + 1) % 2) else none) with
  | some i =>
    let s := s.set (UPD_FLAGS.WC_MISMATCH u) 1
    let s := if s.is (UPD_VERIFY.VALID u) then s
      else s.setAll [(UPD_VERIFY.DESC u, d), (UPD_VERIFY.INDEX u, i), (UPD_VERIFY.VALID u, 1)]
    s.raiseOpen 2 scUnit u srcUPD 4
  | none =>
    let s := s.applyPass u sh count
    s.writeChk u d sh (crc64 (s.genBytes sh (sh.genAddr (n % 2))))

/-- The update engine's number within its unit. -/
def engUpd : Nat := 1

/-- NORM. -/
def execNorm (i : Issue) (hw : List HwFault) (s : State) : Host.Outcome State Fault Refusal :=
  s.issue .update engUpd i true fun s =>
    let s := ((s.updStart i.idx 1).readPoison [((s.shard i.desc).ngradAddr, (s.shard i.desc).count *
      fmtBytes (s.shard i.desc).gradFmt)] 6 0).updHw i.idx i.desc (fun _ => false) hw
    (s.runNorm i.idx i.desc).set (UPD_LAST.DESC i.idx) i.desc

/-- NORM_SUM. DESIGN CHOICE: notes/assumptions/29.md. -/
def execNormSum (i : Issue) (s : State) (hw : List HwFault := []) : Host.Outcome State Fault Refusal :=
  s.issue .update engUpd i true fun s =>
    let s := ((s.updStart i.idx 2).updReads i.idx s.normSlots).updHw i.idx i.desc (fun _ => false) hw
    (s.runNormSum i.idx).set (UPD_LAST.DESC i.idx) i.desc

/-- An APPLY of shard `d` on unit `u` reads its inputs: the committed generation, the gradient, with VERIFY the committed
working copy, and where R233 has it read, ssq. What the checkers saw and what is poisoned raise their errors; what LPDDR
lost of the committed generation, a working copy that VERIFY reads among it, is committed state (R244). -/
def State.applyReads (s : State) (u d : Nat) (hw : List HwFault) : State :=
  let sh := s.shard d
  let old := sh.genAddr ((s.get TICK_STEP.STEP + 1) % 2)
  let wc := (sh.wcGen ((s.get TICK_STEP.STEP + 1) % 2), sh.count * fmtBytes (gateFmt sh.wcGate))
  let far := sh.verify && decide (sh.wcAddr < lpddrEnd)
  let lost := s.poisonIn old sh.GB ++ if far then s.poisonIn wc.1 wc.2 else []
  let s := s.updHw u d (fun a => inRanges ((old, sh.GB) :: if far then [wc] else []) a) (hw ++ lost.map fun a => .memUe a)
  let s := s.readPoison ((sh.gradAddr, sh.count * fmtBytes sh.gradFmt) :: (if sh.verify && !far then [wc] else [])) 6 0
  if sh.norm || s.is UPD_POLICY.NF_SKIP then s.updReads u [s.normBase + 0x8008] else s

/-- APPLY. -/
def execUpdApply (i : Issue) (hw : List HwFault) (s : State) : Host.Outcome State Fault Refusal :=
  s.issue .update engUpd i true fun s =>
    let sh := s.shard i.desc
    let new := sh.genAddr (s.get TICK_STEP.STEP % 2)
    let s := (s.updStart i.idx 3).noteDst .update i.idx engUpd
      [(new, sh.GB), (sh.wcGen (s.get TICK_STEP.STEP % 2), sh.WB), (s.chkBase + i.desc * 16, 16)]
    let s := s.applyReads i.idx i.desc hw
    if s.running then
      let s := (s.runApply i.idx i.desc true).updUpd fun x => { x with params := addTo x.params i.idx sh.count }
      let n := sh.count * sh.lpddrBytes (sh.exp && s.upd.exporting)
      ((s.updMoved i.idx n).memBytes i.idx n).set (UPD_LAST.DESC i.idx) i.desc
    else s

/-- An update unit's entry ends. -/
def State.updDone (s : State) (u op cc : Nat) : State :=
  if (s.runningRec .update u engUpd).isSome ∧ s.get (UPD_STATUS.OP u) = op then
    (s.engineDone .update u engUpd cc).setAll [(UPD_STATUS.BUSY u, 0), (UPD_STATUS.OP u, 0), (UPD_LAST.OP u, op),
      (UPD_LAST.AT_TICK u, s.get TICK_COUNT.COUNT)]
  else s

/-- NORM_COMPLETE. -/
def execNormComplete (u cc : Nat) (s : State) : Host.Outcome State Fault Refusal :=
  State.forUnit 16 u (s.updDone u 1 cc)

/-- NORM_SUM_COMPLETE. -/
def execNormSumComplete (u cc : Nat) (s : State) : Host.Outcome State Fault Refusal :=
  State.forUnit 16 u (s.updDone u 2 cc)

/-- APPLY_COMPLETE. -/
def execApplyComplete (u cc : Nat) (s : State) : Host.Outcome State Fault Refusal :=
  State.forUnit 16 u (s.updDone u 3 cc)

/-! ### Regeneration and export requests (R242, R243) -/

/-- UPD_CTRL.REGEN: effective in LOADED only. -/
def State.actRegen (s : State) : State :=
  if s.job = 1 then (s.updUpd fun x => { x with regenPend := true }).okay else s.okay

/-- UPD_REGEN. -/
def execUpdRegen (s : State) : Host.Outcome State Fault Refusal := .next (s.write State.actRegen)

/-- The committed masters that a regeneration reads: addresses of poisoned blocks. -/
def State.lostMasters (s : State) : List Nat :=
  s.shards.flatMap fun p =>
    s.poisonIn (p.2.genAddr ((s.get TICK_STEP.STEP + 1) % 2)) (p.2.count * fmtBytes p.2.masterFmt)

/-- REGEN_DONE: every shard's committed working copy is regenerated without census counts. An uncorrectable read of a
committed master is handled as in a step (R244). -/
def execRegenDone (hw : List HwFault) (s : State) : Host.Outcome State Fault Refusal :=
  .next (if s.upd.regenPend then
      let g := (s.get TICK_STEP.STEP + 1) % 2
      let s := s.updHwAny (hw ++ s.lostMasters.map fun a => .memUe a)
      if s.dead then s
      else
        let s := s.shards.foldl (fun s p => s.regenWc (p.2.stateAddr / lpddrWindow % 16) p.2 g false) s
        (s.updUpd fun x => { x with regenPend := false }).set UPD_CTRL.REGEN_DONE 1
    else s)

/-- UPD_EXPORT.ARM: without effect unless AT_STEP exceeds TICK_STEP. -/
def State.actExportArm (s : State) : State :=
  if s.get TICK_STEP.STEP < s.get UPD_EXPORT_STEP.AT_STEP then (s.set UPD_EXPORT.ARM 1).okay else s.okay

/-- UPD_EXPORT_ARM. -/
def execUpdExportArm (s : State) : Host.Outcome State Fault Refusal := .next (s.write State.actExportArm)

/-- A write to UPD_EXPORT_STEP: without effect and logged while ARM is 1. -/
def State.actExportStep (s : State) (v : Nat) : State :=
  if s.is UPD_EXPORT.ARM then (s.corrected scDevice 0 srcUPD).okay
  else (s.set UPD_EXPORT_STEP.AT_STEP v).okay

/-- UPD_EXPORT_STEP_WRITE. -/
def execUpdExportStepWrite (v : Nat) (s : State) : Host.Outcome State Fault Refusal := .next (s.write fun s => s.actExportStep v)

/-- The export's copy of the checksum table (R242): slot by slot where the device can reach. -/
def State.copyChks (s : State) : State :=
  let from' := s.chkBase
  let to' := s.get UPD_EXPORT_CHK.ADDR * 64
  if s.dataOk from' 0x10000 && s.dataOk to' 0x10000 then s.wrBytes to' (s.rdBytes from' 0x10000)
  else (List.range 4096).foldl (fun s k =>
    let bs := if s.dataOk (from' + k * 16) 16 then s.rdBytes (from' + k * 16) 16 else List.replicate 16 0
    if s.dataOk (to' + k * 16) 16 then s.wrBytes (to' + k * 16) bs else s) (s.updOob 0)

/-- What the update units do at the commit of step `n` (R227, R237, R242): bindings, counters and the export; whether an
export completed. -/
def State.updCommit (s : State) (n : Nat) : State × Bool :=
  let s := s.bindAll (n % 2)
  let s := s.upd.params.foldl (fun s p => s.inc (UPD_PARAMS.PARAMS p.1) p.2) s
  let s := s.upd.moved.foldl (fun s p => s.inc (UPD_BYTES.LPDDR p.1) p.2) s
  let s := if s.upd.skipped then s.inc UPD_COUNTS.SKIPS else s
  let s := if s.upd.clipped then s.inc UPD_COUNTS.CLIPS else s
  let s := match s.upd.ssq with
    | some v => s.set UPD_GNORM.SSQ v
    | none => s
  let done := s.upd.exporting
  let s := if done then
      ((s.copyChks.set UPD_EXPORT.VALID 1).set UPD_EXPORT_DONE.STEP n).event 0x05 (leBytes 8 n ++ [0])
    else s
  (s.updUpd fun x => { x with params := [], moved := [], skipped := false, clipped := false, ssq := none, exporting := false }, done)

end Sys2Proof.Machine
end

