-- ==== Sys2Proof/Machine/Root.lean ====
section
/-! DEFINITION. The root engine (R150 to R165): gauge sequences, root runs piece by piece, root records and what they do
at the commit. The layouts that the spec does not give are in notes/assumptions/19.md. -/

namespace Sys2Proof.Machine

open Reg

/-! ### Matrices of a group (R143, R144) -/

/-- fp: FP32 or FP64 (R158). -/
def Factor.fp (f : Factor) : Nat := if f.fp64 then fFP64 else fFP32

/-- The rows of a matrix that one member of a group of `n` holds. -/
def Factor.share (f : Factor) (n : Nat) : Nat := f.b / n

/-- The address of element (i, j) of a matrix whose part on each of `n` members starting at logical cluster `first` lies
at `off`; `none` where a member is not active. -/
def State.groupAddr (s : State) (f : Factor) (first n off es i j : Nat) : Option Nat :=
  (physOf s.active (first + i / f.share n)).map fun p =>
    veneerBase p + off + ((i % f.share n) * f.b + j) * es

/-- Element (i, j) of generation `g` of the factor (R144). -/
def State.factorAddr (s : State) (f : Factor) (g i j : Nat) : Option Nat :=
  s.groupAddr f f.foldFirst f.foldN (f.fOff + g * (f.b * f.b * 4 / f.foldN)) 4 i j

/-- Element (i, j) of the Gram temporary. -/
def State.tmpAddr (s : State) (f : Factor) (i j : Nat) : Option Nat :=
  s.groupAddr f f.foldFirst f.foldN f.tmpOff 4 i j

/-- The bytes of one workspace matrix on one member. -/
def Factor.matSize (f : Factor) : Nat := f.b * f.b * fmtBytes f.fp / f.hostN

/-- Element (i, j) of workspace matrix `k` (R144): 0 Z, then X and M of sets 0 to 2, 7 T, 8 P. -/
def State.wsAddr (s : State) (f : Factor) (k i j : Nat) : Option Nat :=
  let slot := if f.bsz = 0 then f.gslot % 4 * 9 * f.matSize else 0
  s.groupAddr f f.hostFirst f.hostN (f.wsOff + slot + k * f.matSize) (fmtBytes f.fp) i j

/-- A value at an address that may be missing. -/
def State.valOpt (s : State) (fmt : Nat) (a : Option Nat) : Val :=
  match a with
  | some a => decode fmt (s.rd a (fmtBytes fmt))
  | none => .zero

/-- Write a value's code at an address that may be missing. -/
def State.putOpt (s : State) (fmt : Nat) (a : Option Nat) (code : Nat) : State :=
  match a with
  | some a => s.wr a (fmtBytes fmt) code
  | none => s

/-- Element (i, j) of a workspace matrix. -/
def State.ws (s : State) (f : Factor) (k i j : Nat) : Val := s.valOpt f.fp (s.wsAddr f k i j)

/-- The member of a group of `n` that holds row `i`. -/
def State.rowHolder (s : State) (f : Factor) (first n i : Nat) : Option Nat := physOf s.active (first + i / f.share n)

/-- What the finishers of a group note of element-wise statements: the cell, the operands and the exact result. -/
def State.elNote (s : State) (f : Factor) (first n fmt : Nat) (xs : List ((Nat × Nat) × List Val × Val)) : State :=
  (List.range n).foldl (fun s m =>
    match physOf s.active (first + m) with
    | some p => s.finNote p ((xs.filter fun x => x.1.1 / f.share n == m).flatMap fun x => elFlags fmt x.2)
    | none => s) s

/-- The cells of a block, row by row. -/
def Factor.all (f : Factor) : List (Nat × Nat) := (List.range f.b).flatMap fun i => (List.range f.b).map fun j => (i, j)

/-- One element-wise pass over a block on a group of `n` members: each element is rounded once to `fmt`, and stored
through a FIN_STORE gate to the same format (R62, R126). -/
def State.putEls (s : State) (f : Factor) (first n fmt : Nat) (addr : Nat → Nat → Option Nat)
    (v : Nat → Nat → List Val × Val) : State :=
  let xs := f.all.map fun c => (c, v c.1 c.2)
  let g := s.gateAll 1 (fixedGate fmt) 0 (xs.map fun x => (x.1.1 * f.b + x.1.2, x.2.2.inFmt fmt))
  ((xs.zip g.1).foldl (fun s x => s.putOpt fmt (addr x.1.1.1 x.1.1.2) x.2) g.2).elNote f first n fmt xs

/-- Write a whole workspace matrix from a function. -/
def State.putWs (s : State) (f : Factor) (k : Nat) (v : Nat → Nat → List Val × Val) : State :=
  s.putEls f f.hostFirst f.hostN f.fp (s.wsAddr f k) v

/-- X of a set. -/
def wsX (c : Nat) : Nat := 1 + 2 * c
/-- M of a set. -/
def wsM (c : Nat) : Nat := 2 + 2 * c
def wsZ : Nat := 0
def wsT : Nat := 7
def wsP : Nat := 8

/-! ### Pieces (R156 to R162) -/

/-- What one piece does. -/
inductive Piece where
  /-- A pass without an effect of its own: the effect of its sequence of passes is that of the last. -/
  | pass
  | prep
  | tmat (set : Nat)
  | prod (dst a b tile : Nat)
  | resid (e : Nat) (x : Nat)
  | store (entry : Nat) (x : Nat)
  | outcome
  | foldInit
  | gram (c tile : Nat)
  | foldAdd (c : Nat)
  | foldCheck
  | foldEnd
deriving DecidableEq, Repr

/-- The piece is one array operation. -/
def Piece.isArr : Piece → Bool
  | .prod _ _ _ _ => true
  | .gram _ _ => true
  | _ => false

/-- The columns of one array piece: one n_tile (R162). -/
def Factor.tile (f : Factor) : Nat := if f.bsz = 0 then 16 else if f.fp64 then 64 else 32

/-- The pieces of one product. -/
def Factor.prods (f : Factor) (dst a b : Nat) : List Piece :=
  (List.range (f.b / f.tile)).map fun t => .prod dst a b t

/-- One iteration from set `r` to set `w` (R159). -/
def Factor.iteration (f : Factor) (r w : Nat) : List Piece :=
  [.tmat r] ++ f.prods (wsX w) (wsX r) wsT ++
    (match f.pcode with
    | 0 => f.prods (wsM w) wsT (wsM r)
    | 1 => f.prods wsP wsT wsT ++ f.prods (wsM w) wsP (wsM r)
    | _ => f.prods wsP wsT wsT ++ f.prods wsT wsP wsP ++ f.prods (wsM w) wsT (wsM r))

/-- The set that iteration `k` of a step reads, from base set `c` (R157). -/
def iterSet (c k : Nat) : Nat := if k = 0 then c else if k % 2 = 1 then (c + 1) % 3 else (c + 2) % 3

/-- `k` iterations of a step (R157). -/
def Factor.iterations (f : Factor) (c k : Nat) : List Piece :=
  (List.range k).flatMap fun i => f.iteration (iterSet c i) (iterSet c (i + 1))

/-- The number of apply entries of a block. -/
def State.rootApply (s : State) (f : Factor) : List ApplyEntry :=
  applyEntries s.sealedMem (s.rootTbl + 0x40000) f.applyIdx (8192 - f.applyIdx)

/-- Residual test and store from set `c` with `a` apply entries (R160). -/
def Factor.residual (f : Factor) (c a : Nat) : List Piece :=
  (match f.pcode with
    | 0 => f.prods wsT (wsX c) wsZ ++ [.pass, .resid wsT c]
    | 1 => f.prods wsT (wsX c) (wsX c) ++ f.prods wsP wsT wsZ ++ [.pass, .resid wsP c]
    | _ => f.prods wsT (wsX c) (wsX c) ++ f.prods wsP wsT wsT ++ f.prods wsT wsP wsZ ++ [.pass, .resid wsT c]) ++
    (List.range a).map (fun e => .store e c) ++ [.outcome]

/-- The iterations of a window step (R156). -/
def Factor.itersOf (f : Factor) (w : Nat) : Nat := min f.ips (f.iters - (w - 1) * f.ips)

/-- The pieces of a root run's window step, from base set `c` (R156). -/
def Factor.rootPieces (f : Factor) (w c a : Nat) : List Piece :=
  let prep : List Piece := [.pass, .pass, .pass, .prep]
  if f.ips = f.iters then
    (if w = 0 then prep ++ f.iterations 0 f.iters ++ f.residual (iterSet 0 f.iters) a else [])
  else if w = 0 then prep
  else if w ≤ ceilDiv f.iters f.ips then f.iterations c (f.itersOf w)
  else if w = ceilDiv f.iters f.ips + 1 then f.residual c a
  else []

/-- The class of the captured format, and the columns of one Gram piece. -/
def gramTile (fmt : Nat) : Nat := tileWidth (opClass fmt) 0

/-- The pieces of a gauge sequence (R150). -/
def Factor.gaugePieces (f : Factor) (fmt : Nat) : List Piece :=
  [.foldInit] ++ ((List.range f.capCount).flatMap fun c =>
    (List.range (ceilDiv f.b (gramTile fmt))).map (fun t => .gram c t) ++ [.foldAdd c]) ++
    (if f.nfSkip then [.pass, .foldCheck] else []) ++ [.foldEnd]

/-! ### Reductions over a group (R158) -/

/-- The accumulation format of a block's reductions (R158). -/
def Factor.accFmt (f : Factor) : Nat := if f.fp64 then fDD else fFP64

/-- A sum of squares or a sum over each member's elements in row-major order, combined over the members (R132, R158),
with each member's part and the FIN_FLAGS bits that it sets. -/
def Factor.groupSum (f : Factor) (n : Nat) (dot : Bool) (els : Nat → List Val) : Val × List (Val × List Nat) :=
  let cls := if f.fp64 then 2 else 1
  let w := finW cls
  let acc := f.accFmt
  let parts := (List.range n).map fun m =>
    let l := els m
    (reduceRow cls w (if dot then 7 else 0) acc (((List.range l.length).zip l).map fun e => (e.1, e.2, e.2))).1
  (((splitK acc (parts.map (·.val))).getD .zero).inFmt f.fp, parts.map fun r => (r.val, r.flags.filter (· != 5)))

/-- The members of the host group note what a reduction's parts set; each part leaves the member through a FIN_STORE gate
(R62, R131). -/
def State.sumNote (s : State) (f : Factor) (parts : List (Val × List Nat)) : State :=
  ((List.range f.hostN).zip parts).foldl (fun s e =>
    match physOf s.active (f.hostFirst + e.1) with
    | some p => ((s.gateAll 1 (fixedGate f.accFmt) 0 [(0, e.2.1)]).2).finNote p e.2.2
    | none => s) s

/-- The elements (i, j) of member `m` of `n`, row by row. -/
def Factor.cells (f : Factor) (n m : Nat) : List (Nat × Nat) :=
  (List.range (f.share n)).flatMap fun i => (List.range f.b).map fun j => (m * f.share n + i, j)

/-! ### The work of pieces -/

/-- The chunk length of a block's products: K-scarf in FP32 at b = 2,048, a gang quadrant at b = 128 (R159). -/
def Factor.chunk (f : Factor) : Nat := if f.bsz = 0 then 16 else if f.bsz = 4 ∧ f.fp64 = false then 64 else 32

/-- The products of a block are scarf operations (table "Block groups"). -/
def Factor.scarfed (f : Factor) : Bool := f.fp64 || f.bsz == 4

/-- The members that drain one piece of a product, with their rows and columns: each its own rows; in K-scarf the odd
member those of the pair; in N-scarf each member its half of the columns (R92, R93). -/
def Factor.drains (f : Factor) (tile : Nat) : List (Nat × List Nat × List Nat) :=
  let sh := f.share f.hostN
  let rows (m n : Nat) := (List.range (n * sh)).map (· + m * sh)
  let cols (c n : Nat) := (List.range n).map (· + c)
  let c0 := tile * f.tile
  (List.range f.hostN).filterMap fun m =>
    if f.fp64 then some (m, rows (m / 2 * 2) 2, cols (c0 + m % 2 * (f.tile / 2)) (f.tile / 2))
    else if f.bsz = 4 then (if m % 2 = 1 then some (m, rows (m - 1) 2, cols c0 f.tile) else none)
    else some (m, rows m 1, cols c0 f.tile)

/-- What an array piece of a sequencer leaves on the cluster that drains it: NaNs and infinities of its operands, the
totals in half `half`, `stride` of them a row, and its records (R89, R108 to R111, R116). It has no descriptor of the
table: which one ACC_TILE and ARR_LAST show is a free value. -/
def State.notePiece (s : State) (p q half tile rows cols stride : Nat) (ops : List Val) (o : BlockOut) : State :=
  let (v, s) := s.draw
  let s := if ops.any Val.isNan then s.set (ARR_QFLAGS.NAN_IN p q) 1 else s
  let s := if ops.any Val.isInf then s.set (ARR_QFLAGS.INF_IN p q) 1 else s
  ((s.noteOut p q half rows cols stride o).noteTotals p q (v % 256) 0 0 tile o.totals).setAll
    [(ARR_LAST.DESC p, v), (ARR_LAST.QUAD p, q), (ARR_LAST.AT_TICK p, s.get TICK_COUNT.COUNT % 2 ^ 48)]

/-- The part of a product that one member drains: FP32 or FP64 totals, an ARRAY_OUT gate to the same format (R112,
R159). -/
def State.prodPart (s : State) (f : Factor) (dst a b tile : Nat) (x : Nat × List Nat × List Nat) : State :=
  let cls := opClass f.fp
  let cells := x.2.1.flatMap fun i => x.2.2.map fun j => (i, j)
  let o := blockTotals f.chunk (chunkBits cls) f.b 0 (fun i k => s.ws f a i k) (fun k j => s.ws f b k j) cells
    (BlockOut.fresh (startFmt cls false) cells.length)
  let ks := List.range f.b
  let ops := (x.2.1.flatMap fun i => ks.map fun k => s.ws f a i k) ++ x.2.2.flatMap fun j => ks.map fun k => s.ws f b k j
  let g := s.gateAll 0 (fixedGate f.fp) 0 ((cells.zip o.totals).map fun c => (c.1.1 * f.b + c.1.2, c.2.val))
  let t := (cells.zip g.1).foldl (fun s c => s.putOpt f.fp (s.wsAddr f dst c.1.1 c.1.2) c.2) g.2
  match physOf s.active (f.hostFirst + x.1) with
  | some p => t.notePiece p (if f.bsz = 0 then f.gslot % 4 else 0) 0 tile x.2.1.length x.2.2.length x.2.2.length ops o
  | none => t

/-- One tile of a product of two matrices, on every member. -/
def State.prodTile (s : State) (f : Factor) (dst a b tile : Nat) : State :=
  (f.drains tile).foldl (fun s x => s.prodPart f dst a b tile x) s

/-- A diagonal element of the identity. -/
def delta (i j : Nat) : Val := if i = j then .one else .zero

/-- The preparation (R158): Z, and set 0 with X = I and M = Z; the scale c; whether the input was not finite. -/
def State.rootPrep (s : State) (f : Factor) (d : Nat) : State × Bool :=
  let n := s.get TICK_STEP.STEP
  let fp (v : Val) := v.inFmt f.fp
  let F (i j : Nat) : Val := s.valOpt fFP32 (s.factorAddr f (f.gen n) i j)
  let ins := f.all.map fun c => (c, [F c.1 c.2], Val.zero)
  if ins.any fun x => x.2.1.any Val.nonfinite then (s.elNote f f.hostFirst f.hostN f.fp ins, true)
  else
    let t := f.groupSum f.hostN false fun m =>
      ((List.range (f.share f.hostN)).map (· + m * f.share f.hostN)).filterMap fun i =>
        if i < f.bReal then some (F i i) else none
    let lam := fp ((fp ((fp (t.1.div (.ofInt f.bReal))).mul (fp (decodeFp 0 f.lamRel)))).add (fp (decodeFp 0 f.lamAbs)))
    let D (i : Nat) := fp ((F i i).add lam)
    let A (i j : Nat) := if i = j then D i else F i j
    let q := f.groupSum f.hostN true fun m => (f.cells f.hostN m).map fun c => A c.1 c.2
    let s := (s.sumNote f t.2).sumNote f q.2
    let c := fp q.1.sqrt
    if q.1.nonfinite || c.nonfinite || c.isZero then (s, true)
    else
      let rc := fp (Val.one.div c)
      let Z (i j : Nat) : List Val × Val := ([A i j, rc], (A i j).mul rc)
      let s := ((s.putWs f wsZ Z).putWs f (wsX 0) fun i j => ([], delta i j)).putWs f (wsM 0) fun i j => ([], fp (Z i j).2)
      ({ s with root := { s.root with scales := Store.insert s.root.scales d (rne f.fp c) } }, false)

/-- T of an iteration (R159). -/
def State.rootT (s : State) (f : Factor) (set : Nat) : State :=
  let p : Val := .ofInt f.p
  let p1 : Val := (Val.ofInt (f.p + 1)).div p
  s.putWs f wsT fun i j =>
    let v := s.ws f (wsM set) i j
    let m := v.div p
    ([v], if i = j then p1.sub m else m.neg)

/-- ρ and the outcome of the test (R160), and the FIN_FLAGS bits of each member's part. -/
def State.rootRho (s : State) (f : Factor) (e : Nat) : (Nat × Bool) × List (Val × List Nat) :=
  let fp (v : Val) := v.inFmt f.fp
  let q := f.groupSum f.hostN true fun m => (f.cells f.hostN m).map fun c =>
    (s.ws f e c.1 c.2).sub (delta c.1 c.2)
  let rho := fp ((fp q.1.sqrt).mul (fp (Val.one.div (Val.sqrt (.ofInt f.b)))))
  let tau := fp (decodeFp fFP32 f.tau)
  ((rne fFP32 rho, !rho.isNan && !tau.isNan && decide (Val.cmp rho tau ≤ 0)), q.2)

/-- s of R160, from the scale c. -/
def Factor.rootScale (f : Factor) (c : Val) : Val :=
  let fp (v : Val) := v.inFmt f.fp
  match f.pcode with
  | 0 => fp (Val.one.div c)
  | 1 => fp (Val.one.div (fp c.sqrt))
  | _ => fp (Val.one.div (fp (Val.sqrt (fp c.sqrt))))

/-- The record of a block (R161). -/
def State.rootRec (s : State) (d : Nat) : RootRec :=
  Store.get s.root.recs ⟨0, 0, false, 0, 0, 0, 0, 0⟩ d

/-- Replace the record of a block. -/
def State.setRootRec (s : State) (d : Nat) (r : RootRec) : State :=
  { s with root := { s.root with recs := Store.insert s.root.recs d r } }

/-- The root store for one apply entry: into the slot that is not current (R160). -/
def State.rootStore (s : State) (f : Factor) (d entry set : Nat) : State :=
  match (s.rootApply f)[entry]? with
  | none => s
  | some e =>
    match physOf s.active e.cluster with
    | none => s
    | some p =>
      let k := f.rootScale (decode f.fp (Store.get s.root.scales 0 d))
      let g := gateOf f.gate
      let xs := (List.range f.bReal).flatMap fun i => (List.range f.bReal).map fun j =>
        (i * f.bReal + j, (k.mul (s.ws f (wsX set) i j)).inFmt f.fp)
      let s := s.elNote f f.hostFirst f.hostN f.fp (((List.range f.bReal).flatMap fun i => (List.range f.bReal).map fun j =>
        ((i, j), [s.ws f (wsX set) i j], k.mul (s.ws f (wsX set) i j))))
      let r := s.gateAll 1 g 0 xs
      r.2.wrBytes (veneerBase p + (if (s.rootRec d).cur = 0 then e.slot1 else e.slot0)) (codesBytes g.fmt r.1)

/-- The first pass of a fold (R150). -/
def State.foldInit (s : State) (f : Factor) : State :=
  let k := f.foldIdx (s.get TICK_STEP.STEP)
  let beta := decodeFp fFP32 f.beta
  s.putEls f f.foldFirst f.foldN fFP32 (s.factorAddr f (k % 2)) fun i j =>
    if k = 0 then ([], .zero)
    else
      let v := s.valOpt fFP32 (s.factorAddr f ((k + 1) % 2) i j)
      ([v], v.mul beta)

/-- Row `r`, column `j` of a capture half, on a fold member. -/
def State.capVal (s : State) (f : Factor) (fmt member half r j : Nat) : Val :=
  match physOf s.active (f.foldFirst + member) with
  | some p =>
    let n := fmtBytes fmt
    decode fmt (s.rd (opbufBase p + f.capOff + half * (f.mCap * f.b * n) + (r * f.b + j) * n) n)
  | none => .zero

/-- One n_tile of the Gram product of a capture, on every fold member (R150). -/
def State.gramTileWork (s : State) (f : Factor) (fmt c tile : Nat) : State :=
  let cls := opClass fmt
  let w := gramTile fmt
  let cols := ((List.range w).map (· + tile * w)).filter fun j => decide (j < f.b)
  (List.range f.foldN).foldl (fun s m =>
    let rows := (List.range (f.share f.foldN)).map (· + m * f.share f.foldN)
    let cells := rows.flatMap fun i => cols.map fun j => (i, j)
    let X (r j : Nat) := s.capVal f fmt m (c % 2) r j
    let o := blockTotals 32 (chunkBits cls) f.mCap 0 (fun i k => X k i) X cells
      (BlockOut.fresh (startFmt cls false) cells.length)
    let ops := (rows ++ cols).flatMap fun j => (List.range f.mCap).map fun r => X r j
    let g := s.gateAll 0 (fixedGate fFP32) 0 ((cells.zip o.totals).map fun c => (c.1.1 * f.b + c.1.2, c.2.val))
    let t := (cells.zip g.1).foldl (fun s c => s.putOpt fFP32 (s.tmpAddr f c.1.1 c.1.2) c.2) g.2
    match physOf s.active (f.foldFirst + m) with
    | some p => t.notePiece p 0 0 tile rows.length cols.length cols.length ops o
    | none => t) s

/-- The accumulation of a capture's Gram product (R150). -/
def State.foldAdd (s : State) (f : Factor) : State :=
  let k := f.foldIdx (s.get TICK_STEP.STEP)
  let w := decodeFp fFP32 (if k = 0 then f.wFirst else f.wFold)
  s.putEls f f.foldFirst f.foldN fFP32 (s.factorAddr f (k % 2)) fun i j =>
    let x := s.valOpt fFP32 (s.tmpAddr f i j)
    let y := s.valOpt fFP32 (s.factorAddr f (k % 2) i j)
    ([x, y], Val.fma x w y)

/-- The fold's result holds a non-finite element (R152). -/
def State.foldBad (s : State) (f : Factor) : Bool :=
  let k := f.foldIdx (s.get TICK_STEP.STEP)
  (List.range f.b).any fun i => (List.range f.b).any fun j => (s.valOpt fFP32 (s.factorAddr f (k % 2) i j)).nonfinite

/-- The block keeps its committed value (R150, R152), stored by an element-wise pass as every result is (R62). -/
def State.foldKeep (s : State) (f : Factor) : State :=
  let k := f.foldIdx (s.get TICK_STEP.STEP)
  s.putEls f f.foldFirst f.foldN fFP32 (s.factorAddr f (k % 2)) fun i j =>
    let v := s.valOpt fFP32 (s.factorAddr f ((k + 1) % 2) i j)
    ([v], v)

/-- A sequence waits to do something at the commit. -/
def State.atRootCommit (s : State) (d kind val : Nat) : State :=
  { s with root := { s.root with outcomes := s.root.outcomes ++ [⟨d, kind, val⟩] } }

/-- The work of one piece of a run; the run after it. -/
def State.runPiece (s : State) (f : Factor) (fmt : Nat) (r : RootRun) (x : Piece) : State × RootRun :=
  if r.nonfinite then (s, r)
  else
    match x with
    | .pass => (s, r)
    | .prep =>
      let y := s.rootPrep f r.block
      if y.2 then (y.1.atRootCommit r.block 3 0x7FC00000, { r with nonfinite := true }) else (y.1, r)
    | .tmat c => (s.rootT f c, r)
    | .prod dst a b t => (s.prodTile f dst a b t, r)
    | .resid e _ =>
      let y := s.rootRho f e
      (s.sumNote f y.2, { r with rho := y.1.1, accept := y.1.2 })
    | .store e c => (if r.accept then s.rootStore f r.block e c else s, r)
    | .outcome => (s.atRootCommit r.block (if r.accept then 1 else 2) r.rho, r)
    | .foldInit => (s.foldInit f, r)
    | .gram c t => (s.gramTileWork f fmt c t, r)
    | .foldAdd _ => (s.foldAdd f, r)
    | .foldCheck => if s.foldBad f then (s.foldKeep f, { r with accept := true }) else (s, r)
    | .foldEnd => (s.atRootCommit r.block (if r.accept then 5 else 4) 0, r)

/-- The pieces of a run. -/
def State.piecesOf (s : State) (f : Factor) (r : RootRun) : List Piece :=
  if r.gauge then f.gaugePieces (Store.get s.root.capFmt fFP32 r.block)
  else f.rootPieces r.wstep r.base (s.rootApply f).length

/-- What a run that has no piece left waits to do at the commit, beyond its outcome (R157). -/
def State.endRun (s : State) (f : Factor) (r : RootRun) : State :=
  if r.gauge || r.nonfinite then s
  else if f.ips = f.iters then s.atRootCommit r.block 7 (iterSet 0 f.iters)
  else if r.wstep = 0 then s.atRootCommit r.block 6 0
  else if r.wstep ≤ ceilDiv f.iters f.ips then s.atRootCommit r.block 7 (iterSet r.base (f.itersOf r.wstep))
  else s

/-- The root engine's number within its unit. -/
def engRoot : Nat := 1

/-- A sequence starts. -/
def State.startRun (s : State) (r : RootRun) : State :=
  { s with root := { s.root with runs := s.root.runs ++ [r] } }

/-- ROOT_SEG (R153, R156): the root work of the block's window step; nothing where there is no window step or no run. -/
def execRootSeg (i : Issue) (s : State) : Host.Outcome State Fault Refusal :=
  s.issue .root engRoot i false fun s =>
    let f := s.factor i.desc
    let rec' := s.rootRec i.desc
    match f.window (s.get TICK_STEP.STEP) with
    | none => s
    | some w =>
      if w = 0 ∨ (w < f.sRun ∧ rec'.run) then s.startRun ⟨i.desc, false, w, rec'.set, 0, false, 0, false⟩ else s

/-- GAUGE_SEG (R150): empty on a step that is not a gauge step. -/
def execGaugeSeg (i : Issue) (s : State) : Host.Outcome State Fault Refusal :=
  s.issue .root engRoot i false fun s =>
    if (s.factor i.desc).gaugeStep (s.get TICK_STEP.STEP) then s.startRun ⟨i.desc, true, 0, 0, 0, false, 0, false⟩ else s

/-- A contained error of a member during a piece: of the pair where the piece is a scarf operation (R96), else of the
cluster (R90). -/
def State.memberErr (s : State) (scarf : Bool) (p source code : Nat) : State :=
  if scarf then s.raise ⟨1, scPair, p, source, code, (s.partner p).getD 0⟩ else s.raiseOpen 1 scCluster p source code

/-- What the checkers of an array saw during a sequencer's piece on physical cluster `p` (R97, R117). -/
def State.arrPieceHw (s : State) (p src msrc : Nat) (scarf : Bool) (h : HwFault) : State :=
  match h with
  | .wregPar => ((s.set (ARR_HWERR.WREG_PAR p) 1).inc (ARR_HWERR.COUNT p)).memberErr scarf p srcARR 0
  | .residue => ((s.set (ARR_HWERR.RESIDUE p) 1).inc (ARR_HWERR.COUNT p)).memberErr scarf p srcARR 1
  | .scarfPar => ((s.set (ARR_HWERR.SCARF_PAR p) 1).inc (ARR_HWERR.COUNT p)).memberErr true p srcARR 2
  | .ownCe => ((s.set (ACC_HWERR.ECC_CE p) 1).inc (ACC_HWERR.CE_COUNT p)).raiseOpen 0 scCluster p srcACC 0
  | .ownUe => ((s.set (ACC_HWERR.ECC_UE p) 1).inc (ACC_HWERR.UE_COUNT p)).memberErr scarf p srcACC 1
  | .bufCe => s.corrected scCluster p srcARR
  | .bufUe => let (v, s) := s.draw; s.memberErr scarf p srcARR (v % 2 ^ 16)
  | h => s.hwMem [h] src msrc

/-- What the checkers saw during a piece of the root engine: of its own copies, or of the array or the finisher of a
member (R90, R97, R141, R165). -/
def State.pieceHw (s : State) (f : Factor) (x : Piece) (p : Nat) (hw : List HwFault) : State :=
  hw.foldl (fun s h => match h with
    | .descPar => ((s.set ROOT_HWERR.DESC_PAR 1).inc ROOT_HWERR.COUNT).descPar scSeq 1 srcROOT 0
    | .memCe _ | .memUe _ | .linkEcc _ => s.hwMem [h] 7 0
    | h =>
      if x.isArr then s.arrPieceHw p 7 0 (f.scarfed && (x matches .prod ..)) h else s.finHw p [h]) s

/-- Where a workspace matrix lies. -/
def State.wsRanges (s : State) (f : Factor) (k : Nat) : List (Nat × Nat) :=
  (List.range f.hostN).filterMap fun m => (s.wsAddr f k (m * f.share f.hostN) 0).map fun a => (a, f.matSize)

/-- Where a generation of a factor lies. -/
def State.genRanges (s : State) (f : Factor) (g : Nat) : List (Nat × Nat) :=
  (List.range f.foldN).filterMap fun m =>
    (s.factorAddr f g (m * f.share f.foldN) 0).map fun a => (a, f.b * f.b * 4 / f.foldN)

/-- Where the Gram temporary lies. -/
def State.tmpRanges (s : State) (f : Factor) : List (Nat × Nat) :=
  (List.range f.foldN).filterMap fun m =>
    (s.tmpAddr f (m * f.share f.foldN) 0).map fun a => (a, f.b * f.b * 4 / f.foldN)

/-- The rows of columns `c` to `c + w - 1` of a matrix. -/
def Factor.colRanges (f : Factor) (es c w : Nat) (addr : Nat → Nat → Option Nat) : List (Nat × Nat) :=
  (List.range f.b).filterMap fun i => (addr i c).map fun a => (a, w * es)

/-- What a piece writes, for poisoned words there (R252). -/
def State.pieceWrites (s : State) (f : Factor) (fmt : Nat) (r : RootRun) (x : Piece) : List (Nat × Nat) :=
  let k := f.foldIdx (s.get TICK_STEP.STEP)
  match x with
  | .prep => s.wsRanges f wsZ ++ s.wsRanges f (wsX 0) ++ s.wsRanges f (wsM 0)
  | .tmat _ => s.wsRanges f wsT
  | .prod dst _ _ t => f.colRanges (fmtBytes f.fp) (t * f.tile) f.tile (s.wsAddr f dst)
  | .store e _ =>
    (match r.accept, (s.rootApply f)[e]? with
    | true, some a =>
      (match physOf s.active a.cluster with
      | some p => [(veneerBase p + (if (s.rootRec r.block).cur = 0 then a.slot1 else a.slot0),
          f.bReal * f.bReal * fmtBytes (gateFmt f.gate))]
      | none => [])
    | _, _ => [])
  | .foldInit | .foldAdd _ => s.genRanges f (k % 2)
  | .gram _ t => f.colRanges 4 (t * gramTile fmt) (min (gramTile fmt) (f.b - t * gramTile fmt)) (s.tmpAddr f)
  | _ => []

/-- The matrices that a piece reads: poisoned words there raise their errors (R252). -/
def State.piecePoison (s : State) (f : Factor) (fmt : Nat) (r : RootRun) (x : Piece) : State :=
  let n := s.get TICK_STEP.STEP
  let host := s.wsRanges f
  let fold := s.genRanges f
  (s.readPoison (match x with
    | .prep => fold (f.gen n)
    | .tmat c => host (wsM c)
    | .prod _ a b _ => host a ++ host b
    | .resid e _ => host e
    | .store _ c => if r.accept then host (wsX c) else []
    | .foldInit => if f.foldIdx n = 0 then [] else fold ((f.foldIdx n + 1) % 2)
    | .foldAdd _ => s.tmpRanges f ++ fold (f.foldIdx n % 2)
    | .foldCheck => fold (f.foldIdx n % 2)
    | _ => []) 7 0).noteWrite id (s.pieceWrites f fmt r x) 7

/-- The clusters that a piece runs on: the fold group for a gauge sequence, the host group for a run. -/
def State.pieceMembers (s : State) (f : Factor) (g : Bool) : List Nat :=
  (List.range (if g then f.foldN else f.hostN)).filterMap fun m => physOf s.active ((if g then f.foldFirst else f.hostFirst) + m)

/-- The element groups of one element-wise pass over a block, on each member. -/
def Factor.passGroups (f : Factor) (g : Bool) : Nat :=
  ceilDiv (f.b * f.b / (if g then f.foldN else f.hostN)) (finW (if g || !f.fp64 then 1 else 2))

/-- What a piece counts on its members (ARR_OPS, ARR_MACS, FIN_OPS, FIN_GROUPS, FIN_LAST). `lead` is false for the
blocks that share a pass with another one: their groups count, the chain does not again. Which chain of the table a
pass is the spec does not say: FIN_LAST.DESC is a free value. -/
def State.pieceCounts (s : State) (f : Factor) (g : Bool) (fmt : Nat) (x : Piece) (lead : Bool) : State :=
  let ps := s.pieceMembers f g
  match x with
  | .prod _ _ _ _ =>
    ps.foldl (fun s p => ((s.inc (ARR_OPS.ENTRIES p)).inc (ARR_OPS.PASSES p) (f.b / f.chunk)).inc (ARR_MACS.MACS p)
      (f.share f.hostN * f.b * f.tile)) s
  | .gram _ t =>
    ps.foldl (fun s p => ((s.inc (ARR_OPS.ENTRIES p)).inc (ARR_OPS.PASSES p) (ceilDiv f.mCap 32)).inc (ARR_MACS.MACS p)
      (f.share f.foldN * f.mCap * min (gramTile fmt) (f.b - t * gramTile fmt))) s
  | .foldEnd | .outcome => s
  | _ => ps.foldl (fun s p =>
      if lead then let (v, s) := s.draw; s.chainCounts p v (f.passGroups g)
      else s.inc (FIN_GROUPS.GROUPS p) (f.passGroups g)) s

/-- The run of a block. -/
def State.runOf (s : State) (g : Bool) (d : Nat) : Option RootRun :=
  s.root.runs.find? fun r => r.block == d && r.gauge == g

/-- One run takes its next piece `x`. -/
def State.stepRun (s : State) (r : RootRun) (x : Piece) (lead : Bool) : State :=
  let f := s.factor r.block
  let fmt := Store.get s.root.capFmt fFP32 r.block
  let rest := s.root.runs.filter fun q => !(q.block == r.block && q.gauge == r.gauge)
  let s := if r.nonfinite then s else s.piecePoison f fmt r x
  if !s.running then s
  else
    let y := (if r.nonfinite then s else s.pieceCounts f r.gauge fmt x lead).runPiece f fmt r x
    let r := { y.2 with piece := r.piece + 1 }
    let l := s.piecesOf f r
    -- The last entry of a list that only notes the outcome takes no piece of its own.
    let y := match l[r.piece]? with
      | some .outcome => y.1.runPiece f 0 r .outcome
      | some .foldEnd => y.1.runPiece f 0 r .foldEnd
      | _ => (y.1, r)
    let done := match l[r.piece]? with
      | none | some .outcome | some .foldEnd => true
      | _ => false
    let s := y.1
    if done then { s.endRun f y.2 with root := { (s.endRun f y.2).root with runs := rest } }
    else { s with root := { s.root with runs := rest ++ [y.2] } }

/-- The runs that share an element-wise pass with run `r`: at b = 128, those of the same four concurrent blocks of a
cluster that are at the same piece (R162). -/
def State.passMates (s : State) (f : Factor) (r : RootRun) (x : Piece) : List RootRun :=
  if f.bsz ≠ 0 ∨ r.gauge ∨ x.isArr then []
  else s.root.runs.filter fun q =>
    let g := s.factor q.block
    q.block != r.block && !q.gauge && g.bsz == 0 && g.hostFirst == f.hostFirst && g.gslot / 4 == f.gslot / 4 &&
      q.wstep == r.wstep && q.piece == r.piece && (s.piecesOf g q)[q.piece]?.any fun y => !y.isArr

/-- The next piece of the sequence of a block (R162). -/
def State.nextPiece (s : State) (g : Bool) (d p : Nat) (hw : List HwFault) : State :=
  match s.runOf g d with
  | none => s
  | some r =>
    let f := s.factor d
    match (s.piecesOf f r)[r.piece]? with
    | none => s
    | some x =>
      let mates := s.passMates f r x
      let s := s.pieceHw f x p hw
      if !s.running then s
      else
        mates.foldl (fun s q => match (s.piecesOf (s.factor q.block) q)[q.piece]? with
          | some y => if s.running then s.stepRun q y false else s
          | none => s) (s.stepRun r x true)

/-- ROOT_PIECE. DESIGN CHOICE: notes/assumptions/19.md. -/
def execRootPiece (g : Bool) (d p : Nat) (hw : List HwFault) (s : State) : Host.Outcome State Fault Refusal :=
  State.forUnit nPhys p (if s.running && s.tick.inTick && s.tick.freeze == 0 then s.nextPiece g d p hw else s)

/-! ### Records and the commit (R161, R164) -/

/-- AGE of a record now. -/
def State.rootAge (s : State) (r : RootRec) : Nat := min 65535 (r.age + (s.root.commits - r.since))

/-- A word of a record, as ROOT_REC_DATA shows it (table "Root record"). -/
def State.rootRecWord (s : State) (d w : Nat) : Nat :=
  let r := s.rootRec d
  if w = 0 then r.cur + r.set * 2 + ofBool r.run * 8 + r.outcome * 16 + s.rootAge r * 256 + r.resid * 2 ^ 32
  else r.accepted

/-- Write a word of a record. -/
def State.setRecWord (s : State) (d w v : Nat) : State :=
  let r := s.rootRec d
  if w = 0 then
    s.setRootRec d { r with cur := bits v 0 0, set := bits v 2 1, run := bit v 3, outcome := bits v 6 4,
                            age := bits v 23 8, since := s.root.commits, resid := bits v 63 32 }
  else s.setRootRec d { r with accepted := bits v 31 0 }

/-- A write of ROOT_REC_DATA: permitted in IDLE and LOADED. -/
def State.actRootRec (s : State) (v : Nat) : State :=
  if s.job = 0 ∨ s.job = 1 then (s.setRecWord (s.get ROOT_REC_INDEX.DESC) (s.get ROOT_REC_INDEX.WORD) v).okay
  else (s.corrected scSeq 1 srcROOT).okay

/-- ROOT_REC_WRITE. -/
def execRootRecWrite (v : Nat) (s : State) : Host.Outcome State Fault Refusal := .next (s.write fun s => s.actRootRec v)

/-- An access of the root engine outside what it can reach: reported at the next glue-up (R81, R246). -/
def State.rootOob (s : State) : State :=
  let (v, s) := s.draw
  s.fatalAtGlue scSeq 1 srcROOT (v % 2 ^ 16)

/-- Point every apply entry of a block at its record's current slot (R161). -/
def State.rootBind (s : State) (d : Nat) : State :=
  (s.rootApply (s.factor d)).foldl (fun s e => s.writeSlot 7 State.rootOob e (s.rootRec d).cur) s

/-- When START takes effect, every apply descriptor is written from its record's CUR (R161). -/
def State.rootBindAll (s : State) : State := (List.range s.rootCount).foldl (fun s d => s.rootBind d) s

/-- ROOT_LAST for an outcome committed now. -/
def State.rootLast (s : State) (d kind resid : Nat) : State :=
  s.setAll [(ROOT_LAST.DESC, d), (ROOT_LAST.OUTCOME, kind), (ROOT_LAST.RESID, resid),
    (ROOT_LAST.STEP_LO, s.get TICK_STEP.STEP)]

/-- One outcome takes effect at the commit (R152, R157, R161): an accepted root takes 16 cc per apply entry within the
glue-up. -/
def State.rootOutcome (s : State) (o : RootOutcome) : State :=
  let r := s.rootRec o.block
  match o.kind with
  | 1 =>
    let s := s.setRootRec o.block { r with cur := 1 - r.cur, run := false, outcome := 1, age := 0,
                                           since := s.root.commits, resid := o.val,
                                           accepted := min (r.accepted + 1) (2 ^ 32 - 1) }
    (((s.inc ROOT_OUTCOMES.ACCEPTED).rootBind o.block).pass (16 * (s.rootApply (s.factor o.block)).length)).rootLast o.block
      1 o.val
  | 2 =>
    let s := s.setRootRec o.block { r with run := false, outcome := 2, resid := o.val }
    ((s.inc ROOT_OUTCOMES.STALE).set ROOT_FLAGS.STALE 1).rootLast o.block 2 o.val
  | 3 =>
    let s := s.setRootRec o.block { r with run := false, outcome := 3, resid := o.val }
    ((s.inc ROOT_FAULTS.NONFINITE).set ROOT_FLAGS.NONFINITE 1).rootLast o.block 3 o.val
  | 4 => s.inc ROOT_FOLDS.FOLDS
  | 5 => ((s.inc ROOT_FOLDS.FOLDS).inc ROOT_FOLDS.SKIPPED).set ROOT_FLAGS.FOLD_NF 1
  | 6 => s.setRootRec o.block { r with set := 0, run := true }
  | _ => s.setRootRec o.block { r with set := o.val }

/-- What the root engine does at the commit, TICK_STEP already incremented. -/
def State.rootCommit (s : State) : State :=
  let s := { s with root := { s.root with commits := s.root.commits + 1 } }
  let os := s.root.outcomes
  let s := os.foldl (fun s o => s.rootOutcome o) s
  { s with root := { s.root with runs := [], outcomes := [] } }

/-- Every run in progress is abandoned (R164): at a phase change or a permutation. -/
def State.rootAbandon (s : State) : State :=
  s.root.recs.foldl (fun s e =>
    if e.2.run then
      ((s.setRootRec e.1 { e.2 with run := false, outcome := 4 }).inc ROOT_FAULTS.ABANDONED).set ROOT_FLAGS.ABANDONED 1
    else s) s

end Sys2Proof.Machine
end

