-- ==== Sys2Proof/Machine/Solver.lean ====
section
/-! DEFINITION. The Krylov sequencer (R190 to R220): patterns and members, the pieces of every method and
preconditioner with their durations, what each piece does, and what a solve leaves for the commit. The layouts and the
orders that the spec does not give are in notes/assumptions/20.md. -/

namespace Sys2Proof.Machine

open Reg

/-! ### Patterns and members (R190 to R193) -/

/-- A pattern descriptor (R190). -/
structure Pattern where
  nGlobal : Nat
  digestLo : Nat
  digestHi : Nat
  first : Nat
  count : Nat
  pmOff : Nat
deriving DecidableEq, Repr

def patternOf (w : List Nat) : Pattern :=
  let g (i : Nat) := w.getD i 0
  ⟨bits (g 0) 39 0, g 1, g 2, bits (g 3) 15 0, bits (g 3) 31 16, bits (g 3) 55 32⟩

/-- The base of the pattern table of the running bank. -/
def State.patTbl (s : State) : Nat := s.bankGet ASM_PAT_A.ADDR ASM_PAT_B.ADDR * 64

/-- Pattern `i` of the running bank, from its sealed copy. -/
def State.pattern (s : State) (i : Nat) : Pattern := patternOf (s.sealedWords (s.patTbl + i * 64) 8)

/-- One band of a member: first own row, rows, width, entries before it and mask bytes before it (R192). -/
structure Band where
  row0 : Nat
  rows : Nat
  width : Nat
  entry0 : Nat
  mask0 : Nat
deriving DecidableEq, Repr

/-- A member: its physical cluster and its record (R191). -/
structure SolMember where
  p : Nat
  rows : Nat
  halo : Nat
  valOff : Nat
  idxOff : Nat
  maskOff : Nat
  xgOff : Nat
  hlOff : Nat
  dposOff : Nat
  bposOff : Nat
  tposOff : Nat
  bands : List Band
deriving DecidableEq, Repr

/-- Bands from the table's (rows, width) pairs. -/
def bandsOf : List (Nat × Nat) → Nat → Nat → Nat → List Band
  | [], _, _, _ => []
  | (r, w) :: l, r0, e0, m0 => ⟨r0, r, w, e0, m0⟩ :: bandsOf l (r0 + r) (e0 + r * w) (m0 + r * ceilDiv w 8)

/-- The member record of physical cluster `p`, read from memory `m` at `off` of its region. -/
def memberOf (m : List Host.Cell) (p off : Nat) : SolMember :=
  let b := veneerBase p
  let g (i : Nat) := Memory.rd m (b + off + 8 * i) 8
  let bo := bits (g 2) 47 24
  let tbl := (List.range (bits (g 0) 55 48)).map fun k =>
    let x := Memory.rd m (b + bo + 8 * k) 8
    (bits x 23 0, bits x 31 24)
  ⟨p, bits (g 0) 23 0, bits (g 0) 47 24, bits (g 1) 23 0, bits (g 1) 47 24, bits (g 2) 23 0, bits (g 3) 23 0,
    bits (g 3) 47 24, bits (g 4) 23 0, bits (g 4) 47 24, bits (g 5) 23 0, bandsOf tbl 0 0 0⟩

/-- The members of a pattern on this device, in logical order. -/
def State.members (s : State) (t : Pattern) : List SolMember :=
  (List.range t.count).filterMap fun i =>
    (physOf s.active (t.first + i)).map fun p => memberOf s.sealedMem p t.pmOff

/-- The value array's entries. -/
def SolMember.entryCount (m : SolMember) : Nat := m.bands.foldl (fun n b => n + b.rows * b.width) 0

/-- The largest value over the members. -/
def maxOver (ms : List SolMember) (f : SolMember → Nat) : Nat := ms.foldl (fun n m => max n (f m)) 0

/-! ### Solve descriptors (R199) -/

structure SolveDesc where
  method : Nat
  prec : Nat
  gmM : Nat
  nb : Nat
  deg : Nat
  dd : Bool
  warm : Bool
  deriv : Bool
  pattern : Nat
  cap : Nat
  vecOff : Nat
  statOff : Nat
  gate : Nat
  outOff : Nat
  tensor : Nat
  bOff : Nat
  adjOff : Nat
  xOff : Nat
  lamOff : Nat
  daOff : Nat
  mapOff : Nat
  fabCc : Nat
  fabHalo : Nat
  rtol : Nat
  atol : Nat
  tau : Nat
  lmin : Nat
  lmax : Nat
deriving DecidableEq, Repr

def solveDescOf (w : List Nat) : SolveDesc :=
  let g (i : Nat) := w.getD i 0
  { method := bits (g 0) 1 0, prec := bits (g 0) 4 2, gmM := bits (g 0) 11 5, nb := bits (g 0) 17 12,
    deg := bits (g 0) 22 18, dd := bit (g 0) 23, warm := bit (g 0) 24, deriv := bit (g 0) 25,
    pattern := bits (g 0) 39 32, cap := bits (g 0) 55 40, vecOff := bits (g 1) 23 0, statOff := bits (g 1) 47 24,
    gate := bits (g 1) 63 48, outOff := bits (g 2) 23 0, tensor := bits (g 2) 55 24, bOff := bits (g 3) 23 0,
    adjOff := bits (g 3) 47 24, xOff := bits (g 4) 23 0, lamOff := bits (g 4) 47 24, daOff := bits (g 5) 23 0,
    mapOff := bits (g 5) 47 24, fabCc := bits (g 6) 31 0, fabHalo := bits (g 6) 63 32, rtol := g 7, atol := g 8,
    tau := g 9, lmin := g 10, lmax := g 11 }

/-- The base of the solve table of the running bank. -/
def State.solTbl (s : State) : Nat := s.bankGet SOL_TBL_A.ADDR SOL_TBL_B.ADDR * 128

/-- Solve descriptor `d` of the running bank, from its sealed copy. -/
def State.solveDesc (s : State) (d : Nat) : SolveDesc := solveDescOf (s.sealedWords (s.solTbl + d * 128) 16)

/-! ### Pieces (R201 to R211) -/

/-- A vector of a solve: workspace vector `k`, preconditioner vector `k`, the right-hand side, this step's record, the
warm slot of the record; a hand-off register, whose values last for one chain (R129). -/
inductive SVec where
  | ws (k : Nat)
  | pre (k : Nat)
  | rhs
  | warm
  | fwd
  | hand
deriving DecidableEq, Repr

/-- A statement of a vector chain; a scalar is named by its number, and `n` negates it. -/
inductive SStmt where
  /-- d := c · x + y, one rounding. -/
  | fma (d : SVec) (c : Nat) (n : Bool) (x y : SVec)
  | mul (d : SVec) (c : Nat) (x : SVec)
  | divs (d x : SVec) (c : Nat)
  | sub (d x y : SVec)
  | add (d x y : SVec)
  | emul (d x y : SVec)
  | copy (d x : SVec)
  | zero (d : SVec)
  /-- The next inner product of the phase. -/
  | dot (x y : SVec)
deriving DecidableEq, Repr

/-- The vector that a statement forms, and those that it reads. -/
def SStmt.dst : SStmt → Option SVec
  | .fma d _ _ _ _ | .mul d _ _ | .divs d _ _ | .sub d _ _ | .add d _ _ | .emul d _ _ | .copy d _ | .zero d => some d
  | .dot _ _ => none
def SStmt.srcs : SStmt → List SVec
  | .fma _ _ _ x y | .sub _ x y | .add _ x y | .emul _ x y | .dot x y => [x, y]
  | .mul _ _ x | .divs _ x _ | .copy _ x => [x]
  | .zero _ => []

/-- The statements of a chain, each with whether its vector is stored: not where it stays in a hand-off register, which is
where a later statement of the chain forms the vector anew. -/
def storedIn : List SStmt → List (SStmt × Bool)
  | [] => []
  | x :: l => (x, match x.dst with
    | some v => v != .hand && !l.any fun y => y.dst == some v
    | none => false) :: storedIn l

/-- The vectors that a chain reads from memory, beside those, `done`, that it has formed itself. -/
def chainReads : List SVec → List SStmt → List SVec
  | _, [] => []
  | done, x :: l => x.srcs.filter (fun v => !done.contains v) ++ chainReads (x.dst.toList ++ done) l

/-- The scalar phases. -/
inductive ScOp where
  | warm | start | pcg1 | pcg2 | bi1 | bi2 | bi3 | bi4
  | gStart
  | gProj (j : Nat) (again : Bool)
  | gNorm (j : Nat)
  | gClose
  | trueRes
  | status
deriving DecidableEq, Repr

/-- What a piece does. -/
inductive SAct where
  /-- A vector chain; `last` is what it still does for a solve that has just converged. -/
  | vecs (l last : List SStmt)
  | halo (v : SVec)
  /-- The sparse product of the gather buffer, or the transposed product of a vector. -/
  | mat (d : SVec) (trans : Bool) (x : SVec)
  | red (warm : Bool)
  | sc (o : ScOp)
  | warmCheck
  | x0
  | jacobi
  /-- A piece whose work is done by the last piece of its setup. -/
  | part
  | factor
  | block (d x : SVec) (trans : Bool)
  | user (k : Nat)
  | out
  | deriv
deriving DecidableEq, Repr

/-- A piece: its duration, the durations of the chains that the piece map lists for it, whether it runs on the arrays,
and what it does. -/
structure SPiece where
  cc : Nat
  chains : List Nat
  arr : Bool
  act : SAct
deriving DecidableEq, Repr

/-- What the durations rest on: the descriptor and the members, and the direction. -/
structure SolEnv where
  d : SolveDesc
  ms : List SolMember
  adj : Bool
  /-- The durations of the user chains (R210). -/
  userCc : List Nat
  /-- The descriptor of the step's forward solve of the context, whose structure and factors an adjoint uses (R216). -/
  fwd : SolveDesc
  /-- The member whose own durations are meant; with none, the largest over the members (R201). -/
  own : Option SolMember := none
deriving DecidableEq, Repr

namespace SolEnv

variable (e : SolEnv)

/-- The members whose durations count. -/
def timed : List SolMember := match e.own with
  | some m => [m]
  | none => e.ms

/-- The member groups of four rows. -/
def g : Nat := maxOver e.timed fun m => ceilDiv m.rows 4

/-- A vector chain without a reduction: V(c). -/
def V (c : Nat) (l : List SStmt) (last : List SStmt := []) : SPiece := ⟨28 + c * e.g, [28 + c * e.g], false, .vecs l last⟩
/-- A vector chain with reductions: D(c). -/
def D (c : Nat) (l : List SStmt) (last : List SStmt := []) : SPiece := ⟨30 + c * e.g, [30 + c * e.g], false, .vecs l last⟩

def haloCc : Nat := (maxOver e.timed fun m => 40 + ceilDiv (8 * m.halo) 64) + e.d.fabHalo
/-- Halo exchange: H. -/
def H (v : SVec) : SPiece := ⟨e.haloCc, [], false, .halo v⟩

/-- The chains of the bands: `k` for the constant, `n` cycles for each group. -/
def bandCc (k n : Nat) : List Nat :=
  (List.range (maxOver e.ms fun m => m.bands.length)).map fun i =>
    maxOver e.timed fun m => match m.bands[i]? with
      | some b => k + n * b.rows * ceilDiv b.width 4
      | none => 0

/-- The largest sum of band durations over the members. -/
def bandSum (k n : Nat) : Nat :=
  maxOver e.timed fun m => m.bands.foldl (fun t b => t + (k + n * b.rows * ceilDiv b.width 4)) 0

/-- The transposed product is used: an adjoint solve, but with METHOD = PCG the matrix is taken as symmetric (R216). -/
def trans : Bool := e.adj && e.d.method != 0

/-- The product with A or its transpose of the vector that the halo piece gathered. -/
def A (dst x : SVec) : SPiece :=
  if e.trans then
    let tail := 28 + 2 * maxOver e.timed fun m => ceilDiv m.halo 4
    let cc := maxOver e.timed fun m => 28 + ceilDiv m.rows 4 +
      m.bands.foldl (fun t b => t + (28 + 3 * b.rows * ceilDiv b.width 4)) 0 + (40 + ceilDiv (8 * m.halo) 64) +
      (28 + 2 * ceilDiv m.halo 4)
    ⟨cc + e.d.fabHalo, (28 + e.g) :: e.bandCc 28 3 ++ [tail], false, .mat dst true x⟩
  else ⟨e.bandSum 30 3, e.bandCc 30 3, false, .mat dst false x⟩

/-- The reduction over members and devices: Red. -/
def red (warm : Bool := false) : SPiece :=
  ⟨(if e.d.dd then 32 else 24) * (if e.ms.length ≤ 1 then 0 else Nat.log2 (e.ms.length - 1) + 1) + e.d.fabCc, [], false,
    .red warm⟩

/-- The scalar phase: Sc. -/
def sc (o : ScOp) (cc : Nat := 48) : SPiece := ⟨cc, [], false, .sc o⟩

/-! #### Preconditioners (R207 to R210) -/

/-- The cycles of each group that the apply of Jacobi adds to the chain it is folded into (R207). -/
def fold : Nat := if e.d.prec = 1 then 3 else 0

/-- M: z := Minv(r), where it has pieces of its own. -/
def M (z r : SVec) : List SPiece :=
  match e.d.prec with
  | 2 =>
    let c := 30 + (if e.adj then 3 else 2) * maxOver e.timed fun m => m.rows * ceilDiv e.d.nb 4
    [⟨c, [c], false, .block z r e.adj⟩]
  | 3 =>
    e.V 2 [.divs z r 18, .copy (.pre 0) z] ::
      (List.range (e.d.deg - 1)).flatMap fun k =>
        [e.H z, e.A (.pre 1) z,
         e.V 4 [.sub .hand r (.pre 1), .mul (.pre 0) (100 + 2 * k) (.pre 0),
                .fma (.pre 0) (101 + 2 * k) false .hand (.pre 0), .add z z (.pre 0)]]
  | 4 => (List.range e.userCc.length).map fun k => ⟨e.userCc.getD k 0, [e.userCc.getD k 0], false, .user k⟩
  | _ => []

/-- The apply that stands in the chain that forms its operand: the copy without a preconditioner, the product of Jacobi
(R207). An exchange lies between it and the chain after it. DESIGN CHOICE: notes/assumptions/20.md. -/
def noM (z r : SVec) : List SStmt :=
  if e.d.prec = 0 then [.copy z r] else if e.d.prec = 1 then [.emul z (.pre 0) r] else []

/-- The setup of the preconditioner; an adjoint uses the block factors of the forward solve (R208, R216), and its
Jacobi setup has the forward solve's placement. -/
def precSetup : List SPiece :=
  match e.d.prec with
    | 1 => [⟨30 + 10 * e.g, [30 + 10 * e.g], false, .jacobi⟩]
    | 2 =>
      if e.adj then [] else
      let n := maxOver e.timed fun m => m.rows
      let ext := 28 + 2 * ceilDiv (n * e.d.nb) 4
      let col := [(⟨30 + 6 * e.g, [30 + 6 * e.g], false, .part⟩ : SPiece),
        ⟨68 + 16 * e.d.nb * ceilDiv (ceilDiv n e.d.nb) 4, [], true, .part⟩]
      let cols := (List.range (3 * e.d.nb)).flatMap fun _ => col
      (⟨ext, [ext], false, .part⟩ : SPiece) :: cols.dropLast ++
        [⟨68 + 16 * e.d.nb * ceilDiv (ceilDiv n e.d.nb) 4, [], true, .factor⟩]
    | _ => []

/-! #### Methods (R204 to R206); numbers of scalars are those of `State.scalarPhase`. -/

/-- The setup: preconditioner, warm check, x0, initial residual (R204 to R206, R215). -/
def setup : List SPiece :=
  let warm := [(⟨30 + 2 * e.g, [30 + 2 * e.g], false, .warmCheck⟩ : SPiece), e.red true, sc .warm,
    ⟨28 + e.g, [28 + e.g], false, .x0⟩]
  let x := SVec.ws 0
  match e.d.method with
  | 0 =>
    let r := SVec.ws 1; let z := SVec.ws 2; let p := SVec.ws 3; let q := SVec.ws 4
    e.precSetup ++ warm ++ [e.H x, e.A q x] ++
      (if e.d.prec = 1 then
        [e.D 7 [.sub r .rhs q, .emul z (.pre 0) r, .copy p z, .dot r r, .dot r z], e.D 1 [.dot .rhs .rhs]]
       else [e.D 4 ([.sub r .rhs q] ++ e.noM z r ++ [.dot r r])] ++ e.M z r ++
        [e.D 2 [.copy p z, .dot r z], e.D 1 [.dot .rhs .rhs]]) ++ [e.red, sc .start]
  | 1 =>
    let r := SVec.ws 1; let rh := SVec.ws 2; let v := SVec.ws 3; let p := SVec.ws 4; let t := SVec.ws 8
    e.precSetup ++ warm ++ [e.H x, e.A t x,
      e.D 7 [.sub r .rhs t, .copy rh r, .zero v, .zero p, .dot r r, .dot rh r], e.D 1 [.dot .rhs .rhs], e.red, sc .start]
  | _ => e.precSetup ++ warm

/-- One iteration of PCG or BiCGSTAB. -/
def iteration : List SPiece :=
  let x := SVec.ws 0
  if e.d.method = 0 then
    let r := SVec.ws 1; let z := SVec.ws 2; let p := SVec.ws 3; let q := SVec.ws 4
    [e.H p, e.A q p, e.D 1 [.dot p q], e.red, sc .pcg1] ++
      (if e.d.prec = 1 then [e.D 6 [.fma r 5 true q r, .emul z (.pre 0) r, .dot r r, .dot r z]]
       else [e.D 3 ([.fma r 5 true q r] ++ e.noM z r ++ [.dot r r])] ++ e.M z r ++ [e.D 1 [.dot r z]]) ++
      [e.red, sc .pcg2, e.V 2 [.fma x 5 false p x, .fma p 6 false p z] [.fma x 5 false p x]]
  else
    let r := SVec.ws 1; let rh := SVec.ws 2; let v := SVec.ws 3; let p := SVec.ws 4; let y := SVec.ws 5
    let ss := SVec.ws 6; let z := SVec.ws 7; let t := SVec.ws 8
    [e.V (3 + e.fold) ([.fma p 9 true v p, .fma p 15 false p r] ++ e.noM y p)] ++ e.M y p ++
      [e.H y, e.A v y, e.D 1 [.dot rh v], e.red, sc .bi1,
       e.D (3 + e.fold) ([.fma ss 5 true v r] ++ e.noM z ss ++ [.dot ss ss]), e.red, sc .bi2] ++ e.M z ss ++
      [e.H z, e.A t z, e.D 2 [.dot t ss, .dot t t], e.red, sc .bi3,
       e.D 6 [.fma x 5 false y x, .fma x 9 false z x, .fma r 9 true t ss, .dot r r, .dot rh r] [.fma x 5 false y x],
       e.red, sc .bi4]

/-- Vector v_j of GMRES. -/
def gv (j : Nat) : SVec := .ws (3 + j)

/-- w := w − Σ c_i v_i, or the sum itself, three terms to a chain. -/
def combine (j base : Nat) (neg : Bool) : List SPiece :=
  (List.range (ceilDiv (j + 1) 3)).map fun c =>
    e.V 3 (((List.range 3).filterMap fun i =>
      if 3 * c + i ≤ j then some (.fma (.ws 1) (base + 3 * c + i) neg (gv (3 * c + i)) (.ws 1)) else none) ++
      (if !neg && c + 1 == ceilDiv (j + 1) 3 && e.d.prec == 0 then [.copy (.ws 2) (.ws 1)] else []))

/-- Arnoldi step `j` (R206). -/
def arnoldi (j : Nat) : List SPiece :=
  let w := SVec.ws 1
  let proj (again : Bool) : List SPiece :=
    (List.range (ceilDiv (j + 1) 3)).map (fun c =>
      e.D 3 ((List.range 3).filterMap fun i => if 3 * c + i ≤ j then some (.dot (gv (3 * c + i)) w) else none)) ++
    [e.red, sc (.gProj j again)] ++ e.combine j 200 true
  e.M (.ws 2) (gv j) ++ [e.H (.ws 2), e.A w (.ws 2)] ++ proj false ++ proj true ++
    [e.D 1 [.dot w w], e.red, sc (.gNorm j),
     e.V (1 + e.fold) ([.divs (gv (j + 1)) w 24] ++ e.noM (.ws 2) (gv (j + 1)))]

/-- The Arnoldi steps of cycle `c`. -/
def cycleSteps (c : Nat) : Nat := min e.d.gmM (e.d.cap - c * e.d.gmM)

/-- One cycle of GMRES, with its close. -/
def cycle (c : Nat) : List SPiece :=
  let x := SVec.ws 0; let w := SVec.ws 1; let n := e.cycleSteps c
  [e.H x, e.A w x, e.D 2 [.sub w .rhs w, .dot w w, .dot .rhs .rhs], e.red, sc .gStart,
   e.V (1 + e.fold) ([.divs (gv 0) w 25] ++ e.noM (.ws 2) (gv 0))] ++
  (List.range n).flatMap e.arnoldi ++
  [sc .gClose (48 + 3 * n * (n + 1))] ++ e.combine (n - 1) 640 false ++ e.M (.ws 2) w ++
  [e.V (1 + e.fold) (if e.d.prec = 1 then [.emul .hand (.pre 0) w, .add x x .hand] else [.add x x (.ws 2)])]

/-- Iterations, or cycles of GMRES. -/
def rounds : Nat := if e.d.method = 2 then ceilDiv e.d.cap e.d.gmM else e.d.cap

/-- The closing pieces (R211). -/
def close : List SPiece :=
  let x := SVec.ws 0
  let q := SVec.ws (match e.d.method with | 0 => 4 | 1 => 8 | _ => 1)
  [e.H x, e.A q x, e.D 2 [.sub .hand .rhs q, .dot .hand .hand], e.red, sc .trueRes, ⟨28 + 2 * e.g, [28 + 2 * e.g], false, .out⟩,
   sc .status]

/-- The derivative pass of an adjoint solve with DERIV = 1 (R217). -/
def derivative : List SPiece :=
  if e.adj && e.d.deriv then [e.H .fwd, ⟨e.bandSum 28 4, e.bandCc 28 4, false, .deriv⟩] else []

/-- The pieces of phase `ph`; in phase 1, those of round `k`. -/
def pieces (ph k : Nat) : List SPiece :=
  match ph with
  | 0 => e.setup
  | 1 => if e.d.method = 2 then e.cycle k else e.iteration
  | 2 => e.close
  | _ => e.derivative

end SolEnv

/-- A piece of a user preconditioner. -/
def SPiece.isUser (x : SPiece) : Bool := match x.act with
  | .user _ => true
  | _ => false

/-- The chains of pieces, those of user preconditioners aside, which the piece map lists apart. -/
def chainsOf (l : List SPiece) : List Nat := (l.filter fun x => !x.isUser).flatMap (·.chains)

/-- Where the chains of piece `pos` of phase `ph`, round `k`, stand among the listed chains (R201): every round uses
those of the first, and the close of a shorter last cycle of GMRES the last ones of it. -/
def SolEnv.chainAt (e : SolEnv) (ph k pos : Nat) : Nat :=
  let before := ((List.range ph).flatMap fun q => chainsOf (e.pieces q 0)).length
  let l := e.pieces ph k
  let i := (chainsOf (l.take pos)).length
  if ph = 1 ∧ (l.take (pos + 1)).any (fun x => x.act == .sc .gClose) then
    before + (chainsOf (e.pieces 1 0)).length - ((chainsOf l).length - i)
  else before + i

/-- The durations of the chains that one direction of a solve lists in the piece map: setup, one round, closing pieces
and derivative pass, each chain once. -/
def SolEnv.listed (e : SolEnv) : List Nat := chainsOf (e.pieces 0 0 ++ e.pieces 1 0 ++ e.pieces 2 0 ++ e.pieces 3 0)

/-- Insert an element before the first with a larger key. -/
def insertBy (key : α → Nat) (x : α) : List α → List α
  | [] => [x]
  | y :: l => if key x < key y then x :: y :: l else y :: insertBy key x l

/-! ### Vectors in the members (R199, R210, R214) -/

def up64 (n : Nat) : Nat := ceilDiv n 64 * 64

/-- The bytes of the scalar block: 32 scalars and their negatives, then 64 of a GMRES phase, then 32 of Chebyshev.
DESIGN CHOICE: notes/assumptions/20.md. -/
def scalarBlock : Nat := 2048

/-- The vectors of a method's workspace (R210). DESIGN CHOICE: notes/assumptions/20.md. -/
def SolveDesc.vectors (d : SolveDesc) : Nat :=
  match d.method with
  | 0 => 5
  | 1 => 9
  | _ => d.gmM + 4

/-- The base of a record slot (R214). -/
def recSlot (off rows slot : Nat) : Nat := off + slot * (64 + up64 (8 * rows))

/-- The address of a vector on a member, in step `n`; a hand-off register has none, and none is read of it. -/
def SolEnv.addr (e : SolEnv) (n : Nat) (m : SolMember) (v : SVec) : Nat :=
  let rec0 := if e.adj then e.d.lamOff else e.d.xOff
  veneerBase m.p + match v with
    | .ws k => e.d.vecOff + scalarBlock + k * up64 (8 * m.rows)
    | .pre k => e.d.vecOff + scalarBlock + (e.d.vectors + k) * up64 (8 * m.rows)
    | .rhs => if e.adj then e.d.adjOff else e.d.bOff
    | .warm => recSlot rec0 m.rows ((n + 1) % 2) + 64
    | .fwd => recSlot e.fwd.xOff m.rows (n % 2) + 64
    | .hand => e.d.vecOff

/-- The FP64 values of a vector. -/
def State.vec (s : State) (e : SolEnv) (m : SolMember) (v : SVec) : List Val :=
  let a := e.addr (s.get TICK_STEP.STEP) m v
  (List.range m.rows).map fun i => s.valAt fFP64 a i

/-- Store values into a vector, each rounded once, through a FIN_STORE gate (R62, R126). -/
def State.putVec (s : State) (e : SolEnv) (m : SolMember) (v : SVec) (xs : List Val) : State :=
  let g := s.gateAll 1 (fixedGate fFP64) 0 ((List.range xs.length).zip (xs.map fun x => x.inFmt fFP64))
  g.2.wrBytes (e.addr (s.get TICK_STEP.STEP) m v) (codesBytes fFP64 g.1)

/-- Store the results of an element-wise statement: operands and exact result of each element, with the flags they set. -/
def State.putEl (s : State) (e : SolEnv) (m : SolMember) (v : SVec) (xs : List (List Val × Val)) : State :=
  (s.putVec e m v (xs.map (·.2))).finNote m.p (xs.flatMap (elFlags fFP64))

/-- A run that has done nothing yet, at a phase, round and piece. -/
def SolveRun.fresh (ctx desc : Nat) (adj : Bool) (phase iter pos : Nat) : SolveRun :=
  { ctx := ctx, desc := desc, adjoint := adj, phase := phase, iter := iter, pos := pos, status := 0, iters := 0, ran := 0,
    gated := 0, closing := false, warmRej := false, warmNf := false, trueFail := false, pivots := 0, zeros := 0,
    scalars := [], parts := [] }

/-- A scalar of the scalar unit. -/
def SolveRun.sc (r : SolveRun) (k : Nat) : Val := decodeFp 0 (Store.get r.scalars 0 k)

/-- Give a scalar a value, rounded once (R203). -/
def SolveRun.put (r : SolveRun) (k : Nat) (v : Val) : SolveRun := { r with scalars := Store.put r.scalars 0 k (rne fFP64 v) }

/-- An inner product of one member (R131, R132): its value, and the flags it sets. -/
def memberDot (dd : Bool) (xs ys : List Val) : Val × List Nat :=
  let f := if dd then fDD else fFP64
  let r := (reduceRow 2 4 7 f ((List.range xs.length).zip (xs.zip ys))).1
  (r.val, (if (xs ++ ys).any Val.isNan then [0] else []) ++ r.flags)

/-- What the hand-off registers hold in a chain: cluster, vector, elements. -/
abbrev Hand := List (Nat × SVec × List Val)

/-- The values of a vector as a chain reads it: those that it has formed itself, else those in memory. -/
def State.vecIn (s : State) (e : SolEnv) (h : Hand) (m : SolMember) (v : SVec) : List Val :=
  match h.find? fun x => x.1 == m.p && x.2.1 == v with
  | some x => x.2.2
  | none => s.vec e m v

/-- The partial of a member: its code, and the state after its store. -/
def State.partial (s : State) (e : SolEnv) (h : Hand) (m : SolMember) (x y : SVec) : Nat × State :=
  let r := memberDot e.d.dd (s.vecIn e h m x) (s.vecIn e h m y)
  let g := s.gateAll 1 (fixedGate (if e.d.dd then fDD else fFP64)) 0 [(0, r.1)]
  (g.1.getD 0 0, g.2.finNote m.p r.2)

/-- The destination of an element-wise statement, and the operands and exact result of each element on a member. -/
def State.stmtEls (s : State) (e : SolEnv) (h : Hand) (r : SolveRun) (m : SolMember) :
    SStmt → Option (SVec × List (List Val × Val))
  | .fma d c n x y =>
    let k := if n then (r.sc c).neg else r.sc c
    some (d, ((s.vecIn e h m x).zip (s.vecIn e h m y)).map fun p => ([k, p.1, p.2], Val.fma k p.1 p.2))
  | .mul d c x => some (d, (s.vecIn e h m x).map fun v => ([r.sc c, v], (r.sc c).mul v))
  | .divs d x c => some (d, (s.vecIn e h m x).map fun v => ([v, r.sc c], v.div (r.sc c)))
  | .sub d x y => some (d, ((s.vecIn e h m x).zip (s.vecIn e h m y)).map fun p => ([p.1, p.2], p.1.sub p.2))
  | .add d x y => some (d, ((s.vecIn e h m x).zip (s.vecIn e h m y)).map fun p => ([p.1, p.2], p.1.add p.2))
  | .emul d x y => some (d, ((s.vecIn e h m x).zip (s.vecIn e h m y)).map fun p => ([p.1, p.2], p.1.mul p.2))
  | .copy d x => some (d, (s.vecIn e h m x).map fun v => ([v], v))
  | .zero d => some (d, List.replicate m.rows ([], .zero))
  | .dot _ _ => none

/-- A statement takes no part: a column that a close does not have (R206). -/
def SolveRun.absent (r : SolveRun) : SStmt → Bool
  | .fma _ c _ _ _ => decide (640 ≤ c) && decide (c < 704) && decide (Store.get r.scalars 0 92 ≤ c - 640)
  | _ => false

/-- A division by a zero scalar. -/
def SolveRun.divZero (r : SolveRun) (xs : List (List Val × Val)) : SStmt → Bool
  | .divs _ _ c => (r.sc c).isZero && xs.any fun x => x.1.any fun v => v.isFin && !v.isZero
  | _ => false

/-- One statement of a chain on every member; only a vector that is stored passes a FIN_STORE gate (R62). -/
def State.stmt (s : State) (e : SolEnv) (h : Hand) (r : SolveRun) (x : SStmt × Bool) : State × Hand × SolveRun :=
  match x.1 with
  | .dot a b =>
    let y := e.ms.foldl (fun (y : List Nat × State) m => let z := y.2.partial e h m a b; (y.1 ++ [z.1], z.2)) ([], s)
    (y.2, h, { r with parts := r.parts ++ [y.1] })
  | y =>
    let z := e.ms.foldl (fun (z : State × Hand) m => match z.1.stmtEls e z.2 r m y with
      | some d =>
        let s := if x.2 then z.1.putEl e m d.1 d.2 else z.1.finNote m.p (d.2.flatMap (elFlags fFP64))
        (if r.divZero d.2 y then s.finNote m.p [3] else s, (m.p, d.1, d.2.map fun v => v.2.inFmt fFP64) :: z.2)
      | none => z) (s, h)
    (z.1, z.2, r)

/-- A chain on every member. -/
def State.chain (s : State) (e : SolEnv) (r : SolveRun) (l : List SStmt) : State × SolveRun :=
  let y := (storedIn (l.filter fun x => !r.absent x)).foldl
    (fun (y : State × Hand × SolveRun) x => y.1.stmt e y.2.1 y.2.2 x) (s, [], r)
  (y.1, y.2.2)

/-! ### Sparse products (R192, R193, R201) -/

/-- The stored entries of a member: own row, entry index, column. -/
def State.stored (s : State) (m : SolMember) : List (Nat × Nat × Int) :=
  m.bands.flatMap fun b => (List.range b.rows).flatMap fun i => (List.range b.width).filterMap fun j =>
    if bit (s.rd1 (veneerBase m.p + m.maskOff + b.mask0 + i * ceilDiv b.width 8 + j / 8)) (j % 8) then
      let e := b.entry0 + i * b.width + j
      some (b.row0 + i, e, toSigned 32 (s.rd (veneerBase m.p + m.idxOff + 4 * e) 4))
    else none

/-- The value of an entry. -/
def State.entryVal (s : State) (m : SolMember) (e : Nat) : Val := s.valAt fFP64 (veneerBase m.p + m.valOff) e

/-- A gather position lies in the buffer. -/
def SolMember.inBuf (m : SolMember) (c : Int) : Bool := decide (0 ≤ c) && decide (c < (m.rows + m.halo : Nat))

/-- An out-of-range access of a chain of a piece, if there was one (R140). -/
def State.chainOob (s : State) (p : Nat) (oob : Bool) : State :=
  if oob then (s.set (FIN_FLAGS.OOB p) 1).fatalAtGlue scCluster p srcFIN 6 else s

/-- An index outside the gather buffer is an out-of-range access (R140, R195). -/
def State.solOob (s : State) (m : SolMember) : State := s.chainOob m.p ((s.stored m).any fun x => !m.inBuf x.2.2)

/-- A gathered FP64 value at a signed index from offset `off` of a member's region; none where the index is negative or
the access lies outside the region, which reads +0 (R134, R140). -/
def State.gatherAt (s : State) (m : SolMember) (off : Nat) (q : Int) : Option Val :=
  if 0 ≤ q ∧ off + 8 * q + 8 ≤ veneerSize then some (s.valAt fFP64 (veneerBase m.p + off) q.toNat) else none

/-- Position `c` of the gather buffer; +0 outside. -/
def State.xg (s : State) (m : SolMember) (c : Int) : Val :=
  if m.inBuf c then s.valAt fFP64 (veneerBase m.p + m.xgOff) c.toNat else .zero

/-- Halo entry `k` of a member: source logical cluster and source row. -/
def State.haloSrc (s : State) (m : SolMember) (k : Nat) : Nat × Nat :=
  let w := s.rd (veneerBase m.p + m.hlOff + 8 * k) 8
  (bits w 15 0, bits w 39 16)

/-- The halo exchange: own entries, then the halo entries of this device (R193). -/
def State.haloExchange (s : State) (e : SolEnv) (v : SVec) : State :=
  let src := s
  let n := s.get TICK_STEP.STEP
  e.ms.foldl (fun s m =>
    let b := veneerBase m.p + m.xgOff
    let s := s.wrBytes b (src.rdBytes (e.addr n m v) (8 * m.rows))
    (List.range m.halo).foldl (fun s k =>
      let h := src.haloSrc m k
      match (if h.1 = 0xFFFF then none else physOf s.active h.1) with
      | none => s
      | some p =>
        match e.ms.find? fun x => x.p == p with
        | none => s
        | some o => s.wrBytes (b + 8 * (m.rows + k)) (src.rdBytes (e.addr n o v + 8 * h.2) 8)) s) s

/-- The results of REDUCE dot of rows, stored into a vector, with the flags and the count of empty rows (R131 to
R133). -/
def State.putRows (s : State) (e : SolEnv) (m : SolMember) (d : SVec) (rows : List RowElems) : State :=
  let rs := rows.map fun row => reduceRow 2 4 7 fFP64 row
  let nan := rows.any fun row => row.any fun x => x.2.1.isNan || x.2.2.isNan
  ((s.putVec e m d (rs.map (·.1.val))).finNote m.p ((if nan then [0] else []) ++ rs.flatMap (·.1.flags))).inc
    (FIN_EMPTY_REDUCE.COUNT m.p) (rs.countP (·.2))

/-- y := A · x, each row's sum over its stored entries in the order of R132. -/
def State.product (s : State) (e : SolEnv) (d : SVec) : State :=
  e.ms.foldl (fun s m =>
    let s := s.solOob m
    let st := s.stored m
    s.putRows e m d ((List.range m.rows).map fun r =>
      let row := st.filter fun x => x.1 == r
      (List.range row.length).zip (row.map fun x => (s.entryVal m x.2.1, s.xg m x.2.2)))) s

/-- Scatter-adds on a member: the positions, each product, and each sum (R135). -/
structure Scatter where
  pos : List Val
  muls : List (List Val × Val)
  adds : List (List Val × Val)
deriving DecidableEq, Repr

/-- Add `v` at position `i`. -/
def Scatter.add (x : Scatter) (i : Nat) (v : Val) : Scatter :=
  let w := (x.pos.getD i .zero).add v
  { x with pos := x.pos.set i (w.inFmt fFP64), adds := x.adds ++ [([x.pos.getD i .zero, v], w)] }

/-- What scatter-adds leave in the flags and the census. -/
def State.scatterNote (s : State) (m : SolMember) (x : Scatter) : State :=
  ((s.gateAll 1 (fixedGate fFP64) 0 ((List.range x.adds.length).zip (x.adds.map fun a => a.2.inFmt fFP64))).2).finNote m.p
    ((x.muls ++ x.adds).flatMap (elFlags fFP64))

/-- The gather positions of a member after its scatter-adds of value · x[row], in entry order (R201). -/
def State.scatterT (s : State) (e : SolEnv) (m : SolMember) (x : SVec) : Scatter :=
  let xs := s.vec e m x
  (s.stored m).foldl (fun (acc : Scatter) t =>
    if m.inBuf t.2.2 then
      let a := s.entryVal m t.2.1
      let b := xs.getD t.1 .zero
      { acc with muls := acc.muls ++ [([a, b], a.mul b)] }.add t.2.2.toNat ((a.mul b).inFmt fFP64)
    else acc) ⟨List.replicate (m.rows + m.halo) .zero, [], []⟩

/-- A contribution to a row of this device: its cluster, own row and value. -/
abbrev Back := Nat × Nat × Val

/-- The contributions of the members to rows of this device, with those that other devices return, in ascending (source
cluster, source position) order, a contribution of this device before one of the same place of another (R201). DESIGN
CHOICE: notes/assumptions/20.md. -/
def State.backs (s : State) (e : SolEnv) (bufs : List (SolMember × Scatter)) (ext : List HaloBack) : List Back :=
  let key (src pos : Nat) : Nat := src * 2 ^ 25 + pos
  let own : List (Nat × Back) := bufs.flatMap fun p => (List.range p.1.halo).filterMap fun k =>
    let h := s.haloSrc p.1 k
    if h.1 = 0xFFFF then none
    else (physOf s.active h.1).map fun q =>
      (key ((logicalOf s.active p.1.p).getD 0) (p.1.rows + k), q, h.2, p.2.pos.getD (p.1.rows + k) .zero)
  let mine : List HaloBack := ext.filter fun b => match physOf s.active b.dst with
    | some q => e.ms.any fun m => m.p == q
    | none => false
  (mine.foldl (fun l b => insertBy (·.1) (key b.src b.pos, (physOf s.active b.dst).getD 0, b.row, decodeFp 0 b.val) l)
    own).map (·.2)

/-- y := Aᵀ · x: the output is zeroed, then the scatter-adds of every member, then the halo positions added to their
owners; positions owned by other devices stay in the gather buffer, from where link transfers take them. -/
def State.productT (s : State) (e : SolEnv) (d x : SVec) (ext : List HaloBack) : State :=
  let s := e.ms.foldl (fun s m => (s.solOob m).putVec e m d (List.replicate m.rows .zero)) s
  let bufs := e.ms.map fun m => (m, s.scatterT e m x)
  let s := bufs.foldl (fun s p =>
    (s.scatterNote p.1 p.2).wrBytes (veneerBase p.1.p + p.1.xgOff) (p.2.pos.flatMap fun v => leBytes 8 (rne fFP64 v))) s
  let back := s.backs e bufs ext
  bufs.foldl (fun s p =>
    let y := (back.filter fun b => b.1 == p.1.p).foldl (fun (y : Scatter) b => y.add b.2.1 b.2.2)
      ⟨p.2.pos.take p.1.rows, [], []⟩
    (s.scatterNote p.1 y).wrBytes (e.addr (s.get TICK_STEP.STEP) p.1 d) (y.pos.flatMap fun v => leBytes 8 (rne fFP64 v))) s

/-! ### Preconditioner setup (R207, R208) -/

/-- τ · amax is below 2^−1000. -/
def tiny (tau amax : Val) : Bool :=
  let t := (tau.mul amax).inFmt fFP64
  t.isFin && decide (Val.cmp t (.fin false 1 (-1000)) < 0)

/-- The diagonal entry of own row `i`, gathered through DPOS_OFF. -/
def State.diagonal (s : State) (m : SolMember) (i : Nat) : Option Val :=
  s.gatherAt m m.valOff (toSigned 32 (s.rd (veneerBase m.p + m.dposOff + 4 * i) 4))

/-- Jacobi: the inverse diagonal, and the diagonals replaced by 1 (R207); an access outside the region reads +0. -/
def State.jacobiSetup (s : State) (e : SolEnv) : State × Nat :=
  e.ms.foldl (fun (y : State × Nat) m =>
    let s := y.1
    let s := s.chainOob m.p ((List.range m.rows).any fun i => (s.diagonal m i).isNone)
    let r := (List.range m.rows).map fun i =>
      let a := (s.diagonal m i).getD .zero
      if a.isZero || tiny (decodeFp 0 e.d.tau) a.abs then (([], Val.one), 1) else (([a], Val.one.div a), 0)
    (s.putEl e m (.pre 0) (r.map (·.1)), y.2 + (r.map (·.2)).sum)) (s, 0)

/-- A square matrix by rows. -/
abbrev Mat := List (List Val)

def Mat.at (m : Mat) (i j : Nat) : Val := (m.getD i []).getD j .zero

/-- Row `i` plus `c` times row `k`, one rounding for each element. -/
def Mat.addRow (m : Mat) (i k : Nat) (c : Val) (from' : Nat) : Mat :=
  m.set i ((List.range (m.getD i []).length).map fun j =>
    if j < from' then m.at i j else (Val.fma c (m.at k j) (m.at i j)).inFmt fFP64)

/-- Exchange two rows. -/
def Mat.swap (m : Mat) (i k : Nat) : Mat := (m.set i (m.getD k [])).set k (m.getD i [])

/-- The row at or below `c` with the largest magnitude in column `c`, the lowest on ties. -/
def Mat.pivot (m : Mat) (n c : Nat) : Nat :=
  (List.range n).foldl (fun best i =>
    if c < i ∧ 0 < Val.cmp (m.at i c).abs (m.at best c).abs then i else best) c

/-- One array operation of a column step: its rows and columns, its operands, its totals and its results. -/
structure BjStep where
  rows : Nat
  cols : Nat
  ops : List Val
  out : BlockOut
  res : List Val
deriving DecidableEq, Repr

/-- Row `k` times a coefficient for each of some rows is added to those rows, from column `lo` on: a MATMUL with K = 1
and the adding epilogue (R208). -/
def Mat.elim (m : Mat) (k lo : Nat) (cs : List (Nat × Val)) : Mat × List BjStep :=
  if cs.isEmpty then (m, [])
  else
    let cols := (List.range (m.getD k []).length).filter fun j => decide (lo ≤ j)
    let cells := cs.flatMap fun c => cols.map fun j => (c.1, j)
    let coef (i : Nat) : Val := ((cs.find? fun c => c.1 == i).map (·.2)).getD .zero
    let o := blockTotals 16 (chunkBits 4) 1 0 (fun i _ => coef i) (fun _ j => m.at k j) cells
      (BlockOut.fresh (startFmt 4 false) cells.length)
    let y := cs.foldl (fun y c => y.addRow c.1 k c.2 lo) m
    (y, [⟨cs.length, cols.length, cs.map (·.2) ++ cols.map (m.at k), o, cells.map fun c => y.at c.1 c.2⟩])

/-- An inversion in progress: U, what becomes the inverse, pivots repaired so far, the finisher's elements and the array's
operations. -/
structure BjRun where
  u : Mat
  b : Mat
  repaired : Nat
  fin : List (List Val × Val)
  arr : List BjStep
deriving DecidableEq, Repr

/-- One column of the factorisation: U, and P applied to the identity with L's eliminations. A comparison with a NaN is
false. -/
def bjColumn (n : Nat) (t : Val) (y : BjRun) (c : Nat) : BjRun :=
  let k := y.u.pivot n c
  let u : Mat := y.u.swap c k
  let b : Mat := y.b.swap c k
  let a := u.at c c
  let small := a.abs.le t
  let u : Mat := if small then u.set c ((u.getD c []).set c (if a.isNeg && !a.isZero then t.neg else t)) else u
  let ls := ((List.range n).filter fun i => decide (c < i)).map fun i =>
    (i, [u.at i c, u.at c c], (u.at i c).div (u.at c c))
  let cs := ls.map fun l => (l.1, (l.2.2.inFmt fFP64).neg)
  let u' := u.elim c (c + 1) cs
  let b' := b.elim c 0 cs
  ⟨u'.1, b'.1, y.repaired + ofBool small, y.fin ++ ls.map (·.2), y.arr ++ u'.2 ++ b'.2⟩

/-- One column sweep of the upper triangle. -/
def bjSweep (y : BjRun) (c : Nat) : BjRun :=
  let row := (y.b.getD c []).map fun v => ([v, y.u.at c c], v.div (y.u.at c c))
  let b : Mat := y.b.set c (row.map fun x => x.2.inFmt fFP64)
  let r := b.elim c 0 ((List.range c).map fun i => (i, (y.u.at i c).neg))
  { y with b := r.1, fin := y.fin ++ row, arr := y.arr ++ r.2 }

/-- bj_invert of R208: the run that leaves the inverse, and 1 for a block replaced by the identity. -/
def bjInvert (n : Nat) (tau : Val) (a : Mat) : BjRun × Nat :=
  let eye : Mat := (List.range n).map fun i => (List.range n).map fun j => if i = j then Val.one else .zero
  if a.any fun r => r.any Val.nonfinite then
    (⟨a, a.map fun r => r.map fun _ => Val.dflt, 0, (a.flatMap id).map fun v => ([v], Val.dflt), []⟩, 0)
  else
    let amax := (a.flatMap id).foldl (fun (m : Val) v => if 0 < Val.cmp v.abs m then v.abs else m) .zero
    if amax.isZero || tiny tau amax then (⟨a, eye, 0, [], []⟩, 1)
    else
      let t := (tau.mul amax).inFmt fFP64
      ((List.range n).reverse.foldl bjSweep ((List.range n).foldl (bjColumn n t) ⟨a, eye, 0, [], []⟩), 0)

/-- Where the inverse blocks of a member lie: in the workspace of the forward solve (R216). -/
def SolEnv.binv (e : SolEnv) (m : SolMember) : Nat := ({ e with d := e.fwd, adj := false } : SolEnv).addr 0 m (.pre 0)

/-- The totals of columns `c0` to `c0 + n - 1` of `cols` columns. -/
def BlockOut.columns (o : BlockOut) (cols c0 n : Nat) : BlockOut :=
  { o with totals := ((List.range o.totals.length).zip o.totals).filterMap fun t =>
      if c0 ≤ t.1 % cols ∧ t.1 % cols < c0 + n then some t.2 else none }

/-- What the inversion of block `k` leaves on its member, beside the inverse: the census, the flags of the finisher and
those of the quadrant that holds the block (R62, R89). An array operation of more than 16 columns has two n_tiles, and its
blocks alternate between the halves (R70, R107, R116). -/
def State.bjNote (s : State) (p k : Nat) (x : BjRun) : State :=
  let num (l : List Val) := (List.range l.length).zip l
  let s := (s.gateAll 1 (fixedGate fFP64) 0 (num (x.fin.map fun y => y.2.inFmt fFP64))).2.finNote p
    (x.fin.flatMap (elFlags fFP64))
  let nt := tileWidth 4 1
  x.arr.foldl (fun s y =>
    (List.range (ceilDiv y.cols nt)).foldl (fun s t =>
      let n := min nt (y.cols - t * nt)
      s.notePiece p (k % 4) (t % 2) t y.rows n (min nt y.cols) y.ops (y.out.columns y.cols (t * nt) n))
      (s.gateAll 0 (fixedGate fFP64) 0 (num y.res)).2) s

/-- Block-Jacobi: extract and invert every block (R208); repaired pivots and replaced blocks. A position past the value
array is outside the pattern and gives +0; one outside the region is an out-of-range access besides (R140). -/
def State.bjSetup (s : State) (e : SolEnv) : State × Nat × Nat :=
  let nb := e.d.nb
  e.ms.foldl (fun (y : State × Nat × Nat) m =>
    (List.range (ceilDiv m.rows nb)).foldl (fun (y : State × Nat × Nat) k =>
      let s := y.1
      let inside (i j : Nat) : Bool := decide (k * nb + i < m.rows) && decide (k * nb + j < m.rows)
      let pos (i j : Nat) : Int := toSigned 32 (s.rd (veneerBase m.p + m.bposOff + 4 * ((k * nb + i) * nb + j)) 4)
      let a : Mat := (List.range nb).map fun i => (List.range nb).map fun j =>
        if !inside i j then (if i = j then Val.one else .zero)
        else if pos i j < m.entryCount then (s.gatherAt m m.valOff (pos i j)).getD .zero else .zero
      let r := bjInvert nb (decodeFp 0 e.d.tau) a
      let rows := min nb (m.rows - k * nb)
      let s := s.chainOob m.p ((List.range nb).any fun i => (List.range nb).any fun j =>
        inside i j && (s.gatherAt m m.valOff (pos i j)).isNone)
      let s := (s.gateAll 1 (fixedGate fFP64) 0 ((List.range (rows * nb)).zip ((a.take rows).flatMap id))).2
      let s := (s.bjNote m.p k r.1).wrBytes (e.binv m + k * nb * nb * 8)
        ((r.1.b.take rows).flatMap fun x => x.flatMap fun v => leBytes 8 (rne fFP64 v))
      (s, y.2.1 + r.1.repaired, y.2.2 + r.2)) y) (s, 0, 0)

/-- The block-Jacobi apply, transposed or not: the transposed one gathers the inverse through TPOS_OFF (R134, R140). -/
def State.bjApply (s : State) (e : SolEnv) (d x : SVec) (tr : Bool) : State :=
  let nb := e.d.nb
  e.ms.foldl (fun s m =>
    let xs := s.vec e m x
    let pos (k : Nat) : Int := if tr then toSigned 32 (s.rd (veneerBase m.p + m.tposOff + 4 * k) 4) else k
    let inv (k : Nat) : Option Val := s.gatherAt m (e.binv m - veneerBase m.p) (pos k)
    (s.chainOob m.p ((List.range (m.rows * nb)).any fun k => (inv k).isNone)).putRows e m d ((List.range m.rows).map fun i => (List.range nb).map fun j =>
      (j, (inv (i * nb + j)).getD .zero, xs.getD (i / nb * nb + j) .zero))) s

/-! ### The scalar unit (R203 to R206, R209, R211 to R215) -/

def Val.f64 (v : Val) : Val := v.inFmt fFP64

/-- Any of these is NaN or infinite. -/
def bad (l : List Val) : Bool := l.any Val.nonfinite

/-- Freeze with an outcome (R211, R212). -/
def SolveRun.freeze (r : SolveRun) (o k : Nat) : SolveRun := { r with status := o, iters := k }

/-- Set the recurrence residual norm. -/
def SolveRun.res (r : SolveRun) (v : Val) : SolveRun := r.put 16 v

/-- Whether the round that starts is run or issued clock-gated (SOL_ITERS). -/
def SolveRun.count (r : SolveRun) : SolveRun := if r.status = 0 then { r with ran := r.ran + 1 } else { r with gated := r.gated + 1 }

/-- The coefficients of Chebyshev, once for each solve (R209): θ, δ, σ, then two for each further degree. -/
def SolveRun.chebyshev (d : SolveDesc) (r : SolveRun) : SolveRun :=
  let a := decodeFp 0 d.lmin
  let b := decodeFp 0 d.lmax
  let r := r.put 18 ((b.add a).f64.div (.ofInt 2))
  let r := r.put 19 ((b.sub a).f64.div (.ofInt 2))
  let r := r.put 20 ((r.sc 18).div (r.sc 19))
  let r := r.put 21 (Val.one.div (r.sc 20))
  (List.range (d.deg - 1)).foldl (fun r k =>
    let rhon := (Val.one.div (((Val.ofInt 2).mul (r.sc 20)).f64.sub (r.sc 21)).f64).f64
    let r := r.put (100 + 2 * k) (rhon.mul (r.sc 21))
    let r := r.put (101 + 2 * k) ((((Val.ofInt 2).mul rhon).f64).div (r.sc 19))
    r.put 21 rhon) r

/-- thr := max(RTOL · nb, ATOL). -/
def SolveRun.setThr (d : SolveDesc) (r : SolveRun) (nb : Val) : SolveRun :=
  let t := ((decodeFp 0 d.rtol).mul nb).f64
  r.put 3 (if t.isNan then t else if 0 ≤ Val.cmp t (decodeFp 0 d.atol) then t else decodeFp 0 d.atol)

/-- The inner product `k` of the phase. -/
def SolveRun.dot (r : SolveRun) (k : Nat) : Val := r.sc (700 + k)

/-- BiCGSTAB: what the next iteration starts with, from rhon. -/
def SolveRun.biNext (r : SolveRun) (k : Nat) : SolveRun :=
  let rhon := r.sc 10
  if bad [rhon] then r.freeze 4 k
  else if rhon.isZero then r.freeze 3 k
  else
    let r := r.put 15 ((((rhon.div (r.sc 8)).f64).mul ((r.sc 5).div (r.sc 9)).f64))
    r.put 8 rhon

/-- Entry (i, j) of H. -/
def hId (i j : Nat) : Nat := 1000 + j * 72 + i

/-- Apply the earlier rotations to column `j`, form rotation `j` and update g (R206). -/
def SolveRun.givens (r : SolveRun) (j : Nat) : SolveRun :=
  let r := (List.range j).foldl (fun (r : SolveRun) i =>
    let c := r.sc (400 + i); let s := r.sc (480 + i)
    let a := r.sc (hId i j); let b := r.sc (hId (i + 1) j)
    let r := r.put (hId i j) ((c.mul a).f64.add (s.mul b).f64)
    r.put (hId (i + 1) j) ((s.neg.mul a).f64.add (c.mul b).f64)) r
  let a := r.sc (hId j j); let b := r.sc 24
  let n := (Val.sqrt ((a.mul a).f64.add (b.mul b).f64).f64).f64
  if n.isZero then { r.freeze 3 r.iters with closing := false }
  else
    let r := (r.put (400 + j) (a.div n)).put (480 + j) (b.div n)
    let r := r.put (hId j j) n
    let g := r.sc (560 + j)
    (r.put (561 + j) ((r.sc (480 + j)).neg.mul g)).put (560 + j) ((r.sc (400 + j)).mul g)

/-- The close with `n` columns: the triangular system for y. -/
def SolveRun.triangle (r : SolveRun) (n : Nat) : SolveRun :=
  let r := { r with scalars := Store.put r.scalars 0 92 n }
  (List.range n).reverse.foldl (fun (r : SolveRun) i =>
    let v := (List.range n).foldl (fun (v : Val) k =>
      if i < k then (v.sub ((r.sc (hId i k)).mul (r.sc (640 + k))).f64).f64 else v) (r.sc (560 + i))
    r.put (640 + i) (v.div (r.sc (hId i i)))) r

/-- One scalar phase. Scalars by number: 0 nb, 1 rr, 2 rz, 3 thr, 5 α, 6 β, 8 ρ, 9 ω, 10 the next ρ, 15 a combined
factor, 16 the residual norm, 17 the true one, 18 θ, 24 hn, 25 β of a cycle, 200 and up the projections, 400, 480, 560
and 640 and up c, s, g and y, 700 and up the inner products of the phase. -/
def SolveRun.scalarPhase (d : SolveDesc) (r : SolveRun) : ScOp → SolveRun
  | .warm => r
  | .start =>
    if d.method = 0 then
      let nb := (Val.sqrt (r.dot 2)).f64
      let r := ((r.put 0 nb).put 2 (r.dot 1)).res (Val.sqrt (r.dot 0))
      let r := r.setThr d nb
      if bad [nb, r.dot 0, r.dot 1] then r.freeze 4 0
      else if (r.sc 16).le (r.sc 3) then r.freeze 1 0 else r
    else
      let nb := (Val.sqrt (r.dot 2)).f64
      let r := (((r.put 8 .one).put 5 .one).put 9 .one).put 10 (r.dot 1)
      let r := ((r.put 0 nb).res (Val.sqrt (r.dot 0))).setThr d nb
      if bad [nb, r.dot 0] then r.freeze 4 0
      else if (r.sc 16).le (r.sc 3) then r.freeze 1 0 else r.biNext 0
  | .pcg1 =>
    let pq := r.dot 0
    if bad [pq] then r.freeze 4 r.iters
    else if pq.le .zero then r.freeze 3 r.iters
    else r.put 5 ((r.sc 2).div pq)
  | .pcg2 =>
    let rr := r.dot 0; let rzn := r.dot 1
    let r := r.res (Val.sqrt rr)
    let pass := (r.sc 16).le (r.sc 3)
    if bad [rr, rzn] then r.freeze 4 r.iters
    else if !pass && rzn.le .zero then r.freeze 3 r.iters
    else if pass then { r.freeze 1 (r.iters + 1) with closing := true }
    else { (r.put 6 (rzn.div (r.sc 2))).put 2 rzn with iters := r.iters + 1 }
  | .bi1 =>
    let t1 := r.dot 0
    if bad [t1] then r.freeze 4 r.iters
    else if t1.isZero then r.freeze 3 r.iters
    else r.put 5 ((r.sc 8).div t1)
  | .bi2 =>
    let r := r.res (Val.sqrt (r.dot 0))
    if bad [r.dot 0] then r.freeze 4 r.iters
    else if (r.sc 16).le (r.sc 3) then { r.freeze 1 (r.iters + 1) with closing := true } else r
  | .bi3 =>
    let ts := r.dot 0; let tt := r.dot 1
    if bad [ts, tt] then r.freeze 4 r.iters
    else if tt.isZero || ts.isZero then r.freeze 3 r.iters
    else r.put 9 (ts.div tt)
  | .bi4 =>
    let rr := r.dot 0
    let r := r.res (Val.sqrt rr)
    if bad [rr] then r.freeze 4 r.iters
    else
      let r := { r with iters := r.iters + 1 }
      if (r.sc 16).le (r.sc 3) then r.freeze 1 r.iters
      else if r.iters < d.cap then (r.put 10 (r.dot 1)).biNext r.iters else r
  | .gStart =>
    let first := r.iter == 0
    let nb := (Val.sqrt (r.dot 1)).f64
    let r := if first then (r.put 0 nb).setThr d nb else r
    let r := r.put 25 (Val.sqrt (r.dot 0))
    let r := r.res (r.sc 25)
    if bad (r.sc 25 :: if first then [nb] else []) then r.freeze 4 r.iters
    else if (r.sc 25).le (r.sc 3) then r.freeze 1 r.iters
    else { r.put 560 (r.sc 25) with closing := false }
  | .gProj j again =>
    (List.range (j + 1)).foldl (fun (r : SolveRun) i =>
      let r := r.put (200 + i) (r.dot i)
      if again then r.put (hId i j) ((r.sc (hId i j)).add (r.dot i)) else r.put (hId i j) (r.dot i)) r
  | .gNorm j =>
    let r := r.put 24 (Val.sqrt (r.dot 0))
    if bad (r.sc 24 :: (List.range (j + 1)).map fun i => r.sc (hId i j)) then r.freeze 4 r.iters
    else
      let r := r.givens j
      if r.status ≠ 0 then r
      else
        let r := { r with iters := r.iters + 1 }
        let r := r.res (r.sc (561 + j)).abs
        if (r.sc 16).le (r.sc 3) then { (r.triangle (j + 1)).freeze 1 r.iters with closing := true } else r
  | .gClose => r.triangle (min d.gmM (d.cap - r.iter * d.gmM))
  | .trueRes =>
    let r := r.put 17 (Val.sqrt (r.dot 0))
    { r with trueFail := !(r.sc 17).isNan && !(r.sc 3).isNan && !(r.sc 17).le (r.sc 3) }
  | .status => r

/-- This device's partial of an inner product: split_k over the members (R202). -/
def SolveDesc.ownPart (d : SolveDesc) (l : List Nat) : Nat :=
  let f := if d.dd then fDD else fFP64
  rne f ((splitK f (l.map (decode f))).getD .zero)

/-- Combine the partials of every inner product (R202): split_k over the members, the all-reduce over the devices of the
solve in the order of its group (R293), and one rounding to FP64. -/
def SolveRun.reduce (d : SolveDesc) (fab : SolverIn) (r : SolveRun) : SolveRun :=
  let f := if d.dd then fDD else fFP64
  let one (k : Nat) (l : List Nat) : Nat :=
    let own := d.ownPart l
    let others (ps : List (List Nat)) := ps.map fun p => p.getD k 0
    let whole := if d.fabCc = 0 then own
      else rne f ((splitK f ((others fab.before ++ [own] ++ others fab.after).map (decode f))).getD .zero)
    rne fFP64 (decode f whole)
  let r := ((List.range r.parts.length).zip r.parts).foldl (fun (r : SolveRun) p =>
    { r with scalars := Store.put r.scalars 0 (700 + p.1) (one p.1 p.2) }) r
  { r with parts := [] }

/-- The device's own partials leave for the other devices of the solve. -/
def State.sendParts (s : State) (e : SolEnv) (r : SolveRun) (l : List Nat) : State :=
  if e.d.fabCc = 0 then s
  else l.foldl (fun s v => s.emit (.reduce (r.ctx * 2 + ofBool e.adj) v)) s

/-- The scalars that a scalar phase leaves for the next pieces beside the common ones: the place in the block, the first
scalar, and how many: the projections and y of GMRES. -/
def SolveRun.extra (r : SolveRun) : ScOp → Nat × Nat × Nat
  | .gProj j _ => (32, 200, j + 1)
  | .gClose => (32, 640, Store.get r.scalars 0 92)
  | _ => (32, 0, 0)

/-- Write `n` scalars from number `k` and their negatives to place `i` of the scalar block of every member (R203). -/
def State.scalarPut (s : State) (e : SolEnv) (r : SolveRun) (i k n : Nat) : State :=
  let bs := (List.range n).flatMap fun j => leBytes 8 (rne fFP64 (r.sc (k + j))) ++ leBytes 8 (rne fFP64 (r.sc (k + j)).neg)
  e.ms.foldl (fun s m => s.wrBytes (veneerBase m.p + e.d.vecOff + 16 * i) bs) s

/-- What a scalar phase writes into the scalar blocks (R203). -/
def State.scalarWrite (s : State) (e : SolEnv) (r : SolveRun) (o : ScOp) : State :=
  let x := r.extra o
  (s.scalarPut e r 0 0 32).scalarPut e r x.1 x.2.1 x.2.2

/-- What the sequencer computes once for each solve, before its first piece: the coefficients of Chebyshev, with their
places in the scalar blocks (R209). -/
def State.solBegin (s : State) (e : SolEnv) (r : SolveRun) : State × SolveRun :=
  if e.d.prec = 3 then
    let r := r.chebyshev e.d
    ((s.scalarPut e r 0 0 32).scalarPut e r 96 100 (2 * (e.d.deg - 1)), r)
  else (s, r)

/-! ### Warm starts, records and the status block (R213 to R217) -/

/-- What the warm check finds (R215): 0 accepted, 1 header or digest, 2 not finite. -/
def State.warmVerdict (s : State) (e : SolEnv) (t : Pattern) : Nat :=
  let n := s.get TICK_STEP.STEP
  let hdr (m : SolMember) := e.addr n m .warm - 64
  if e.ms.any fun m => s.rd1 (hdr m + 24) != 1 || s.rd (hdr m) 8 != t.digestLo || s.rd (hdr m + 8) 8 != t.digestHi then 1
  else if e.ms.any fun m => bad (s.vec e m .warm) then 2 else 0

/-- x into the solution record and, through OUT_GATE, into OUT_OFF (R211, R214). -/
def State.solOut (s : State) (e : SolEnv) (t : Pattern) (r : SolveRun) : State :=
  let n := s.get TICK_STEP.STEP
  let off := if e.adj then e.d.lamOff else e.d.xOff
  let g := gateOf e.d.gate
  (e.ms.foldl (fun (y : State × Nat) m =>
    let s := y.1
    let xs := s.vec e m (.ws 0)
    let a := veneerBase m.p + recSlot off m.rows (n % 2)
    let s := s.wrBytes a (leBytes 8 t.digestLo ++ leBytes 8 t.digestHi ++ leBytes 8 n ++
      [ofBool (r.status != 4), if r.status = 0 then 2 else r.status] ++ List.replicate 38 0 ++
      xs.flatMap fun v => leBytes 8 (rne fFP64 v))
    let s := ((s.gateAll 1 (fixedGate fFP64) 0 ((List.range m.rows).zip xs)).2).finNote m.p
      (if xs.any Val.isNan then [0] else [])
    let z := s.gateAll 5 g e.d.tensor (((List.range m.rows).map (· + y.2)).zip xs)
    (z.2.wrBytes (veneerBase m.p + e.d.outOff) (codesBytes g.fmt z.1), y.2 + m.rows)) (s, 0)).1

/-- The status block (R213). -/
def State.solStatus (s : State) (e : SolEnv) (r : SolveRun) : State :=
  let bs := [r.status, ofBool (r.warmRej || r.warmNf) + ofBool r.trueFail * 2 + ofBool e.adj * 4, 0, 0] ++
    leBytes 4 r.iters ++ leBytes 8 (rne fFP64 (r.sc 16)) ++ leBytes 8 (rne fFP64 (r.sc 17)) ++
    leBytes 8 (rne fFP64 (r.sc 3))
  e.ms.foldl (fun s m => s.wrBytes (veneerBase m.p + e.d.statOff) bs) s

/-- ∂L/∂A (R217). -/
def State.solDeriv (s : State) (e : SolEnv) : State :=
  e.ms.foldl (fun s m =>
    let l := s.vec e m (.ws 0)
    let st := s.stored m
    let els : List (List Val × Val) := (List.range m.entryCount).map fun k =>
      match st.find? fun x => x.2.1 == k with
      | some x => ([l.getD x.1 .zero, s.xg m x.2.2], (l.getD x.1 .zero).neg.mul (s.xg m x.2.2))
      | none => ([], .zero)
    let g := s.gateAll 1 (fixedGate fFP64) 0 ((List.range els.length).zip (els.map fun x => x.2.inFmt fFP64))
    (g.2.wrBytes (veneerBase m.p + e.d.daOff) (codesBytes fFP64 g.1)).finNote m.p (els.flatMap (elFlags fFP64))) s

/-! ### Running a piece -/

/-- Entry `k` of a member's piece map. -/
def State.mapEntry (s : State) (d : SolveDesc) (m : SolMember) (k : Nat) : Nat :=
  s.sealedRd (veneerBase m.p + d.mapOff + 2 * k) 2

/-- The entries of the user chains of a piece map (R210), up to eight for the forward, then up to eight for the transposed
application; 0xFFFF for none. A piece stands where any member has a chain. -/
def State.userKs (s : State) (d : SolveDesc) (ms : List SolMember) (adj : Bool) : List Nat :=
  ((List.range 8).map fun k => k + if adj then 8 else 0).filter fun k => ms.any fun m => s.mapEntry d m k != 0xFFFF

/-- The descriptor of an adjoint as it runs: its structure and its blocks are those of the step's forward solve (R216). -/
def SolveDesc.under (d f : SolveDesc) : SolveDesc :=
  { d with pattern := f.pattern, nb := if d.prec = 2 ∧ f.prec = 2 then f.nb else d.nb }

/-- The descriptor index of the forward solve of a context in this step; its own for a forward solve. -/
def State.fwdDesc (s : State) (ctx desc : Nat) (adj : Bool) : Nat :=
  match (if adj then (s.sol.runs ++ s.sol.ended).find? fun r => r.ctx == ctx && !r.adjoint else none) with
  | some r => r.desc
  | none => desc

/-- The environment of a solve of a context. -/
def State.solEnv (s : State) (ctx desc : Nat) (adj : Bool) : SolEnv × Pattern :=
  let f := s.solveDesc (s.fwdDesc ctx desc adj)
  let d := (s.solveDesc desc).under f
  let t := s.pattern d.pattern
  let ms := s.members t
  ({ d := d, ms := ms, adj := adj, userCc := if d.prec = 4 then (s.userKs d ms adj).map (fun _ => 0) else [], fwd := f }, t)

/-- The entries of the piece map that name the chains of a piece, on every member (R201, R210). -/
def State.pieceKs (s : State) (e : SolEnv) (r : SolveRun) (x : SPiece) : List Nat :=
  match x.act with
  | .user k => [(s.userKs e.d e.ms e.adj).getD k 0]
  | _ =>
    let base := 16 + if e.adj then ({ e with adj := false } : SolEnv).listed.length else 0
    (List.range x.chains.length).map fun i => base + e.chainAt r.phase r.iter r.pos + i

/-- The sum V·y of a close starts from +0 (R206). -/
def State.clearVec (s : State) (e : SolEnv) (v : SVec) : State :=
  e.ms.foldl (fun s m => s.wrBytes (e.addr (s.get TICK_STEP.STEP) m v) (List.replicate (8 * m.rows) 0)) s

/-- What a piece does when it is not clock-gated. -/
def State.solAct (s : State) (e : SolEnv) (t : Pattern) (fab : SolverIn) (r : SolveRun) : SAct → State × SolveRun
  | .vecs l _ => s.chain e r l
  | .halo v => (s.haloExchange e v, r)
  | .mat d tr x => (if tr then s.productT e d x fab.back else s.product e d, r)
  | .red warm =>
    if warm then
      -- Every member of every device must accept; a rejected header outweighs a vector that is not finite.
      let own := Store.get r.scalars 0 90
      let l := own :: if e.d.fabCc = 0 then [] else (fab.before ++ fab.after).map fun p => p.getD 0 0
      (s.sendParts e r [own], { r with warmRej := l.contains 1, warmNf := !l.contains 1 && l.contains 2, parts := [] })
    else (s.sendParts e r (r.parts.map e.d.ownPart), r.reduce e.d fab)
  | .sc o =>
    let r := r.scalarPhase e.d o
    let s := s.scalarWrite e r o
    (if o = .status then s.solStatus e r else s, r)
  | .warmCheck => (s, { r with scalars := Store.put r.scalars 0 90 (s.warmVerdict e t) })
  | .x0 =>
    if e.d.warm && !r.warmRej && !r.warmNf then s.chain e r [.copy (.ws 0) .warm]
    else s.chain e r [.zero (.ws 0)]
  | .jacobi => let y := s.jacobiSetup e; (y.1, { r with zeros := r.zeros + y.2 })
  | .part => (s, r)
  | .factor => let y := s.bjSetup e; (y.1, { r with pivots := r.pivots + y.2.1, zeros := r.zeros + y.2.2 })
  | .block d x tr => (s.bjApply e d x tr, r)
  | .user k =>
    let i := (s.userKs e.d e.ms e.adj).getD k 0
    (e.ms.foldl (fun s m =>
      if s.running && s.mapEntry e.d m i != 0xFFFF then s.runChain m.p (s.mapEntry e.d m i) 0 else s) s, r)
  | .out => (s.solOut e t r, r)
  | .deriv => (s.solDeriv e, r)

/-- A frozen solve's iteration piece (R211): clock-gated, except what forms the converging iterate (R204 to R206). -/
def State.solGated (s : State) (e : SolEnv) (t : Pattern) (fab : SolverIn) (r : SolveRun) (x : SAct) :
    State × SolveRun :=
  if !r.closing then (s, r)
  else if e.d.method = 2 then
    -- The close of the cycle runs at its placed cycle; the remaining steps are clock-gated.
    (match x with
    | .sc .gClose =>
      ((s.clearVec e (.ws 1)).scalarWrite e r .gClose, { r with scalars := Store.put r.scalars 0 91 1 })
    | _ => if Store.get r.scalars 0 91 = 0 then (s, r) else s.solAct e t fab r x)
  else
    match x with
    | .vecs _ (y :: l) =>
      let z := s.chain e r (y :: l)
      (z.1, { z.2 with closing := false })
    | _ => (s, r)

/-- A piece of the warm check, clock-gated with WARM = 0 (R215). -/
def SAct.isWarm : SAct → Bool
  | .warmCheck | .red true | .sc .warm => true
  | _ => false

/-- What a piece still does: of a frozen solve's iteration piece, only what forms its iterate; nothing of a warm check
with WARM = 0. -/
def SolEnv.live (e : SolEnv) (r : SolveRun) (gated : Bool) (x : SAct) : SAct :=
  if x.isWarm && !e.d.warm then .part
  else if !gated then x
  else if !r.closing then .part
  else if e.d.method = 2 then (if x = .sc .gClose ∨ Store.get r.scalars 0 91 ≠ 0 then x else .part)
  else match x with
    | .vecs _ (y :: l) => .vecs (y :: l) []
    | _ => .part

/-- What a piece writes, for poisoned words there (R252). -/
def State.solWrites (s : State) (e : SolEnv) (r : SolveRun) (x : SAct) : List (Nat × Nat) :=
  let n := s.get TICK_STEP.STEP
  let vs (l : List SVec) : List (Nat × Nat) := e.ms.flatMap fun m => l.map fun v => (e.addr n m v, 8 * m.rows)
  let at' (f : SolMember → Nat × Nat) : List (Nat × Nat) := e.ms.map fun m => (veneerBase m.p + (f m).1, (f m).2)
  let xgs := at' fun m => (m.xgOff, 8 * (m.rows + m.halo))
  match x with
  | .vecs l _ => vs ((storedIn l).filterMap fun y => if y.2 then y.1.dst else none)
  | .halo _ => xgs
  | .mat d tr _ => vs [d] ++ if tr then xgs else []
  | .x0 => vs [.ws 0]
  | .jacobi => vs [.pre 0]
  | .factor => e.ms.map fun m => (e.binv m, 8 * m.rows * e.d.nb)
  | .block d _ _ => vs [d]
  | .out =>
    (at' fun m => (recSlot (if e.adj then e.d.lamOff else e.d.xOff) m.rows (n % 2), 64 + 8 * m.rows)) ++
      at' fun m => (e.d.outOff, m.rows * fmtBytes (gateFmt e.d.gate))
  | .sc .status => (at' fun _ => (e.d.vecOff, 512)) ++ at' fun _ => (e.d.statOff, 32)
  | .sc o => at' fun _ => (e.d.vecOff, 512 + 16 * ((if r.closing then r else r.scalarPhase e.d o).extra o).2.2)
  | .deriv => at' fun m => (e.d.daOff, 8 * m.entryCount)
  | _ => []

/-- The memory that a piece reads: poisoned words there raise their errors (R252). -/
def State.solPoison (s : State) (e : SolEnv) (r : SolveRun) (x : SAct) : State :=
  let n := s.get TICK_STEP.STEP
  let vs (l : List SVec) : List (Nat × Nat) := e.ms.flatMap fun m => l.map fun v => (e.addr n m v, 8 * m.rows)
  let vals := e.ms.map fun m => (veneerBase m.p + m.valOff, 8 * m.entryCount)
  let at' (f : SolMember → Nat × Nat) : List (Nat × Nat) := e.ms.map fun m => (veneerBase m.p + (f m).1, (f m).2)
  let xgs := at' fun m => (m.xgOff, 8 * (m.rows + m.halo))
  let hls := at' fun m => (m.hlOff, 8 * m.halo)
  let pat := (at' fun m => (m.maskOff, m.bands.foldl (fun n b => n + b.rows * ceilDiv b.width 8) 0)) ++
    at' fun m => (m.idxOff, 4 * m.entryCount)
  let s := s.readPoison (match x with
    | .vecs l _ => vs (chainReads [] l)
    | .halo v => vs [v] ++ hls
    | .mat _ tr x => pat ++ vals ++ (if tr then vs [x] ++ hls else xgs)
    | .jacobi => vals ++ at' fun m => (m.dposOff, 4 * m.rows)
    | .factor => vals ++ at' fun m => (m.bposOff, 4 * m.rows * e.d.nb)
    | .warmCheck => e.ms.map fun m => (e.addr n m .warm - 64, 64 + 8 * m.rows)
    | .block _ x tr => vs [x] ++ (e.ms.map fun m => (e.binv m, 8 * m.rows * e.d.nb)) ++
      (if tr then at' fun m => (m.tposOff, 4 * m.rows * e.d.nb) else [])
    | .out => vs [.ws 0]
    | .deriv => pat ++ vs [.ws 0] ++ xgs
    | _ => []) 8 0
  s.noteWrite id (s.solWrites e r x) 8

/-- What the checkers saw during a piece on physical cluster `p`: of the sequencer's copies and its scalar unit, or of
the array or the finisher of a member (R90, R97, R141, R220). -/
def State.solHw (s : State) (x : SPiece) (p : Nat) (hw : List HwFault) : State :=
  hw.foldl (fun s h => match h, x.act with
    | .descPar, _ => ((s.set SOL_HWERR.DESC_PAR 1).inc SOL_HWERR.COUNT).descPar scSeq 2 srcSOL 0
    | .residue, .sc _ => ((s.set SOL_HWERR.SCALAR_RES 1).inc SOL_HWERR.COUNT).raiseOpen 1 scSeq 2 srcSOL 1
    | .memCe _, _ | .memUe _, _ | .linkEcc _, _ => s.hwMem [h] 8 0
    | h, _ => if x.arr then s.arrPieceHw p 8 0 false h else s.finHw p [h]) s

/-- Chain `c` of cluster `p`'s sealed table, run in RESERVE, counts (R124, R135). -/
def State.tableCounts (s : State) (p c : Nat) : State :=
  let d := s.chainDesc p c
  let groups := d.nOuter * d.groups
  let st : List (Nat × Stream) := ((List.range 8).zip d.slots).filterMap fun e =>
    if e.2 = 0xFFFF then none else some (e.1, s.stream p e.2)
  let prog := s.finProg p d
  let mode (x : FinInstr) : Nat := ((st.find? fun y => y.1 + 8 == x.dst).map fun y => y.2.smode).getD 0
  let strict := s.is DET_MODE.STRICT
  ((s.chainCounts p c groups).inc (FIN_SCATTER.ORDERED_GROUPS p)
    (groups * prog.countP fun x => mode x == 1 || (mode x == 2 && strict))).inc
    (FIN_SCATTER.SERIALISED p) (if strict then prog.countP fun x => mode x == 2 else 0)

/-- What a piece counts on its members: the chains that the piece map names, each member's own, and the array's
operations of block-Jacobi, one for each block of a member. A user chain counts its scatter-adds as it runs. -/
def State.solCounts (s : State) (e : SolEnv) (r : SolveRun) (x : SPiece) : State :=
  if x.arr then
    e.ms.foldl (fun s m =>
      let n := ceilDiv m.rows e.d.nb
      ((s.inc (ARR_OPS.ENTRIES m.p) n).inc (ARR_OPS.PASSES m.p) (n * ceilDiv e.d.nb (tileWidth 4 1))).inc (ARR_MACS.MACS m.p) (n * e.d.nb * e.d.nb)) s
  else
    e.ms.foldl (fun s m => (s.pieceKs e r x).foldl (fun s k =>
      let c := s.mapEntry e.d m k
      if c = 0xFFFF then s
      else if x.isUser then s.chainCounts m.p c ((s.chainDesc m.p c).nOuter * (s.chainDesc m.p c).groups)
      else s.tableCounts m.p c) s) s

/-- The context of a solve ends: ACTIVE falls when neither solve of the context runs. -/
def State.solActive (s : State) : State :=
  let s := s.set SOL_STATUS.ACTIVE (s.sol.runs.foldl (fun m r => Nat.lor m (2 ^ r.ctx)) 0)
  s.setB SOL_STATUS.GATED (s.sol.runs.any fun r => r.phase == 1 && r.status != 0)

/-- The position after a piece: the next piece, round or phase that has one. -/
def SolveRun.advance (e : SolEnv) (r : SolveRun) : SolveRun :=
  let r := { r with pos := r.pos + 1 }
  if r.pos < (e.pieces r.phase r.iter).length then r
  else if r.phase = 0 then { r with phase := 1, iter := 0, pos := 0 }
  else if r.phase = 1 then
    let r := if e.d.method = 2 then { r with closing := false, scalars := Store.put r.scalars 0 91 0 } else r
    if r.iter + 1 < e.rounds then { r with iter := r.iter + 1, pos := 0 }
    else { r with phase := 2, iter := 0, pos := 0, status := (if r.status = 0 then 2 else r.status) }
  else { r with phase := r.phase + 1, pos := 0 }

/-- The piece counts a round as run or clock-gated (SOL_ITERS). -/
def countsRound : SAct → Bool
  | .sc .pcg1 | .sc .bi1 | .sc (.gNorm _) => true
  | _ => false

/-- The next piece of a solve (R201). -/
def State.solPiece (s : State) (ctx : Nat) (adj : Bool) (p : Nat) (fab : SolverIn) (hw : List HwFault) : State :=
  match s.sol.runs.find? fun r => r.ctx == ctx && r.adjoint == adj with
  | none => s
  | some r =>
    let rest := s.sol.runs.filter fun r => !(r.ctx == ctx && r.adjoint == adj)
    let et := s.solEnv ctx r.desc adj
    let e := et.1
    match (e.pieces r.phase r.iter)[r.pos]? with
    | none => ({ s with sol := { s.sol with runs := rest } }).solActive
    | some x =>
      let gated := r.phase == 1 && r.status != 0
      let s := s.solHw x p hw
      let s := s.solPoison e r (e.live r gated x.act)
      if !s.running then s
      else
        let b := if r.phase = 0 ∧ r.pos = 0 then s.solBegin e r else (s, r)
        let s := if e.live r gated x.act = .part ∧ x.act ≠ .part then b.1 else b.1.solCounts e r x
        let r := if countsRound x.act then b.2.count else b.2
        let y :=
          if x.act.isWarm && !e.d.warm then (s, r)
          else if gated then s.solGated e et.2 fab r x.act
          else if x.act = .sc .gClose then (s.clearVec e (.ws 1)).solAct e et.2 fab r x.act
          else s.solAct e et.2 fab r x.act
        let r := y.2.advance e
        let ended := (e.pieces r.phase r.iter)[r.pos]?.isNone
        let sol := y.1.sol
        -- A user chain that needs too many passes may have halted the device (R135).
        if !y.1.running then y.1
        else (if ended then { y.1 with sol := { sol with runs := rest, ended := sol.ended ++ [r] } }
         else { y.1 with sol := { sol with runs := rest ++ [r] } }).solActive

/-- SOLVER_PIECE. -/
def execSolverPiece (ctx : Nat) (adj : Bool) (p : Nat) (fab : SolverIn) (hw : List HwFault) (s : State) :
    Host.Outcome State Fault Refusal :=
  State.forUnit nPhys p
    (if s.running && s.tick.inTick && s.tick.freeze == 0 then s.solPiece ctx adj p fab hw else s)

/-- The sequencer's engine number within its unit. -/
def engSolve : Nat := 1

/-- SOLVE (R198): the solve's sequence of pieces starts. -/
def execSolve (i : Issue) (s : State) : Host.Outcome State Fault Refusal :=
  s.issue .krylov engSolve i false fun s =>
    ({ s with sol := { s.sol with runs := s.sol.runs ++ [SolveRun.fresh (i.tag % 16) i.desc (i.arg == 1) 0 0 0] } }).solActive

/-! ### The commit (R213, R215) -/

/-- What one solve counts; called after TICK_STEP has been incremented. -/
def State.solCount (s : State) (r : SolveRun) : State :=
  let s := match r.status with
    | 1 => s.inc SOL_OUTCOMES_A.CONVERGED
    | 2 => (s.inc SOL_OUTCOMES_A.CAPPED).set SOL_FLAGS.CAPPED 1
    | 3 => (s.inc SOL_OUTCOMES_B.BREAKDOWN).set SOL_FLAGS.BREAKDOWN 1
    | _ => (s.inc SOL_OUTCOMES_B.NONFINITE).set SOL_FLAGS.NONFINITE 1
  let s := if r.warmRej then (s.inc SOL_WARM.REJECTED).set SOL_FLAGS.WARM_REJECTED 1 else s
  let s := if r.warmNf then (s.inc SOL_WARM.REJ_NF).set SOL_FLAGS.WARM_REJECTED 1 else s
  let s := if r.trueFail then s.set SOL_FLAGS.TRUE_FAIL 1 else s
  let s := if 0 < r.pivots then (s.inc SOL_PIVOT.PIVOT_REPAIRED r.pivots).set SOL_FLAGS.PIVOT_REPAIRED 1 else s
  let s := if 0 < r.zeros then (s.inc SOL_PIVOT.ZERO_BLOCK r.zeros).set SOL_FLAGS.ZERO_BLOCK 1 else s
  let s := (s.inc SOL_ITERS.RUN r.ran).inc SOL_ITERS.GATED r.gated
  s.setAll [(SOL_LAST.CTX, r.ctx), (SOL_LAST.OUTCOME, r.status), (SOL_LAST.ADJ, ofBool r.adjoint),
    (SOL_LAST.ITERS, r.iters), (SOL_LAST.STEP_LO, s.get TICK_STEP.STEP % 2 ^ 16)]

/-- The solver's counters and SOL_LAST change at the commit. -/
def State.solCommit (s : State) : State := { s.sol.ended.foldl State.solCount s with sol := ⟨[], []⟩ }

/-- The step is abandoned: its counts are discarded (R213, R219). -/
def State.solDrop (s : State) : State := ({ s with sol := ⟨[], []⟩ } : State).solActive

end Sys2Proof.Machine
end

