-- ==== Sys2Proof/Machine/RegRead.lean ====
section
/-! DEFINITION. Reads of the register window and of the memories that the setup network and the host transport reach
(R8 to R10, R38, R246, R363): stored fields, and the fields that show state held elsewhere. -/

namespace Sys2Proof.Machine

open Reg

/-! ### Measurements (R385) -/

/-- The 32 bytes of measurement `i`. Without a site record item 5 is empty. DESIGN CHOICE: notes/assumptions/12.md. -/
def Aon.meas (x : Aon) (i : Nat) : List Nat :=
  match i with
  | 0 => Config.romDigest
  | 1 => shake256 (imageBoot x.image)
  | 2 => shake256 (imageMgmt x.image)
  | 3 => shake256 (imageRow x.image)
  | 4 => shake256 x.dev
  | 5 => shake256 (x.site.getD [])
  | 6 => shake256 (match x.siteBody with
    | some b => if certType (sectionCert b) = 2 then sectionCert b else List.replicate 32 0
    | none => List.replicate 32 0)
  | _ => shake256 x.pub

/-- Word `w` of the measurement that CFG_MEAS_INDEX selects. -/
def State.measWord (s : State) (w : Nat) : Nat :=
  match s.boot.aon with
  | some x => leNat (((x.meas (s.get CFG_MEAS_INDEX.INDEX)).drop (8 * w)).take 8)
  | none => 0

/-! ### Fields that show state held elsewhere -/

/-- Word `w` of the log entry that ERR_LOG_INDEX selects (R352). -/
def State.logWord (s : State) (w : Nat) : Nat :=
  match Store.find? s.err.log (s.get ERR_LOG_INDEX.ENTRY) with
  | some e => leNat (((logBytes e).drop (8 * w)).take 8)
  | none => 0

/-- The sealed digest that ASM_DIGEST_INDEX selects, low or high word; 0 if no bank is sealed (R199). -/
def State.digestWord (s : State) (hi : Bool) : Nat :=
  let c := if s.get TICK_STATUS.BANK = 0 then s.sealA else s.sealB
  match c with
  | none => 0
  | some c =>
    let t := if s.get TICK_STATUS.BANK = 0 then ASM_PAT_A.ADDR else ASM_PAT_B.ADDR
    let base := Store.get c.flds t.reset t.key * 64
    Memory.rd c.mem (base + s.get ASM_DIGEST_INDEX.PATTERN * 64 + (if hi then 16 else 8)) 8

/-- RESIDENT_TO (R366): the last step of the run of resident steps from `m`, among the `n` steps from there. -/
def State.residentTo (s : State) (m : Nat) : Nat → Nat
  | 0 => m
  | n + 1 => if s.resident m then s.residentTo (m + 1) n else m

/-- An exclusion of the glue-up watchdog is in force (R345): stretch cycles of the step's last tick, its own or those a
notice reports, among them. -/
def State.wdogHeld (s : State) : Bool :=
  (s.tick.inTick && s.is TICK_STATUS.STRETCHING && decide (s.stepTicks ≤ s.get TICK_STATUS.TICK_IN_STEP + 1)) ||
  decide (s.tick.glue ≠ 0) && (decide (s.tick.now < s.tick.exclEnd) || (List.range 8).any (fun p => s.is (LNK_STATUS.REPLAYING p)) ||
    (s.tick.glue == 7 && (s.tick.held || s.tick.heldOut)) || s.tick.mismatch || s.is ERR_SWAP.BUSY || s.tick.glue == 5)

/-- PWR_FAIL_N is asserted, or held asserted to the end of a second that saw more than 16 assertions (R408). -/
def State.pfActive (s : State) : Bool :=
  s.pwr.pfLow || decide (16 < (s.pwr.pfTimes.filter fun t =>
    decide (s.tick.now - t < s.get CLK_STATUS.CORE_MHZ * 1000000)).length)

/-- A register of a cluster block that shows state held elsewhere. -/
def State.computedCluster (s : State) (p : Nat) (f : Fld) : Option Nat :=
  if f = ARR_STATUS.BUSY p then some (s.arrBusyBits p)
  else if f = ARR_STATUS.RESERVED p then some (ofBool (s.reserved p 1))
  else if f = FIN_STATUS.RESERVED p then some (ofBool (s.reserved p 2))
  else if f = ACC_STATUS.DEBUG p then some (s.get (ACC_DEBUG.ENABLE p))
  else match scarfOf s.active p with
    | none => if f.addr = (ARR_SCARF.ROLE p).addr then some 0 else none
    | some (role, hops, mate) =>
      if f = ARR_SCARF.ROLE p then some role
      else if f = ARR_SCARF.HOPS p then some hops
      else if f = ARR_SCARF.VALID p then some 1
      else if f = ARR_SCARF.PARTNER p then some mate
      else none

/-- A field of an update unit's status that shows state held elsewhere: the generation being written, and whether the
step's export writes are active. -/
def State.computedUpd (s : State) (u : Nat) (f : Fld) : Option Nat :=
  if f = UPD_STATUS.GEN u then some (s.get TICK_STEP.STEP % 2)
  else if f = UPD_STATUS.TEE u then some (ofBool (s.upd.exporting && !s.is TICK_STATUS.DRY))
  else none

/-- A field outside the cluster blocks that shows state held elsewhere. -/
def State.computedOther (s : State) (f : Fld) : Option Nat :=
  if f = ERR_LOG_DATA0.DATA then some (s.logWord 0)
  else if f = ERR_LOG_DATA1.DATA then some (s.logWord 1)
  else if f = ERR_LOG_DATA2.DATA then some (s.logWord 2)
  else if f = ERR_LOG_DATA3.DATA then some (s.logWord 3)
  else if f = CFG_MEAS_DATA0.DIGEST then some (s.measWord 0)
  else if f = CFG_MEAS_DATA1.DIGEST then some (s.measWord 1)
  else if f = CFG_MEAS_DATA2.DIGEST then some (s.measWord 2)
  else if f = CFG_MEAS_DATA3.DIGEST then some (s.measWord 3)
  else if f = ASM_DIGEST_LO.DIGEST then some (s.digestWord false)
  else if f = ASM_DIGEST_HI.DIGEST then some (s.digestWord true)
  else if f = ROOT_REC_DATA.DATA then some (s.rootRecWord (s.get ROOT_REC_INDEX.DESC) (s.get ROOT_REC_INDEX.WORD))
  else if f = THERM_SENSOR.TEMP_C then
    some (((s.pwr.temps.getD (s.get THERM_SENSOR.INDEX) 0) % 256).toNat)
  else if f = BCP_INBOX_RES.RESIDENT_TO then
    some ((s.residentTo (s.get TICK_STEP.STEP) (s.get BCP_INBOX_TBL.DEPTH) + (2 ^ 64 - 1)) % 2 ^ 64)
  else if f = ERR_WDOG.HELD then some (ofBool s.wdogHeld)
  else if f = PWR_ASYNC_FLAGS.PF_ACTIVE then some (ofBool s.pfActive)
  else if f = VNR_POISON.HELD then some (s.poison.filter fun w => decide (lpddrEnd ≤ w)).length
  else none

/-- What a read of a field returns (R10). -/
def State.readField (s : State) (f : Fld) : Nat :=
  let stored := if f.acc = .wo then 0 else s.get f
  if arrBase 0 ≤ f.addr ∧ f.addr < arrBase nPhys then
    (s.computedCluster ((f.addr - arrBase 0) / 0x10000) f).getD stored
  else if (UPD_STATUS.GEN 0).addr ≤ f.addr ∧ f.addr < (UPD_STATUS.GEN 16).addr then
    (s.computedUpd ((f.addr - (UPD_STATUS.GEN 0).addr) / 0x10000) f).getD stored
  else (s.computedOther f).getD stored

/-- The word of a register from its fields; reserved bits read 0 (R7). -/
def State.readWord (s : State) (fs : List Fld) : Nat :=
  fs.foldl (fun w f => w + s.readField f % 2 ^ f.width * 2 ^ f.lo) 0

/-- ACC_DBG_DATA, whose reads R118 restricts. -/
def accDbgOf (a : Nat) : Option Nat :=
  if arrBase 0 ≤ a ∧ a < arrBase nPhys ∧ (a - arrBase 0) % 0x10000 = 0x4050 then some ((a - arrBase 0) / 0x10000)
  else none

/-! ### Reads by the setup network and the host transport -/

/-- What an access over the setup network or the host transport raises where it meets poisoned veneer (R252). -/
def State.setupPoison (s : State) (a n : Nat) : State :=
  (s.poisonIn a n).foldl (fun s w => s.memUncorrectable w 14 3) s

/-- A host-transport read that meets a poisoned word: the error is recorded, and the requester sees it (R258). DESIGN
CHOICE: notes/assumptions/16.md. -/
def State.hostPoison (s : State) (w : Nat) : State :=
  (s.inc (MEM_ECC.UE (w / lpddrWindow))).memRecord w 1 14 3

/-- A read of the 64-bit word at an address (R9, R38, R246, R363): its value, or nothing. -/
def State.readAt (s : State) (a : Nat) : Option Nat × State :=
  if a % 8 ≠ 0 ∨ 2 ^ 48 ≤ a then (none, s)
  else match regionOf s.active a with
    | .csr =>
      (match accDbgOf a with
      | some p => let t := s.accDebug p; ((if t.resp.ok then some t.resp.data else none), s)
      | none =>
        let fs := fieldsAt a
        if fs.isEmpty then (none, s) else (some (s.readWord fs), s))
    | .lpddr =>
      (match s.poisonIn a 8 with
      | [] => (some (s.rd a 8), s.memTraffic [(a, 8)])
      | w :: _ => (none, s.hostPoison w))
    | .veneer _ _ =>
      if (s.poisonIn a 8).isEmpty then (some (s.rd a 8), s) else (none, s.setupPoison a 8)
    | .list _ _ _ | .rowSetup _ _ => (some (s.rd a 8), s)
    | .hole => (none, s)

end Sys2Proof.Machine
end

