-- ==== Sys2Proof/Machine/Outbox.lean ====
section
/-! DEFINITION. What the host interface does at a commit (R365 to R369): the release of the inbox set, the outbox push,
and the SAMPLE event. The packets of a push are in notes/assumptions/22.md (DESIGN CHOICE). -/

namespace Sys2Proof.Machine

open Reg

/-! ### Queue pairs -/

/-- A queue pair by its number. -/
def State.qp (s : State) (n : Nat) : Option Qp := s.host.qps.find? fun q => q.qpn == n

/-- Replace a queue pair. -/
def State.setQp (s : State) (q : Qp) : State :=
  s.updHost fun h => { h with qps := h.qps.map fun x => if x.qpn = q.qpn then q else x }

/-- The bytes of a path MTU code (R356). -/
def mtuBytes (code : Nat) : Nat := 128 * 2 ^ code

/-- A packet sequence number has 24 bits. -/
def psnMod : Nat := 2 ^ 24

/-! ### Pushes (R368) -/

/-- The outbox entries with the sum of the lengths before each: base, length, offset. -/
def outParts : List (Nat × Nat) → Nat → List (Nat × Nat × Nat)
  | [], _ => []
  | (b, l) :: t, o => (b, l, o) :: outParts t (o + l)

/-- S_out. -/
def State.outBytes (s : State) : Nat := (s.host.outTbl.map (·.2)).sum

/-- The SEND that ends the push of a step (R368). -/
def pushRecord (step count flags total : Nat) : List Nat :=
  leBytes 8 step ++ leBytes 2 count ++ leBytes 2 flags ++ leBytes 4 0 ++ leBytes 8 total ++ leBytes 8 0

/-- The packets of one RDMA WRITE: source, destination and length. -/
def writeParts (src dst mtu len : Nat) : List (Nat × Nat × Nat) :=
  (List.range (ceilDiv len mtu)).map fun k => (src + k * mtu, dst + k * mtu, min mtu (len - k * mtu))

/-- The WRITE packets of a push: buffers in ascending order, each to its place in the host's ring. -/
def State.pushParts (s : State) (b : OutBind) (mtu step : Nat) : List (Nat × Nat × Nat) :=
  (outParts s.host.outTbl 0).flatMap fun p =>
    writeParts (p.1 + step % 2 * p.2.1) (b.addr + step % b.ring * s.outBytes + p.2.2) mtu p.2.1

/-- Send packet `k` of a push: a WRITE, or the SEND that ends it. -/
def State.sendPart (s : State) (q : Qp) (b : OutBind) (x : Push) (parts : List (Nat × Nat × Nat)) (k psn : Nat) : State :=
  match parts[k]? with
  | some p =>
    let s := (s.poisonIn p.1 p.2.2).foldl (fun s a => s.hostPoison a) s
    ((s.memTraffic [(p.1, p.2.2)]).inc ETH_RD_BYTES.BYTES p.2.2).emitEth q.args.rmac
      (.rdmaWrite q.qpn psn p.2.1 b.rkey (s.rdBytes p.1 p.2.2))
  | none => s.emitEth q.args.rmac (.rdmaSend q.qpn psn (pushRecord x.step s.host.outTbl.length x.flags s.outBytes))

/-- Send the whole push of a step on a queue pair. DESIGN CHOICE: notes/assumptions/22.md. -/
def State.transmitPush (s : State) (q : Qp) (b : OutBind) (x : Push) : State :=
  let parts := s.pushParts b (mtuBytes q.args.mtu) x.step
  let psns := (List.range (parts.length + 1)).map fun k => (q.txPsn + k) % psnMod
  let s := (psns.zip (List.range psns.length)).foldl (fun s e => s.sendPart q b x parts e.2 e.1) s
  (s.setQp { q with txPsn := (q.txPsn + psns.length) % psnMod, retries := 0 }).updHost fun h =>
    { h with pushes := { x with via := some b, waiting := psns } :: h.pushes.drop 1 }

/-- Send the packets of the oldest push that are not acknowledged once more. -/
def State.resendPush (s : State) (q : Qp) (b : OutBind) (x : Push) : State :=
  let parts := s.pushParts b (mtuBytes q.args.mtu) x.step
  let first := parts.length + 1 - x.waiting.length
  (x.waiting.zip (List.range x.waiting.length)).foldl (fun s e => s.sendPart q b x parts (first + e.2) e.1) s

/-- The oldest push starts when nothing of it is under way, a binding exists and its queue pair can send. -/
def State.startPush (s : State) : State :=
  match s.host.pushes, s.host.bind with
  | x :: _, some b =>
    (match s.qp b.qpn with
    | some q => if q.error || !x.waiting.isEmpty then s else s.transmitPush q b x
    | none => s)
  | _, _ => s

/-- After a commit of step `n`, its outputs are pushed (R368). -/
def State.queuePush (s : State) (n : Nat) (replayed : Bool) : State :=
  if s.host.outTbl.isEmpty then s
  else
    ((s.updHost fun h => { h with pushes := h.pushes ++ [⟨n, ofBool replayed, none, []⟩] }).set BCP_OUTBOX_STAT.PENDING 1).startPush

/-- At the commit of step `n` its input buffers become OPEN for step `n + D` (R366). -/
def State.releaseInputs (s : State) (n : Nat) : State :=
  s.updHost fun h => { h with inbox := h.inbox.filter fun e => e.1.1 != n }

/-! ### SAMPLE (R369) -/

/-- The SAMPLE event of committed step `n`, if one is due. -/
def State.sampleEvent (s : State) (n : Nat) : State :=
  match s.host.sub with
  | none => s
  | some b =>
    if n % 2 ^ b.args.sampleLog2 = 0 then
      let r := b.args.addrs.foldl (fun (r : List Nat × State) a =>
        let x := r.2.readAt a
        (r.1 ++ leBytes 8 (x.1.getD 0), x.2)) ([], s)
      r.2.event 0x03 r.1
    else s

end Sys2Proof.Machine
end

