-- ==== Sys2Proof/Machine/Swap.lean ====
section
/-! DEFINITION. Spare swaps (R337 to R339): the shift of logical columns towards a good inactive position, the copies,
the seals, and the map. -/

namespace Sys2Proof.Machine

open Reg

/-! ### Positions -/

/-- The nearest good inactive position of the row of `c`: on its right, or else on its left. -/
def spareFor (active good c : Nat) : Option Nat :=
  let row := c / 34
  let free (k : Nat) := bit good (row * 34 + k) && !bit active (row * 34 + k)
  match ((List.range 34).filter fun k => decide (c % 34 < k) && free k).head? with
  | some k => some (row * 34 + k)
  | none => (((List.range 34).filter fun k => decide (k < c % 34) && free k).getLast?).map fun k => row * 34 + k

/-- The positions whose contents move, from the disabled one to the spare: each takes the place of the next. -/
def shiftChain (active c target : Nat) : List Nat :=
  let between := (List.range nPhys).filter fun p => bit active p &&
    ((decide (c < p) && decide (p < target)) || (decide (target < p) && decide (p < c)))
  [c] ++ (if c < target then between else between.reverse) ++ [target]

/-- The moves of a chain, the last first: from, to. -/
def shiftMoves (l : List Nat) : List (Nat × Nat) := (l.zip (l.drop 1)).reverse

/-! ### Copies -/

/-- Copy `n` bytes within a sparse map; the two ranges do not overlap. -/
def blit (m : List Host.Cell) (src dst n : Nat) : List Host.Cell :=
  (Store.range m src n).foldl (fun m e => Store.insert m (e.1 - src + dst) e.2) (Store.eraseRange m dst n)

/-- Copy a range from one memory to the same place of another. -/
def refresh (from' to' : List Host.Cell) (a n : Nat) : List Host.Cell :=
  (Store.range from' a n).foldl (fun m e => Store.insert m e.1 e.2) (Store.eraseRange to' a n)

/-- The key of a field of the cluster block at `p` is that of an RW or RW-L field. -/
def clusterRw (p k : Nat) : Bool :=
  decide (arrBase p * 64 ≤ k) && decide (k < arrBase (p + 1) * 64) &&
    (match fieldOfKey k with
    | some f => f.acc == .rw || f.acc == .rwl
    | none => false)

/-- The RW fields of the four blocks of a cluster take the values of another cluster's. -/
def moveFields (fl : List (Nat × Nat)) (src dst : Nat) : List (Nat × Nat) :=
  (fl.filter fun e => clusterRw src e.1).foldl
    (fun m e => Store.insert m (e.1 - arrBase src * 64 + arrBase dst * 64) e.2)
    (fl.filter fun e => !clusterRw dst e.1)

/-- One cluster's list memory, RW fields and veneer region move to a new position; poisoned words stay poisoned. -/
def State.moveCluster (s : State) (src dst : Nat) : State :=
  let m := blit s.mem (listBase .cluster src) (listBase .cluster dst) (listSize .cluster)
  let m := blit m (veneerBase src) (veneerBase dst) veneerSize
  let inDst (w : Nat) := decide (veneerBase dst ≤ w) && decide (w < veneerBase dst + veneerSize)
  let moved := (s.poison.filter fun w => decide (veneerBase src ≤ w) && decide (w < veneerBase src + veneerSize)).map
    fun w => w - veneerBase src + veneerBase dst
  { s with mem := m, flds := moveFields s.flds src dst, poison := (s.poison.filter fun w => !inDst w) ++ moved }

/-- The seal of the active bank covers the moved positions again. -/
def State.resealAt (s : State) (c : SealCopy) (ps : List Nat) : SealCopy :=
  { mem := ps.foldl (fun m p => refresh s.mem (refresh s.mem m (listBase .cluster p) (listSize .cluster))
             (veneerBase p) veneerSize) c.mem,
    flds := ps.foldl (fun fl p => (s.flds.filter fun e => clusterRw p e.1).foldl (fun m e => Store.insert m e.1 e.2)
              (fl.filter fun e => !clusterRw p e.1)) c.flds,
    active := s.active }

/-- A working map comes into force; always-on SRAM keeps it with its digest (R383). -/
def State.setMap (s : State) (active good : Nat) : State :=
  ({ s with active := active, good := good }).updBoot fun b => { b with aon := b.aon.map fun x : Aon => { x with map := active }.sealed }

/-- One swap (R337): shift, copy, seal, map, record. `sealAgain` is false in IDLE (R338). DEDUCED:
notes/assumptions/31.md. -/
def State.doSwap (s : State) (c target : Nat) (sealAgain : Bool) : State :=
  let chain := shiftChain s.active c target
  let s := (shiftMoves chain).foldl (fun s m => s.moveCluster m.1 m.2) s
  let s := s.setMap (s.active - 2 ^ c + 2 ^ target) (s.good - 2 ^ c)
  let s : State := if sealAgain then
      let bank : Nat := s.get TICK_STATUS.BANK
      let ps := chain.drop 1
      let s : State := if bank = 0 then { s with sealA := s.sealA.map fun x => s.resealAt x ps }
        else { s with sealB := s.sealB.map fun x => s.resealAt x ps }
      (s.unseal (1 - bank)).set TICK_PHASE.ARM 0
    else s
  let s := s.mapChange (s.get TICK_STEP.STEP)
  ((s.inc ERR_SPARE.SWAPS).setAll [(ERR_SPARE.LAST_PCLUSTER, c), (ERR_SPARE_STEP.STEP, s.get TICK_STEP.STEP),
    (ERR_SWAP.DONE, 1)])

/-- The swaps that are ordered begin; a row without a good inactive position raises SPARE_EXHAUSTED (R337). -/
def State.beginSwaps (s : State) : State :=
  match s.err.swaps with
  | [] => s.set ERR_SWAP.BUSY 0
  | c :: _ =>
    match spareFor s.active s.good c with
    | some _ => s.set ERR_SWAP.BUSY 1
    | none =>
      let failed := s.err.hostSwap
      let s := (s.updErr fun x => { x with swaps := [], hostSwap := false }).setAll
        ([(ERR_SWAP.BUSY, 0), (ERR_STATUS.SPARE_EXHAUSTED, 1)] ++ if failed then [(ERR_SWAP.FAILED, 1)] else [])
      s.raiseFree 2 srcERR 3

/-- The swap in progress ends; the next one begins unless a consequence waits (R332). -/
def State.swapDone (s : State) : State :=
  match s.err.swaps with
  | [] => s
  | c :: cs =>
    let s := s.updErr fun x => { x with swaps := cs }
    let s := match spareFor s.active s.good c with
      | some t => s.doSwap c t (s.job != 0)
      | none => s
    if s.err.haltAfter then (s.updErr fun x => { x with swaps := [] }).beginSwaps else s.beginSwaps

/-- ERR_SWAP.SWAP (R338): effective in HALT and IDLE; an inactive position is refused. -/
def State.actSwap (s : State) (c : Nat) : State :=
  let s := s.set ERR_SWAP.PCLUSTER c
  if (s.job = 0 ∨ s.job = 3) ∧ s.is ERR_SWAP.BUSY = false then
    (if s.isActive c then
      (s.updErr fun x => { x with swaps := [c], hostSwap := true }).beginSwaps
    else s.set ERR_SWAP.FAILED 1).okay
  else s.okay

/-- ERR_SWAP. -/
def execErrSwap (pc : Nat) (s : State) : Host.Outcome State Fault Refusal := .next (s.write fun s => s.actSwap pc)

end Sys2Proof.Machine
end

