-- ==== Sys2Proof/Machine/SquareUp.lean ====
section
/-! DEFINITION. Start requests and the square-up (R34, R35, R53, R242, R286 to R288, R295): gather tokens, go frames,
and tick 0. -/

namespace Sys2Proof.Machine

open Reg

/-! ### Tokens (table "Square-up token") -/

/-- The device waits for a square-up: actions 1 to 7 are complete and no swap runs, or a request is written. -/
def State.squareReady (s : State) : Bool :=
  s.tick.tickZeroAt.isNone && !s.is ERR_SWAP.BUSY &&
    (if s.running then s.tick.glue == 8 else s.tick.startPend || s.tick.dryPend)

/-- The device's own part of the token. -/
def State.ownToken (s : State) : Token :=
  let n := s.get TICK_STEP.STEP
  { step := n, stepEq := true, startAll := s.tick.startPend, startAny := s.tick.startPend,
    dryAll := s.tick.dryPend, dryAny := s.tick.dryPend, dryBank := s.tick.dryBank, dryEq := true,
    phaseAll := s.is TICK_PHASE.ARM && s.get TICK_PHASE_STEP.AT_STEP == n + 1,
    phaseAny := s.is TICK_PHASE.ARM && s.get TICK_PHASE_STEP.AT_STEP == n + 1,
    phaseAt := s.get TICK_PHASE_STEP.AT_STEP, phaseEq := true,
    exportAll := s.is UPD_EXPORT.ARM && s.get UPD_EXPORT_STEP.AT_STEP == n,
    exportAt := s.get UPD_EXPORT_STEP.AT_STEP, exportEq := true,
    permAll := s.is FAB_PERM.ARM || s.is FAB_PERM.CONFIRMED }

/-- Two parts combined. -/
def Token.join (a b : Token) : Token :=
  { step := a.step, stepEq := a.stepEq && b.stepEq && a.step == b.step, startAll := a.startAll && b.startAll,
    startAny := a.startAny || b.startAny, dryAll := a.dryAll && b.dryAll, dryAny := a.dryAny || b.dryAny,
    dryBank := a.dryBank, dryEq := a.dryEq && b.dryEq && a.dryBank == b.dryBank, phaseAll := a.phaseAll && b.phaseAll,
    phaseAny := a.phaseAny || b.phaseAny, phaseAt := a.phaseAt, phaseEq := a.phaseEq && b.phaseEq && a.phaseAt == b.phaseAt,
    exportAll := a.exportAll && b.exportAll, exportAt := a.exportAt,
    exportEq := a.exportEq && b.exportEq && a.exportAt == b.exportAt, permAll := a.permAll && b.permAll }

/-- The root's confirmations (R32, R34, R35, R242, R295). A phase change that some device offers and the slice does not
confirm is missed on every device: the go frame says so (DEDUCED: notes/assumptions/31.md). -/
def goOf (t : Token) (entropy : Nat) : GoFrame :=
  let phase := t.phaseAll && t.phaseEq
  { step := t.step, stepEq := t.stepEq, start := t.startAll, dry := t.dryAll && t.dryEq, dryBank := t.dryBank,
    mixed := t.startAny && t.dryAny, phase := phase, phaseMiss := t.phaseAny && !phase,
    exp := t.exportAll && t.exportEq,
    perm := t.permAll && phase, accDelay := 0, entropy := entropy }

/-! ### Go -/

/-- Pass a go frame to the children, with each child link's delay and the device's own forwarding delay (R287). -/
def State.sendGo (s : State) (g : GoFrame) (own : Nat) : State :=
  s.children.foldl (fun s p =>
    s.emit (.go p { g with accDelay := (g.accDelay + s.get (LNK_SHIM.SHIM_QC p) + own) % 2 ^ 24 })) s

/-- The export request at a square-up (R242): confirmed, or missed. -/
def State.exportAtGo (s : State) (confirmed : Bool) : State :=
  let at' := s.get UPD_EXPORT_STEP.AT_STEP
  if confirmed then
    (s.setAll [(UPD_EXPORT.ARM, 0), (UPD_EXPORT.VALID, 0)]).updUpd fun u => { u with exporting := true }
  else if s.is UPD_EXPORT.ARM && decide (at' ≤ s.get TICK_STEP.STEP) then
    (s.setAll [(UPD_EXPORT.ARM, 0), (UPD_EXPORT.MISSED, 1)]).event 0x05 (leBytes 8 at' ++ [1])
  else s

/-- The permutation and the phase change at a square-up: confirmed or not. A permutation that an earlier attempt of the
step confirmed, and this square-up does not, is latched again (R32, R295, R306). -/
def State.confirmAtGo (s : State) (g : GoFrame) : State :=
  let s := s.updTick fun t => { t with phaseOk := g.phase, phaseLost := g.phaseMiss, permOk := g.perm }
  if g.perm then s.setAll [(FAB_PERM.ARM, 0), (FAB_PERM.CONFIRMED, 1)]
  else if s.is FAB_PERM.CONFIRMED then s.setAll [(FAB_PERM.ARM, 1), (FAB_PERM.CONFIRMED, 0)]
  else s

/-- The requests of LOADED and HALT at the first square-up: a start, a dry fit, or neither (R35). -/
def State.firstAtGo (s : State) (g : GoFrame) : State :=
  let s := s.updTick fun t => { t with startPend := false, dryPend := false, sent := false, gathers := [] }
  if g.mixed then s.set TICK_STATUS.START_MISSED 1
  else if g.start then
    let s := if s.job = 1 then s.beginRun
      else (s.dropOutcomes.setAll [(ERR_LADDER.ATTEMPT, 0), (ERR_STATUS.COMMIT_READY, 0)]).updErr fun x =>
        { x with ueSeen := [], ueSeenPrev := [] }
    ((s.exportAtGo g.exp).confirmAtGo g).setJob 2 0 |>.updTick fun t => { t with glue := 8 }
  else if g.dry then
    let s := (s.clearEach (EXN_ENTRY_MAX.MAX_CC 0) 0x10000 64).clearEach (EXN_ENTRY_MAX.DESC 0) 0x10000 64
    (s.setAll [(TICK_STATUS.DRY, 1), (TICK_DRY.PASS, 0), (TICK_MARGIN.MIN_SLACK_CC, 0xFFFFF),
      (TICK_MARGIN.AT_TICK_IN_STEP, 0)]).updTick fun t => { t with glue := 8, dryFault := false }
  else s

/-- The entropy word of the job load (R53). -/
def State.entropyAtGo (s : State) (g : GoFrame) : State :=
  if s.tick.firstSquareUp then
    (s.set FAB_ENTROPY.WORD g.entropy).updTick fun t => { t with firstSquareUp := false }
  else s

/-- When tick 0 starts (R287); a go frame later than the lead starts it at once and is fatal-to-slice. -/
def State.scheduleZero (s : State) (acc : Nat) : State :=
  let lead := s.get FAB_SQUP.LEAD_CC
  let late := decide (4 * lead < acc)
  let at' := if late then s.tick.now else s.tick.now + lead - (acc + 2) / 4
  let s := s.updTick fun t => { t with tickZeroAt := some at' }
  if late then
    let (v, s) := (s.set FAB_SQUP.LATE 1).draw
    s.raiseOpen 2 scSlice (s.get FAB_ID.DEV) srcFAB (v % 2 ^ 16)
  else s

/-- A go frame takes effect on this device: the square-up counts, whatever it confirms (R287). -/
def State.applyGo (s : State) (g : GoFrame) : State :=
  let s := (s.set FAB_SQUP.ACC_DELAY g.accDelay).entropyAtGo g |>.updTick fun t => { t with squareUps := t.squareUps + 1 }
  let s := if s.running then
      let s := s.updTick fun t => { t with sent := false, gathers := [] }
      if s.is TICK_STATUS.DRY then s else (s.exportAtGo g.exp).confirmAtGo g
    else s.firstAtGo g
  if s.running then s.scheduleZero g.accDelay else s

/-- The subtree's frames carry unequal steps (R287). -/
def State.stepMismatch (s : State) : State :=
  let s := (s.set FAB_FLAGS.STEP_MISMATCH 1).updTick fun t => { t with gathers := [] }
  s.raiseOpen 2 scSlice (s.get FAB_ID.DEV) srcFAB 4

/-- Send the gather once the device is ready and every child's gather is in; the root sends go. -/
def State.trySquareUp (s : State) : State :=
  if !s.squareReady || s.tick.sent || !s.children.all (fun p => s.tick.gathers.any fun g => g.1 == p) then s
  else
    let parts := (s.tick.gathers.filter fun g => s.children.any (· == g.1)).map (·.2)
    let own := s.ownToken
    let t := parts.foldl Token.join own
    if parts.any fun x => x.step != own.step then s.stepMismatch
    else match s.parent with
      | some p => (s.emit (.gather p t)).updTick fun t => { t with sent := true }
      | none =>
        let r : Nat × State := if s.tick.firstSquareUp then (let d := s.draw; (d.1 % 2 ^ 64, d.2))
          else (s.get FAB_ENTROPY.WORD, s)
        let g := goOf t r.1
        (r.2.sendGo g 0).applyGo g

/-- SQUARE_UP_GATHER: a child's gather frame. -/
def execSquareUpGather (p : Nat) (t : Token) (s : State) : Host.Outcome State Fault Refusal :=
  if p < 8 then
    .next (if s.children.any (· == p) && !(s.tick.gathers.any fun g => g.1 == p) then
        (s.updTick fun x => { x with gathers := x.gathers ++ [(p, t)] }).trySquareUp
      else s)
  else .fault .noSuchUnit

/-- SQUARE_UP_GO: the go frame is forwarded at once, with 192 qc of the device's own, and takes effect. -/
def execSquareUpGo (g : GoFrame) (s : State) : Host.Outcome State Fault Refusal :=
  .next (if s.parent.isSome && s.tick.sent && s.squareReady then (s.sendGo g 192).applyGo g else s)

/-! ### Tick 0 -/

/-- The registers of every list context are zeroed, its control registers among them (R170). -/
def State.zeroListCtx (s : State) : State :=
  { s with xr := s.xr.filter (fun e => e.1 / 256 % 2 != 0),
           flds := s.flds.filter fun e =>
             !(decide (csrBase 0 0 ≤ e.1 / 64) && decide (e.1 / 64 < csrBase 64 0) && (e.1 / 64 - csrBase 0 0) / 0x10000 % 2 == 0) }

/-- The errors that belong to the attempt about to start, those still queued among them (R329, R332). -/
def State.rotateErrors (s : State) : State :=
  let s := s.updErr fun x =>
    if x.gathered then
      { x with named := x.nextNamed, nextNamed := [], first := (x.nextNamed ++ x.queue.map (·.err)).head?,
               queue := x.queue.map fun q => { q with next := false }, handNext := false, gathered := false,
               parityHere := x.parityNext, parityNext := false,
               remote := x.nextRemote, nextRemote := [] }
    else { x with remote := x.nextRemote, nextRemote := [] }
  s.setB ERR_STATUS.PENDING (!s.err.named.isEmpty || !s.err.queue.isEmpty)

/-- TICK_ZERO: tick 0 of the step starts, and SQUP_OUT pulses (R287, R290). -/
def execTickZero (s : State) : Host.Outcome State Fault Refusal :=
  .next (match s.tick.tickZeroAt with
    | none => s
    | some z =>
      if !s.running then s
      else
        let s := s.updTick fun t => { t with now := max t.now z, tickZeroAt := none }
        let s := if s.tick.glueStart = 0 ∨ s.is TICK_STATUS.DRY = true then s
          else s.set TICK_GLUE.LAST_CC (s.tick.now - s.tick.glueStart)
        let s := (s.set TICK_STATUS.TICK_IN_STEP 0).emit .squpPulse
        let s := ({ s.zeroListCtx with rows := s.rows.map (fun (r : Nat × RowSt) => (r.1, { r.2 with faulted := false })),
                                       lands := s.lands.filter fun l => !l.abandoned }).rotateErrors
        (s.updTick fun t => { t with glue := 0, glueStart := 0, held := false, heldOut := false, mismatch := false, sent := false,
                                     exclEnd := 0,
                                     injectLive := s.is ERR_INJECT.ARM && s.job == 2 &&
                                       decide (t.injectStep ≤ s.get TICK_STEP.STEP) }).beginTick)

/-! ### Requests (R34, R35, R367, R426) -/

/-- TICK_CTRL.START (R35, R36, R227, R235, R161): held until the square-up. -/
def State.actStart (s : State) : State :=
  if s.startOk then
    let s := (((s.updTick fun t => { t with startPend := true }).bindAll ((s.get TICK_STEP.STEP + 1) % 2)).rootBindAll).evalSchedule
    s.trySquareUp.okay
  else s.denied

/-- TICK_CTRL_START. -/
def execTickCtrlStart (s : State) : Host.Outcome State Fault Refusal := .next (s.write State.actStart)

/-- TICK_DRY.START of the bank that TICK_DRY.BANK names at the request: without effect unless the bank is sealed (R34, R35, R367). -/
def State.actDry (s : State) : State :=
  if !s.dryOk then s.denied
  else if s.is (sealedF (s.get TICK_DRY.BANK)) then
    ((s.updTick fun t => { t with dryPend := true, dryBank := s.get TICK_DRY.BANK }).trySquareUp).okay
  else s.okay

/-- TICK_DRY_START: the bank is written, then the request. -/
def execTickDryStart (bank : Nat) (s : State) : Host.Outcome State Fault Refusal :=
  .next (s.write fun s => (s.set TICK_DRY.BANK bank).actDry)

/-- SPARE_SWAP_DONE: the swap in progress ends. When none is left, a consequence that waited takes effect, and a device
that rolled back goes on to the square-up (R332, R337). -/
def execSpareSwapDone (s : State) : Host.Outcome State Fault Refusal :=
  .next (if s.is ERR_SWAP.BUSY && !s.err.swaps.isEmpty then
      let s := s.swapDone
      if s.is ERR_SWAP.BUSY then s
      else if s.err.haltAfter then
        let s := if s.err.noticeAfter then s.set ERR_STATUS.HALT_NOTICE 1 else s
        let s := s.updErr fun x => { x with haltAfter := false, noticeAfter := false }
        match s.err.handling with
        | some e => if e.cls = 2 then s.fatalSlice e (s.err.inHand.getD 0) else s.enterHalt s.lastSeq
        | none => s.enterHalt s.lastSeq
      else s.trySquareUp
    else s)

end Sys2Proof.Machine
end

