-- ==== Sys2Proof/Machine/Rollback.lean ====
section
/-! DEFINITION. Step replay (R333 to R339, R426): the rollback of an attempt, the ladder, and the errors that were
queued (R332). -/

namespace Sys2Proof.Machine

open Reg

/-- Accumulators and table memories are zeroed (R116, R137, R333). -/
def State.zeroTotals (s : State) : State :=
  ((s.zeroRange (accumBase 0) (nPhys * 0x40000)).zeroRange (ftabBase 0) (nPhys * 0x10000)).arrSingle

/-- What a rollback discards (R63, R79, R116, R137, R161, R213, R333). DEDUCED: notes/assumptions/31.md. -/
def State.discardAttempt (s : State) : State :=
  let s := s.zeroTotals.solDrop.stopRows.dropDue
  { s with census := [], lands := [], root := { s.root with runs := [], outcomes := [] },
           rows := s.rows.map (fun r => (r.1, { r.2 with faulted := false })),
           upd := { s.upd with params := [], moved := [], skipped := false, clipped := false, ssq := none, peerCrcs := [],
                               sent := false, repairs := [], noMajority := false } }

/-- The contained errors of the attempt, in log order: those taken in hand, and those queued that belong to it (R332,
R337). -/
def State.attemptErrors (s : State) : List Err :=
  s.err.named ++ ((s.err.queue.filter fun q => !q.next && q.err.cls == 1).map (·.err))

/-- The handling of the attempt's error ends; that of an error of the next attempt lasts until its own rollback, and
errors of the next attempt stay queued (R330, R332). -/
def State.endAttempt (s : State) : State :=
  let s := s.updErr fun x => { x with handling := if x.handNext then x.handling else none, named := [], proc := [],
                                      queue := x.queue.filter (·.next), ueSeenPrev := x.ueSeen, ueSeen := [],
                                      parityHere := false }
  s.setAll [(ERR_STATUS.HANDLING, ofBool s.err.handling.isSome), (ERR_STATUS.PENDING, 0), (ERR_STATUS.QDEPTH, s.err.queue.length),
    (ERR_STATUS.COMMIT_READY, 0)]

/-- The clusters that the errors of an attempt name, each once, in log order (R337). -/
def namedClusters (es : List Err) : List Nat :=
  ((es.filter fun e => e.scope == 0 || e.scope == 1).map (·.index)).foldl (fun l c => if c ∈ l then l else l ++ [c]) []

/-- The slice halts on this device's word: the notice goes out, and the device enters HALT. -/
def State.haltSlice (s : State) (e : Err) : State := (s.haltNotice e).enterHalt s.lastSeq

/-- The second failed attempt (R336, R337, R339). -/
def State.secondFailure (s : State) (es : List Err) : State :=
  let cs := (namedClusters es).filter fun c => s.isActive c
  match cs, es with
  | c :: _, e :: _ =>
    if s.is DET_MODE.CLASS then (s.updErr fun x => { x with swaps := cs, hostSwap := false }).beginSwaps
    else (s.setAll [(ERR_STATUS.SPARE_REQ, 1), (ERR_SPARE.LAST_PCLUSTER, c)]).haltSlice e
  | _, _ => s

/-- The ladder (table "Replay ladder"). -/
def State.ladder (s : State) (es : List Err) : State :=
  match s.get ERR_LADDER.ATTEMPT with
  | 1 => s
  | 2 => s.secondFailure es
  | _ => (s.set ERR_STATUS.LADDER_HALT 1).raiseFree 2 srcERR 2

/-- The last error that failed the attempt: of the device's own, or, where it has none, the one that the barrier
carried. -/
def State.failedBy (s : State) (es : List Err) (v : Option CarriedErr) : State :=
  match es.getLast?, v with
  | some e, _ => s.setAll [(ERR_LADDER.LAST_SCOPE, e.scope), (ERR_LADDER.LAST_INDEX, e.index)]
  | none, some c => s.setAll [(ERR_LADDER.LAST_SCOPE, scSlice), (ERR_LADDER.LAST_INDEX, c.dev)]
  | none, none => s

/-- The rollback of R333: the attempt is discarded, the ladder advances, and the next square-up begins. -/
def State.rollback (s : State) (v : Option CarriedErr) : State :=
  let es := s.attemptErrors
  let s := (s.discardAttempt.endAttempt.pass 4096).updTick fun t =>
    { t with glue := 8, actDone := false, sent := false, barriers := [], mismatch := false, released := none, busy := [] }
  let s := ((s.inc ERR_LADDER.ATTEMPT).inc ERR_LADDER.REPLAYS).failedBy es v
  let s := s.ladder es
  if s.running then s.trySquareUp else s

/-- The rollback of R426: the slice halts after it, the ladder does not advance, and a device whose sealed copy failed
unseals the bank, which is the active one. -/
def State.rollbackHalt (s : State) (v : Option CarriedErr) : State :=
  let here := s.err.parityHere
  let es := s.attemptErrors
  let s := (s.discardAttempt.endAttempt.pass 4096).inc ERR_LADDER.REPLAYS
  let s := s.failedBy es v
  let s := if here then s.unseal (s.get TICK_STATUS.BANK) else s
  s.enterHalt s.lastSeq

/-- QUEUED_ERROR: once the handling in progress has ended, the oldest queued error takes effect (R332). -/
def execQueuedError (s : State) : Host.Outcome State Fault Refusal :=
  .next (match s.err.handling, s.err.queue with
    | none, x :: q =>
      let s := (s.updErr fun y => { y with queue := q, handling := some x.err, inHand := x.seq, handNext := x.next }).set
        ERR_STATUS.QDEPTH q.length
      s.consequence x.err (x.seq.getD 0)
    | _, _ => s)

end Sys2Proof.Machine
end

