-- ==== Sys2Proof/Machine/Commit.lean ====
section
/-! DEFINITION. Glue-up action 4 (R30, R31, R341): the census snapshot (R63, R64), the commit of every block, and the
end of a dry fit. -/

namespace Sys2Proof.Machine

open Reg

/-! ### The census snapshot (R63, R64) -/

/-- The address of the slot that the next snapshot takes. -/
def State.censusSlot (s : State) : Nat := s.get DEV_CENSUS_BASE.ADDR * 2 ^ 14 + s.get DEV_CENSUS_HEAD.NEXT_SLOT * 0x4000

/-- The bytes of a snapshot. -/
def censusBytes : Nat := 8256

/-- The 256 entries: the cells that counted something, the rest 0. -/
def State.writeCensusEntries (s : State) (a : Nat) : State :=
  s.census.foldl (fun s e =>
    if e.1 / 5 < 256 then s.wr (a + 64 + e.1 / 5 * 32 + e.1 % 5 * 6) 6 e.2 else s) (s.zeroRange a censusBytes)

/-- The header of a snapshot (table "Census snapshot header"). -/
def State.censusHeader (s : State) (seq : Nat) : List Nat :=
  let sat := s.census.any fun e => e.2 == 2 ^ 48 - 1
  leBytes 8 (s.get TICK_STEP.STEP) ++ leBytes 8 (s.get TICK_COUNT.COUNT) ++
    leBytes 4 (s.get TICK_STATUS.DRY + ofBool sat * 2 + ofBool (decide (0 < s.get ERR_LADDER.ATTEMPT)) * 4) ++
    leBytes 2 256 ++ leBytes 2 0 ++ leBytes 8 seq ++ List.replicate 32 0

/-- The slot and the sequence number are consumed. -/
def State.nextCensusSlot (s : State) : State :=
  (s.set DEV_CENSUS_HEAD.NEXT_SLOT ((s.get DEV_CENSUS_HEAD.NEXT_SLOT + 1) % 2 ^ s.get DEV_CENSUS_CTRL.RING_LOG2)).inc
    DEV_CENSUS_HEAD.WRITTEN

/-- The entries of a snapshot at `a` up to the 64-byte block at `bad`, or all of them where that block is the header,
which is written last (R64). -/
def State.entriesBefore (s : State) (a bad : Nat) : State :=
  let n := (if bad < a + 64 then censusBytes else (bad - a) / 64 * 64) - 64
  (s.wrBytes (a + 64) ((s.writeCensusEntries a).rdBytes (a + 64) n)).memTraffic [(a + 64, n)]

/-- A write-link error that the retry does not correct abandons the rest of the snapshot at `a` (R64). -/
def State.abandonCensus (s : State) (a bad : Nat) : State :=
  let (v, s) := (s.entriesBefore a bad).draw
  ((s.nextCensusSlot.inc DEV_CENSUS_HEAD.LOST).memRecord bad 3 14 (v % 8)).raise (memErr 0 bad 3)

/-- The step's counts become a snapshot, and the live counters are zeroed. -/
def State.snapshot (s : State) (hw : List HwFault) : State :=
  if s.is DEV_CENSUS_CTRL.ENABLE = false then { s with census := [] }
  else
    let a := s.censusSlot
    let slot := s.get DEV_CENSUS_HEAD.NEXT_SLOT
    let bad := hw.findSome? fun h => match h with
      | .memUe x => if a ≤ x ∧ x < a + censusBytes then some x else none
      | _ => none
    match bad with
    | some x => { s.abandonCensus a x with census := [] }
    | none =>
      let t := s.nextCensusSlot
      let seq := t.get DEV_CENSUS_HEAD.WRITTEN
      let t := ((t.writeCensusEntries a).wrBytes a (s.censusHeader seq)).memTraffic [(a, censusBytes)]
      let t := t.set DEV_CENSUS_LAST.STEP (s.get TICK_STEP.STEP)
      let t := if s.is DEV_CENSUS_CTRL.NOTIFY then
          t.event 0x02 (leBytes 2 slot ++ leBytes 8 (s.get TICK_STEP.STEP) ++ leBytes 8 seq)
        else t
      { t with census := [] }

/-! ### The commit -/

/-- What the checkers saw at the commit: those of the root engine while records changed, and those of the update units as
they read their private copies (R161, R166, R244). -/
def State.recHw (s : State) (hw : List HwFault) : State :=
  hw.foldl (fun s h => match h with
    | .ownCe => ((s.set ROOT_HWERR.REC_CE 1).inc ROOT_HWERR.COUNT).raiseOpen 0 scSeq 1 srcROOT 1
    | .descPar => s.updHwAny [h]
    | .ownUe => ((s.set ROOT_HWERR.REC_UE 1).inc ROOT_HWERR.COUNT).raiseOpen 2 scSeq 1 srcROOT 2
    | _ => s) s

/-- Action 4: the generation written becomes current, TICK_STEP increments, and every block commits (R30, R63, R161,
R213, R227, R242, R320 to R324, R366 to R369). -/
def State.commit (s : State) (hw : List HwFault) : State :=
  let n := s.get TICK_STEP.STEP
  let replayed := decide (0 < s.get ERR_LADDER.ATTEMPT)
  let s := (s.snapshot hw).inc TICK_STEP.STEP
  let r := s.updCommit n
  let s := ((r.1.rootCommit.solCommit.chainInput n).releaseInputs n).queuePush n replayed
  let s := ((s.provAtCommit r.2).setAll [(ERR_LADDER.ATTEMPT, 0), (ERR_STATUS.COMMIT_READY, 0)]).updErr fun x =>
    { x with ueSeen := [], ueSeenPrev := [] }
  s.sampleEvent n

/-- A dry fit ends in place of action 4 (R31, R34). -/
def State.endDry (s : State) (hw : List HwFault) : State :=
  let s := s.snapshot hw
  let s := s.stopTicks.setAll [(TICK_DRY.DONE, 1), (TICK_DRY.PASS, ofBool (!s.tick.dryFault))]
  s.endHandling

/-- ERR_CTRL.COMMIT (R341): action 4 alone, in HALT with COMMIT_READY set. -/
def State.actCommit (s : State) (hw : List HwFault) : State :=
  if s.job = 3 ∧ s.is ERR_STATUS.COMMIT_READY = true then ((s.recHw hw).commit hw).okay else s.okay

/-- ERR_CTRL_COMMIT. -/
def execErrCtrlCommit (hw : List HwFault) (s : State) : Host.Outcome State Fault Refusal := .next (s.write fun s => s.actCommit hw)

end Sys2Proof.Machine
end

