-- ==== Sys2Proof/Machine/DetMeasure.lean ====
section
/-! DEFINITION. Measuring the parameter state before a run (R322). -/

namespace Sys2Proof.Machine

open Reg

/-- The extra-state table's entries: address, length, and whether the entry is valid (R322). -/
def State.xstate (s : State) : List (Nat × Nat × Bool) :=
  (List.range (s.get DET_XSTATE.COUNT)).map fun j =>
    let a := s.get DET_XSTATE.ADDR * 16 + 16 * j
    let w0 := s.rd a 8
    let w1 := s.rd (a + 8) 8
    let addr := w0 % 2 ^ 48
    let len := w1 % 2 ^ 32
    let place := match regionOf s.active addr with
      | .lpddr => inLpddr addr len
      | .veneer _ o => decide (o + len ≤ veneerSize)
      | _ => false
    (addr, len, place && w0 / 2 ^ 48 == 0 && w1 / 2 ^ 32 == 0 && len % 64 == 0 && inLpddr a 16)

/-- The shards whose state lies in the window of controller `c`, in ascending descriptor index. -/
def State.shardsIn (s : State) (c : Nat) : List Shard :=
  (s.shards.filter fun p => p.2.stateAddr / lpddrWindow == c).map (·.2)

/-- The generation that is committed before step TICK_STEP (R225). -/
def State.committedGen (s : State) : Nat := (s.get TICK_STEP.STEP + 1) % 2

/-- The controller digest D_c: the arrays of the committed generation, without the working copy (R322). -/
def State.ctlDigest (s : State) (c : Nat) : List Nat :=
  shake256 ((s.shardsIn c).flatMap fun sh => s.genBytes sh (sh.genAddr s.committedGen))

/-- The device digest (R322). -/
def State.stateDigest (s : State) : List Nat :=
  shake256 ((List.range 16).flatMap s.ctlDigest ++ s.xstate.flatMap fun e => shake256 (s.rdBytes e.1 e.2.1))

/-- The cycles that engine `c` takes: 64 B per cc, and 64 cc for each shard and region (R322). -/
def State.measureCc (s : State) (c : Nat) : Nat :=
  (s.shardsIn c).foldl (fun n sh => n + ceilDiv (sh.count * sh.S) 64 + 64) 0 +
    ((s.xstate.zip (List.range s.xstate.length)).filter fun e => e.2 % 16 == c).foldl
      (fun n e => n + e.1.2.1 / 64 + 64) 0

/-- The ranges that the measurement reads. -/
def State.measureRanges (s : State) : List (Nat × Nat) :=
  (s.shards.flatMap fun p => p.2.arrays.filterMap fun a =>
    (arrayOff p.2.count p.2.arrays a.1).map fun r =>
      (p.2.genAddr s.committedGen + r.1, p.2.count * fmtBytes a.2)) ++
    s.xstate.map fun e => (e.1, e.2.1)

/-- DET_STATE_CTRL.MEASURE: effective in LOADED, and not while a measurement is in progress (R322). An invalid entry of
the extra-state table sets ERROR without measuring. -/
def State.actMeasure (s : State) : State :=
  if s.job ≠ 1 ∨ s.is DET_STATE_CTRL.BUSY then s.okay
  else if s.xstate.any fun e => !e.2.2 then (s.set DET_STATE_CTRL.ERROR 1).okay
  else (s.setAll [(DET_STATE_CTRL.BUSY, 1), (DET_STATE_CTRL.VALID, 0)]).okay

/-- DET_MEASURE. DESIGN CHOICE: notes/assumptions/25.md. -/
def execDetMeasure (s : State) : Host.Outcome State Fault Refusal := .next (s.write State.actMeasure)

/-- MEASURE_DONE (R322): the digest is written and VALID is set; an uncorrectable error met on the way sets ERROR
instead. Which requester a memory error names is not stated (notes/assumptions/17.md). DESIGN CHOICE:
notes/assumptions/25.md. -/
def execMeasureDone (hw : List HwFault) (s : State) : Host.Outcome State Fault Refusal :=
  .next (if s.is DET_STATE_CTRL.BUSY then
      let (x, s) := s.draw
      let (y, s) := s.draw
      let ue := hw.any (fun h => match h with
        | .memUe _ => true
        | _ => false) || s.measureRanges.any fun r => !(s.poisonIn r.1 r.2).isEmpty
      let s := (s.hwMem hw (x % 8) (y % 16) fun _ => none).readPoison s.measureRanges (x % 8) (y % 16)
      let kcc := (List.range 16).foldl (fun m c => max m (s.measureCc c)) 0 / 1024
      let s := (s.memTraffic s.measureRanges).setAll [(DET_STATE_CTRL.BUSY, 0), (DET_STATE_CTRL.LAST_KCC, kcc)]
      if ue then s.set DET_STATE_CTRL.ERROR 1
      else (s.setDigest stateDigestRegs s.stateDigest).set DET_STATE_CTRL.VALID 1
    else s)

end Sys2Proof.Machine
end

