-- ==== Sys2Proof/Machine/SealBase.lean ====
section
/-! DEFINITION. What every part of the seal check shares (R23 to R27, R61, R249, R250, R259, R423, R424): the view that
the seal has of a bank, what a scan of the lists carries along, the fields of entries, and the port budgets. What the
spec leaves open about the check is in notes/assumptions/24.md (DESIGN CHOICE). -/

namespace Sys2Proof.Machine

open Reg

/-! ### The seal's view -/

/-- The state as the seal of bank `b` reads it: the bank runs, and its private copies are the memory and the registers
as they now stand (R26). -/
def State.sealView (s : State) (b : Nat) : State :=
  let c : SealCopy := ⟨s.mem, s.flds, s.active⟩
  let v := (s.set TICK_STATUS.DRY 0).set TICK_STATUS.BANK b
  if b = 0 then { v with sealA := some c } else { v with sealB := some c }

/-! ### Gate words (R61) -/

/-- The conditions of R61 but for reserved bits. -/
def gateLimit (w cls : Nat) : Bool :=
  let f := bits w 4 0
  let r := bits w 7 5
  decide (0x0B ≤ f) || decide (6 ≤ r) || (bit w 8 && isMx f) || (bit w 10 && !isMx f) ||
    ((f == fDD || f == fI32) && cls != 1) || (cls == 2 && r != 0)

/-- A nonzero reserved bit of a GATE word. -/
def gateRsvd (w : Nat) : Bool := bits w 15 11 != 0

/-! ### Codes -/

def cCHECK : Nat := 0x01
def cUNKNOWN : Nat := 0x02
def cUNIT : Nat := 0x03
def cRSVD : Nat := 0x04
def cORDER : Nat := 0x05
def cWINDOW : Nat := 0x06
def cOVERLAP : Nat := 0x07
def cABI : Nat := 0x08
def cHEADER : Nat := 0x09
def cLIMIT : Nat := 0x0B

/-- The codes whose conditions hold. -/
def codes (l : List (Nat × Bool)) : List Nat := (l.filter (·.2)).map (·.1)

/-- The lowest of several codes (R26). -/
def lowestCode : List Nat → Option Nat
  | [] => none
  | c :: cs => match lowestCode cs with
    | some d => some (min c d)
    | none => some c

/-! ### Port budgets (R249, R250, R259) -/

/-- Bytes that an entry moves at one port in one interval of a tick. -/
structure Flow where
  port : Nat
  tick : Nat
  lo : Nat
  hi : Nat
  bytes : Nat
deriving DecidableEq, Repr

/-- The ports: a veneer region, an operand buffer, an LPDDR controller, a quadrant's share of a region and of
an operand buffer (R88). -/
def portVeneer (p : Nat) : Nat := p
def portBuffer (p : Nat) : Nat := 2 ^ 16 + p
def portLpddr (c : Nat) : Nat := 2 ^ 17 + c
def portQuad (p q : Nat) : Nat := 2 ^ 18 + p * 4 + q
def portQuadBuf (p q : Nat) : Nat := 2 ^ 19 + p * 4 + q

/-- The window of a port in cc, and its limit in bytes. -/
def portWindow (k : Nat) : Nat := if 2 ^ 17 ≤ k ∧ k < 2 ^ 18 then 1024 else 64
def portLimit (k : Nat) : Nat :=
  if k < 2 ^ 16 then 14848 else if k < 2 ^ 17 then 16384 else if k < 2 ^ 18 then 98304 else if k < 2 ^ 19 then 58 * 64 else 64 * 64

/-- Sum of two fractions. -/
def addFrac (a b : Nat × Nat) : Nat × Nat :=
  let n := a.1 * b.2 + b.1 * a.2
  let d := a.2 * b.2
  (n / Nat.gcd n d, d / Nat.gcd n d)

/-- The bytes of a flow that fall into the window from `w`, spread evenly, as a fraction. -/
def Flow.share (f : Flow) (w len : Nat) : Nat × Nat :=
  (f.bytes * (min f.hi (w + len) - max f.lo w), max 1 (f.hi - f.lo))

/-- A window that `f` touches is past its limit, with the earlier flows `fs`. -/
def pastLimit (fs : List Flow) (f : Flow) : Bool :=
  let len := portWindow f.port
  let same := f :: fs.filter fun g => g.port == f.port && g.tick == f.tick
  (List.range (ceilDiv f.hi len - f.lo / len)).any fun i =>
    let w := (f.lo / len + i) * len
    let t := same.foldl (fun t g => addFrac t (g.share w len)) (0, 1)
    decide (portLimit f.port * t.2 < t.1)

/-- The flows of an entry are added one by one: the flows with them, and whether a window is past its limit. -/
def addFlows : List Flow → List Flow → List Flow × Bool
  | fs, [] => (fs, false)
  | fs, f :: l =>
    let r := addFlows (f :: fs) l
    (r.1, pastLimit fs f || r.2)

/-- The ports of a range of LPDDR or veneer, and the bytes at each: a range that spans two controllers' windows counts
at each for the bytes in its window (R264). -/
def rangePorts (a n : Nat) : List (Nat × Nat) :=
  if a < lpddrEnd then
    let c := a / lpddrWindow
    let head := min n ((c + 1) * lpddrWindow - a)
    if head < n then [(portLpddr c, head), (portLpddr (c + 1), n - head)] else [(portLpddr c, n)]
  else [(portVeneer ((a - veneerBase 0) / 0x400000), n)]

/-- The bytes of many ranges at each port. -/
def portBytes (rs : List (Nat × Nat)) : List (Nat × Nat) :=
  (rs.flatMap fun r => rangePorts r.1 r.2).foldl (fun m e => Store.put m 0 e.1 (Store.get m 0 e.1 + e.2)) []

/-- The flows of ranges that are streamed over `[lo, hi)` of a tick. -/
def flowsOf (tick lo hi : Nat) (rs : List (Nat × Nat)) : List Flow :=
  (portBytes rs).map fun e => ⟨e.1, tick, lo, hi, e.2⟩

/-! ### A scan of the lists -/

/-- The last entry of an engine: engine, TICK, START_CC and end of the interval. -/
structure Prev where
  eng : Nat
  tick : Nat
  start : Nat
  stop : Nat
deriving DecidableEq, Repr

/-- An open accumulator chain: engine, entry, descriptor words 2 to 7, and the K positions so far (R83). -/
structure OpenChain where
  eng : Nat
  entry : Nat
  words : List Nat
  sum : Nat
deriving DecidableEq, Repr

/-- An entry of an earlier list or place, for the conditions that join several entries. -/
structure Seen where
  u : UnitKind
  idx : Nat
  e : Entry
deriving DecidableEq, Repr

/-- A solve that is placed: context, descriptor, direction and interval, from its first piece on (R200). -/
structure Placed where
  ctx : Nat
  desc : Nat
  adj : Bool
  lo : Nat
  hi : Nat
deriving DecidableEq, Repr

/-- What the scan carries along: of the list that is read, the last entries, the gang mode, the open chains and the
preloads (engine, descriptor); of the bank, the step's ticks, the entries seen, the flows, the end of the latest piece
placed on each cluster, and the solves placed. -/
structure Scan where
  prev : List Prev
  gang : Bool
  gangAt : Nat
  chains : List OpenChain
  pre : List (Nat × Nat)
  ticks : Option Nat
  seen : List Seen
  flows : List Flow
  ends : List (Nat × Nat)
  solves : List Placed
deriving DecidableEq, Repr

def Scan.start : Scan :=
  { prev := [], gang := false, gangAt := 0, chains := [], pre := [], ticks := none, seen := [], flows := [],
    ends := [], solves := [] }

/-- A new list begins: one step's list ends where the next begins, so a preload that its last MATMUL requests is judged
against nothing, though the tile stays at run time. DESIGN CHOICE: notes/assumptions/24.md. -/
def Scan.newList (x : Scan) : Scan := { x with prev := [], gang := false, gangAt := 0, chains := [], pre := [] }

/-! ### Entries -/

/-- The operation is assigned (R25, R424 and the operation tables). -/
def knownOp (op : Nat) : Bool :=
  match op / 256 with
  | 0 => op == 0x000 || op == 0x002
  | 1 => decide (op ≤ 0x104)
  | 2 => decide (op ≤ 0x202)
  | 3 => op == 0x300
  | 4 => op == 0x400
  | 5 => op == 0x500 || op == 0x501 || op == 0x502 || op == 0x580
  | 6 => decide (op ≤ 0x602)
  | 7 => decide (op ≤ 0x701)
  | 8 => op == 0x800
  | _ => false

/-- The unit holds the engine class (table "Engine classes"). -/
def holdsClass (u : UnitKind) (cls : Nat) : Bool :=
  cls == 0 || match u with
    | .cluster => cls == 1 || cls == 2 || cls == 3
    | .row => cls == 4
    | .port => cls == 5
    | .update => cls == 6
    | .root => cls == 7
    | .krylov => cls == 8

/-- An entry breaks a field value of its operation table (R78, R123, R146, R168, R228, R263, R274, R423, R424). -/
def fieldLimit (e : Entry) : Bool :=
  match e.opcode with
  | 0x000 => e.busy != 0 || e.desc != 0 || e.arg != 0 || e.tag != 0
  | 0x002 => e.busy != 0 || e.desc != 0 || e.arg != 0
  | 0x100 => e.arg != 0 || (if e.tag / 2 ^ 15 = 1 then bits e.tag 14 8 != 0 else e.tag != 0)
  | 0x101 | 0x102 => e.desc != 0 || e.tag != 0 || e.arg != 0 || decide (e.busy < 8)
  | 0x103 => e.tag != 0 || e.arg != 0
  | 0x104 | 0x201 => e.desc != 0 || decide (1 < e.tag) || e.arg != 0
  | 0x202 => e.desc != 0 || e.tag != 0 || e.arg != 0 || decide (e.busy < 528)
  | 0x400 => decide (e.busy < 17)
  | 0x500 => e.arg != 0
  | 0x501 => e.arg != 0 || e.busy != 1
  | 0x502 | 0x601 => e.desc != 0 || e.tag != 0 || e.arg != 0
  | 0x700 | 0x701 => e.tag != 0 || e.arg != 0 || e.busy != 1
  | 0x800 => decide (15 < e.tag) || decide (1 < e.arg) || e.busy != 1
  | _ => e.tag != 0 || e.arg != 0

/-- An entry breaks WINDOW (R15, R19, R26, R424). -/
def State.windowFault (s : State) (ticks : Nat) (e : Entry) : Bool :=
  decide (ticks ≤ e.tick) ||
    (if e.cls = 0 then decide (s.tickLen - s.kerf ≤ e.start)
     else decide (s.tickLen - s.kerf < e.start + e.busy) || e.busy == 0 ||
       ((e.opcode == 0x500 || e.opcode == 0x502) && decide (e.start < s.get TICK_CFG.NGUARD_Q * 256)))

/-- (TICK, START_CC) of an entry is not above that of the previous entry of one of its engines (ORDER). -/
def Scan.orderFault (x : Scan) (engs : List Nat) (e : Entry) : Bool :=
  x.prev.any fun p => engs.contains p.eng && !(decide (p.tick < e.tick) || (p.tick == e.tick && decide (p.start < e.start)))

/-- The previous entry of one of its engines has not ended (OVERLAP); it does not apply to control entries (R424). -/
def Scan.overlapFault (x : Scan) (engs : List Nat) (e : Entry) : Bool :=
  e.cls != 0 && x.prev.any fun p => engs.contains p.eng && p.tick == e.tick && decide (e.start < p.stop)

/-- The entry becomes the last of its engines. -/
def Scan.push (x : Scan) (engs : List Nat) (e : Entry) (len : Nat) : Scan :=
  { x with prev := x.prev.filter (fun p => !engs.contains p.eng) ++ engs.map fun g => ⟨g, e.tick, e.start, e.start + len⟩ }

/-! ### Places (R163, R201) -/

/-- A cycle of the step, counted over its ticks. -/
def State.stepCc (s : State) (tick cc : Nat) : Nat := tick * s.tickLen + cc

/-- The RESERVE intervals (array 0x104 or finisher 0x201) for a sequencer in the list of physical cluster `p`. -/
def State.reserves (s : State) (b p op tag : Nat) : List (Nat × Nat) :=
  ((entries s.sealedMem .cluster p b).filter fun e => e.opcode == op && e.tag == tag).map fun e =>
    (s.stepCc e.tick e.start, s.stepCc e.tick (e.start + e.busy))

/-- Keep the entries between GANG_ON and GANG_OFF. -/
def inGang : Bool → List Entry → List Entry
  | _, [] => []
  | g, e :: l =>
    if e.opcode = 0x101 then inGang true l
    else if e.opcode = 0x102 then inGang false l
    else if g then e :: inGang g l else inGang g l

/-- The RESERVE intervals of the array for a sequencer during which it is in gang. -/
def State.gangReserves (s : State) (b p tag : Nat) : List (Nat × Nat) :=
  ((inGang false (entries s.sealedMem .cluster p b)).filter fun e => e.opcode == 0x104 && e.tag == tag).map fun e =>
    (s.stepCc e.tick e.start, s.stepCc e.tick (e.start + e.busy))

/-- The spans between the end of a GANG_ON and the start of the next GANG_OFF, of entries in order; `from'` is the end of
a GANG_ON not closed yet. -/
def State.spansOf (s : State) : Option Nat → List Entry → List (Nat × Nat)
  | _, [] => []
  | from', e :: l =>
    if e.opcode = 0x101 then s.spansOf (some (s.stepCc e.tick (e.start + e.busy))) l
    else if e.opcode = 0x102 then
      (match from' with
      | some a => [(a, s.stepCc e.tick e.start)]
      | none => []) ++ s.spansOf none l
    else s.spansOf from' l

/-- The spans of the step in which the array of physical cluster `p` is in gang. -/
def State.gangSpans (s : State) (b p : Nat) : List (Nat × Nat) := s.spansOf none (entries s.sealedMem .cluster p b)

/-- Whether `[x, x + n)` lies inside an interval of the list. -/
def inside (l : List (Nat × Nat)) (x n : Nat) : Bool := l.any fun r => decide (r.1 ≤ x) && decide (x + n ≤ r.2)

/-- The earliest start, not before `lo`, at which `n` cycles lie inside an interval of every list. -/
def earliest (ls : List (List (Nat × Nat))) (lo n : Nat) : Option Nat :=
  let cands := lo :: (ls.flatMap fun l => (l.map (·.1)).filter fun x => decide (lo < x))
  (cands.filter fun x => ls.all fun l => inside l x n).foldl (fun m x => match m with
    | none => some x
    | some y => some (min x y)) none

/-- A piece to place: duration, whether it needs the arrays, the earliest start it may have for another reason, and the
cycle by which it must have ended. -/
structure Need where
  cc : Nat
  arr : Bool
  after : Nat
  before : Option Nat
deriving DecidableEq, Repr

/-- Place pieces one after another from `t`: the end of the last and the start of each, or none where one does not
fit. -/
def placeAll (arr fin : List (List (Nat × Nat))) : List Need → Nat → Option (Nat × List Nat)
  | [], t => some (t, [])
  | n :: l, t =>
    match earliest (if n.arr then arr else fin) (max t n.after) n.cc with
    | none => none
    | some x =>
      let late := match n.before with
        | some b => decide (b < x + n.cc)
        | none => false
      if late then none else (placeAll arr fin l (x + n.cc)).map fun r => (r.1, x :: r.2)

/-- What pieces occupy on cluster `p`: for the root engine the whole cluster, or one quadrant of it in gang, where up to
four blocks run concurrently (R143); for the solver its members' engines. -/
def useWhole (p : Nat) : Nat := p
def useQuad (p q : Nat) : Nat := (q + 1) * 2 ^ 16 + p
def useSolve (p : Nat) : Nat := 5 * 2 ^ 16 + p

/-- The latest end of a placed piece on any of what is named. -/
def Scan.latest (x : Scan) (ks : List Nat) : Nat := ks.foldl (fun m k => max m (Store.get x.ends 0 k)) 0

/-- What is named is in use until `t`. -/
def Scan.useTill (x : Scan) (ks : List Nat) (t : Nat) : Scan :=
  { x with ends := ks.foldl (fun m k => Store.put m 0 k (max t (Store.get m 0 k))) x.ends }

/-- The flows that a sequencer's pieces add: each of `ls` is one way the step can go (R156), checked with what is there;
the last stays in the scan. -/
def Scan.addWays (x : Scan) : List (List Flow) → Scan × Bool
  | [] => (x, false)
  | [l] => let r := addFlows x.flows l; ({ x with flows := r.1 }, r.2)
  | l :: ls => let r := x.addWays ls; (r.1, (addFlows x.flows l).2 || r.2)

end Sys2Proof.Machine
end

