-- ==== Sys2Proof/Machine/SealArray.lean ====
section
/-! DEFINITION. The seal's checks of the array's entries (R67, R72 to R79, R82 to R87, R91, R106, R107): array_duration,
the LIMIT conditions, accumulator chains and preloads, scarf pairs, and port traffic. -/

namespace Sys2Proof.Machine

open Reg

/-! ### Duration (R74, R75, R87, R95) -/

/-- Row cc r of an operand class (table "Array mode parameters"). -/
def rowCc : Nat → Nat
  | 3 => 4
  | 4 => 16
  | _ => 1

/-- Weight load LW: for MX, 13 cc for a 6-bit B and 9 cc for a 4-bit B (R74). -/
def weightLoad (cls bFmt : Nat) : Nat :=
  match cls with
  | 2 => if bFmt = fE2M1 then 9 else 13
  | 3 => 16
  | 4 => 32
  | _ => 8

/-- Latency of the single, gang and scarf shapes, without hops. -/
def latSingle : Nat → Nat
  | 2 => 48
  | 3 => 52
  | 4 => 68
  | _ => 46
def latGang : Nat → Nat
  | 3 => 36
  | 4 => 52
  | _ => 30
def latScarf : Nat → Nat
  | 2 => 50
  | 3 => 54
  | 4 => 70
  | _ => 48

/-- The bypass hops that durations count: the actual count, and 2 in the portable class (R95). -/
def State.hopsOf (s : State) (p : Nat) : Nat :=
  if s.is DET_MODE.CLASS then 2
  else match scarfOf s.active p with
    | some r => r.2.1
    | none => 0

/-- The spaces of the operands that an entry uses: A, B, C unless the totals are held, E with an epilogue. The even
member of a K-scarf uses no C and no E (R92), the odd member of an N-scarf no A (R93). -/
def ArrDesc.usedSpaces (d : ArrDesc) (even : Bool) : List Nat :=
  let drains := !(d.shape == 2 && even)
  (if d.shape = 3 ∧ even = false then [] else [d.aSpace]) ++ [d.bSpace] ++ (if d.accHold || !drains then [] else [d.cSpace]) ++
    (if d.epi = 0 ∨ drains = false then [] else [d.eSpace])

/-- The cluster is the even member of its pair. -/
def State.isEven (s : State) (p : Nat) : Bool :=
  match scarfOf s.active p with
  | some r => r.1 == 0
  | none => true

/-- The latency of an operation: a scarf operation, and any operation that uses space 1, has the scarf latency (R95). -/
def State.arrLat (s : State) (p : Nat) (d : ArrDesc) : Nat :=
  let cls := opClass d.aFmt
  if d.shape = 2 ∨ d.shape = 3 ∨ (d.usedSpaces (s.isEven p)).contains 1 then latScarf cls + 2 * s.hopsOf p
  else if d.shape = 1 then latGang cls
  else latSingle cls

/-- The tile width of an operation: for an N-scarf, the width per pair. -/
def ArrDesc.nt (d : ArrDesc) : Nat :=
  let w := tileWidth (opClass d.aFmt) d.shape
  if d.shape = 3 then 2 * w else w

/-- Totals drained per cc: 32 in a cluster and in each member of a pair, 8 in a quadrant. -/
def ArrDesc.drainWidth (d : ArrDesc) : Nat := if d.shape = 1 then 8 else 32

/-- The cycles in which a row drains. In an N-scarf `nt` is the member's width here, as in R93: each member drains its
own columns. DESIGN CHOICE: notes/assumptions/24.md. -/
def ArrDesc.drainCc (d : ArrDesc) : Nat := ceilDiv (min d.n (tileWidth (opClass d.aFmt) d.shape)) d.drainWidth

/-- Runs of contiguous channels among K positions `k0` to `k1` (R86). -/
def runsOf (cg k0 k1 : Nat) : Nat := k1 / cg - k0 / cg + 1

/-- The row time of pass `p`: r, or with the jig the time to assemble its runs; in K-scarf the larger count of the two
halves (R87). -/
def ArrDesc.rowTime (d : ArrDesc) (jig : Option Jig) (p : Nat) : Nat :=
  let r := rowCc (opClass d.aFmt)
  match jig with
  | none => r
  | some j =>
    let kp := chunkLen d.shape
    let k0 := p * kp
    let runs := if d.shape = 2 then
        max (runsOf j.cg k0 (min (k0 + 31) (d.k - 1)))
          (if k0 + 32 < d.k then runsOf j.cg (k0 + 32) (min (k0 + 63) (d.k - 1)) else 0)
      else runsOf j.cg k0 (min (k0 + kp - 1) (d.k - 1))
    max r (ceilDiv runs 4)

/-- One block of an operation: its item, its first row and column, its rows, and its columns, of both members in an
N-scarf. -/
structure BlockAt where
  item : Nat
  row : Nat
  col : Nat
  rows : Nat
  cols : Nat
deriving DecidableEq, Repr

/-- The passes of one block: start, length, whether it is the last, the pass number, and the block. -/
structure PassAt where
  lo : Nat
  len : Nat
  last : Bool
  pass : Nat
  blk : BlockAt
deriving DecidableEq, Repr

/-- The blocks of an operation in order (R70). -/
def ArrDesc.blockRows (d : ArrDesc) : List BlockAt :=
  (List.range d.batch).flatMap fun item => (List.range (ceilDiv d.n d.nt)).flatMap fun t =>
    (List.range (ceilDiv d.m d.mBlk)).map fun b =>
      ⟨item, b * d.mBlk, t * d.nt, min d.mBlk (d.m - b * d.mBlk), min d.nt (d.n - t * d.nt)⟩

/-- What array_duration carries from block to block: the cycle, the ends of the two halves, the passes so far. -/
structure ArrTime where
  t : Nat
  free0 : Nat
  free1 : Nat
  passes : List PassAt
deriving DecidableEq, Repr

/-- One block of array_duration (R75). -/
def ArrDesc.blockTime (d : ArrDesc) (jig : Option Jig) (lat lw q : Nat) (x : ArrTime) (b : Nat) (blk : BlockAt) : ArrTime :=
  let rows := blk.rows
  let np := ceilDiv d.k (chunkLen d.shape)
  let x := { x with t := max x.t (if b % 2 = 0 then x.free0 else x.free1) }
  (List.range np).foldl (fun (x : ArrTime) p =>
    let rc := d.rowTime jig p
    let last := p + 1 == np
    let len := max (rows * rc) lw
    let fin := x.t + lat + rows * (if d.accHold then rc else max rc q)
    { t := x.t + len,
      free0 := if last && b % 2 == 0 then fin else x.free0,
      free1 := if last && b % 2 == 1 then fin else x.free1,
      passes := x.passes ++ [⟨x.t, len, last, p, blk⟩] }) x

/-- array_duration with the passes it runs through (R75). -/
def State.arrTime (s : State) (p : Nat) (d : ArrDesc) (jig : Option Jig) (preloaded : Bool) : ArrTime :=
  let lw := weightLoad (opClass d.aFmt) d.bFmt
  let q := d.drainCc
  let lat := s.arrLat p d
  (d.blockRows.zip (List.range d.blockRows.length)).foldl
    (fun x r => d.blockTime jig lat lw q x r.2 r.1) ⟨if preloaded then 0 else lw, 0, 0, []⟩

/-- array_duration. -/
def ArrTime.duration (x : ArrTime) : Nat := max x.free0 x.free1

/-! ### LIMIT conditions of one descriptor (R83) -/

/-- The format that a chain reaches at K_TOTAL (R105). -/
def ArrDesc.endFmt (d : ArrDesc) : Nat :=
  let f := startFmt (opClass d.aFmt) d.wide
  let f := if f = fFP32 ∧ 65536 < d.kTotal then fFP64 else f
  if f = fFP64 ∧ 2 ^ 20 < d.kTotal then fDD else f

/-- One dimension of a jig is out of range (R84). -/
def JigDim.bad (x : JigDim) : Bool :=
  x.size == 0 || x.ks == 0 || x.str == 0 || x.dil == 0 || x.idl == 0 || decide (x.out < 1)

/-- The jig conditions of R85. -/
def jigLimit (d : ArrDesc) (j : Jig) : Bool :=
  j.w.bad || j.h.bad || j.d.bad || j.nImg == 0 || j.cg == 0 || j.groups == 0 ||
    d.m != j.nImg * j.d.out * j.h.out * j.w.out || d.k != j.cg * j.d.ks * j.h.ks * j.w.ks || d.batch != j.groups ||
    isMx d.aFmt || d.shape == 1 || d.aT

/-- E_FMT is not one of FP64, FP32, FP16 and BF16, or is wider than the total. -/
def ArrDesc.badE (d : ArrDesc) : Bool :=
  decide (3 < d.eFmt) || decide (fmtBytes d.endFmt < fmtBytes d.eFmt)

/-- The capacity of one accumulator half, or of a quadrant's quarter, in bytes (R107). -/
def ArrDesc.capacity (d : ArrDesc) : Nat := if d.shape = 1 then 16384 else 65536

/-- The LIMIT conditions that the descriptor decides alone (R67, R72, R73, R82, R83, R106, R107). The `nt` of R107 is the
member's tile width, in an N-scarf too. DESIGN CHOICE: notes/assumptions/24.md. -/
def State.arrLimit (s : State) (p : Nat) (d : ArrDesc) (jig : Option Jig) (gang : Bool) : Bool :=
  let cls := opClass d.aFmt
  cls == 5 || opClass d.bFmt != cls || (d.aT && d.aSpace != 2) ||
    d.batch == 0 || d.m == 0 || d.k == 0 || d.n == 0 || d.mBlk == 0 ||
    (d.usedSpaces (s.isEven p)).contains 3 ||
    (((d.usedSpaces (s.isEven p)).contains 1 || d.shape == 2 || d.shape == 3) && (s.partner p).isNone) ||
    decide (4 ≤ d.shape) || ((d.shape == 1) != gang) || (d.quad != 0 && d.shape != 1) || d.epi == 3 ||
    (d.epi != 0 && (d.accHold || d.badE)) || (isMx d.aFmt && (d.aT || !d.bT)) || (cls == 2 && d.shape == 1) ||
    (d.accHold && decide (1 < d.blockRows.length)) || (!d.accIn && !d.accHold && d.kTotal != d.k) ||
    decide ((if cls = 4 then 2 ^ 30 else 2 ^ 28) < d.kTotal) ||
    decide (d.capacity < d.mBlk * min d.n (tileWidth cls d.shape) * totalBytes d.endFmt) || gateLimit d.gate 0 ||
    (match jig with
    | some j => jigLimit d j
    | none => false)

/-- The words 2 to 7 of an array descriptor. -/
def State.arrWords (s : State) (p d : Nat) : List Nat := s.sealedWords (veneerBase p + s.arrTbl p + d * 64 + 16) 6

/-- A table of the cluster's array extends beyond its region (ARR_DESC_A). -/
def State.arrTblBad (s : State) (p : Nat) : Bool :=
  let n := s.bankGet (ARR_DESC_A.DESC_COUNT p) (ARR_DESC_B.DESC_COUNT p)
  let j := s.bankGet (ARR_DESC_A.JIG_COUNT p) (ARR_DESC_B.JIG_COUNT p)
  decide (veneerSize < s.arrTbl p + n * 64) || (j != 0 && decide (veneerSize < s.arrTbl p + 0x4000 + j * 64))

/-- Descriptor `d` of a cluster, its jig included, does not exist (R83). -/
def State.arrNone (s : State) (p d : Nat) : Bool :=
  s.arrTblBad p || decide (256 ≤ d) || decide (s.bankGet (ARR_DESC_A.DESC_COUNT p) (ARR_DESC_B.DESC_COUNT p) ≤ d) ||
    ((s.arrDesc p d).jig &&
      decide (s.bankGet (ARR_DESC_A.JIG_COUNT p) (ARR_DESC_B.JIG_COUNT p) ≤ (s.arrDesc p d).jigIdx))

/-- Nonzero reserved bits of a descriptor, its jig and its gate. -/
def State.arrRsvd (s : State) (p d : Nat) : Bool :=
  arrDescRsvd (s.sealedWords (veneerBase p + s.arrTbl p + d * 64) 8) != 0 || gateRsvd (s.arrDesc p d).gate ||
    (match s.jigFor p (s.arrDesc p d) with
    | some j => j.rsvd != 0
    | none => false)

/-! ### Engines, chains, preloads -/

/-- The engines of an array entry: a quadrant for a gang operation, otherwise the whole array and all quadrants (R79,
R88), so that a GANG_OFF within a quadrant's interval breaks OVERLAP as well as LIMIT, and the lower code is recorded.
DESIGN CHOICE: notes/assumptions/24.md. -/
def State.arrEngines (s : State) (p : Nat) (e : Entry) : List Nat :=
  let d := s.arrDesc p e.desc
  if (e.opcode = 0x100 ∨ e.opcode = 0x103) ∧ s.arrNone p e.desc = false ∧ d.shape = 1 then [16 + d.quad]
  else [1, 16, 17, 18, 19]

/-- The parts of descriptor words that a chain's entries share: M, N, SHAPE, QUAD, operand formats, WIDE, K_TOTAL. -/
def chainKey (d : ArrDesc) : List Nat := [d.m, d.n, d.shape, d.quad, d.aFmt, d.bFmt, ofBool d.wide, d.kTotal]

/-- The chain conditions of R83: an ACC_IN entry continues an open chain of its engine with the same key, an entry
without ACC_IN meets none, and a chain that ends sums to K_TOTAL. -/
def Scan.chainLimit (x : Scan) (d : ArrDesc) : Bool :=
  match x.chains.find? fun c => c.eng == arrEng d with
  | none => d.accIn
  | some c => !d.accIn || c.words != chainKey d || (!d.accHold && c.sum + d.k != d.kTotal)

/-- The chain after an entry. -/
def Scan.chainStep (x : Scan) (d : ArrDesc) (entry : Nat) : Scan :=
  let sum := match x.chains.find? fun c => c.eng == arrEng d with
    | some c => if d.accIn then c.sum else 0
    | none => 0
  let rest := x.chains.filter fun c => c.eng != arrEng d
  { x with chains := if d.accHold then ⟨arrEng d, entry, chainKey d, sum + d.k⟩ :: rest else rest }

/-! ### Traffic (R88, R250) -/

/-- The bytes of ranges of an operand space at each port: in the pair view each byte counts at the member whose half
holds it (R249). -/
def State.spacePorts (s : State) (p space : Nat) (l : List (Nat × Nat)) : List (Nat × Nat) :=
  let n := (l.map (·.2)).sum
  match space with
  | 2 => [(portBuffer p, n)]
  | 1 => match s.pairOf p with
    | some (ev, od) =>
      let lower := (l.map fun r => min (r.1 + r.2) veneerSize - r.1).sum
      [(portVeneer ev, lower), (portVeneer od, n - lower)]
    | none => [(portVeneer p, n)]
  | _ => [(portVeneer p, n)]

/-- The K positions of a pass that a member supplies: the first, and how many. -/
def kShare (d : ArrDesc) (even : Bool) (pass : Nat) : Nat × Nat :=
  let kp := chunkLen d.shape
  let n := min kp (d.k - pass * kp)
  if d.shape = 2 then (if even then (pass * kp, min 32 n) else (pass * kp + 32, n - 32)) else (pass * kp, n)

/-- The bytes that `nr` rows from `r0` and `nc` columns from `c0` of a stored matrix occupy; for MX with the scale of
each block that ends among the columns (R73). -/
def patchRanges (fmt base ld rows cols r0 nr c0 nc : Nat) : List (Nat × Nat) :=
  if nc = 0 then []
  else (List.range nr).flatMap fun i =>
    let r := r0 + i
    if isMx fmt then
      let lo := c0 * fmtBits fmt / 8
      let k1 := if c0 + nc = cols then ceilDiv cols 32 else (c0 + nc) / 32
      [(base + r * ld + lo, ceilDiv ((c0 + nc) * fmtBits fmt) 8 - lo),
        (mxScaleOff base rows cols ld fmt + r * ceilDiv cols 32 + c0 / 32, k1 - c0 / 32)]
    else [(base + r * ld + c0 * fmtBytes fmt, nc * fmtBytes fmt)]

/-- The bytes of A that one pass over a block reads; the elements of a convolution one by one, padding not at all
(R85). -/
def ArrDesc.aRanges (d : ArrDesc) (jig : Option Jig) (b : BlockAt) (ks : Nat × Nat) : List (Nat × Nat) :=
  match jig with
  | some j => (List.range b.rows).flatMap fun m => (List.range ks.2).filterMap fun k =>
      (j.elem d.aOff (fmtBytes d.aFmt) b.item (b.row + m) (ks.1 + k)).map fun a => (a, fmtBytes d.aFmt)
  | none =>
    let base := d.aOff + b.item * d.aBstr * 64
    if d.aT then patchRanges d.aFmt base d.lda d.k d.m ks.1 ks.2 b.row b.rows
    else patchRanges d.aFmt base d.lda d.m d.k b.row b.rows ks.1 ks.2

/-- The bytes of B that one pass over the columns `cs` reads. -/
def ArrDesc.bRanges (d : ArrDesc) (b : BlockAt) (ks cs : Nat × Nat) : List (Nat × Nat) :=
  let base := d.bOff + b.item * d.bBstr * 64
  if d.bT then patchRanges d.bFmt base d.ldb d.n d.k cs.1 cs.2 ks.1 ks.2
  else patchRanges d.bFmt base d.ldb d.k d.n ks.1 ks.2 cs.1 cs.2

/-- The flows of one operation of a member: in each pass the rows of A and the tile of B, and in the last pass of a
block E and C, spread over the pass (R250). In a quadrant the same bytes count against the quadrant's share. A byte of
the pair view counts at the member whose half holds it, as R249 has it. DEDUCED: notes/assumptions/24.md. -/
def State.arrFlows (s : State) (p : Nat) (e : Entry) (d : ArrDesc) (jig : Option Jig) (t : ArrTime) : List Flow :=
  let even := s.isEven p
  let drains := !(d.shape == 2 && even) && !d.accHold
  let readsA := !(d.shape == 3 && !even)
  (t.passes.flatMap fun x =>
    let b := x.blk
    let ks := kShare d even x.pass
    let cs := if d.shape = 3 then
        (if even then (b.col, min b.cols (d.nt / 2)) else (b.col + d.nt / 2, b.cols - d.nt / 2))
      else (b.col, b.cols)
    let f (space : Nat) (l : List (Nat × Nat)) : List Flow :=
      ((s.spacePorts p space l).filter fun y => y.2 != 0).flatMap fun y =>
        let w : Flow := ⟨y.1, e.tick, e.start + x.lo, e.start + x.lo + x.len, y.2⟩
        if d.shape = 1 then
          [w, { w with port := if y.1 < 2 ^ 16 then portQuad y.1 d.quad else portQuadBuf (y.1 - 2 ^ 16) d.quad }]
        else [w]
    (if readsA then f d.aSpace (d.aRanges jig b ks) else []) ++ f d.bSpace (d.bRanges b ks cs) ++
      (if drains && x.last then
        f d.cSpace (patchRanges (gateFmt d.gate) (d.cOff + b.item * d.cBstr * 64) d.ldc d.m d.n b.row b.rows cs.1 cs.2) ++
          (if d.epi = 0 then []
           else f d.eSpace (patchRanges d.eFmt (d.eOff + b.item * d.eBstr * 64) d.lde d.m d.n b.row b.rows cs.1 cs.2))
       else []))

/-! ### Array entries -/

/-- An array or quadrant entry of the list is within its busy interval, or a chain is open (R79). -/
def Scan.arrBusy (x : Scan) (e : Entry) : Bool :=
  !x.chains.isEmpty || x.prev.any fun p =>
    (p.eng == 1 || decide (16 ≤ p.eng)) && (decide (e.tick < p.tick) || (p.tick == e.tick && decide (e.start < p.stop)))

/-- The even member's operation that a SCARF_PEER of cluster `p` belongs to is preloaded: the MATMUL before it in the even
member's list requests it (R76). -/
def State.pairPreloaded (s : State) (b p : Nat) (e : Entry) : Bool :=
  match s.pairOf p with
  | none => false
  | some (ev, _) =>
    let l := (entries s.sealedMem .cluster ev b).filter fun m => m.opcode == 0x100 && (s.arrDesc ev m.desc).shape != 1
    match l.find? fun m => m.tick == e.tick && m.start == e.start with
    | none => false
    | some m => match (l.filter fun n => decide (n.index < m.index)).getLast? with
      | some n => n.tag / 2 ^ 15 == 1
      | none => false

/-- The codes of an array entry beyond those of every entry, and the scan after it. -/
def State.sealArr (s : State) (b p : Nat) (x : Scan) (e : Entry) : List Nat × Scan :=
  match e.opcode with
  | 0x101 => (codes [(cLIMIT, x.gang || x.arrBusy e)], { x with gang := true, gangAt := e.index })
  | 0x102 => (codes [(cLIMIT, !x.gang || x.arrBusy e)], { x with gang := false })
  | 0x104 => ([], x)
  | _ =>
    if s.arrNone p e.desc then ([cLIMIT], x)
    else
      let d := s.arrDesc p e.desc
      let jig := s.jigFor p d
      let pre := (x.pre.find? fun r => r.1 == arrEng d).map (·.2)
      let bad := s.arrLimit p d jig x.gang
      let t := if bad then ⟨0, 0, 0, []⟩ else s.arrTime p d jig (pre.isSome || (e.opcode == 0x103 && s.pairPreloaded b p e))
      let fl := if bad then (x.flows, false) else addFlows x.flows (s.arrFlows p e d jig t)
      let half := e.opcode == 0x100 && (d.shape == 2 || d.shape == 3) && !s.isEven p
      let y := { (x.chainStep d e.index) with
        flows := fl.1,
        pre := x.pre.filter (fun r => r.1 != arrEng d) ++
          (if e.tag / 2 ^ 15 = 1 then [(arrEng d, e.tag % 256)] else []) }
      (codes [(cRSVD, s.arrRsvd p e.desc),
        (cLIMIT, bad || half || (match pre with
          | some n => n != e.desc
          | none => false) || x.chainLimit d || decide (e.busy < t.duration) || fl.2)], y)

/-- At the end of a cluster's list: an open chain, or the array still in gang (R79, R83). -/
def Scan.arrEnd (x : Scan) : List (Nat × Nat) :=
  (if x.gang then [(x.gangAt, cLIMIT)] else []) ++ x.chains.map fun c => (c.entry, cLIMIT)

/-- The faults of the pair of clusters whose later list is that of `p` (R91): the even member's operation without its
match, then the odd member's SCARF_PEER without its match. -/
def State.pairFaults (s : State) (b p : Nat) : List (Nat × Nat × Nat) :=
  match s.pairOf p with
  | none => []
  | some (ev, od) =>
    if p ≠ max ev od then []
    else
      let ops := (entries s.sealedMem .cluster ev b).filter fun e =>
        e.opcode == 0x100 && ((s.arrDesc ev e.desc).shape == 2 || (s.arrDesc ev e.desc).shape == 3)
      let peers := (entries s.sealedMem .cluster od b).filter fun e => e.opcode == 0x103
      let same (a c : Entry) : Bool := a.tick == c.tick && a.start == c.start && a.busy == c.busy
      let fits (a c : Entry) : Bool :=
        let d := s.arrDesc ev a.desc
        same a c && s.arrWords ev a.desc == s.arrWords od c.desc &&
          (!d.jig || s.jigDesc ev d.jigIdx == s.jigDesc od d.jigIdx)
      let stray := (entries s.sealedMem .cluster ev b).filter fun e => e.opcode == 0x103
      (ops.filter fun a => !peers.any (fits a)).map (fun a => (ev, a.index, cLIMIT)) ++
        (stray.map fun c => (ev, c.index, cLIMIT)) ++
        (peers.filter fun c => !ops.any fun a => same a c).map fun c => (od, c.index, cLIMIT)

end Sys2Proof.Machine
end

