-- ==== Sys2Proof/Machine/SealFin.lean ====
section
/-! DEFINITION. The seal's checks of the finisher's entries and of taps (R123, R126 to R131, R137, R139, R146 to
R148). -/

namespace Sys2Proof.Machine

open Reg

/-! ### Instructions (R127 to R130) -/

/-- The operands that an operation reads, and its cycles per group (table "Finisher instruction set"). -/
def finArity (op aux : Nat) : Nat :=
  match op with
  | 0x01 | 0x07 | 0x0A | 0x0B | 0x0E => 1
  | 0x05 => 3
  | 0x0F => if aux % 16 = 7 then 2 else 1
  | _ => 2

def finCc (op cls : Nat) : Nat :=
  match op with
  | 0x06 | 0x07 => if cls = 3 then 8 else 4
  | 0x0E => if cls = 2 then 4 else if cls = 3 then 8 else 2
  | _ => 1

/-- The operation is listed for the class. -/
def finOpOk (op cls : Nat) : Bool :=
  match op with
  | 0x01 | 0x0C | 0x0F => true
  | 0x02 | 0x03 | 0x04 | 0x05 | 0x06 | 0x07 | 0x0E => cls != 4
  | 0x08 | 0x09 | 0x0A | 0x0B | 0x0D => true
  | _ => cls == 4 && decide (0x20 ≤ op) && decide (op ≤ 0x28)

/-- The operands that an instruction reads. -/
def FinInstr.srcs (x : FinInstr) : List Nat := [x.a, x.b, x.c].take (finArity x.op x.aux)

/-- An operand code is assigned. -/
def operandOk (c : Nat) : Bool := decide (c < 4) || (decide (8 ≤ c) && decide (c ≤ 20)) || c == 31

/-- Operand kinds: a stream slot and a mask latch. -/
def isSlot (c : Nat) : Bool := decide (8 ≤ c) && decide (c < 16)
def isLatch (c : Nat) : Bool := decide (16 ≤ c) && decide (c < 20)

/-- The modifier fields of R130 and the immediate of class H: R128 says that its upper half must be 0 and gives no code
for one that is not, and here it is LIMIT. DESIGN CHOICE: notes/assumptions/24.md. -/
def FinInstr.badModifier (x : FinInstr) (cls : Nat) : Bool :=
  decide (5 ≤ x.msk) || (x.minv && x.msk == 0) || (x.op == 0x0C && x.msk == 0) ||
    (match x.op with
    | 0x0D => decide ((if cls = 4 then 4 else 5) ≤ x.aux % 8) || x.aux / 8 != 0
    | 0x0E => x.aux / 8 != 0
    | 0x0F => decide (8 ≤ x.aux % 16) || decide (2 ≤ bits x.aux 5 4) || bits x.aux 7 6 != 0 ||
        (bits x.aux 5 4 == 1 && (cls == 3 || cls == 4)) || (x.aux % 16 == 4 && cls == 4)
    | _ => x.aux != 0) ||
    (cls == 0 && x.srcs.contains 20 && x.imm / 2 ^ 16 != 0)

/-- What a chain's check knows of its slots: the stream of each slot that the descriptor uses. -/
abbrev Slots := List (Nat × Stream)

/-- The stream of an operand code. -/
def Slots.at (l : Slots) (c : Nat) : Option Stream := (l.find? fun e => e.1 + 8 == c).map (·.2)

/-- An operand is a bit-mask slot. -/
def Slots.maskSlot (l : Slots) (c : Nat) : Bool := isSlot c && (match l.at c with
  | some st => st.mask
  | none => false)

/-- An operand and its instruction disagree about what is data and what is a mask (R130). -/
def FinInstr.badKinds (l : Slots) (x : FinInstr) : Bool :=
  let maskSrc := x.srcs.any fun c => isLatch c || l.maskSlot c
  if x.op = 0x01 then
    -- between a bit-mask slot and a mask latch only
    if isLatch x.a then !(l.maskSlot x.dst) else if l.maskSlot x.a then !(isLatch x.dst) else isLatch x.dst || l.maskSlot x.dst
  else maskSrc || (if x.op = 0x0D then !(isLatch x.dst) else isLatch x.dst || l.maskSlot x.dst)

/-- An instruction breaks the slot rules: a slot that is not there, a load as destination, a store as source, a REDUCE
that does not write a store. The destinations 20 (IMM) and 31 (no operand) and a missing source are refused with them,
though R130 does not list them. DESIGN CHOICE: notes/assumptions/24.md. -/
def FinInstr.badSlots (l : Slots) (x : FinInstr) : Bool :=
  x.srcs.any (fun c => isSlot c && (match l.at c with
    | some st => st.store
    | none => true)) ||
  (isSlot x.dst && (match l.at x.dst with
    | some st => !st.store
    | none => true)) ||
  (x.op == 0x0F && !(isSlot x.dst)) || x.dst == 20 || x.dst == 31 || x.srcs.contains 31

/-- Registers and latches that an instruction reads. -/
def FinInstr.reads (x : FinInstr) : List Nat :=
  x.srcs.filter (fun c => decide (c < 4) || isLatch c) ++ (if x.msk = 0 then [] else [15 + x.msk])

/-- A register or latch is read before it is written. -/
def readsEarly : List Nat → List FinInstr → Bool
  | _, [] => false
  | w, x :: l => x.reads.any (fun c => !w.contains c) || readsEarly (x.dst :: w) l

/-- A list names one slot twice. -/
def twice : List Nat → Bool
  | [] => false
  | a :: l => l.contains a || twice l

/-- A load's format suits the class: the compute format, or one that widens exactly into it (R56, R126). -/
def loadFmtOk (cls hfmt fmt : Nat) : Bool :=
  match cls with
  | 0 => fmt == hfmt || fmt == fE4M3 || fmt == fE5M2
  | 1 => fmt == fFP32 || fmt == fFP16 || fmt == fBF16 || fmt == fE4M3 || fmt == fE5M2
  | 2 => decide (fmt ≤ 8) || fmt == fI32
  | 3 => decide (fmt ≤ 10)
  | _ => fmt == fI32

/-- A stream breaks R41, R43, R126, R130 or R134, whatever reads it. -/
def Stream.bad (l : Slots) (cls : Nat) (st : Stream) : Bool :=
  st.space == 3 || decide (0x0B ≤ st.fmt) ||
    ((st.mask || isMx (if st.store then gateFmt st.gate else st.fmt)) && st.inner != 1) ||
    (st.indexed && (match l.at (8 + st.idxSlot) with
      | some x => x.store || x.mask || x.fmt != fI32
      | none => true)) ||
    st.smode == 3 || (st.smode != 0 && (!st.store || !st.indexed)) ||
    (st.smode != 0 && (st.maxPass == 0 || decide (32 < st.maxPass))) || (st.smode == 2 && cls == 3) ||
    gateLimit st.gate 1

/-! ### Duration and traffic (R139, R250) -/

/-- A store into a scatter-add slot that takes MAX_PASS cycles: an ordered one, or under STRICT any (R139). -/
def State.slowStore (s : State) (l : Slots) (x : FinInstr) : Nat :=
  match (if isSlot x.dst then l.at x.dst else none) with
    | some st => if st.smode = 1 ∨ (st.smode = 2 ∧ s.is DET_MODE.STRICT) then st.maxPass - 1 else 0
    | none => 0

/-- chain_duration (R139). -/
def State.chainCc (s : State) (d : ChainDesc) (l : Slots) (prog : List FinInstr) : Nat :=
  let lat := match d.cls with
    | 2 => 28
    | 3 => 40
    | 4 => 12
    | _ => 20
  let w := finW d.cls
  let c := prog.foldl (fun n x => n + finCc x.op d.cls + s.slowStore l x) 0 +
    (l.filter fun e => e.2.indexed).length * ceilDiv w 8
  lat + d.nOuter * ceilDiv d.nInner w * c + (if prog.any fun x => x.op == 0x0F then Nat.log2 w else 0)

/-- The latency of a class. -/
def finLat : Nat → Nat
  | 2 => 28
  | 3 => 40
  | 4 => 12
  | _ => 20

/-- The slots of a chain that have a stream. -/
def State.slotsOf (s : State) (p : Nat) (d : ChainDesc) : Slots :=
  ((List.range 8).zip d.slots).filterMap fun e => if e.2 = 0xFFFF then none else some (e.1, s.stream p e.2)

/-- The bytes of one row of a stream that is not indexed, of `n` elements. -/
def Stream.rowRanges (st : Stream) (fmt n nInner o : Nat) : List (Nat × Nat) :=
  if st.mask then [((st.row o 1).toNat, ceilDiv n 8)]
  else if isMx fmt then
    [((st.row o (fmtBits fmt)).toNat, ceilDiv (n * fmtBits fmt) 8), (st.scaleAt nInner o 0 none, ceilDiv n 32)]
  else if st.inner = 1 then [((st.elem (fmtBytes fmt) o 0 none).toNat, n * fmtBytes fmt)]
  else (List.range n).map fun i => ((st.elem (fmtBytes fmt) o i none).toNat, fmtBytes fmt)

/-- The accesses of one stream of a chain; a store that REDUCE writes holds one value per row, and a scatter-add reads
and writes. How many bytes a broadcast puts on its port is not stated: here each element of each row counts. Where the
elements of an indexed stream lie is not known at the seal: they count where OFF is. DESIGN CHOICE:
notes/assumptions/24.md. -/
def streamRanges (d : ChainDesc) (prog : List FinInstr) (e : Nat × Stream) : List (Nat × Nat) :=
  let st := e.2
  let n := if prog.any fun x => x.op == 0x0F && x.dst == e.1 + 8 then 1 else d.nInner
  let fmt := if st.store then gateFmt st.gate else st.fmt
  let rows := (List.range d.nOuter).flatMap fun o => st.rowRanges fmt n d.nInner o
  let l := if st.indexed then rows.flatMap fun r => List.replicate r.2 (st.off, 1) else rows
  if st.smode = 0 then l else l ++ l

/-- The flows of a chain over its chain_duration less LAT. -/
def State.chainFlows (s : State) (p : Nat) (e : Entry) (d : ChainDesc) (l : Slots) (prog : List FinInstr) (cc : Nat) :
    List Flow :=
  l.flatMap fun x => ((s.spacePorts p x.2.space (streamRanges d prog x)).filter fun y => y.2 != 0).map fun y =>
    ⟨y.1, e.tick, e.start + finLat d.cls, e.start + cc, y.2⟩

/-! ### Entries -/

/-- Chain `c` does not exist, or a finisher table extends beyond the region (R130). A stream exists below STREAM_COUNT,
also where that is above the 1,024 of R125, as far as a slot index can name. DESIGN CHOICE: notes/assumptions/29.md. -/
def State.chainNone (s : State) (p c : Nat) : Bool :=
  let n := s.bankGet (FIN_DESC_A.CHAIN_COUNT p) (FIN_DESC_B.CHAIN_COUNT p)
  let k := s.bankGet (FIN_DESC_A.STREAM_COUNT p) (FIN_DESC_B.STREAM_COUNT p)
  let d := s.chainDesc p c
  decide (256 ≤ c) || decide (n ≤ c) || decide (veneerSize < s.finTbl p + n * 64) ||
    (k != 0 && decide (veneerSize < s.finTbl p + 0x4000 + k * 32)) || d.nInstr == 0 || decide (32 < d.nInstr) ||
    d.progOff % 16 != 0 || decide (veneerSize < d.progOff + d.nInstr * 16) ||
    d.slots.any fun i => i != 0xFFFF && decide (k ≤ i)

/-- The LIMIT conditions of a chain (R126 to R131), the duration aside. -/
def State.chainLimit (s : State) (p c : Nat) : Bool :=
  let d := s.chainDesc p c
  let l := s.slotsOf p d
  let prog := s.finProg p d
  let stores := (prog.map (·.dst)).filter isSlot
  let used (k : Nat) : Bool := prog.any (fun x => x.dst == k + 8 || x.srcs.contains (k + 8)) ||
    l.any fun e => e.2.indexed && e.2.idxSlot == k
  decide (5 ≤ d.cls) || (if d.cls = 0 then d.hfmt != 2 && d.hfmt != 3 else d.hfmt != 0) || d.nInner == 0 ||
    d.nOuter == 0 || prog.any (fun x => !(finOpOk x.op d.cls) || !(operandOk x.dst) || !(operandOk x.a) || !(operandOk x.b) ||
      !(operandOk x.c) || x.badModifier d.cls || x.badKinds l || x.badSlots l) ||
    readsEarly [] prog || twice stores || l.any (fun e => !(used e.1) || e.2.bad l d.cls) ||
    prog.any fun x => x.srcs.any fun k => match (if isSlot k then l.at k else none) with
      | some st => !st.mask && !loadFmtOk d.cls d.hfmt st.fmt
      | none => false

/-- Nonzero reserved bits of a chain, its streams, instructions and gates. -/
def State.chainRsvd (s : State) (p c : Nat) : Bool :=
  let d := s.chainDesc p c
  d.rsvd != 0 || (s.slotsOf p d).any (fun e => e.2.rsvd != 0 || gateRsvd e.2.gate) ||
    (s.finProg p d).any fun x => x.rsvd != 0

/-- The codes of a finisher entry, and the scan after it. -/
def State.sealFin (s : State) (p : Nat) (x : Scan) (e : Entry) : List Nat × Scan :=
  match e.opcode with
  | 0x201 => ([], x)
  | 0x202 =>
    let off := s.bankGet (FIN_TBL_A.OFF p) (FIN_TBL_B.OFF p) * 64
    let fl := addFlows x.flows [⟨portVeneer p, e.tick, e.start, e.start + 528, 0x8000⟩]
    (codes [(cLIMIT, decide (veneerSize < off + 0x8000) || fl.2)], { x with flows := fl.1 })
  | _ =>
    if s.chainNone p e.desc then ([cLIMIT], x)
    else
      let d := s.chainDesc p e.desc
      let l := s.slotsOf p d
      let prog := s.finProg p d
      let cc := s.chainCc d l prog
      let bad := s.chainLimit p e.desc
      let fl := if bad then (x.flows, false) else addFlows x.flows (s.chainFlows p e d l prog cc)
      (codes [(cRSVD, s.chainRsvd p e.desc), (cLIMIT, bad || decide (e.busy < cc) || fl.2)], { x with flows := fl.1 })

/-! ### Taps (R146 to R148) -/

/-- The tap entries of a bank that capture factor `f`, in list order. -/
def State.tapsOf (s : State) (b f : Nat) : List (Nat × Entry × TapDesc) :=
  (activeList s.active).flatMap fun p =>
    ((entries s.sealedMem .cluster p b).filter fun e => e.opcode == 0x300).filterMap fun e =>
      let t := s.tapDesc p e.desc
      if t.factor ≤ f ∧ f < t.factor + t.nblk then some (p, e, t) else none

/-- The MATMUL entry that a TAP follows: the same interval, and the tap's array descriptor (R146). -/
def State.tapMatmul (s : State) (b p : Nat) (e : Entry) (t : TapDesc) : Option Entry :=
  (entries s.sealedMem .cluster p b).find? fun m =>
    m.opcode == 0x100 && m.tick == e.tick && m.start == e.start && m.busy == e.busy && m.desc == t.arrDesc

/-- The tables of a tap: each has exactly M_CAP bits set (R148). -/
def State.tablesOk (s : State) (p : Nat) (t : TapDesc) (rows mCap : Nat) : Bool :=
  (List.range t.subCount).all fun i =>
    (selectedRows s.sealedMem (veneerBase p + t.subOff + i * subSize rows) rows).length == mCap

/-- The LIMIT conditions of a TAP (R146 to R148), the count of captures aside. -/
def State.tapLimit (s : State) (b p : Nat) (e : Entry) (t : TapDesc) : Bool :=
  let f := s.factor t.factor
  let fs := (List.range t.nblk).map fun j => s.factor (t.factor + j)
  decide (s.rootCount < t.factor + t.nblk) || t.subOff % 64 != 0 || t.subCount == 0 || decide (16 < t.subCount) ||
    (match s.tapMatmul b p e t with
    | none => true
    | some m =>
      let d := s.arrDesc p m.desc
      let rows := d.batch * d.m
      s.arrNone p m.desc || isMx d.aFmt || d.shape == 1 ||
        (fs.zip (List.range t.nblk)).any (fun r => decide (d.k < t.col0 + r.2 * f.b + r.1.bReal)) ||
        decide (f.mCap * 64 < rows) || decide (rows < f.mCap) ||
        decide (veneerSize < t.subOff + t.subCount * subSize rows) || !s.tablesOk p t rows f.mCap) ||
    (fs.take (t.nblk - 1)).any (fun g => g.bsz != f.bsz) ||
    fs.any fun g => g.mCap != f.mCap || g.capCount != f.capCount || g.gCad != f.gCad || g.gPhase != f.gPhase

/-- The flows of a TAP over its busy interval: the rows that each fold member's operand buffer takes, and the bitmap. -/
def State.tapFlows (s : State) (b p : Nat) (e : Entry) (t : TapDesc) : List Flow :=
  match s.tapMatmul b p e t with
  | none => []
  | some m =>
    let d := s.arrDesc p m.desc
    ⟨portVeneer p, e.tick, e.start, e.start + e.busy, subSize (d.batch * d.m)⟩ ::
      (List.range t.nblk).flatMap fun j =>
        let f := s.factor (t.factor + j)
        (List.range f.foldN).filterMap fun i => (physOf s.active (f.foldFirst + i)).map fun c =>
          ⟨portBuffer c, e.tick, e.start, e.start + e.busy, f.mCap * f.b * fmtBytes d.aFmt⟩

/-- The codes of a TAP, and the scan after it. -/
def State.sealTap (s : State) (b p : Nat) (x : Scan) (e : Entry) : List Nat × Scan :=
  let n := s.bankGet (GAU_DESC_A.COUNT p) (GAU_DESC_B.COUNT p)
  let off := s.bankGet (GAU_DESC_A.OFF p) (GAU_DESC_B.OFF p) * 32
  if n ≤ e.desc ∨ 256 ≤ e.desc ∨ veneerSize < off + n * 32 then ([cLIMIT], x)
  else
    let t := s.tapDesc p e.desc
    let bad := s.tapLimit b p e t
    let fl := if bad then (x.flows, false) else addFlows x.flows (s.tapFlows b p e t)
    (codes [(cRSVD, t.rsvd != 0), (cLIMIT, bad || fl.2)], { x with flows := fl.1 })

/-- Once every cluster's list has been read: the first TAP of a factor that is captured by another number of TAP entries
than its CAP_COUNT (R147). -/
def State.tapCounts (s : State) (b : Nat) : List (Nat × Nat × Nat) :=
  (List.range s.rootCount).filterMap fun f =>
    match s.tapsOf b f with
    | [] => none
    | (p, e, _) :: l => if l.length + 1 = (s.factor f).capCount then none else some (p, e.index, cLIMIT)

end Sys2Proof.Machine
end

