-- ==== Sys2Proof/Machine/SealRoot.lean ====
section
/-! DEFINITION. The seal's checks of the root engine's entries (R143, R144, R153 to R156, R162, R163): descriptors and
the placement of pieces. -/

namespace Sys2Proof.Machine

open Reg

/-! ### Descriptors (R155) -/

/-- The raw words of factor descriptor `d`. -/
def State.factorWords (s : State) (d : Nat) : List Nat := s.sealedWords (s.rootTbl + d * 64) 8

/-- The reserved bits of one apply entry. -/
def applyRsvd (w0 w1 : Nat) : Bool := bits w0 31 26 != 0 || bits w0 63 56 != 0 || bits w1 63 24 != 0

/-- Entry `i` of an apply or bind table has a nonzero reserved bit. -/
def State.applyRsvdAt (s : State) (base i : Nat) : Bool :=
  applyRsvd (s.sealedRd (base + i * 16) 8) (s.sealedRd (base + i * 16 + 8) 8)

/-- Nonzero reserved bits of a factor descriptor, of its apply entries and of its gate. -/
def State.factorRsvd (s : State) (d : Nat) : Bool :=
  let f := s.factor d
  f.rsvd != 0 || gateRsvd f.gate ||
    (List.range (s.rootApply f).length).any fun i => s.applyRsvdAt (s.rootTbl + 0x40000) (f.applyIdx + i)

/-- A range of bytes is not in the usable LPDDR range. -/
def notLpddr (a n : Nat) : Bool := decide (lpddrEnd < a + n)

/-- Consecutive logical clusters do not all exist. -/
def State.groupBad (s : State) (first n : Nat) : Bool :=
  decide (2048 < first + n) || (List.range n).any fun i => (physOf s.active (first + i)).isNone

/-- The format that the captures of a factor have: that of the MATMUL of its first TAP; FP32 where there is none. -/
def State.captureFmt (s : State) (b f : Nat) : Nat :=
  match s.tapsOf b f with
  | (p, _, t) :: _ => (s.arrDesc p t.arrDesc).aFmt
  | [] => fFP32

/-- A region of R144 extends beyond its memory. -/
def Factor.regionBad (f : Factor) (captureFmt : Nat) : Bool :=
  let share := f.b * f.b * 4 / f.foldN
  decide (veneerSize < f.fOff + 2 * share) || decide (veneerSize < f.tmpOff + share) ||
    decide (0x40000 < f.capOff + 2 * f.mCap * f.b * fmtBytes captureFmt) ||
    decide (veneerSize < f.wsOff + 9 * f.matSize * (if f.bsz = 0 then 4 else 1))

/-- A value outside 0 to 1. -/
def unitBad (v : Val) : Bool := v.isNan || decide (Val.cmp v .zero < 0) || decide (0 < Val.cmp v .one)

/-- A value that is negative or not finite. -/
def nonnegBad (v : Val) : Bool := v.nonfinite || decide (Val.cmp v .zero < 0)

/-- The list of apply entries runs past entry 8,191 without LAST. -/
def State.applyOpen (s : State) (f : Factor) : Bool :=
  match (s.rootApply f).getLast? with
  | none => true
  | some e => !e.last

/-- The LIMIT conditions of R155 but for the placement. -/
def State.factorLimit (s : State) (b d : Nat) : Bool :=
  let f := s.factor d
  decide (4 < f.bsz) || f.bReal == 0 || decide (f.b < f.bReal) || f.mCap == 0 || f.capCount == 0 || f.gCad == 0 ||
    decide (256 < f.gCad) || decide (f.gCad ≤ f.gPhase) || f.rootCad == 0 || decide (4096 < f.rootCad) ||
    decide (f.rootCad ≤ f.rootPhase) || f.pcode == 3 || decide (f.iters < 8) || decide (40 < f.iters) || f.ips == 0 ||
    decide (f.iters < f.ips) || (if f.bsz = 0 then decide (11 < f.gslot) else f.gslot != 0) || (f.fp64 && f.bsz == 0) ||
    s.groupBad f.foldFirst f.foldN || s.groupBad f.hostFirst f.hostN ||
    ((f.fp64 || f.bsz == 4) && f.hostFirst % 2 != 0) || f.regionBad (s.captureFmt b d) ||
    unitBad (decodeFp fFP32 f.beta) || (decodeFp fFP32 f.wFold).nonfinite || (decodeFp fFP32 f.wFirst).nonfinite ||
    nonnegBad (decodeFp fFP64 f.lamRel) || nonnegBad (decodeFp fFP64 f.lamAbs) ||
    nonnegBad (decodeFp fFP32 f.tau) || (decodeFp fFP32 f.tau).isZero || decide (f.rootCad < f.sRun) ||
    bits f.gate 7 5 != 0 ||
    !(if f.fp64 then [fFP64, fFP32] else [fFP32, fBF16, fFP16]).contains (gateFmt f.gate) || gateLimit f.gate 1 ||
    s.applyOpen f

/-- The descriptor does not exist, or its table is not in the usable LPDDR range (R153, ROOT_TBL_A). -/
def State.factorNone (s : State) (d : Nat) : Bool := decide (s.rootCount ≤ d) || notLpddr s.rootTbl (0x40000 + 8192 * 16)

/-! ### Durations (R162) -/

/-- The members' largest hop count. -/
def State.hostHops (s : State) (ps : List Nat) : Nat := ps.foldl (fun n p => max n (s.hopsOf p)) 0

/-- The duration of an element-wise pass, t_el. -/
def Factor.tEl (f : Factor) : Nat := if f.fp64 then 8272 else 4160

/-- The duration of an array piece of a root run (table "Root engine piece costs"). -/
def State.rootArrCc (s : State) (f : Factor) (ps : List Nat) : Nat :=
  if f.fp64 then 32870 + 2 * s.hostHops ps
  else if f.bsz = 0 then 4148
  else if f.bsz = 4 then 8262 + 2 * s.hostHops ps
  else 8260

/-- The pieces that take time. -/
def timed (l : List Piece) : List Piece := l.filter fun x => x != .outcome && x != .foldEnd

/-- A Gram tile as an array operation of the single shape (R150). -/
def gramDesc (f : Factor) (fmt : Nat) : ArrDesc :=
  { arrDescOf [] with m := f.b / f.foldN, k := f.mCap, n := min f.b (gramTile fmt), mBlk := f.b / f.foldN,
                      kTotal := f.mCap, aFmt := fmt, bFmt := fmt, aSpace := 2, bSpace := 2, batch := 1 }

/-- One array piece of a root run as an array operation, of the pair where the product is a scarf operation (R162). -/
def prodDesc (f : Factor) : ArrDesc :=
  let rows := f.b / f.hostN * (if f.scarfed then 2 else 1)
  { arrDescOf [] with m := rows, k := f.b, n := f.tile, mBlk := rows, kTotal := f.b, aFmt := f.fp, bFmt := f.fp, batch := 1,
                      shape := if f.bsz = 0 then 1 else if f.fp64 then 3 else if f.bsz = 4 then 2 else 0,
                      quad := if f.bsz = 0 then f.gslot % 4 else 0 }

/-- The duration of a Gram piece. -/
def State.gramCc (s : State) (f : Factor) (fmt p : Nat) : Nat := (s.arrTime p (gramDesc f fmt) none false).duration

/-- The duration of an element-wise pass over a fold member in class S: 20 + 1 cc per 16 elements. -/
def Factor.foldEl (f : Factor) : Nat := 20 + f.b * f.b / f.foldN / finW 1

/-! ### Placement (R163) -/

/-- What the pieces of a root run need. -/
def State.rootNeeds (s : State) (f : Factor) (ps : List Nat) (l : List Piece) : List Need :=
  (timed l).map fun x => ⟨if x.isArr then s.rootArrCc f ps else f.tEl, x.isArr, 0, none⟩

/-- The interval of a TAP in cycles of the step. -/
def State.tapSpan (s : State) (e : Entry) : Nat × Nat := (s.stepCc e.tick e.start, s.stepCc e.tick (e.start + e.busy))

/-- The captures of a factor in their order: (TICK, START_CC), then the logical cluster (R149). -/
def State.captures (s : State) (b d : Nat) : List Entry :=
  (s.tapsOf b d).foldl (fun l x => insertBy (fun e => s.stepCc e.tick e.start) x.2.1 l) []

/-- What the pieces of a gauge sequence need: the pieces of capture c begin after its TAP has ended, and its Gram
product ends before capture c + 2 begins (R150). -/
def State.gaugeNeeds (s : State) (b d : Nat) (p0 : Nat) (f : Factor) (fmt : Nat) : List Need :=
  let caps := s.captures b d
  let after (c : Nat) := match caps[c]? with
    | some e => (s.tapSpan e).2
    | none => 0
  let before (c : Nat) := (caps[c + 2]?).map fun e => (s.tapSpan e).1
  (timed (f.gaugePieces fmt)).map fun x => match x with
    | .gram c _ => ⟨s.gramCc f fmt p0, true, after c, before c⟩
    | .foldAdd c => ⟨f.foldEl, false, after c, none⟩
    | _ => ⟨f.foldEl, false, 0, none⟩

/-- The kinds of window step of a block (R156). -/
def Factor.kinds (f : Factor) : List Nat :=
  if f.ips = f.iters then [0] else let n := ceilDiv f.iters f.ips; [0, 1, n, n + 1]

/-- The intervals for the root engine on members' arrays and finishers. At b = 128 the host's array must be in gang
throughout every piece of a root run, an element-wise one too. -/
def State.rootReserves (s : State) (b : Nat) (f : Factor) (gauge : Bool) (ps : List Nat) :
    List (List (Nat × Nat)) × List (List (Nat × Nat)) :=
  (ps.map fun p => if f.bsz = 0 ∧ gauge = false then s.gangReserves b p 0 else s.reserves b p 0x104 0,
   ps.map (fun p => s.reserves b p 0x201 0) ++ if f.bsz = 0 ∧ gauge = false then ps.map (s.gangSpans b) else [])

/-- The longest of several placements last, none where one fails. -/
def allPlaced : List (Option (Nat × α)) → Option (List (Nat × α))
  | [] => some []
  | none :: _ => none
  | some x :: l => (allPlaced l).map (insertBy (·.1) x)

/-! ### Traffic (R249, R250) -/

/-- The flows of one array piece of a root run that starts in cycle `c` of the step: in each pass the member's rows of A
and those of its rows of B, each row of B read once for all members, and in the last pass its rows of C. In gang they
count against the quadrant's share too. DESIGN CHOICE: notes/assumptions/24.md. -/
def State.prodFlows (s : State) (f : Factor) (ps : List Nat) (c : Nat) : List Flow :=
  let d := prodDesc f
  let es := fmtBytes f.fp
  let share := f.share f.hostN
  let kp := chunkLen d.shape
  ((List.range ps.length).zip ps).flatMap fun m => (s.arrTime m.2 d none false).passes.flatMap fun x =>
    let mine := (List.range kp).countP fun k => (x.pass * kp + k) / share == m.1
    let w : Flow := ⟨portVeneer m.2, c / s.tickLen, c % s.tickLen + x.lo, c % s.tickLen + x.lo + x.len,
      share * kp * es + mine * f.tile * es + (if x.last then share * f.tile * es else 0)⟩
    if f.bsz = 0 then [w, { w with port := portQuad m.2 d.quad }] else [w]

/-- The flows of one Gram piece that starts in cycle `c` of the step. -/
def State.gramFlows (s : State) (f : Factor) (fmt : Nat) (ps : List Nat) (e : Entry) (c : Nat) : List Flow :=
  let d := gramDesc f fmt
  ps.flatMap fun p => s.arrFlows p { e with tick := c / s.tickLen, start := c % s.tickLen } d none (s.arrTime p d none false)

/-- The flows of an element-wise piece of `cc` cycles that moves `n` matrices of `b * b / ps.length` elements of `es`
bytes on each member. -/
def State.passFlows (s : State) (f : Factor) (ps : List Nat) (cls es cc n c : Nat) : List Flow :=
  ps.map fun p => ⟨portVeneer p, c / s.tickLen, c % s.tickLen + finLat cls, c % s.tickLen + cc,
    n * (f.b * f.b / ps.length) * es⟩

/-- The flows of a piece of a root run or a gauge sequence: an element-wise pass reads one matrix and writes one, and an
accumulation reads two. DESIGN CHOICE: notes/assumptions/24.md. -/
def State.pieceFlows (s : State) (f : Factor) (fmt : Nat) (ps : List Nat) (e : Entry) (x : Piece) (c : Nat) : List Flow :=
  match x with
  | .prod _ _ _ _ => s.prodFlows f ps c
  | .gram _ _ => s.gramFlows f fmt ps e c
  | .foldAdd _ => s.passFlows f ps 1 4 f.foldEl 3 c
  | .foldInit | .foldCheck => s.passFlows f ps 1 4 f.foldEl 2 c
  | _ =>
    if e.opcode = 0x701 then s.passFlows f ps 1 4 f.foldEl 2 c
    else s.passFlows f ps (if f.fp64 then 2 else 1) (fmtBytes f.fp) f.tEl 2 c

/-! ### Placing -/

/-- What a segment's pieces must come after, and what they occupy: a block of b = 128 one quadrant of its host. -/
def rootUses (f : Factor) (gauge : Bool) (ps : List Nat) : List Nat × List Nat :=
  if f.bsz = 0 ∧ gauge = false then
    (ps.flatMap fun p => [useWhole p, useQuad p (f.gslot % 4)], ps.map fun p => useQuad p (f.gslot % 4))
  else (ps.flatMap fun p => useWhole p :: (List.range 4).map (useQuad p), ps.map useWhole)

/-- Place the pieces of an entry: the scan with its clusters in use and its traffic, and whether a window is past its
limit; or none (R163, R250). -/
def State.placeRoot (s : State) (b : Nat) (x : Scan) (e : Entry) : Option (Scan × Bool) :=
  let f := s.factor e.desc
  let gauge := e.opcode == 0x701
  let fmt := s.captureFmt b e.desc
  let ps := (List.range (if gauge then f.foldN else f.hostN)).filterMap fun i =>
    physOf s.active ((if gauge then f.foldFirst else f.hostFirst) + i)
  let r := s.rootReserves b f gauge ps
  let use := rootUses f gauge ps
  let t0 := max (s.stepCc e.tick e.start) (x.latest use.1)
  let lists := if gauge then [(f.gaugePieces fmt, s.gaugeNeeds b e.desc (ps.headD 0) f fmt)]
    else f.kinds.map fun w => let l := f.rootPieces w 0 (s.rootApply f).length; (l, s.rootNeeds f ps l)
  (allPlaced (lists.map fun l => (placeAll r.1 r.2 l.2 t0).map fun y =>
    (y.1, ((timed l.1).zip y.2).flatMap fun z => s.pieceFlows f fmt ps e z.1 z.2))).map fun ways =>
      let y := x.addWays (ways.map (·.2))
      (y.1.useTill use.2 (ways.foldl (fun m w => max m w.1) t0), y.2)

/-- The block of a ROOT_SEG or GAUGE_SEG does not fit the table "Block groups" beside the earlier ones: at b = 128 a host
holds one block in each GSLOT, and a fold cluster at most 12 blocks (R143, R155). -/
def State.groupFull (s : State) (x : Scan) (e : Entry) : Bool :=
  let f := s.factor e.desc
  let mates := x.seen.filterMap fun q =>
    let g := s.factor q.e.desc
    if q.u = .root ∧ q.e.opcode = e.opcode ∧ q.e.desc ≠ e.desc ∧ g.bsz = 0 then some (q.e.desc, g) else none
  f.bsz == 0 &&
    (if e.opcode = 0x701 then decide (12 ≤ ((mates.filter fun g => g.2.foldFirst == f.foldFirst).map (·.1)).eraseDups.length)
     else mates.any fun g => g.2.hostFirst == f.hostFirst && g.2.gslot == f.gslot)

/-- The codes of a ROOT_SEG or GAUGE_SEG, and the scan after it. -/
def State.sealRoot (s : State) (b : Nat) (x : Scan) (e : Entry) : List Nat × Scan :=
  if s.factorNone e.desc then ([cLIMIT], x)
  else
    let bad := s.factorLimit b e.desc || s.groupFull x e
    let y := if bad then none else s.placeRoot b x e
    (codes [(cRSVD, s.factorRsvd e.desc), (cLIMIT, bad || y.isNone || (y.map (·.2)).getD false)],
     let z := (y.map (·.1)).getD x
     { z with seen := z.seen ++ [⟨.root, 0, e⟩] })

end Sys2Proof.Machine
end

