-- ==== Sys2Proof/Machine/SealSol.lean ====
section
/-! DEFINITION. The seal's checks of SOLVE entries (R190 to R195, R198 to R201, R210): patterns, descriptors, piece
maps and the placement of pieces. -/

namespace Sys2Proof.Machine

open Reg

/-! ### Patterns and member records (R195) -/

/-- A range beyond the veneer region of its member. -/
def pastRegion (off n : Nat) : Bool := decide (veneerSize < off + n)

/-- The raw words of a member record, and its band table. -/
def State.memberWords (s : State) (p off : Nat) : List Nat := s.sealedWords (veneerBase p + off) 8
def State.bandWords (s : State) (m : SolMember) (bandOff : Nat) : List Nat :=
  s.sealedWords (veneerBase m.p + bandOff) m.bands.length

/-- Reserved bits of a member record. -/
def memberRsvd (w : List Nat) : Bool :=
  let g (i : Nat) := w.getD i 0
  bits (g 0) 63 56 + bits (g 1) 63 48 + bits (g 2) 63 48 + bits (g 3) 63 48 + bits (g 4) 63 48 + bits (g 5) 63 24 +
    g 6 + g 7 != 0

/-- The mask bits set in the row `i` of a band. -/
def State.rowCount (s : State) (m : SolMember) (b : Band) (i : Nat) : Nat :=
  let n := ceilDiv b.width 8
  (List.range (8 * n)).countP fun j =>
    bit (s.sealedRd (veneerBase m.p + m.maskOff + b.mask0 + i * n + j / 8) 1) (j % 8)

/-- The bytes of the mask. -/
def SolMember.maskBytes (m : SolMember) : Nat := m.bands.foldl (fun n b => n + b.rows * ceilDiv b.width 8) 0

/-- A member of a pattern with `count` members from logical cluster `first` breaks R195; `nb` is the block size of a
solve that uses block-Jacobi, 0 otherwise. -/
def State.memberBad (s : State) (t : Pattern) (nb : Nat) (m : SolMember) : Bool :=
  let w := s.memberWords m.p t.pmOff
  let bandOff := bits (w.getD 2 0) 47 24
  pastRegion t.pmOff 64 || memberRsvd w || m.rows == 0 || m.bands.isEmpty || decide (64 < m.bands.length) ||
    pastRegion bandOff (8 * m.bands.length) || pastRegion m.valOff (8 * m.entryCount) ||
    pastRegion m.idxOff (4 * m.entryCount) || pastRegion m.maskOff m.maskBytes ||
    pastRegion m.xgOff (8 * (m.rows + m.halo)) || pastRegion m.hlOff (8 * m.halo) || pastRegion m.dposOff (4 * m.rows) ||
    (nb != 0 && (pastRegion m.bposOff (4 * m.rows * nb) || pastRegion m.tposOff (4 * m.rows * nb))) ||
    (s.bandWords m bandOff).any (fun x => bits x 63 32 != 0) || m.bands.any (fun b => b.width == 0) ||
    m.bands.foldl (fun n b => n + b.rows) 0 != m.rows ||
    m.bands.any (fun b => (List.range b.rows).any fun i => decide (b.width < s.rowCount m b i)) ||
    (List.range m.halo).any fun k =>
      let h := s.sealedRd (veneerBase m.p + m.hlOff + 8 * k) 8
      bits h 63 40 != 0 ||
        (bits h 15 0 != 0xFFFF && !(decide (t.first ≤ bits h 15 0) && decide (bits h 15 0 < t.first + t.count)))

/-- The pattern of a solve breaks R195. -/
def State.patternBad (s : State) (d : SolveDesc) : Bool :=
  let t := s.pattern d.pattern
  let w := s.sealedWords (s.patTbl + d.pattern * 64) 8
  let g (i : Nat) := w.getD i 0
  let nb := if d.prec = 2 then d.nb else 0
  decide (s.bankGet ASM_PAT_A.COUNT ASM_PAT_B.COUNT ≤ d.pattern) || notLpddr s.patTbl (256 * 64) ||
    bits (g 0) 63 40 + bits (g 3) 63 56 + g 4 + g 5 + g 6 + g 7 != 0 || t.count == 0 || decide (2048 < t.count) ||
    t.pmOff % 64 != 0 || s.groupBad t.first t.count || (s.members t).any (s.memberBad t nb)

/-! ### Solve descriptors (R199, R200) -/

/-- Reserved bits of a solve descriptor and of its gate. -/
def State.solveRsvd (s : State) (i : Nat) : Bool :=
  let w := s.sealedWords (s.solTbl + i * 128) 16
  let g (k : Nat) := w.getD k 0
  bits (g 0) 31 26 + bits (g 0) 63 56 + bits (g 2) 63 56 + bits (g 3) 63 48 + bits (g 4) 63 48 + bits (g 5) 63 48 +
    g 12 + g 13 + g 14 + g 15 != 0 || gateRsvd (s.solveDesc i).gate

/-- The bytes of a member's workspace: the scalar block, the vectors of the method, the preconditioner's storage
(R210). -/
def SolveDesc.workspace (d : SolveDesc) (rows : Nat) : Nat :=
  scalarBlock + d.vectors * up64 (8 * rows) +
    (match d.prec with
    | 1 => up64 (8 * rows)
    | 2 => 8 * rows * d.nb
    | 3 => 2 * up64 (8 * rows)
    | _ => 0)

/-- An array that the descriptor names extends beyond a member's region. -/
def SolveDesc.regionBad (d : SolveDesc) (m : SolMember) : Bool :=
  pastRegion d.vecOff (d.workspace m.rows) || pastRegion d.statOff 32 ||
    pastRegion d.outOff (m.rows * fmtBytes (gateFmt d.gate)) || pastRegion d.bOff (8 * m.rows) ||
    pastRegion d.adjOff (8 * m.rows) || pastRegion (recSlot d.xOff m.rows 2) 0 || pastRegion (recSlot d.lamOff m.rows 2) 0 ||
    (d.deriv && pastRegion d.daOff (8 * m.entryCount)) || pastRegion d.mapOff 32

/-- Value `a` is below value `b`. -/
def below (a b : Val) : Bool := decide (Val.cmp a b < 0)

/-- The field ranges of R199 and R200. -/
def SolveDesc.fieldBad (d : SolveDesc) : Bool :=
  let v (x : Nat) := decodeFp fFP64 x
  d.method == 3 || decide (4 < d.prec) ||
    (if d.method = 2 then d.gmM == 0 || decide (64 < d.gmM) else d.gmM != 0) ||
    (if d.prec = 2 then decide (d.nb < 4) || decide (32 < d.nb) else d.nb != 0) ||
    (if d.prec = 3 then d.deg == 0 || decide (16 < d.deg) else d.deg != 0) || d.cap == 0 ||
    nonnegBad (v d.rtol) || nonnegBad (v d.atol) || nonnegBad (v d.tau) ||
    (d.prec == 3 && ((v d.lmin).nonfinite || (v d.lmax).nonfinite || !(below .zero (v d.lmin)) ||
      !(below (v d.lmin) (v d.lmax)))) ||
    !([fFP64, fFP32, fFP16, fBF16].contains (gateFmt d.gate)) || gateLimit d.gate 5

/-! ### Piece maps (R201, R210) -/

/-- The duration of a chain of a member's finisher table; none where the chain does not exist. -/
def State.chainTime (s : State) (p c : Nat) : Option Nat :=
  if s.chainNone p c then none
  else
    let d := s.chainDesc p c
    some (s.chainCc d (s.slotsOf p d) (s.finProg p d))

/-- The longest of a chain's durations over the members, from entry `k` of each member's piece map, 0xFFFF for none;
none where a chain does not exist. -/
def State.mapCc (s : State) (d : SolveDesc) (ms : List SolMember) (k : Nat) : Option Nat :=
  let l := ms.map fun m => (m.p, s.mapEntry d m k)
  if l.any fun x => x.2 != 0xFFFF && (s.chainTime x.1 x.2).isNone then none
  else some (l.foldl (fun n x => if x.2 = 0xFFFF then n else max n ((s.chainTime x.1 x.2).getD 0)) 0)

/-- The environment of a solve as the seal knows it, the durations of the user chains included; `f` is the descriptor of
the forward solve of its context. -/
def State.sealEnv (s : State) (d f : SolveDesc) (adj : Bool) : SolEnv :=
  let d := d.under f
  let ms := s.members (s.pattern d.pattern)
  { d := d, ms := ms, adj := adj, fwd := f,
    userCc := if d.prec = 4 then (s.userKs d ms adj).map fun k => (s.mapCc d ms k).getD 0 else [] }

/-- The piece map of a member does not fit: from entry 16 it lists the chains of the forward solve, then those of the
adjoint, each as long as the member's own piece; where another member has more bands it has no chain. A user
preconditioner has a chain for the direction. -/
def State.memberMapBad (s : State) (e : SolEnv) (m : SolMember) : Bool :=
  let l := ({ e with own := some m } : SolEnv).listed
  let base := 16 + if e.adj then ({ e with adj := false } : SolEnv).listed.length else 0
  pastRegion e.d.mapOff (2 * (base + l.length)) || m.rows == 0 ||
    (List.range l.length).any (fun k =>
      let c := s.mapEntry e.d m (base + k)
      if l.getD k 0 = 0 then c != 0xFFFF else s.chainTime m.p c != some (l.getD k 0)) ||
    (e.d.prec == 4 && (s.userKs e.d [m] e.adj).isEmpty)

/-- The piece maps of a solve break R201 or R210: every member's own is judged. DEDUCED: notes/assumptions/20.md. -/
def State.mapBad (s : State) (e : SolEnv) : Bool :=
  e.ms.any (s.memberMapBad e) || (e.d.prec == 4 && (e.userCc.isEmpty || e.userCc.any (· == 0)))

/-! ### Placement -/

/-- Every piece of a solve in order, with its phase, round and place there. -/
def SolEnv.allAt (e : SolEnv) : List (Nat × Nat × Nat × SPiece) :=
  let at' (ph k : Nat) := let l := e.pieces ph k; ((List.range l.length).zip l).map fun x => (ph, k, x.1, x.2)
  at' 0 0 ++ (List.range e.rounds).flatMap (at' 1) ++ at' 2 0 ++ at' 3 0

/-- The flows of a member's chains of a piece, one after another from cycle `c` of the step, the last to the piece's end
(R250). -/
def State.solChainFlows (s : State) (e : Entry) (p cc : Nat) (c : Nat) : List Nat → List Flow
  | [] => []
  | k :: l =>
    let d := s.chainDesc p k
    let n := s.chainCc d (s.slotsOf p d) (s.finProg p d)
    let x := if l.isEmpty then c + cc - n else c
    s.chainFlows p { e with tick := x / s.tickLen, start := x % s.tickLen } d (s.slotsOf p d) (s.finProg p d) n ++
      s.solChainFlows e p (cc - n) (c + n) l

/-- The flows of a halo exchange: each halo entry is read at its source and written into the gather buffer, after the
first 40 cc. -/
def State.haloFlows (s : State) (e : SolEnv) (c : Nat) : List Flow :=
  let f (p n lo hi : Nat) : Flow := ⟨portVeneer p, c / s.tickLen, c % s.tickLen + lo, c % s.tickLen + hi, n⟩
  e.ms.flatMap fun m =>
    let hi := 40 + ceilDiv (8 * m.halo) 64
    f m.p (8 * m.halo) 40 hi :: (List.range m.halo).filterMap fun k =>
      let h := s.sealedRd (veneerBase m.p + m.hlOff + 8 * k) 8
      (physOf s.active (bits h 15 0)).map fun q => f q 8 40 hi

/-- The flows of an array piece of block-Jacobi: for each block of a member one row, one column and the block read, and the
block written, in the quadrant that holds it. -/
def State.bjFlows (s : State) (e : SolEnv) (x : SPiece) (c : Nat) : List Flow :=
  let nb := e.d.nb
  e.ms.flatMap fun m => (List.range (ceilDiv m.rows nb)).flatMap fun k =>
    let w : Flow := ⟨portVeneer m.p, c / s.tickLen, c % s.tickLen, c % s.tickLen + x.cc - 68, (2 * nb + 2 * nb * nb) * 8⟩
    [w, { w with port := portQuad m.p (k % 4) }]

/-- The flows of a piece that starts in cycle `c` of the step. DESIGN CHOICE: notes/assumptions/24.md. -/
def State.solFlows (s : State) (e : SolEnv) (r : SolveRun) (n : Entry) (x : SPiece) (c : Nat) : List Flow :=
  (if x.arr then s.bjFlows e x c
   else e.ms.flatMap fun m => s.solChainFlows n m.p x.cc c
     (((s.pieceKs e r x).map (s.mapEntry e.d m)).filter (· != 0xFFFF))) ++
    (match x.act with
    | .halo _ => s.haloFlows e c
    | .mat _ true _ => s.haloFlows e (c + x.cc - e.haloCc)
    | _ => [])

/-- Place a solve: its interval and its traffic, or none where a piece does not fit. Pieces come after the latest piece of
an earlier solve on any of the members; array pieces of block-Jacobi lie in gang (R201, R208). -/
def State.placeSolve (s : State) (b : Nat) (y : Scan) (e : SolEnv) (x : Entry) : Option (Nat × Nat × List Flow) :=
  let arr := e.ms.map fun m => s.gangReserves b m.p 1
  let fin := e.ms.map fun m => s.reserves b m.p 0x201 1
  let t := max (s.stepCc x.tick x.start) (y.latest (e.ms.map fun m => useSolve m.p))
  let l := e.allAt
  (placeAll arr fin (l.map fun p => ⟨p.2.2.2.cc, p.2.2.2.arr, 0, none⟩) t).map fun u =>
    (u.2.headD t, u.1, (l.zip u.2).flatMap fun z =>
      s.solFlows e (.fresh (x.tag % 16) x.desc (x.arg == 1) z.1.1 z.1.2.1 z.1.2.2.1) x z.1.2.2.2 z.2)

/-- The contexts' rules (R200) that a solve breaks: a second of its direction, an adjoint without an earlier forward, or
an overlap. -/
def Scan.contextBad (x : Scan) (p : Placed) : Bool :=
  (x.solves.any fun q => q.ctx == p.ctx && (q.adj == p.adj || (!p.adj && q.adj) ||
    (decide (q.lo < p.hi) && decide (p.lo < q.hi)))) ||
    (p.adj && !x.solves.any fun q => q.ctx == p.ctx && !q.adj)

/-- The codes of a SOLVE, and the scan after it. -/
def State.sealSolve (s : State) (b : Nat) (x : Scan) (e : Entry) : List Nat × Scan :=
  if s.bankGet SOL_TBL_A.COUNT SOL_TBL_B.COUNT ≤ e.desc ∨ notLpddr s.solTbl (256 * 128) then ([cLIMIT], x)
  else
    let d := s.solveDesc e.desc
    let adj := e.arg == 1
    let f := match (if adj then x.solves.find? fun q => q.ctx == e.tag && !q.adj else none) with
      | some q => s.solveDesc q.desc
      | none => d
    let env := s.sealEnv d f adj
    let bad := d.fieldBad || s.patternBad d || env.ms.any env.d.regionBad || s.mapBad env
    let at' := if bad then none else s.placeSolve b x env e
    let fl := match at' with
      | some r => addFlows x.flows r.2.2
      | none => (x.flows, false)
    let hi := match at' with
      | some r => r.2.1
      | none => s.stepCc e.tick e.start
    let lo := match at' with
      | some r => r.1
      | none => hi
    let q : Placed := ⟨e.tag, e.desc, adj, lo, hi⟩
    (codes [(cRSVD, s.solveRsvd e.desc), (cLIMIT, bad || at'.isNone || fl.2 || x.contextBad q)],
     ({ x with solves := x.solves ++ [q], flows := fl.1 }).useTill (env.ms.map fun (m : SolMember) => useSolve m.p) hi)

end Sys2Proof.Machine
end

