-- ==== Sys2Proof/Machine/SealUpd.lean ====
section
/-! DEFINITION. The seal's checks of the update units' entries (R222, R226 to R230, R234, R240). -/

namespace Sys2Proof.Machine

open Reg

/-! ### Descriptors -/

/-- A range lies wholly in the window of controller `u` (R226). -/
def ownWindow (u a n : Nat) : Bool := decide (u * lpddrWindow ≤ a) && decide (a + n ≤ (u + 1) * lpddrWindow)

/-- A decay outside 0 ≤ x < 1. -/
def decayBad (x : Nat) : Bool := nonnegBad (v32 x) || !(below (v32 x) .one)

/-- A format that a stored momentum or second moment may have. -/
def momOk (d : Shard) (fmt : Nat) : Bool := fmt == fFP32 || fmt == fBF16 || (fmt == fFP64 && d.master64)

/-- The bind list of a shard: it ends within the table, and its slots are the working copy's generations in the named
clusters (R227). -/
def State.bindBad (s : State) (d : Shard) : Bool :=
  d.bind &&
    (let l := applyEntries s.sealedMem (s.shardTbl + 0x80000) d.bindIdx (8192 - d.bindIdx)
     (match l.getLast? with
      | some e => !e.last
      | none => true) ||
     l.any fun e => match physOf s.active e.cluster with
       | none => true
       | some p => d.wcGen 0 != veneerBase p + e.slot0 || d.wcGen 1 != veneerBase p + e.slot1)

/-- A region of a shard in unit `u`'s list breaks R226. -/
def State.shardRegionBad (s : State) (u : Nat) (d : Shard) : Bool :=
  !(ownWindow u d.stateAddr (2 * d.GB)) || (d.exp && !(ownWindow u d.expAddr d.GB)) ||
    !(s.dataOk d.gradAddr (d.count * fmtBytes d.gradFmt)) || !(s.dataOk d.ngradAddr (d.count * fmtBytes d.gradFmt)) ||
    !(s.dataOk d.wcAddr (2 * d.WB))

/-- The LIMIT conditions of a shard descriptor (R222, R226, R227, R229, R230). -/
def State.shardLimit (s : State) (u : Nat) (d : Shard) : Bool :=
  d.count == 0 || d.rule == 3 || (d.carry && d.master64) || decide (3 < d.gradFmt) || (d.gradFmt == fFP64 && d.F == fFP32) ||
    decayBad d.beta1 || (if d.rule = 1 then decayBad d.beta2 else d.beta2 != 0) ||
    (if d.rule = 1 then nonnegBad (v32 d.eps) || (v32 d.eps).isZero else d.eps != 0) ||
    nonnegBad (v32 d.wdMult) || nonnegBad (v32 d.lrMult) || (d.rule != 2 && d.ngradAddr != d.gradAddr) ||
    !(momOk d (gateFmt d.momGate)) || (if d.rule = 1 then !([fFP32, fBF16].contains (gateFmt d.smGate)) else d.smGate != 0) ||
    !([fFP64, fFP32, fFP16, fBF16, fE4M3, fE5M2].contains (gateFmt d.wcGate)) || gateLimit d.wcGate 2 ||
    gateLimit d.momGate 3 || (d.rule == 1 && gateLimit d.smGate 3) || s.shardRegionBad u d || s.bindBad d

/-- Nonzero reserved bits of a shard, its gates and its bind list. -/
def State.shardRsvd (s : State) (d : Shard) : Bool :=
  d.rsvd0 != 0 || d.rsvd != 0 || gateRsvd d.wcGate || gateRsvd d.momGate || gateRsvd d.smGate ||
    (List.range (s.bindList d).length).any fun i => s.applyRsvdAt (s.shardTbl + 0x80000) (d.bindIdx + i)

/-! ### The schedule table (R234) -/

/-- STEP values of a channel do not rise, or are too large. -/
def stepsBad : List (Nat × Nat) → Bool
  | [] => false
  | [p] => decide (2 ^ 53 ≤ p.1)
  | p :: q :: l => decide (2 ^ 53 ≤ p.1) || decide (q.1 ≤ p.1) || stepsBad (q :: l)

/-- A VALUE of channel `k` is outside its range. -/
def schedValBad (k x : Nat) : Bool :=
  match k with
  | 2 => unitBad (v32 x)
  | 3 => nonnegBad (v32 x) || (v32 x).isZero
  | _ => nonnegBad (v32 x)

/-- The schedule table has a fault (R234). -/
def State.schedBad (s : State) : Bool :=
  let base := s.schedBase
  let n (k : Nat) := s.sealedRd (base + 2 * k) 2
  notLpddr base (64 + 4 * 0x10000) || (List.range 4).any (fun k => decide (4096 < n k)) || n 0 == 0 ||
    (n 2 == 0 && s.shards.any fun d => d.2.ema) ||
    (List.range 4).any fun k => let l := breakpoints s.sealedMem base k
      stepsBad l || l.any fun p => schedValBad k p.2

/-- Nonzero reserved bits of the schedule table. -/
def State.schedRsvd (s : State) : Bool :=
  let base := s.schedBase
  (List.range 7).any (fun i => s.sealedRd (base + 8 + 8 * i) 8 != 0) ||
    (List.range 4).any fun k => (List.range (min 4096 (s.sealedRd (base + 2 * k) 2))).any fun i =>
      s.sealedRd (base + 64 + k * 0x10000 + i * 16 + 12) 4 != 0

/-! ### Durations and traffic (R240) -/

/-- The gradient or working copy lies in LPDDR. -/
def lowAddr (a : Nat) : Bool := decide (a < lpddrEnd)

/-- apply_duration (R240). -/
def Shard.applyCc (d : Shard) : Nat :=
  let g := fmtBytes d.gradFmt
  let w := fmtBytes (gateFmt d.wcGate) * (if d.verify then 2 else 1)
  let L := 2 * d.S + (if d.exp then d.S else 0) + (if lowAddr d.gradAddr then g else 0) + (if lowAddr d.wcAddr then w else 0)
  let V := (if lowAddr d.gradAddr then 0 else g) + (if lowAddr d.wcAddr then 0 else w)
  let R := if d.F = fFP64 then (if d.rule = 1 then 2 else 4) else if d.rule = 1 then 4 else 8
  96 + max (ceilDiv (d.count * L) 96) (max (ceilDiv (d.count * V) 64) (ceilDiv d.count R))

/-- norm_duration (R240). -/
def Shard.normCc (d : Shard) : Nat :=
  96 + max (ceilDiv (d.count * fmtBytes d.gradFmt) (if lowAddr d.ngradAddr then 96 else 64)) (ceilDiv d.count 16)

/-- The bytes that an APPLY moves: both generations of the state, the export, the gradient and the working copy, written
and with VERIFY read. -/
def Shard.applyRanges (d : Shard) : List (Nat × Nat) :=
  let n := d.count * d.S
  let w := (d.wcAddr, d.count * fmtBytes (gateFmt d.wcGate))
  [(d.stateAddr, n), (d.stateAddr, n)] ++ (if d.exp then [(d.expAddr, n)] else []) ++
    [(d.gradAddr, d.count * fmtBytes d.gradFmt), w] ++ (if d.verify then [w] else [])

/-- NORM's bytes. -/
def Shard.normRanges (d : Shard) : List (Nat × Nat) := [(d.ngradAddr, d.count * fmtBytes d.gradFmt)]

/-! ### Entries -/

/-- The shards with NORM = 1. -/
def State.normShards (s : State) : Nat := (s.shards.filter fun d => d.2.norm).length

/-- The codes of an entry of unit `u`, and the scan after it. -/
def State.sealUpd (s : State) (u : Nat) (x : Scan) (e : Entry) : List Nat × Scan :=
  if e.opcode = 0x601 then
    (codes [(cLIMIT, decide (e.busy < 32 + 4 * s.normShards) || x.seen.any fun q => q.e.opcode == 0x601)],
     { x with seen := x.seen ++ [⟨.update, u, e⟩] })
  else if s.shardCount ≤ e.desc ∨ 4096 < s.shardCount ∨ notLpddr s.shardTbl (0x80000 + 8192 * 16) then ([cLIMIT], x)
  else
    let d := s.shard e.desc
    let norm := e.opcode == 0x600
    let cc := if norm then d.normCc else d.applyCc
    let bad := s.shardLimit u d
    let fl := if bad then (x.flows, false)
      else addFlows x.flows (flowsOf e.tick (e.start + 96) (e.start + cc) (if norm then d.normRanges else d.applyRanges))
    (codes [(cRSVD, s.shardRsvd d || (!norm && s.schedRsvd)),
      (cLIMIT, bad || decide (e.busy < cc) || (!norm && s.schedBad) || fl.2)], { x with flows := fl.1 })

/-- Once all 16 update lists have been read: a NORM_SUM that starts before some NORM of the step has ended (R230). -/
def State.normSumFaults (s : State) (b : Nat) : List (Nat × Nat × Nat) :=
  let all := (List.range 16).flatMap fun u => (entries s.sealedMem .update u b).map fun e => (u, e)
  let late := (all.filter fun e => e.2.opcode == 0x600).foldl
    (fun n e => max n (s.stepCc e.2.tick (e.2.start + e.2.busy))) 0
  (all.filter fun e => e.2.opcode == 0x601 && decide (s.stepCc e.2.tick e.2.start < late)).map fun e => (e.1, e.2.index, cLIMIT)

end Sys2Proof.Machine
end

