-- ==== Sys2Proof/Machine/SealLink.lean ====
section
/-! DEFINITION. The seal's checks of the link ports' entries (R263, R264, R274 to R280) and of CALL (R168, R187). -/

namespace Sys2Proof.Machine

open Reg

/-! ### Ends -/

/-- The reserved bits of a kind-1 end. -/
def endRsvd (a : Nat) : Bool := bits a 23 22 != 0 || bits a 47 40 != 0

/-- A row of `n` bytes at offset `off` of the end does not lie in its region, or names an inactive cluster. -/
def State.rowBad (s : State) (veneer : Bool) (a cl off n : Nat) : Bool :=
  if veneer then (physOf s.active (bits a 39 24 + cl)).isNone || decide (veneerSize < bits a 21 0 + off + n)
  else decide (lpddrEnd < a + off + n)

/-! ### Moves (R263, R264) -/

/-- One end of a move: the last row reaches furthest. -/
def State.moveEndBad (s : State) (veneer : Bool) (a str : Nat) (m : MoveDesc) : Bool :=
  s.rowBad veneer a 0 ((m.rows - 1) * str) m.rowBytes || (veneer && decide (veneerSize ≤ bits a 21 0))

/-- The codes of a MOVE, and the scan after it. -/
def State.sealMove (s : State) (x : Scan) (e : Entry) : List Nat × Scan :=
  let tbl := s.bankGet VNR_MOVE_A.ADDR VNR_MOVE_B.ADDR * 32
  if s.bankGet VNR_MOVE_A.COUNT VNR_MOVE_B.COUNT ≤ e.desc ∨ notLpddr tbl (4096 * 32) then ([cLIMIT], x)
  else
    let w := s.sealedWords (tbl + e.desc * 32) 4
    let g (i : Nat) := w.getD i 0
    let m := moveDescOf w
    let rsvd := bits (g 0) 63 48 + bits (g 1) 63 48 + bits (g 2) 63 48 + bits (g 3) 63 50 != 0 ||
      (m.srcV && endRsvd m.src) || (m.dstV && endRsvd m.dst)
    let bad := m.rowBytes == 0 || m.rowBytes % 64 != 0 || m.rows == 0 || m.srcStr % 64 != 0 || m.dstStr % 64 != 0 ||
      s.moveEndBad m.srcV m.src m.srcStr m || s.moveEndBad m.dstV m.dst m.dstStr m
    let fl := if bad then (x.flows, false)
      else addFlows x.flows (flowsOf e.tick (e.start + e.busy - ceilDiv (m.rows * m.rowBytes) 64) (e.start + e.busy)
        (m.from s.active ++ m.to s.active))
    (codes [(cRSVD, rsvd), (cLIMIT, bad || decide (e.busy < m.cc) || fl.2)], { x with flows := fl.1 })

/-! ### Transfers (R275 to R280) -/

/-- The local end of a transfer lies outside its region, or on an inactive cluster. -/
def State.xferEndBad (s : State) (x : Xfer) : Bool :=
  if x.veneer then
    (List.range (min (x.ncl + 1) x.rows)).any fun c =>
      s.rowBad true x.addr c ((x.rows - 1 - c) / (x.ncl + 1) * x.str) x.rowBytes
  else x.ncl != 0 || s.rowBad false x.addr 0 ((x.rows - 1) * x.str) x.rowBytes

/-- Reserved bits of a transfer descriptor. -/
def xferRsvd (w : List Nat) : Bool :=
  let g (i : Nat) := w.getD i 0
  bits (g 0) 63 55 + bits (g 1) 63 48 + bits (g 2) 63 47 + bits (g 3) 63 20 != 0 ||
    (bit (g 0) 48 && endRsvd (bits (g 0) 47 0))

/-- The conditions that a SEND and a LAND share (R280). -/
def State.xferBad (s : State) (x : Xfer) : Bool :=
  x.bytes == 0 || decide (2 ^ 24 < x.bytes) || x.rowBytes % 16 != 0 || x.rdiv == 0 || s.xferEndBad x ||
    x.peer == s.get FAB_ID.DEV

/-- The conditions of a LAND (R279, R280), `bp` the scheduled rate of its port. -/
def State.landBad (s : State) (bp : Nat) (scan : Scan) (x : Xfer) (e : Entry) : Bool :=
  (x.add && (!landFmt x.fmt || x.rowBytes % fmtBytes x.fmt != 0)) || decide (s.tickLen < e.start + x.span) ||
    decide (x.span < ceilDiv (x.bytes * x.rdiv) bp) ||
    scan.seen.any fun q => q.e.opcode == 0x501 && q.e.tag == e.tag && (xferOf (s.xferWords q.e.desc)).peer == x.peer

/-- The scheduled rate of a port as it now runs. -/
def State.portBp (s : State) (p : Nat) : Nat := portRate (s.get (LNK_STATUS.RATE p)) p

/-- The codes of a SEND, LAND or PASS, and the scan after it. -/
def State.sealXfer (s : State) (p : Nat) (scan : Scan) (e : Entry) : List Nat × Scan :=
  if e.opcode = 0x502 then ([], scan)
  else if s.bankGet FAB_XFER_A.COUNT FAB_XFER_B.COUNT ≤ e.desc ∨ notLpddr s.xferTbl (4096 * 32) then ([cLIMIT], scan)
  else
    let w := s.xferWords e.desc
    let x := xferOf w
    let land := e.opcode == 0x501
    let bp := s.portBp p
    let bad := s.xferBad x || (if land then s.landBad bp scan x e else decide (e.busy < x.sendCc bp))
    let rs := x.ranges s.active
    let fl := if bad then (scan.flows, false)
      else addFlows scan.flows
        (if land then flowsOf e.tick e.start (e.start + x.span) (if x.add then rs ++ rs else rs)
         else flowsOf e.tick (e.start + e.busy - ceilDiv (x.bytes * x.rdiv) bp) (e.start + e.busy) rs)
    (codes [(cRSVD, xferRsvd w), (cLIMIT, bad || fl.2)],
     { scan with flows := fl.1, seen := if land then scan.seen ++ [⟨.port, p, e⟩] else scan.seen })

/-- The cycles that a port entry holds its engine: a LAND over its span (R274). -/
def State.portLen (s : State) (e : Entry) : Nat :=
  if e.opcode = 0x501 then (xferOf (s.xferWords e.desc)).span else e.busy

/-! ### CALL (R168) -/

/-- The kernel region of a row under a bank. -/
def kernelBase (r b : Nat) : Nat := rowPriv r + 0x20000 + b * 0x10000

/-- A gate slot of a row is valid (R187). -/
def State.gateSlotOk (s : State) (r g : Nat) : Bool :=
  let w := s.get (EXN_GATE.GATE r g)
  let c := s.get (EXN_GATE.CLASS r g)
  (c == 4 || c == 5) && !(gateLimit w c) && !(gateRsvd w) &&
    [fFP64, fFP32, fFP16, fBF16, fE4M3, fE5M2].contains (gateFmt w)

/-- A gate slot of a row holds something whose conditions are broken beside its reserved bits: a slot whose register is
0 is not in use. -/
def State.gateSlotBad (s : State) (r g : Nat) : Bool :=
  (s.get (EXN_GATE.GATE r g) != 0 || s.get (EXN_GATE.CLASS r g) != 0) && !(s.gateSlotOk r g) &&
    !(gateRsvd (s.get (EXN_GATE.GATE r g)))

/-- The kernel table entry of a CALL: its address within the bank's half. -/
def State.ktblAt (s : State) (r d : Nat) : Nat := s.bankGet (EXN_KTBL_A.OFF r) (EXN_KTBL_B.OFF r) * 8 + d * 8

/-- The codes of a CALL (R168, R169). -/
def State.sealCall (s : State) (b r : Nat) (e : Entry) : List Nat :=
  let o := s.ktblAt r e.desc
  let w := s.sealedRd (kernelBase r b + o) 8
  codes [(cRSVD, (List.range 16).any fun g => gateRsvd (s.get (EXN_GATE.GATE r g))),
    (cLIMIT, decide (s.bankGet (EXN_KTBL_A.COUNT r) (EXN_KTBL_B.COUNT r) ≤ e.desc) || decide (0x10000 < o + 8) ||
    bits w 1 0 != 0 || bits w 63 16 != 0 || (List.range 16).any (s.gateSlotBad r))]

end Sys2Proof.Machine
end

