-- ==== Sys2Proof/Machine/Seal.lean ====
section
/-! DEFINITION. The seal (R22 to R26, R423, R424): one entry, one list, every list of a bank, and the first failure. -/

namespace Sys2Proof.Machine

open Reg

/-- A failure of the seal: unit, index, entry and code. -/
structure SealFault where
  u : UnitKind
  idx : Nat
  entry : Nat
  code : Nat
deriving DecidableEq, Repr

/-! ### One entry -/

/-- The engines of an entry (R25, R79, R88, R263, R274, R424). -/
def State.enginesOf (s : State) (idx : Nat) (e : Entry) : List Nat :=
  match e.cls with
  | 0 => [0]
  | 1 => s.arrEngines idx e
  | 2 => [2]
  | 3 => [3]
  | 5 => if e.opcode = 0x501 then [2] else if e.opcode = 0x580 then [3] else [1]
  | _ => [1]

/-- The codes of an entry that its engine decides, and the scan after it. -/
def State.sealOp (s : State) (b : Nat) (idx : Nat) (x : Scan) (e : Entry) : List Nat × Scan :=
  match e.cls with
  | 1 => s.sealArr b idx x e
  | 2 => s.sealFin idx x e
  | 3 => s.sealTap b idx x e
  | 4 => (s.sealCall b idx e, x)
  | 5 => if e.opcode = 0x580 then s.sealMove x e else s.sealXfer idx x e
  | 6 => s.sealUpd idx x e
  | 7 => s.sealRoot b x e
  | 8 => s.sealSolve b x e
  | _ => ([], x)

/-- The 15 bytes that CHECK covers (R24), from memory. -/
def checkOk (m : List Host.Cell) (a : Nat) : Bool :=
  crc8 ((List.range 15).map fun i => (Memory.read m (a + i)).toNat) == (Memory.read m (a + 15)).toNat

/-- All codes of an entry whose CHECK, opcode and class are right, and the scan after it. -/
def State.sealKnown (s : State) (b : Nat) (idx ticks : Nat) (x : Scan) (e : Entry) : List Nat × Scan :=
  let engs := s.enginesOf idx e
  let r := s.sealOp b idx x e
  (codes [(cRSVD, e.rsvd != 0), (cORDER, x.orderFault engs e), (cWINDOW, s.windowFault ticks e),
      (cOVERLAP, x.overlapFault engs e), (cLIMIT, fieldLimit e)] ++ r.1,
    r.2.push engs e (if e.cls = 5 then s.portLen e else e.busy))

/-- The lowest code of an entry (R26), and the scan after it. DEDUCED: notes/assumptions/24.md. -/
def State.sealEntry (s : State) (b : Nat) (u : UnitKind) (idx ticks : Nat) (x : Scan) (e : Entry) :
    Option Nat × Scan :=
  let first := codes [(cCHECK, !(checkOk s.mem (bankBase u idx b + e.index * 16))), (cUNKNOWN, !(knownOp e.opcode)),
    (cUNIT, !(holdsClass u e.cls))]
  if !first.isEmpty then (lowestCode first, x)
  else
    let r := s.sealKnown b idx ticks x e
    (lowestCode r.1, r.2)

/-! ### One list -/

/-- The codes of a bank header (R24, R26). Entry 0 is judged by every one of them whatever its OPCODE, so that an entry 0
that is no HEADER and does not carry the device's ABI is recorded as ABI, the lower code. DESIGN CHOICE:
notes/assumptions/24.md. -/
def State.headerCode (s : State) (b : Nat) (u : UnitKind) (idx : Nat) (x : Scan) : Option Nat :=
  let a := bankBase u idx b
  let w0 := Memory.rd s.mem a 8
  let w1 := Memory.rd s.mem (a + 8) 8
  let ticks := bits w1 47 32
  lowestCode (codes [(cCHECK, !(checkOk s.mem a)),
    (cRSVD, bits w0 63 52 != 0 || bits w1 31 29 != 0 || bits w1 55 48 != 0),
    (cABI, bits w1 7 0 != s.get DEV_ABI.MAJOR || decide (s.get DEV_ABI.MINOR_MAX < bits w1 15 8)),
    (cHEADER, bits w0 31 20 != 1 || bits w0 19 0 != 0 || bits w0 51 32 != 0 ||
      decide (bankSize u / 16 - 1 < bits w1 28 16) || ticks == 0 ||
      (match x.ticks with
      | some n => n != ticks
      | none => false))])

/-- The entries of a list in order, to the first failure. -/
def State.sealEntries (s : State) (b : Nat) (u : UnitKind) (idx ticks : Nat) :
    List Entry → Scan → Option SealFault × Scan
  | [], x => (none, x)
  | e :: l, x =>
    match s.sealEntry b u idx ticks x e with
    | (some c, y) => (some ⟨u, idx, e.index, c⟩, y)
    | (none, y) => s.sealEntries b u idx ticks l y

/-- What is judged at the end of a list: of the list itself, and of the lists that it completes (R79, R83, R91, R147,
R230). -/
def State.listEnd (s : State) (b : Nat) (u : UnitKind) (idx : Nat) (last : Bool) (x : Scan) : Option SealFault :=
  match u with
  | .cluster =>
    let mk (r : Nat × Nat × Nat) : SealFault := ⟨.cluster, r.1, r.2.1, r.2.2⟩
    (x.arrEnd.map (fun r => mk (idx, r)) ++ (s.pairFaults b idx).map mk ++
      (if last then (s.tapCounts b).map mk else [])).head?
  | .update => if last then ((s.normSumFaults b).map fun r => (⟨.update, r.1, r.2.1, r.2.2⟩ : SealFault)).head? else none
  | _ => none

/-- One list. -/
def State.sealList (s : State) (b : Nat) (u : UnitKind) (idx : Nat) (last : Bool) (x : Scan) :
    Option SealFault × Scan :=
  match s.headerCode b u idx x with
  | some c => (some ⟨u, idx, 0, c⟩, x)
  | none =>
    let ticks := bits (Memory.rd s.mem (bankBase u idx b + 8) 8) 47 32
    match s.sealEntries b u idx ticks (entries s.mem u idx b) { x.newList with ticks := some ticks } with
    | (some f, y) => (some f, y)
    | (none, y) => (s.listEnd b u idx last y, y)

/-! ### A bank -/

/-- The lists of the enabled units, in the order of the table "List memories", each with whether it is its kind's
last (R22). -/
def State.sealLists (s : State) : List (UnitKind × Nat × Bool) :=
  let mk (u : UnitKind) (l : List Nat) : List (UnitKind × Nat × Bool) := l.map fun i => (u, i, l.getLast? == some i)
  mk .cluster (activeList s.active) ++ mk .row (List.range 64) ++ mk .port (List.range 8) ++
    mk .update (List.range 16) ++ mk .root [0] ++ mk .krylov [0]

/-- Every list in turn, to the first failure. -/
def State.sealAll (s : State) (b : Nat) : List (UnitKind × Nat × Bool) → Scan → Option SealFault
  | [], _ => none
  | l :: ls, x =>
    match s.sealList b l.1 l.2.1 l.2.2 x with
    | (some f, _) => some f
    | (none, y) => s.sealAll b ls y

/-- The first failure of a seal of bank `b` as the memory now stands; none where the bank passes (R26). -/
def State.sealFault (s : State) (b : Nat) : Option SealFault :=
  let v := s.sealView b
  v.sealAll b v.sealLists Scan.start

end Sys2Proof.Machine
end

