-- ==== Sys2Proof/Machine/Load.lean ====
section
/-! DEFINITION. Loading a job and sealing its banks (R14, R26, R33, R169, R262, R285, R294, R365, R368, R377, R394,
R400): the CFG conditions, TICK_CTRL.LOAD, the end of a seal, and writes to list memories, descriptor pointers and
kernel regions. -/

namespace Sys2Proof.Machine

open Reg

/-! ### The CFG conditions -/

/-- The fields of TICK_CFG are in range (R14). -/
def State.tickCfgOk (s : State) : Bool :=
  let n := s.get TICK_CFG.TICK_LOG2
  decide (14 ≤ n) && decide (n ≤ 20) && decide (1 ≤ s.get TICK_CFG.KERF_Q) && decide (s.get TICK_CFG.KERF_Q ≤ 2 ^ (n - 10)) &&
    decide (s.get TICK_CFG.NGUARD_Q ≤ 2 ^ (n - 9))

/-- A port is fenced. -/
def State.fenced (s : State) (p : Nat) : Bool := s.is (LNK_SLICE.FENCE p)

/-- The fence pattern of a slice's shape, as far as the device judges it (R285). -/
def State.fencesOk (s : State) : Bool :=
  let n := s.get FAB_SLICE.SIZE
  let f := s.fenced
  let z := ofBool (f 4) + ofBool (f 5)
  let w := ofBool (f 6) + ofBool (f 7)
  !(f 0) && !(f 1) && !(f 2) && !(f 3) && (n == 16 || n == 32 || (n % 64 == 0 && n != 0)) &&
    z == (if n = 16 then 2 else if n = 32 then 1 else 0) &&
    (if n ≤ 64 then w == 2 else if s.is FAB_SLICE.WRING then w == 0 else decide (w ≤ 1))

/-- A routing-table field names a fenced port; fields that hold their reset value name none (R282). -/
def State.routesFenced (s : State) : Bool :=
  (s.flds.any fun e =>
    let a := e.1 / 64
    decide (lnkBase 0 ≤ a) && decide (a < lnkBase 8) && decide (0x1000 ≤ (a - lnkBase 0) % 0x100000) &&
      decide ((a - lnkBase 0) % 0x100000 < 0x2000) && decide (e.2 < 8) && s.fenced e.2) ||
    (List.range 8).any fun p => decide (s.get (LNK_ALT.PORT p) < 8) && s.fenced (s.get (LNK_ALT.PORT p))

/-- A port of the spanning tree is fenced. -/
def State.treeFenced (s : State) : Bool :=
  (decide (s.get FAB_TREE.PARENT < 8) && s.fenced (s.get FAB_TREE.PARENT)) ||
    (List.range 8).any fun p => bit (s.get FAB_TREE.CHILDREN) p && s.fenced p

/-- Every unfenced port is up, at the slice's rate, with a partner at this core rate (R285, R394). -/
def State.portsOk (s : State) : Bool :=
  (List.range 8).all fun p => s.fenced p || (s.get (LNK_STATUS.STATE p) == 2 &&
    s.get (LNK_STATUS.RATE p) == s.get FAB_CFG.RATE && (s.link p).partnerMhz == s.get CLK_STATUS.CORE_MHZ)

/-- Strictly ascending. -/
def ascending : List Nat → Bool
  | a :: b :: l => decide (a < b) && ascending (b :: l)
  | _ => true

/-- The 128 bits of entry `k` of the replica-group table. -/
def State.rgrpEntry (s : State) (k : Nat) : Nat := s.rd (s.get FAB_RGRP.ADDR * 16 + k * 16) 16

/-- The replica-group table keeps R294. -/
def State.rgrpOk (s : State) : Bool :=
  let n := s.get FAB_RGRP.COUNT
  n == 0 || (inLpddr (s.get FAB_RGRP.ADDR * 16) (16 * n) &&
    ascending ((List.range n).map fun k => bits (s.rgrpEntry k) 15 0) &&
    (List.range n).all fun k =>
      let w := s.rgrpEntry k
      let m := bits w 18 16
      let peers := (List.range m).map fun i => bits w (31 + 12 * i) (20 + 12 * i)
      m != 0 && !(bit w 19) && w / 2 ^ (20 + 12 * m) == 0 && ascending peers && !(peers.contains (s.get FAB_ID.DEV)))

/-- The inbox table: entry `b` as BASE and CAP_LOG2, and whether its other bits are 0 and its sets lie in LPDDR
(R365). -/
def State.inboxEntry (s : State) (b : Nat) : (Nat × Nat) × Bool :=
  let w := s.rd (s.get BCP_INBOX_TBL.ADDR * 16 + b * 16) 16
  let base := bits w 47 0
  let cap := bits w 52 48
  ((base, cap), w / 2 ^ 53 == 0 && base % 64 == 0 && decide (12 ≤ cap) && decide (cap ≤ 30) &&
    inLpddr base (s.get BCP_INBOX_TBL.DEPTH * 2 ^ cap))

/-- The inbox keeps R365. -/
def State.inboxOk (s : State) : Bool :=
  let n := s.get BCP_INBOX_TBL.COUNT
  decide (n ≤ 64) && decide (3 ≤ s.get BCP_INBOX_TBL.DEPTH) && decide (s.get BCP_INBOX_TBL.DEPTH ≤ 8) &&
    (n == 0 || inLpddr (s.get BCP_INBOX_TBL.ADDR * 16) (16 * n)) && (List.range n).all fun b => (s.inboxEntry b).2

/-- The outbox table: entry `b` as BASE and LEN, and whether it keeps R368. -/
def State.outboxEntry (s : State) (b : Nat) : (Nat × Nat) × Bool :=
  let w := s.rd (s.get BCP_OUTBOX_TBL.ADDR * 16 + b * 16) 16
  let base := bits w 47 0
  let len := bits w 95 64
  ((base, len), bits w 63 48 == 0 && w / 2 ^ 96 == 0 && base % 64 == 0 && len % 64 == 0 && len != 0 &&
    decide (len ≤ 2 ^ 30) && inLpddr base (2 * len))

/-- The outbox keeps R368. -/
def State.outboxOk (s : State) : Bool :=
  let n := s.get BCP_OUTBOX_TBL.COUNT
  decide (n ≤ 16) && (n == 0 || inLpddr (s.get BCP_OUTBOX_TBL.ADDR * 16) (16 * n)) &&
    (List.range n).all fun b => (s.outboxEntry b).2

/-- The census ring lies in usable LPDDR (DEV_CENSUS_BASE). A nonzero ADDR_HI is presented to the device (R8) at the job load,
while the census is enabled; the register takes the value. DESIGN CHOICE: notes/assumptions/31.md. -/
def State.censusOk (s : State) : Bool :=
  !(s.is DEV_CENSUS_CTRL.ENABLE) || (s.get DEV_CENSUS_BASE.ADDR_HI == 0 &&
    inLpddr (s.get DEV_CENSUS_BASE.ADDR * 2 ^ 14) (0x4000 * 2 ^ s.get DEV_CENSUS_CTRL.RING_LOG2))

/-- Provenance in use has its ring in usable LPDDR (DET_PROV_BASE). -/
def State.provLoadOk (s : State) : Bool :=
  !(s.is DET_PROV_CTRL.AUTO || s.is DET_PROV_CTRL.ON_EXPORT || s.det.snapPend) || s.provOk

/-- No condition refuses a load with schedule fault CFG (R26). -/
def State.cfgOk (s : State) : Bool :=
  s.tickCfgOk && (List.range 16).all (fun c => s.get (MEM_STATUS.STATE c) == 1) && s.get FAB_SLICE.ID != 0 && s.portsOk &&
    s.fencesOk && !s.routesFenced && !s.treeFenced && s.is FAB_SYNT.LOCKED && s.is CLK_STATUS.PLL_LOCK && s.rgrpOk &&
    !(s.is CFG_STATUS.SITE_DEFAULT) && !(s.is PAD_HOLD.HELD) && s.inboxOk && s.outboxOk && s.censusOk && s.provLoadOk

/-! ### LOAD (R26) -/

def cCFG : Nat := 0x0A

/-- The unit class of the tick controller in TICK_FAULT. -/
def ucTick : Nat := 15

/-- Root records whose run was in progress at the load start anew at their next window step 0 (R164). -/
def RootSt.atLoad (r : RootSt) : RootSt :=
  { r with runs := [], outcomes := [], recs := r.recs.map fun e => (e.1, { e.2 with run := false }) }

/-- What a load that is accepted resets: counters and digests, the totals and function tables, the inbox, and what the
first square-up draws (R53, R116, R137, R164, R323, R365, R368). -/
def State.freshJob (s : State) : State :=
  let inT := (List.range (s.get BCP_INBOX_TBL.COUNT)).map fun b => (s.inboxEntry b).1
  let outT := (List.range (s.get BCP_OUTBOX_TBL.COUNT)).map fun b => (s.outboxEntry b).1
  let s := { s with flds := zeroCounters s.flds, tallies := Store.erase s.tallies kibTally }
  let s := (mapDigestRegs ++ stateDigestRegs ++ inputDigestRegs ++ inputLastRegs).foldl (fun s f => s.clearF f) s
  let s := s.setAll [(DET_ND_USED.SCATTER_U, 0), (DET_ND_USED.VSXA_U, 0), (DET_ND_USED.SRE, 0), (DET_ND_USED.REROUTE, 0),
    (DET_ND_USED.OPP_STRETCH, 0), (DET_ND_USED.FIRST_STEP, 0)]
  let s := (s.zeroTotals).set BCP_OUTBOX_STAT.PENDING 0
  let s := { s with root := s.root.atLoad, census := [] }
  (s.updHost fun h => { h with inbox := [], inTbl := inT, outTbl := outT, inputGap := false, pushes := [] }).updTick fun t =>
    { t with firstSquareUp := true }

/-- TICK_CTRL.LOAD (R26, R36, R422): refused with CFG, or TICK_STEP is written and the seal of bank A begins. DEDUCED:
notes/assumptions/13.md. -/
def State.actLoad (s : State) : State :=
  if s.job ≠ 0 ∨ s.tick.sealing.isSome then s.denied
  else if !s.cfgOk then ((s.recordFault cCFG ucTick 0 0 0 0).loadRefused cCFG).okay
  else
    let s := (s.freshJob.unseal 0).setAll [(TICK_STEP.STEP, s.get TICK_LOAD_STEP.STEP), (TICK_STATUS.SEALING, 1),
      (TICK_STATUS.BANK, 0)]
    (s.updTick fun t => { t with loaded := true, sealing := some 0, sealLoad := true }).okay

/-- TICK_CTRL_LOAD. -/
def execTickCtrlLoad (s : State) : Host.Outcome State Fault Refusal := .next (s.write State.actLoad)

/-! ### The end of a seal (R26) -/

/-- The seal of bank `b` has failed. -/
def State.sealFails (s : State) (b : Nat) (load : Bool) (f : SealFault) : State :=
  let s := s.recordFault f.code f.u.code f.idx f.entry b 0
  if load then (s.updTick fun t => { t with loaded := false }).loadFailed else s

/-- The seal of bank `b` has passed: the units hold private copies of what they read. -/
def State.sealPasses (s : State) (b : Nat) (load : Bool) : State :=
  let c : SealCopy := ⟨s.mem, s.flds, s.active⟩
  let s := s.set (sealedF b) 1
  let s := if b = 0 then { s with sealA := some c } else { s with sealB := some c }
  let s := if load || s.activeBank b then
      let w := Memory.rd s.mem (bankBase .krylov 0 b + 8) 8
      s.setAll [(TICK_ABI.MAJOR, bits w 7 0), (TICK_ABI.MINOR, bits w 15 8), (TICK_ABI.STEP_TICKS, bits w 47 32)]
    else s
  if load then (s.setJob 1 0).completeLong opJOB_LOAD stOK [] else s

/-- The seal in progress ends. -/
def State.sealDone (s : State) : State :=
  match s.tick.sealing with
  | none => s
  | some b =>
    let load := s.tick.sealLoad
    let r := s.sealFault b
    let s := (s.set TICK_STATUS.SEALING 0).updTick fun t => { t with sealing := none, sealLoad := false }
    match r with
    | some f => s.sealFails b load f
    | none => s.sealPasses b load

/-- SEAL_DONE. -/
def execSealDone (s : State) : Host.Outcome State Fault Refusal := .next s.sealDone

/-! ### Writes that reach a bank (R26, R33, R169) -/

/-- A 64-bit write to a list memory: logged where the bank is active under a loaded job. -/
def State.writeList (s : State) (a v : Nat) : State :=
  match (if a % 8 = 0 then regionOf s.active a else .hole) with
  | .list u idx off =>
    let sc := unitScope u idx
    (match s.touchBank (off / bankSize u) sc.1 sc.2 srcTICK with
    | (some s, _) => (s.wr a 8 v).okay
    | (none, s) => s.okay)
  | _ => s.denied

/-- A 64-bit write to a kernel region. -/
def State.writeKernel (s : State) (a v : Nat) : State :=
  match (if a % 8 = 0 then regionOf s.active a else .hole) with
  | .rowSetup r off =>
    if 0x20000 ≤ off ∧ off < 0x40000 then
      (match s.touchBank ((off - 0x20000) / 0x10000) scRow r srcEXN with
      | (some s, _) => (s.wr a 8 v).okay
      | (none, s) => s.okay)
    else s.denied
  | _ => s.denied

/-- The descriptor pointer registers of one bank outside the cluster and row blocks, with the scope and source of a
logged write. -/
def pointersOf (b : Nat) : List (Nat × Nat × Nat × Nat) :=
  let f (x y : Fld) := if b = 0 then x.addr else y.addr
  [(f ROOT_TBL_A.ADDR ROOT_TBL_B.ADDR, scSeq, 1, srcROOT), (f ASM_PAT_A.ADDR ASM_PAT_B.ADDR, scSeq, 2, srcSOL),
   (f SOL_TBL_A.ADDR SOL_TBL_B.ADDR, scSeq, 2, srcSOL), (f UPD_TBL_A.ADDR UPD_TBL_B.ADDR, scDevice, 0, srcUPD),
   (f UPD_SCHED_A.ADDR UPD_SCHED_B.ADDR, scDevice, 0, srcUPD), (f VNR_MOVE_A.ADDR VNR_MOVE_B.ADDR, scDevice, 0, srcVNR),
   (f FAB_XFER_A.ADDR FAB_XFER_B.ADDR, scDevice, 0, srcFAB)]

/-- The bank, scope, index and source of the descriptor pointer register at an address (R26, R33). -/
def pointerAt (a : Nat) : Option (Nat × Nat × Nat × Nat) :=
  if arrBase 0 ≤ a ∧ a < arrBase nPhys then
    let p := (a - arrBase 0) / 0x10000
    match (a - arrBase 0) % 0x10000 with
    | 0x0008 => some (0, scCluster, p, srcARR)
    | 0x0010 => some (1, scCluster, p, srcARR)
    | 0x8008 => some (0, scCluster, p, srcFIN)
    | 0x8010 => some (1, scCluster, p, srcFIN)
    | 0xC008 => some (0, scCluster, p, srcGAU)
    | 0xC010 => some (1, scCluster, p, srcGAU)
    | _ => none
  else if exnBase 0 ≤ a ∧ a < exnBase 64 then
    match (a - exnBase 0) % 0x10000 with
    | 0x08 => some (0, scRow, (a - exnBase 0) / 0x10000, srcEXN)
    | 0x10 => some (1, scRow, (a - exnBase 0) / 0x10000, srcEXN)
    | _ => none
  else
    let l : List (Nat × Nat × Nat × Nat × Nat) := ((pointersOf 0).map fun e => (0, e)) ++ (pointersOf 1).map fun e => (1, e)
    l.findSome? fun e => if e.2.1 = a then some (e.1, e.2.2) else none

/-- Give the RW fields of a register the bits of a word. -/
def State.putFields (s : State) (a v : Nat) : State :=
  (fieldsAt a).foldl (fun s f => if f.acc = .rw then s.set f (bits v (f.lo + f.width - 1) f.lo) else s) s

/-- A write of a descriptor pointer register: logged where its bank is active under a loaded job. -/
def State.writePointer (s : State) (a v : Nat) : State :=
  match pointerAt a with
  | some (b, sc, idx, src) =>
    (match s.touchBank b sc idx src with
    | (some s, _) => (s.putFields a v).okay
    | (none, s) => s.okay)
  | none => s.denied

/-- LIST_MEMORY_WRITE. -/
def execListMemoryWrite (a v : Nat) (s : State) : Host.Outcome State Fault Refusal := .next (s.write fun s => s.writeList a v)

/-- DESCRIPTOR_POINTER_WRITE. -/
def execDescriptorPointerWrite (a v : Nat) (s : State) : Host.Outcome State Fault Refusal :=
  .next (s.write fun s => s.writePointer a v)

/-- KERNEL_REGION_WRITE. -/
def execKernelRegionWrite (a v : Nat) (s : State) : Host.Outcome State Fault Refusal :=
  .next (s.write fun s => s.writeKernel a v)

/-- The tables that the pointer registers of bank `b` locate, as they now stand: address and length. -/
def State.deviceTables (s : State) (b : Nat) : List (Nat × Nat) :=
  let g (x y : Fld) := s.get (if b = 0 then x else y)
  let root := g ROOT_TBL_A.ADDR ROOT_TBL_B.ADDR * 64
  let upd := g UPD_TBL_A.ADDR UPD_TBL_B.ADDR * 128
  [(root, g ROOT_TBL_A.COUNT ROOT_TBL_B.COUNT * 64), (root + 0x40000, 8192 * 16),
   (g ASM_PAT_A.ADDR ASM_PAT_B.ADDR * 64, g ASM_PAT_A.COUNT ASM_PAT_B.COUNT * 64),
   (g SOL_TBL_A.ADDR SOL_TBL_B.ADDR * 128, g SOL_TBL_A.COUNT SOL_TBL_B.COUNT * 128),
   (upd, g UPD_TBL_A.COUNT UPD_TBL_B.COUNT * 128), (upd + 0x80000, 8192 * 16),
   (g UPD_SCHED_A.ADDR UPD_SCHED_B.ADDR * 64, 64 + 4 * 0x10000),
   (g VNR_MOVE_A.ADDR VNR_MOVE_B.ADDR * 32, g VNR_MOVE_A.COUNT VNR_MOVE_B.COUNT * 32),
   (g FAB_XFER_A.ADDR FAB_XFER_B.ADDR * 32, g FAB_XFER_A.COUNT FAB_XFER_B.COUNT * 32)]

/-- The tables of one cluster. -/
def State.clusterTables (s : State) (b p : Nat) : List (Nat × Nat) :=
  let g (x y : Nat → Fld) := s.get (if b = 0 then x p else y p)
  let arr := veneerBase p + g ARR_DESC_A.OFF ARR_DESC_B.OFF * 64
  let fin := veneerBase p + g FIN_DESC_A.OFF FIN_DESC_B.OFF * 64
  [(arr, g ARR_DESC_A.DESC_COUNT ARR_DESC_B.DESC_COUNT * 64), (arr + 0x4000, g ARR_DESC_A.JIG_COUNT ARR_DESC_B.JIG_COUNT * 64),
   (fin, g FIN_DESC_A.CHAIN_COUNT FIN_DESC_B.CHAIN_COUNT * 64),
   (fin + 0x4000, g FIN_DESC_A.STREAM_COUNT FIN_DESC_B.STREAM_COUNT * 32),
   (veneerBase p + g FIN_TBL_A.OFF FIN_TBL_B.OFF * 64, 0x8000),
   (veneerBase p + g GAU_DESC_A.OFF GAU_DESC_B.OFF * 32, g GAU_DESC_A.COUNT GAU_DESC_B.COUNT * 32)]

/-- A write of `n` bytes at `a` through the setup network or the host transport: a seal whose bank's tables it touches
is aborted (R26). -/
def State.touchTables (s : State) (a n : Nat) : State :=
  match s.tick.sealing with
  | none => s
  | some b =>
    let l := if a < lpddrEnd then s.deviceTables b else s.clusterTables b ((a - veneerBase 0) / 0x400000)
    if l.any fun t => decide (a < t.1 + t.2) && decide (t.1 < a + n) then s.abortSeal b else s

end Sys2Proof.Machine
end

