-- ==== Sys2Proof/Machine/Replica.lean ====
section
/-! DEFINITION. Glue-up action 3 (R241, R294, R346 to R348): shard checksums are exchanged and compared, and a mismatch
is replayed, repaired or halts the slice. -/

namespace Sys2Proof.Machine

open Reg

/-! ### Groups and peers (R294) -/

/-- The peers of a replica-group entry at `a`. -/
def State.groupPeers (s : State) (a : Nat) : List Nat :=
  let w := s.rd a 16
  (List.range (bits w 18 16)).map fun k => bits w (31 + 12 * k) (20 + 12 * k)

/-- The replica-group table: group and peers, in order. -/
def State.groups (s : State) : List (Nat × List Nat) :=
  (List.range (s.get FAB_RGRP.COUNT)).map fun k =>
    let a := s.get FAB_RGRP.ADDR * 16 + k * 16
    (s.rd a 2, s.groupPeers a)

/-- A checksum slot in the table: descriptor, key, group, CRC. -/
structure ChkSlot where
  desc : Nat
  key : Nat
  rgroup : Nat
  crc : Nat
deriving DecidableEq, Repr

/-- The shards of this device that have replicas, with the checksums it wrote (R241). -/
def State.chkSlots (s : State) : List ChkSlot :=
  (s.shards.filter fun d => d.2.rgroup != 0).map fun d =>
    let a := s.chkBase + d.1 * 16
    ⟨d.1, d.2.key, d.2.rgroup, s.rd a 8⟩

/-- Insertion by key. -/
def insSlot (x : ChkSlot) : List ChkSlot → List ChkSlot
  | [] => [x]
  | y :: l => if x.key ≤ y.key then x :: y :: l else y :: insSlot x l

/-- Slots in ascending key. -/
def sortSlots (l : List ChkSlot) : List ChkSlot := l.foldr insSlot []

/-- The peers that hold a replica of a slot. -/
def State.peersOf (s : State) (x : ChkSlot) : List Nat :=
  match s.groups.find? fun g => g.1 == x.rgroup with
  | some g => g.2
  | none => []

/-- Send the checksums of some slots, routed by the tables: groups ascending, peers ascending, keys ascending (R294). -/
def State.sendChks (s : State) (xs : List ChkSlot) : State :=
  s.groups.foldl (fun s g => g.2.foldl (fun s dev =>
    (sortSlots (xs.filter fun x => x.rgroup == g.1)).foldl (fun s x =>
      s.sendRouted dev 0 fun p => .checksum p dev g.1 x.key x.crc) s) s) s

/-- What a peer sent for a key of a group. -/
def State.peerCrc (s : State) (dev rgroup key : Nat) : Option Nat :=
  (s.upd.peerCrcs.find? fun e => e.1 == dev && e.2.1 == rgroup && e.2.2.1 == key).map (·.2.2.2)

/-- Every frame that the comparison needs has arrived. -/
def State.allChks (s : State) : Bool :=
  s.chkSlots.all fun x => (s.peersOf x).all fun d => (s.peerCrc d x.rgroup x.key).isSome

/-- A shard whose CRC differs from a peer's. -/
def State.differs (s : State) (x : ChkSlot) : Bool :=
  (s.peersOf x).any fun d => match s.peerCrc d x.rgroup x.key with
    | some c => c != x.crc
    | none => false

/-- A local key that some peer did not send. -/
def State.missing (s : State) (x : ChkSlot) : Bool := (s.peersOf x).any fun d => (s.peerCrc d x.rgroup x.key).isNone

/-- Groups and keys received without a local match. -/
def State.foreignKeys (s : State) : List (Nat × Nat) :=
  (s.upd.peerCrcs.filter fun e => !(s.chkSlots.any fun x => x.rgroup == e.2.1 && x.key == e.2.2.1)).map fun e =>
    (e.2.1, e.2.2.1)

/-- The first finding, unless one is held (UPD_CHK_FIRST). -/
def State.chkFirst (s : State) (key rgroup : Nat) : State :=
  if s.is UPD_CHK_FIRST.VALID then s
  else s.setAll [(UPD_CHK_FIRST.KEY, key), (UPD_CHK_FIRST.RGROUP, rgroup), (UPD_CHK_FIRST.VALID, 1)]

/-- The device's part of action 3 is complete; frames that come now belong to a second exchange. -/
def State.chkDone (s : State) : State :=
  (s.updUpd fun u => { u with peerCrcs := [], sent := false }).updTick fun t => { t with actDone := true }

/-- The comparison of R241: counts, the first finding, and whether anything mismatched, which the device's gather
reports. `repairs` holds the affected keys until the second exchange. -/
def State.compareChks (s : State) : State :=
  let xs := s.chkSlots
  let bad := xs.filter fun x => s.differs x || s.missing x
  let foreign := s.foreignKeys
  let n := (xs.filter fun x => !s.missing x).length
  let mis := (xs.filter s.differs).length
  let un := (xs.filter s.missing).length + foreign.length
  let s := s.setAll [(UPD_CHK_STATUS.COMPARED, n), (UPD_CHK_STATUS.MISMATCHED, mis), (UPD_CHK_STATUS.UNMATCHED, un)]
  let s := match bad, foreign with
    | x :: _, _ => s.chkFirst x.key x.rgroup
    | [], k :: _ => s.chkFirst k.2 k.1
    | [], [] => s
  let s := match (bad.map (·.rgroup) ++ foreign.map (·.1)).getLast? with
    | some g => s.set ERR_MISMATCH1.LAST_RGROUP g
    | none => s
  (s.updUpd fun u => { u with repairs := (bad.map fun x => (x.key, 0)) ++ foreign.map fun k => (k.2, 0) }).chkDone

/-! ### The procedure of R346 -/

/-- Re-run every APPLY of the step that names a shard, in list order, without census counts (R346): its sealed durations
pass one after another. An error of what it reads ends it (R348). -/
def State.replayShard (s : State) (d : Nat) : State :=
  (List.range 16).foldl (fun s u =>
    ((s.runEntries .update u).filter fun e => e.opcode == 0x602 && e.desc == d).foldl
      (fun s e =>
        let s := s.applyReads u d []
        if s.running && s.err.proc.isEmpty then (s.runApply u d false).pass e.busy else s) s) s

/-- A contained error has been met in the procedure of R346: the rest of it is abandoned, and the device's part of the
action is complete (R348). -/
def State.abandonProc (s : State) : State :=
  (s.updUpd fun u => { u with repairs := [], noMajority := false, peerCrcs := [], sent := false }).updTick fun t =>
    { t with actDone := true }

/-- The affected shards of this device, after the release that found a mismatch. -/
def State.affected (s : State) : List ChkSlot := s.chkSlots.filter fun x => s.upd.repairs.any fun r => r.1 == x.key

/-- The slice holds at action 3: the affected shards are replayed and their checksums sent again; a device without
affected shards waits at the next barrier. -/
def State.beginMismatch (s : State) : State :=
  let s := ((s.updTick fun t => { t with mismatch := true, actDone := false, sent := false, barriers := [] }).updUpd fun u =>
    { u with noMajority := false }).updErr fun x => { x with proc := [] }
  if s.upd.repairs.isEmpty then s.updTick fun t => { t with actDone := true }
  else
    let s := s.affected.foldl (fun s x => s.replayShard x.desc) s
    if !s.running then s else if s.err.proc.isEmpty then s.sendChks s.affected else s.abandonProc

/-- A value that more than half of a shard's replicas hold, with the devices that hold it. -/
def majority (vals : List (Nat × Nat)) (n : Nat) : Option (Nat × List Nat) :=
  vals.findSome? fun v =>
    let hs := (vals.filter fun w => w.2 == v.2).map (·.1)
    if n < 2 * hs.length then some (v.2, hs) else none

/-- The lowest of several numbers. -/
def lowest : List Nat → Option Nat
  | [] => none
  | x :: l => match lowest l with
    | some y => some (min x y)
    | none => some x

/-- A mismatch that no majority resolves: the slice halts without committing, once its barrier has shown that the
procedure met no error (R346, R348). -/
def State.mismatchHalt (s : State) : State :=
  (((s.set ERR_STATUS.MISMATCH_HALT 1).inc ERR_MISMATCH1.HALTED).raiseOpen 2 scSlice (s.get FAB_ID.DEV) srcERR 7)

/-- One affected shard after the second exchange: transient, repaired from a majority, or a halt. -/
def State.resolveShard (s : State) (x : ChkSlot) : State :=
  let dev := s.get FAB_ID.DEV
  let peers := s.peersOf x
  let vals := (dev, x.crc) :: peers.filterMap fun d => (s.peerCrc d x.rgroup x.key).map fun c => (d, c)
  if vals.length = peers.length + 1 ∧ (vals.all fun v => v.2 == x.crc) = true then
    (s.inc ERR_MISMATCH0.TRANSIENT).raiseOpen 0 scSlice dev srcERR 5
  else match majority vals (peers.length + 1) with
    | none => s.updUpd fun u => { u with noMajority := true }
    | some (c, hs) =>
      if x.crc ≠ c then s.updUpd fun u => { u with repairs := u.repairs ++ [(x.key, c)] }
      else
        let s := (s.inc ERR_MISMATCH0.REPAIRED).raiseOpen 0 scSlice dev srcERR 6
        if lowest hs = some dev then
          let sh := s.shard x.desc
          let data := s.rdBytes (sh.genAddr (s.get TICK_STEP.STEP % 2)) sh.GB
          (peers.filter fun d => !hs.contains d).foldl (fun s d =>
            s.sendRouted d data.length fun p => .repair p d x.key data) s
        else s

/-- The second exchange ends: every affected shard is resolved; a key that this device does not hold has no majority.
`hw` is what the checkers saw in the update replay before it. -/
def State.secondExchange (s : State) (hw : List HwFault) : State :=
  let s := s.updHwAny hw
  if !s.running then s
  else if !s.err.proc.isEmpty then s.abandonProc
  else
  let xs := s.affected
  let alien := s.upd.repairs.any fun r => !(s.chkSlots.any fun x => x.key == r.1)
  let s := s.updUpd fun u => { u with repairs := [], noMajority := alien }
  let s := xs.foldl (fun s x => s.resolveShard x) s
  if s.running ∧ s.upd.repairs.isEmpty = true then s.chkDone else s

/-- A repair transfer has landed (R347): the arrays, on an export step also the export region, the checksum slot, and
the working copy without census counts. -/
def State.landRepair (s : State) (key : Nat) (data : List Nat) : State :=
  match s.chkSlots.find? fun x => x.key == key, s.upd.repairs.find? fun r => r.1 == key with
  | some x, some (_, want) =>
    let sh := s.shard x.desc
    let g := s.get TICK_STEP.STEP % 2
    let s := s.wrBytes (sh.genAddr g) (data.take sh.GB)
    let s := if sh.exp && s.upd.exporting && !s.is TICK_STATUS.DRY then s.wrBytes sh.expAddr (data.take sh.GB) else s
    let crc := crc64 (s.genBytes sh (sh.genAddr g))
    let s := (s.writeChk (sh.stateAddr / lpddrWindow % 16) x.desc sh crc).regenWc (sh.stateAddr / lpddrWindow % 16) sh g false
    let s := s.pass (96 + max (ceilDiv (sh.count * sh.S) 96) (ceilDiv (sh.count * fmtBytes (gateFmt sh.wcGate)) 64))
    let s := s.updUpd fun u => { u with repairs := u.repairs.filter fun r => r.1 != key }
    if crc = want then
      let s := (s.inc ERR_MISMATCH0.REPAIRED).raiseOpen 0 scSlice (s.get FAB_ID.DEV) srcERR 6
      if s.upd.repairs.isEmpty then s.chkDone else s
    else (let (v, s) := s.draw; s.raiseFree 2 srcUPD (v % 2 ^ 16))
  | _, _ => s

end Sys2Proof.Machine
end

