-- ==== Sys2Proof/Machine/Glue.lean ====
section
/-! DEFINITION. The glue-up (R30 to R32, R289, R333, R340 to R346, R367, R427): barriers and their verdicts, the actions
in their order, the watchdog, halt notices, and the closing of ticks that leads into it. -/

namespace Sys2Proof.Machine

open Reg

/-! ### Verdicts (R289, R427) -/

/-- The error from the lower device; the mark of R426 is kept whichever it is. -/
def joinErr (a b : Option CarriedErr) : Option CarriedErr :=
  match a, b with
  | none, y => y
  | x, none => x
  | some x, some y => some { (if x.dev ≤ y.dev then x else y) with halts := x.halts || y.halts }

/-- Two subtrees' verdicts. -/
def Verdict.join (a b : Verdict) : Verdict :=
  ⟨max a.cls b.cls, joinErr a.err b.err, a.inactiveSealed && b.inactiveSealed, a.mismatch || b.mismatch⟩

/-- The error that decides the action: at action 2 the first of the step, at action 3 one met by the procedure of R346
(R333, R348). -/
def State.verdictErr (s : State) : Option Err :=
  if s.tick.glue = 2 then s.err.first
  else if s.tick.glue = 3 ∧ s.tick.mismatch = true then s.err.proc.head?
  else none

/-- The error that the device's gather carries: the one that decides the action, or else the first that it detected
(R427). -/
def State.ownErr (s : State) : Option CarriedErr :=
  (s.verdictErr.or s.err.first).map (carry (s.get FAB_ID.DEV) s.err.parityHere)

/-- The class that the device reports for the action in progress: that of the error that decides it, and fatal where a
fatal error is in hand (R333, R340). -/
def State.ownClass (s : State) : Nat :=
  max ((s.verdictErr.map (·.cls)).getD 0) ((s.err.handling.map fun e => if 2 ≤ e.cls then e.cls else 0).getD 0)

/-- The device reports at action 3 a shard that mismatches, or after the second exchange one without a majority (R346). -/
def State.unresolved (s : State) : Bool :=
  s.tick.glue == 3 && (if s.tick.mismatch then s.upd.noMajority else !s.upd.repairs.isEmpty)

/-- The device's own verdict for the action in progress. -/
def State.ownVerdict (s : State) : Verdict := ⟨s.ownClass, s.ownErr, s.is (sealedF s.inactive), s.unresolved⟩

/-! ### From action to action -/

/-- The next action begins. -/
def State.toGlue (s : State) (a : Nat) : State :=
  s.updTick fun t => { t with glue := a, actDone := false, sent := false, barriers := [] }

/-- Faults that were to be reported at the next glue-up are reported at its error check: the gather of action 2 carries
them (R81, R188, R278, R282, R340). -/
def State.reportAtGlue (s : State) : State :=
  let es := s.err.atGlue
  es.foldl (fun s e => s.raise e true) (s.updErr fun x => { x with atGlue := [] })

/-- The glue-up that commits goes on to action 7; the schedule is evaluated for the step about to start (R235). -/
def State.toSeven (s : State) : State := (s.toGlue 7).evalSchedule

/-- The phase change to the step about to start is missed on every device, armed for it or not (R32): no barrier is
held. DESIGN CHOICE: notes/assumptions/31.md. -/
def State.phaseMiss (s : State) : State :=
  let at' := s.get TICK_STEP.STEP
  ((s.setAll [(TICK_PHASE.ARM, 0), (TICK_PHASE.MISSED, 1)]).updTick fun t =>
      { t with phaseOk := false, phaseLost := false }).event 0x06
    (leBytes 8 at' ++ [1])

/-- A phase change is to be decided at this glue-up. -/
def State.phaseDue (s : State) : Bool :=
  s.tick.phaseOk || s.tick.phaseLost || (s.is TICK_PHASE.ARM && s.get TICK_PHASE_STEP.AT_STEP == s.get TICK_STEP.STEP)

/-- After the commit: the permutation, the phase change, or action 7. A permutation confirmed with a change that does
not take place stays latched (R32, R295). -/
def State.afterCommit (s : State) : State :=
  let run := s.tick.permOk && s.tick.phaseOk && s.tick.sealedAll
  let s := if s.tick.permOk && !run then s.setAll [(FAB_PERM.CONFIRMED, 0), (FAB_PERM.ARM, 1)] else s
  let s := s.updTick fun t => { t with permOk := false }
  if run then (s.toGlue 5).rootAbandon
  else if s.phaseDue then s.toGlue 6
  else s.toSeven

/-- A contained error rolls the step back; where the slice's verdict says so it halts after that (R333, R426). -/
def State.rollbackBy (s : State) (v : Option CarriedErr) : State :=
  if (v.map (·.halts)).getD false then s.rollbackHalt v else s.rollback v

/-- What follows the barrier of an action (R30, R289): `v` is the whole slice's verdict. A contained error of the
procedure of R346 rolls the step back (R348); in a dry fit nothing rolls back (R335). A shard without a majority halts the
slice: the device that holds it says so, and the others follow the verdict (R346). -/
def State.afterBarrier (s : State) (act : Nat) (v : Verdict) : State :=
  match act with
  | 1 => (s.toGlue 2).reportAtGlue
  | 2 => s.updTick fun t => { t with released := some v, actDone := false, sent := false, barriers := [] }
  | 3 =>
    if 2 ≤ v.cls then s.enterHalt s.lastSeq
    else if v.cls = 1 ∧ s.is TICK_STATUS.DRY = false then s.rollbackBy v.err
    else if v.cls = 0 ∧ v.mismatch = true then
      (if !s.tick.mismatch then s.beginMismatch
      else if s.upd.noMajority then s.mismatchHalt
      else s.enterHalt s.lastSeq)
    else (s.updTick fun t => { t with mismatch := false }).setB ERR_STATUS.COMMIT_READY (!s.is TICK_STATUS.DRY) |>.toGlue 4
  | 4 => (s.updTick fun t => { t with sealedAll := v.inactiveSealed }).afterCommit
  | 5 => if s.phaseDue then s.toGlue 6 else s.toSeven
  | _ => s.toSeven

/-- An error that another device reports is logged once, and clears PASS in a dry fit (R335, R427). -/
def State.hearErr (s : State) (e : Option CarriedErr) (next : Bool := false) : State :=
  match e with
  | none => s
  | some e =>
    if e.dev = s.get FAB_ID.DEV then s
    else (s.logRemote next e).updTick fun t => { t with dryFault := t.dryFault || s.is TICK_STATUS.DRY }

/-- What a barrier carries belongs to the next attempt where it does not decide the action (R329, R427). -/
def ofNext (act : Nat) (v : Verdict) : Bool := decide (4 ≤ act) || (act == 3 && v.cls == 0)

/-- A release: forwarded to the children, heard, and followed by the next action. -/
def State.release' (s : State) (act : Nat) (v : Verdict) : State :=
  let s := s.children.foldl (fun s p => s.emit (.release p act v)) s
  (s.hearErr v.err (ofNext act v)).afterBarrier act v

/-- Once the device's part and every child's gather of the action are in, the gather goes to the parent; the root
releases. The gather of action 2 ends the attempt for the errors that come later (R329). -/
def State.gatherOnce (s : State) : State :=
  let act := s.tick.glue
  if !s.tick.actDone || s.tick.sent || act == 0 || act ≥ 7 || s.tick.released.isSome ||
      !s.children.all (fun p => s.tick.barriers.any fun b => b.1 == p) then s
  else
    let parts := (s.tick.barriers.filter fun b => s.children.any (· == b.1)).map (·.2)
    let v := parts.foldl Verdict.join s.ownVerdict
    let s := (s.updTick fun t => { t with sent := true }).updErr fun x => { x with gathered := x.gathered || act == 2 }
    match s.parent with
    | some p => s.emit (.barrier p act v)
    | none => s.release' act v

/-- Action 2 has no work of its own: its gather follows the barrier of action 1 at once. -/
def State.glueAdvance (s : State) : State :=
  let s := s.gatherOnce
  if s.running && s.tick.glue == 2 && s.tick.released.isNone && !s.tick.sent then
    (s.updTick fun t => { t with actDone := true }).gatherOnce
  else s

/-- A device that waits at the second barrier of action 3 has nothing else to do (R346). -/
def State.advanceMismatch (s : State) : State :=
  if s.tick.glue == 3 && s.tick.mismatch && s.tick.actDone then s.gatherOnce else s

/-- BARRIER_GATHER: a child's gather of the action in progress; a gather of action 1 may come before this device's own
last tick closes. -/
def execBarrierGather (p act : Nat) (v : Verdict) (s : State) : Host.Outcome State Fault Refusal :=
  if p < 8 then
    .next (if s.running && s.children.any (· == p) && !(s.tick.barriers.any fun b => b.1 == p) &&
        (act == s.tick.glue || (act == 1 && s.tick.glue == 0)) then
        (((s.updTick fun t => { t with barriers := t.barriers ++ [(p, v)] }).hearErr v.err (ofNext act v)).glueAdvance).advanceMismatch
      else s)
  else .fault .noSuchUnit

/-- BARRIER_RELEASE: the parent's release of the action. -/
def execBarrierRelease (act : Nat) (v : Verdict) (s : State) : Host.Outcome State Fault Refusal :=
  .next (if s.running && s.parent.isSome && act == s.tick.glue && s.tick.sent && s.tick.released.isNone then
      ((s.release' act v).glueAdvance).advanceMismatch
    else s)

/-! ### Action 1: ticks close -/

/-- TICK_CLOSE. -/
def execTickClose (s : State) : Host.Outcome State Fault Refusal := .next s.tickClose.glueAdvance

/-- STRETCH_CLOSE. -/
def execStretchClose (q : Nat) (s : State) : Host.Outcome State Fault Refusal := .next (s.stretchClose q).glueAdvance

/-- STRETCH_LIMIT (R20): the tick is stretched to the limit and would stretch on. It raises the contained fault, stops
its engines, abandons its transfers, and closes with a notice. DESIGN CHOICE (notes/assumptions/15.md): the fault names
what R27 would name for OVERRUN, and entry 0 of cluster 0 where nothing is outstanding. A fault that escalates (R332) has
halted the device. -/
def State.stretchLimit (s : State) : State :=
  let lim := s.get TICK_STRETCH_LIMIT.LIMIT_KCC * 1024
  if s.running && s.tick.inTick && s.tick.freeze == 0 && s.is TICK_STATUS.STRETCHING && !s.tick.haltAtBoundary &&
      (s.outstanding (s.tickLen + lim) || decide (lim < s.hold)) then
    let s := s.atCc (s.tickLen + lim)
    let causes := s.ownCauses (s.outstanding s.tick.cc)
    let c := (firstCand (s.overrunCandidates s.tick.cc)).getD (.cluster, 0, 0)
    let s := s.schedFault 1 fSTRETCH c.1 c.2.1 c.2.2
    if s.running then (s.abandonWork s.tick.cc s.landRange).closeTick lim causes true else s
  else s

/-- STRETCH_LIMIT. -/
def execStretchLimit (s : State) : Host.Outcome State Fault Refusal := .next s.stretchLimit.glueAdvance

/-! ### Action 2 -/

/-- PENDING_ERROR_CHECK (R333, R426): the verdict of the barrier decides. In a dry fit nothing rolls back (R335). -/
def execPendingErrorCheck (s : State) : Host.Outcome State Fault Refusal :=
  .next (if s.running && s.tick.glue == 2 then
      match s.tick.released with
      | none => s
      | some v =>
        let s := s.updTick fun t => { t with released := none }
        if 2 ≤ v.cls then s.enterHalt s.lastSeq
        else if v.cls = 0 ∨ s.is TICK_STATUS.DRY = true then s.toGlue 3
        else s.rollbackBy v.err
    else s)

/-! ### Action 3 -/

/-- CHECKSUM_EXCHANGE (R241): the checksums go out, and are compared once every frame is in; a second call ends the
exchange with the keys still missing unmatched. DESIGN CHOICE: notes/assumptions/30.md. -/
def execChecksumExchange (s : State) : Host.Outcome State Fault Refusal :=
  .next (if s.running && s.tick.glue == 3 && !s.tick.actDone && !s.tick.mismatch then
      if s.upd.sent then s.compareChks.glueAdvance
      else
        let s := (s.sendChks s.chkSlots).updUpd fun u => { u with sent := true }
        if s.allChks then s.compareChks.glueAdvance else s
    else s)

/-- A key that no local shard matches comes after the comparison: it is unmatched too (R241). -/
def State.lateKey (s : State) (rgroup key : Nat) : State :=
  if s.tick.glue == 3 && s.tick.actDone && !s.tick.mismatch && !(s.chkSlots.any fun x => x.rgroup == rgroup && x.key == key) &&
      !(s.upd.repairs.any fun r => r.1 == key) then
    (((s.inc UPD_CHK_STATUS.UNMATCHED).chkFirst key rgroup).set ERR_MISMATCH1.LAST_RGROUP rgroup).updUpd fun u =>
      { u with repairs := u.repairs ++ [(key, 0)] }
  else s

/-- CHECKSUM_FRAME: a peer's group, key and CRC, during action 3 or just before this device begins it. -/
def execChecksumFrame (dev key crc : Nat) (s : State) (rgroup : Nat := 0) : Host.Outcome State Fault Refusal :=
  .next (if s.running && (s.tick.glue == 2 || s.tick.glue == 3) then
      let s := s.updUpd fun u =>
        { u with peerCrcs := (u.peerCrcs.filter fun e => !(e.1 == dev && e.2.1 == rgroup && e.2.2.1 == key)) ++
                               [(dev, rgroup, key, crc)] }
      let s := s.lateKey rgroup key
      if s.tick.glue == 3 && s.upd.sent && !s.tick.actDone && !s.tick.mismatch && s.allChks then s.compareChks.glueAdvance
      else s
    else s)

/-- SECOND_EXCHANGE (R346): the update replay has ended, with what its checkers saw, and the exchange after it. -/
def execSecondExchange (s : State) (hw : List HwFault := []) : Host.Outcome State Fault Refusal :=
  .next (if s.running && s.tick.glue == 3 && s.tick.mismatch && !s.tick.actDone then
      (s.secondExchange hw).advanceMismatch
    else s)

/-- REPAIR_TRANSFER_LANDED (R347). -/
def execRepairTransferLanded (key : Nat) (data : List Nat) (s : State) : Host.Outcome State Fault Refusal :=
  .next (if s.running && s.tick.glue == 3 && s.tick.mismatch && !s.tick.actDone then
      (if s.err.proc.isEmpty then s.landRepair key data else s.abandonProc).advanceMismatch
    else s)

/-! ### Actions 4 to 7 -/

/-- COMMIT (R30, R31): action 4, or the end of a dry fit in its place. -/
def execCommit (hw : List HwFault) (s : State) : Host.Outcome State Fault Refusal :=
  .next (if s.running && s.tick.glue == 4 && !s.tick.actDone then
      if s.is TICK_STATUS.DRY then s.endDry hw
      else
        let s := s.recHw hw
        if s.running then ((s.commit hw).updTick fun t => { t with actDone := true }).glueAdvance else s
    else s)

/-- PERMUTATION_DONE (R296): action 5 is complete on this device. -/
def execPermutationDone (ins : List PermIn) (s : State) : Host.Outcome State Fault Refusal :=
  if ins.all fun x => decide (x.port < 8) then .next (s.permDone ins).glueAdvance else .fault .noSuchUnit

/-- The banks swap (R32, R33): the other bank's lists run from the next step. -/
def State.swapBanks (s : State) : State :=
  let at' := s.get TICK_PHASE_STEP.AT_STEP
  let b := s.inactive
  let m := match (if b = 0 then s.sealA else s.sealB) with
    | some c => c.mem
    | none => s.mem
  let h := Memory.rd m (bankBase .krylov 0 b + 8) 8
  let s := (s.setAll [(TICK_STATUS.BANK, b), (TICK_ABI.MAJOR, bits h 7 0), (TICK_ABI.MINOR, bits h 15 8),
    (TICK_ABI.STEP_TICKS, bits h 47 32), (TICK_PHASE.ARM, 0)]).updTick fun t => { t with phaseOk := false }
  s.rootAbandon.event 0x06 (leBytes 8 at' ++ [0])

/-- PHASE_CHANGE (R32). -/
def execPhaseChange (s : State) : Host.Outcome State Fault Refusal :=
  .next (if s.running && s.tick.glue == 6 && !s.tick.actDone then
      if s.tick.phaseOk && s.tick.sealedAll then
        (s.swapBanks.updTick fun t => { t with actDone := true }).glueAdvance
      else s.phaseMiss.toSeven
    else s)

/-- The push of the step before last is still under way (R368). -/
def State.pushDue (s : State) : Bool := s.host.pushes.any fun p => decide (p.step + 2 ≤ s.get TICK_STEP.STEP)

/-- The glue-up holds for inputs: counted and reported once (R367). -/
def State.holdInput (s : State) : State :=
  if s.tick.held then s
  else ((s.inc TICK_GLUE.HOLDS).event 0x08 [0]).updTick fun t => { t with held := true }

/-- The glue-up holds for a push: counted and reported once (R368). -/
def State.holdPush (s : State) : State :=
  if s.tick.heldOut then s
  else ((s.inc BCP_OUTBOX_STAT.HOLDS).event 0x08 [1]).updTick fun t => { t with heldOut := true }

/-- Action 7 (R36, R367, R368). A requested halt takes effect here. -/
def State.residencyCheck (s : State) : State :=
  if s.running && s.tick.glue == 7 then
    if s.tick.haltPend then s.enterHalt 0
    else
      let inOk := s.resident (s.get TICK_STEP.STEP + 1)
      let due := s.pushDue
      let s := if inOk then s else s.holdInput
      let s := if due then s.holdPush else s
      if inOk && !due then
        ((s.toGlue 8).updTick fun t => { t with held := false, heldOut := false }).trySquareUp
      else s
  else s

/-- INPUT_RESIDENCY_CHECK: action 7. -/
def execInputResidencyCheck (s : State) : Host.Outcome State Fault Refusal := .next s.residencyCheck

/-- A hold of action 7 is judged again once an input or an acknowledgement has come. -/
def State.recheckHold (s : State) : State := if s.tick.held || s.tick.heldOut then s.residencyCheck else s

/-! ### The watchdog and halt notices (R340, R345) -/

/-- The tree ports whose wave has not arrived. -/
def State.waitingPorts (s : State) : Nat :=
  let missing := s.children.filter fun p =>
    if s.tick.glue = 8 then !(s.tick.gathers.any fun g => g.1 == p) else !(s.tick.barriers.any fun b => b.1 == p)
  let up := if s.tick.sent then s.parent.toList else []
  (missing ++ up).foldl (fun m p => m + 2 ^ p) 0

/-- GLUE_UP_WATCHDOG: the limit is reached while no exclusion is in force. -/
def execGlueUpWatchdog (s : State) : Host.Outcome State Fault Refusal :=
  .next (if s.running && decide (s.tick.glue ≠ 0) && !s.wdogHeld then
      (s.setAll [(ERR_WDOG.ACTION, s.tick.glue), (ERR_WDOG.WAITING, s.waitingPorts), (ERR_STATUS.WDOG_FIRED, 1)]).raiseOpen
        2 scSlice (s.get FAB_ID.DEV) srcERR 1
    else s)

/-- HALT_NOTICE (R340): forwarded at once; an open tick halts at its boundary, a glue-up halts now; a spare swap in
progress ends first (R332). -/
def execHaltNotice (p : Nat) (e : CarriedErr) (s : State) : Host.Outcome State Fault Refusal :=
  if p < 8 then
    .next (
      let s := (s.emitTree (some p) fun q => .halt q e).hearErr (some e)
      let s := s.updTick fun t => { t with startPend := false, dryPend := false }
      if !s.running then s
      else if s.tick.inTick || (s.tick.glue == 0 && s.tick.tickZeroAt.isNone) then
        s.updTick fun t => { t with haltAtBoundary := true }
      else if s.is ERR_SWAP.BUSY then s.updErr fun x => { x with haltAfter := true, noticeAfter := true }
      else (s.set ERR_STATUS.HALT_NOTICE 1).enterHalt s.lastSeq)
  else .fault .noSuchUnit

/-! ### The other rows of the ERR block (R352 to R354) -/

/-- ERR_CTRL.LOG_CLEAR. -/
def State.actLogClear (s : State) : State :=
  ((s.updErr fun x => { x with log := [], written := 0, inHand := none,
                               queue := x.queue.map fun q => { q with seq := none } }).setAll
    [(ERR_LOG_STATUS.NEXT, 0), (ERR_LOG_STATUS.WRAPPED, 0), (ERR_LOG_STATUS.TOTAL, 0)]).okay

/-- ERR_LOG_CLEAR. -/
def execErrLogClear (s : State) : Host.Outcome State Fault Refusal := .next (s.write State.actLogClear)

/-- ERR_CTRL.CNT_CLEAR: the ERR counters return to 0. -/
def State.actCntClear (s : State) : State :=
  (s.setAll [(ERR_COUNT0.CORRECTED, 0), (ERR_COUNT0.CONTAINED, 0), (ERR_COUNT1.FATAL_SLICE, 0),
    (ERR_COUNT1.FATAL_DEVICE, 0), (ERR_COUNT2.MERGED, 0), (ERR_COUNT2.QUEUED, 0), (ERR_COUNT3.PREEMPTED, 0),
    (ERR_COUNT3.ESCALATED, 0), (ERR_LADDER.REPLAYS, 0), (ERR_SPARE.SWAPS, 0), (ERR_MISMATCH0.TRANSIENT, 0),
    (ERR_MISMATCH0.REPAIRED, 0), (ERR_MISMATCH1.HALTED, 0)]).okay

/-- ERR_CNT_CLEAR. -/
def execErrCntClear (s : State) : Host.Outcome State Fault Refusal := .next (s.write State.actCntClear)

/-- A write of ERR_INJECT: the fields are written, and a write of ARM outside RUN has no effect. The step after the one
in progress is the next; once that one has committed, it is the one about to start (R354). -/
def State.actInject (s : State) (v : Nat) : State :=
  let s := s.setAll [(ERR_INJECT.CLASS, bits v 0 0), (ERR_INJECT.SCOPE, bits v 3 1), (ERR_INJECT.INDEX, bits v 19 4),
    (ERR_INJECT.TICK_IN_STEP, bits v 35 20)]
  let committed := decide (5 ≤ s.tick.glue) || (s.tick.glue == 4 && s.tick.actDone)
  let next := if committed = true ∧ s.get ERR_LADDER.ATTEMPT = 0 then s.get TICK_STEP.STEP else s.get TICK_STEP.STEP + 1
  (if bit v 36 ∧ s.job = 2 then (s.set ERR_INJECT.ARM 1).updTick fun t => { t with injectStep := next } else s).okay

/-- ERR_INJECT_ARM. -/
def execErrInjectArm (v : Nat) (s : State) : Host.Outcome State Fault Refusal := .next (s.write fun s => s.actInject v)

/-- INJECTED_ERROR (R354): at the first cycle of the named tick of the step after the arming. -/
def execInjectedError (s : State) : Host.Outcome State Fault Refusal :=
  .next (if s.job == 2 && s.tick.injectLive && s.tick.inTick && s.tick.cc == 0 &&
      s.get TICK_STATUS.TICK_IN_STEP == s.get ERR_INJECT.TICK_IN_STEP then
      ((s.set ERR_INJECT.ARM 0).updTick fun t => { t with injectLive := false }).raiseOpen (s.get ERR_INJECT.CLASS)
        (s.get ERR_INJECT.SCOPE) (s.get ERR_INJECT.INDEX) srcERR 9
    else s)

end Sys2Proof.Machine
end

