-- ==== Sys2Proof/Machine/Boot.lean ====
section
/-! DEFINITION. Resets and configuration (R374 to R385, R395 to R397, R416): what a reset keeps, the selection of the
image and the records, and what configuration loads. -/

namespace Sys2Proof.Machine

open Reg

/-! ### Resets (R12, R353, R372, R396, R397, R425) -/

/-- The sensors still read 115 °C or above: the device trips at once (R406). -/
def State.stillHot (s : State) : Bool := s.pwr.temps.any fun t => decide (115 ≤ t)

/-- A fatal-to-device error of the PWR block; no field names its CODE. -/
def State.pwrFatal (s : State) : State :=
  let (v, s) := s.draw
  s.raiseOpen 3 scDevice 0 srcPWR (v % 2 ^ 16)

/-- At 115 °C (R406): THERM_TRIP_N latches, the error is fatal-to-device, and core, veneer and SerDes rails go off; only
the management bus and RST_N are answered after it. -/
def State.trip (s : State) : State :=
  (s.pwrFatal.set PWR_STATUS.RAIL_OK (Nat.land (s.get PWR_STATUS.RAIL_OK) 0x78)).updPwr fun p =>
    { p with thermTrip := true, power := .tripped }

/-- A reset in a device that is still too hot trips it again at once (R406). -/
def State.tripAgain (s : State) : State := if s.stillHot then s.trip else s

/-- What a reset of a kind (0 power-on, 1 cold, 2 warm) leaves, with configuration under way and every port training.
The flash, the waiting commands and the pins' own state stay; a flash write in progress is abandoned (R397). A warm
reset keeps LPDDR, veneer, the log, the ERR counters, TICK_STEP and the working map (R396, R425). DEDUCED:
notes/assumptions/23.md. -/
def State.resetTo (s : State) (kind : Nat) : State :=
  let warm := decide (kind = 2)
  let flds := if kind = 0 then [] else keepFields (if warm then 1 else 2) s.flds
  let t : State :=
    { State.reset with
      pending := s.pending, flds := flds, mem := if warm then s.mem else [], poison := if warm then s.poison else [],
      tick := if warm then { TickSt.reset with now := s.tick.now } else TickSt.reset,
      err := if warm then { ErrSt.reset with log := s.err.log, written := s.err.written } else ErrSt.reset,
      host := if warm then { HostSt.reset with nextSession := s.host.nextSession } else HostSt.reset,
      boot := { s.boot with write := none, attest := none, kind := kind, configuring := true,
                            aon := if warm then s.boot.aon else none },
      pwr := { s.pwr with power := .run, wakePend := false, pfTimes := (if warm then s.pwr.pfTimes else []),
                          thermTrip := warm && s.pwr.thermTrip, lastSquareEdge := none, vnrRetained := false,
                          wakeSrc := none, smbNack := false, shed := false },
      active := if warm then s.active else 0, good := if warm then s.good else 0, tallies := if warm then s.tallies else [],
      out := s.out, freeCtr := s.freeCtr }
  t.trainAll.setAll [(PWR_STATUS.LAST_RESET, kind), (PWR_STATUS.RAIL_OK, 0x7F), (ETH_STATUS.STATE, 1),
    (CLK_STATUS.REF_OK, ofBool s.pwr.refOk)]

/-- What the rails that were off did not keep (R403): all but LPDDR, and the veneer where it was retained. -/
def State.loseOffRails (s : State) (veneer : Bool) : State :=
  let kept (a : Nat) : Bool := decide (a < lpddrEnd) ||
    (veneer && decide (veneerBase 0 ≤ a) && decide (a < veneerBase 0 + nPhys * 0x400000))
  { s with mem := s.mem.filter fun e => kept e.1, poison := s.poison.filter kept }

/-- A reset that meets stop, its entry or a wake ends it (R403): how the device last left stop, and what stop did not
keep of memory. -/
def State.resetFrom (s : State) (kind cause : Nat) : State :=
  let was := s.pwr.power
  let t := s.resetTo kind
  let t := if was = .stop ∨ was = .entering then t.set PWR_STATUS.WAKE_CAUSE cause
    else if was = .waking then t.set PWR_STATUS.WAKE_CAUSE 1 else t
  if was = .stop ∨ was = .waking then t.loseOffRails s.pwr.vnrRetained else t

/-- PWR_RESET.WARM (R395): effective in IDLE or HALT only. -/
def State.actWarm (s : State) : State := if s.job = 0 ∨ s.job = 3 then ((s.okay).resetTo 2).tripAgain else s.okay

/-- PWR_RESET_WARM. -/
def execPwrResetWarm (s : State) : Host.Outcome State Fault Refusal := .next (if s.awake then s.actWarm else s.denied)

/-! ### What configuration loads -/

/-- Give the fields of a register the parts of a word. -/
def State.loadWord (s : State) (fs : List Fld) (w : Nat) : State :=
  fs.foldl (fun s f => s.set f (w / 2 ^ f.lo)) s

/-- Give the fields of a register their reset values. -/
def State.clearWord (s : State) (fs : List Fld) : State := fs.foldl (fun s f => s.clearF f) s

/-- The registers that SLICE_DEF loads: FAB_SLICE, FAB_TREE and the eight LNK_SLICE registers. -/
def sliceRegs : List (List Fld) := [fieldsFAB 0x8, fieldsFAB 0x18] ++ (List.range 8).map fun p => fieldsLNK p 0x10

/-- The host-interface addresses, the management-bus address and the filter of the site record, or their defaults
(R379). -/
def State.loadAddresses (s : State) (x : Option (List Nat)) : State :=
  let f (k d : Nat) : Nat := match x with
    | some b => Config.siteField b k
    | none => d
  s.setAll [(PWR_SMB.ADDR, f 13 0x5A), (ETH_MAC.MAC, f 14 0), (ETH_IPV4.ADDR, f 15 0), (ETH_IPV6_LO.ADDR, f 16 0),
    (ETH_IPV6_HI.ADDR, f 16 0 / 2 ^ 64)] |>.updBoot fun b => { b with allow := (x.map Config.siteAllow).getD [] }

/-- What the site record's body gives (R379), or the defaults of the table. -/
def State.loadSite (s : State) (x : Option (List Nat)) (seqno : Nat) : State :=
  let s := s.loadAddresses x
  match x with
  | none =>
    let s := s.setAll [(CFG_STATUS.SITE_DEFAULT, 1), (FAB_ID.DEV, 0), (FAB_ID.W_SIZE, 1), (CFG_OWNER0.OWNER_ID, 0),
      (CFG_OWNER1.OWNER_ID, 0), (CFG_SREC_SEQ.SEQNO, 0)]
    sliceRegs.foldl (fun s fs => s.clearWord fs) s
  | some b =>
    let s := s.setAll [(CFG_STATUS.SITE_DEFAULT, 0), (FAB_ID.DEV, Config.siteField b 1), (FAB_ID.W_SIZE, Config.siteField b 2),
      (CFG_OWNER0.OWNER_ID, leNat ((siteOwner b).take 8)), (CFG_OWNER1.OWNER_ID, leNat ((siteOwner b).drop 8)),
      (CFG_SREC_SEQ.SEQNO, seqno)]
    (sliceRegs.zip (List.range 10)).foldl (fun s e => s.loadWord e.1 (Config.siteField b (3 + e.2))) s

/-- The spares of a sub-array for a kind of repair: 4 columns, 8 rows (R253). -/
def spares (column : Bool) : Nat := if column then 4 else 8

/-- Two repairs lie in one sub-array. -/
def Repair.beside (x y : Repair) : Bool := x.pcluster == y.pcluster && x.die == y.die && x.subarray == y.subarray

/-- The distinct spares of a kind that are steered in. -/
def steered (l : List Repair) (column : Bool) : Nat :=
  ((l.filter fun r => r.column == column && decide (r.spare < spares column)).map fun r =>
    (r.pcluster, r.die, r.subarray, r.spare)).eraseDups.length

/-- A sub-array needs more spares of a kind than it has: more repairs than spares, or one that names a spare it lacks
(R253, R378). -/
def exhausted (l : List Repair) : Bool :=
  [false, true].any fun k => decide (spares k < (l.filter fun r => r.column == k).length) ||
    l.any fun r => r.column == k && decide (spares k ≤ r.spare)

/-- The sub-arrays whose repairs exceed their spares. -/
def exhaustedCount (l : List Repair) : Nat :=
  ((l.filter fun r => exhausted (l.filter r.beside)).map fun r => (r.pcluster, r.die, r.subarray)).eraseDups.length

/-- The repairs that are steered: those whose SPARE their sub-array has (R378). -/
def steeredIn (l : List Repair) : List Repair := l.filter fun r => decide (r.spare < spares r.column)

/-- The device record's trims, map and repairs (R378, R253): which inactive positions are good the record does not say.
-/
def State.loadDev (s : State) (x : Aon) : State :=
  let body := x.devBody
  let l := repairsOf (repairSection body)
  let (g, s) := s.draw
  (({ s with active := x.map, good := Nat.lor x.map (g % 2 ^ nPhys) }).setAll
    [(VNR_REPAIR.ROWS_USED, steered l false), (VNR_REPAIR.COLS_USED, steered l true),
     (VNR_REPAIR.EXHAUSTED, exhaustedCount l),
     (CFG_BOOT.DREC_COPY, x.devCopy), (CFG_DREC_SEQ.SEQNO, recordSeqno x.dev),
     (CFG_STATUS.ID_FAIL, ofBool (x.pub != certKey (devIdCert body)))]).updBoot fun b =>
      { b with regTrim := devRegTrim body, laneTrim := devLaneTrim body, steering := steeredIn l }

/-- The row firmware is copied to every row's firmware instruction memory (R172, R380). -/
def State.loadRows (s : State) (code : List Nat) : State :=
  (List.range 64).foldl (fun s r => (s.zeroRange (rowPriv r) 0x20000).wrBytes (rowPriv r) code) s

/-- The core clock in MHz that CLK_CFG.RATE selects (R393). -/
def State.coreMhz (s : State) : Nat := if Config.gradeE || s.is CLK_CFG.RATE then 1350 else 1500

/-- Clocks, bias and Ethernet of a configured device (R393, R401, R416, R355): the PLL locks where its reference is
present. -/
def State.startClocks (s : State) : State :=
  s.setAll [(CLK_STATUS.CORE_MHZ, s.coreMhz), (CLK_STATUS.PLL_LOCK, ofBool s.pwr.refOk),
    (CLK_STATUS.REF_OK, ofBool s.pwr.refOk), (FAB_SYNT.LOCKED, ofBool s.pwr.refOk),
    (PWR_BIAS.FBB_MV, if Config.gradeE then 80 else 120), (PWR_BIAS.RBB_MV, 0), (PWR_BIAS.ASSIST, 1),
    (ETH_STATUS.STATE, 2), (ETH_STATUS.LANES_UP, 8), (CFG_STATUS.STATE, 1)]

/-- Every LPDDR controller has ended its training and initialisation, and the veneer holds zeros (R255, R262, R380). -/
def State.memoryReady (s : State) : Bool :=
  s.is VNR_STATUS.INIT_DONE && (List.range 16).all fun c => s.get (MEM_STATUS.STATE c) != 0

/-- Configuration with what the ROM has accepted (R380). DESIGN CHOICE: notes/assumptions/23.md. -/
def State.configure (s : State) (x : Aon) : State :=
  let s := (s.trainIdle.loadDev x).loadSite x.siteBody ((x.site.map recordSeqno).getD 0)
  let s := s.setAll [(DET_FW.VERSION, imageVersion x.image), (CFG_BOOT.SLOT, x.slot), (CFG_BOOT.OTHER_VALID, ofBool x.otherValid),
    (CFG_BOOT.SREC_COPY, x.siteCopy)]
  (s.loadRows (imageRow x.image)).startClocks.updBoot fun b => { b with aon := some x, configuring := false }

/-- The boot has failed (R377): every lane is in electrical idle. -/
def State.bootFailed (s : State) : State :=
  let s := (List.range 8).foldl (fun s p => s.set (LNK_STATUS.STATE p) 0) s
  (s.setAll [(CFG_STATUS.STATE, 2), (ETH_STATUS.STATE, 0)]).updBoot fun b => { b with configuring := false, aon := none }

/-- Configuration from the flash, or its failure: the management bus then answers at the address of the site record that
the accepted image's root key verifies, or at its default. It is complete only when the memories are ready. -/
def State.configureFlash (s : State) : State :=
  match fromFlash s.boot.flash with
  | some x => if s.memoryReady then s.configure x else s
  | none =>
    let site := match flashImage s.boot.flash with
      | some i => (flashSite s.boot.flash (imageRoot i.2)).map fun x => recordBody x.2
      | none => none
    (s.loadAddresses site).bootFailed

/-- Configuration from always-on SRAM (R383): trims, map and swaps stand as they are. -/
def State.configureStored (s : State) (x : Aon) : State :=
  ((s.loadAddresses x.siteBody).loadRows (imageRow x.image)).startClocks.updBoot fun b => { b with configuring := false }

/-- A cold configuration starts: XSPI_RESET_N is driven low (R418). -/
def State.coldStart (s : State) : State := (s.updPwr fun p => { p with fresh := false }).emit .xspiReset

/-- The stored contents cannot be used: configuration as at a cold reset, but LPDDR and veneer keep what they hold
(R383). -/
def State.warmFallback (s : State) : State :=
  let s := s.coldStart
  match fromFlash s.boot.flash with
  | some x => (s.configure x).set CFG_STATUS.WARM_FALLBACK 1
  | none => s.configureFlash.set CFG_STATUS.WARM_FALLBACK 1

/-- Configuration from always-on SRAM where the digest over its contents, of which `lost` has changed, still matches, else
from the flash (R383). -/
def State.configureWarm (s : State) (lost : List (Nat × Nat)) : State :=
  match s.boot.aon with
  | some x => if shake256 (withBytes x.contents lost) = x.digest then s.configureStored x else s.warmFallback
  | none => s.warmFallback

/-- CONFIGURATION_DONE (R377, R380, R383, R416): after the power-on reset has been released and RST_N has risen. `lost`
is what has changed in always-on SRAM since its digest was taken. -/
def execConfigurationDone (s : State) (lost : List (Nat × Nat) := []) : Host.Outcome State Fault Refusal :=
  .next (if s.boot.configuring && !s.pwr.por && !s.pwr.rstLow && s.pwr.power == .run then
      (if s.boot.kind = 2 then s.configureWarm lost else s.configureFlash)
    else s)

/-! ### Power-on and RST_N (R390, R395, R396, R403, R408, R416) -/

/-- Cycles of the core clock in a number of milliseconds. -/
def State.msCc (s : State) (ms : Nat) : Nat := ms * s.coreMhz * 1000

/-- The TAP in Test-Logic-Reset: it selects IDCODE (R419, R420). -/
def State.tapReset (s : State) : State := s.updPwr fun p => { p with ir := 2, tapCut := false }

/-- POWER_ON: the input rises through 40 V. -/
def execPowerOn (s : State) : Host.Outcome State Fault Refusal :=
  .next ((((s.resetTo 0).tapReset).updPwr fun p =>
    { p with por := true, fresh := true, lastRelease := none, boundary := 0 }).tripAgain)

/-- POR_RELEASE: the cold configuration starts unless RST_N is held low. -/
def execPorRelease (s : State) : Host.Outcome State Fault Refusal :=
  let t := s.updPwr fun p => { p with por := false }
  .next (if s.pwr.por && !s.pwr.rstLow && s.pwr.power == .run then t.coldStart else t)

/-- BROWN_OUT (R390): every rail turns off. -/
def execBrownOut (s : State) : Host.Outcome State Fault Refusal :=
  .next ((((s.resetTo 0).tapReset).setAll ([(PWR_STATUS.RAIL_OK, 0), (ETH_STATUS.STATE, 0), (CLK_STATUS.REF_OK, 0)] ++
      (List.range 8).map fun p => (LNK_STATUS.STATE p, 0))).updPwr fun p => { p with power := .off, boundary := 0 })

/-- RST_N_ASSERT: RST_N goes low; the width of the pulse decides at its end. -/
def execRstNAssert (s : State) : Host.Outcome State Fault Refusal := .next (s.updPwr fun p => { p with rstLow := true })

/-- A corrected-class entry of the PWR block for an asynchronous input (R408, R409). -/
def State.pwrEvent (s : State) : State := s.corrected scDevice 0 srcPWR

/-- RST_N was asserted, `ns` before now, less than 100 ms after its previous release (R395). -/
def State.rstRate (s : State) (ns : Nat) : Bool :=
  match s.pwr.lastRelease with
  | some t => decide (s.tick.now < t + s.msCc 100 + ns * s.coreMhz / 1000)
  | none => false

/-- An assertion of RST_N that comes too soon is flagged and counted (R395, R408). -/
def State.noteRate (s : State) (ns : Nat) : State :=
  if s.rstRate ns then (s.set PWR_ASYNC_FLAGS.RST_RATE 1).inc PWR_ASYNC_COUNT.RATE_LIMITED else s

/-- RST_N rises after a pulse of `ns`, 1 µs or more: the kind of the reset (R395); one that meets a power-on whose
configuration has not started is part of it (R416). DEDUCED: notes/assumptions/23.md. -/
def State.rstReset (s : State) (ns : Nat) : State :=
  let kind := if s.pwr.por || s.pwr.fresh then 0 else if s.rstRate ns || decide (10 ^ 7 ≤ ns) then 1 else 2
  let s := (s.noteRate ns).resetFrom kind 2
  let s := if kind < 2 && !s.pwr.por then s.coldStart else s
  (s.updPwr fun p => { p with lastRelease := some s.tick.now }).tripAgain

/-- RST_N has risen while a test instruction was selected: the TAP behaves as BYPASS until its next reset (R420). -/
def State.tapCutOff (s : State) : State :=
  s.updPwr fun p => { p with tapCut := p.tapCut || p.ir == 0 || (decide (3 ≤ p.ir) && decide (p.ir ≤ 6)) }

/-- What a board programmer has written to the flash while RST_N was held and the XSPI_* pins were high-impedance: offset
and bytes (R373). -/
def State.boardWrites (s : State) (l : List (Nat × List Nat)) : State :=
  s.updBoot fun b => { b with flash := l.foldl (fun fl e => flashPut fl e.1 e.2) b.flash }

/-- RST_N_RELEASE: RST_N rises after `w` ns. A test that held the pins ends (R420). A pulse that is filtered lets the cold
configuration of a power-on start, where it kept that waiting (R416). -/
def execRstNRelease (w : Nat) (s : State) (prog : List (Nat × List Nat) := []) : Host.Outcome State Fault Refusal :=
  .next (if s.pwr.rstLow ∧ s.pwr.power ≠ .off then
      let s := ((s.updPwr fun p => { p with rstLow := false }).tapCutOff).boardWrites prog
      if w < 1000 then
        let s := s.inc PWR_ASYNC_COUNT.FILTERED
        if s.pwr.fresh && !s.pwr.por then s.coldStart else s
      else s.rstReset w
    else s.updPwr fun p => { p with rstLow := false })

/-- RST_N_STUCK: low beyond 1 s; the device is reset and stays so until RST_N rises (R408). -/
def execRstNStuck (s : State) : Host.Outcome State Fault Refusal :=
  .next (if s.pwr.rstLow ∧ s.pwr.power ≠ .off then
      let t := (s.noteRate (10 ^ 9)).resetFrom (if s.pwr.por || s.pwr.fresh then 0 else 1) 2
      ((t.updPwr fun p => { p with lastRelease := none }).set PWR_ASYNC_FLAGS.RST_STUCK 1).pwrEvent.tripAgain
    else s)

end Sys2Proof.Machine
end

