-- ==== Sys2Proof/Machine/Power.lean ====
section
/-! DEFINITION. Power, clocks, stop, thermal control, the asynchronous inputs, the management bus and the TAP (R290,
R390 to R409, R419, R420). -/

namespace Sys2Proof.Machine

open Reg

/-! ### Supply and power limit (R390, R392) -/

/-- A rail is on (table "Rails"): in stop, the LPDDR5X cores, the always-on domain and VDD_IO, and the veneer where it
is retained; after a thermal trip, all but core, veneer and SerDes. -/
def State.railOn (s : State) (rail : Nat) : Bool :=
  match s.pwr.power with
  | .off => false
  | .stop => rail == 3 || rail == 5 || rail == 6 || (rail == 1 && s.pwr.vnrRetained)
  | .tripped => decide (3 ≤ rail)
  | _ => true

/-- RAIL_FAULT: the rail's bit of RAIL_OK falls. -/
def execRailFault (rail : Nat) (s : State) : Host.Outcome State Fault Refusal :=
  State.forUnit 7 rail (if s.railOn rail then
      (let m := s.get PWR_STATUS.RAIL_OK
       s.set PWR_STATUS.RAIL_OK (if bit m rail then m - 2 ^ rail else m)).pwrFatal
    else s)

/-- POWER_AVERAGE (R392): the firmware requests opportunistic stretches while the average exceeds the limit; an
average above 1,600 W trips the protection. How the input voltage reads is not stated. DESIGN CHOICE:
notes/assumptions/23.md. -/
def execPowerAverage (watts : Nat) (s : State) : Host.Outcome State Fault Refusal :=
  .next (if s.powered then
      let (v, s) := s.draw
      let s := s.setAll [(PWR_STATUS.IN_W, min watts 65535), (PWR_STATUS.IN_V_100MV, v)]
      let exceeded := decide (s.get PWR_LIMIT.WATTS < watts)
      let s := s.updTick fun t =>
        { t with opp := if exceeded then s.get PWR_LIMIT.OPP_Q else if watts < s.get PWR_LIMIT.WATTS then 0 else t.opp }
      let s := if exceeded && (s.is DET_MODE.STRICT || !s.running) then s.inc PWR_LIMIT.OVER_MS else s
      if 1600 < watts then s.pwrFatal else s
    else s)

/-! ### Clocks (R291, R393) -/

/-- A write of CLK_CFG: RATE is RW-L, and a change relocks the PLL and retrains every port. -/
def State.actRate (s : State) (v : Nat) : State :=
  if bits v 0 0 = s.get CLK_CFG.RATE then s.okay
  else if s.tick.loaded then (s.corrected scDevice 0 srcPWR).okay
  else ((s.setAll [(CLK_CFG.RATE, bits v 0 0), (CLK_STATUS.PLL_LOCK, 0)]).trainAll).okay

/-- CLK_RATE_WRITE. -/
def execClkRateWrite (v : Nat) (s : State) : Host.Outcome State Fault Refusal := .next (s.write fun s => s.actRate v)

/-- PLL_RELOCK_DONE: the PLL has locked to its source at the rate selected. -/
def execPllRelockDone (s : State) : Host.Outcome State Fault Refusal :=
  .next (if s.powered && !s.boot.configuring && !s.is CLK_STATUS.PLL_LOCK &&
      (s.pwr.refOk || s.get FAB_SYNT.SRC != 0) then
      (s.setAll [(CLK_STATUS.PLL_LOCK, 1), (CLK_STATUS.CORE_MHZ, s.coreMhz), (FAB_SYNT.LOCKED, 1)]).inc CLK_STATUS.RELOCKS
    else s)

/-- REFCLK_LOSS: REFCLK disappears or returns; a PLL that uses it loses its lock. -/
def execRefclkLoss (present : Bool) (s : State) : Host.Outcome State Fault Refusal :=
  .next (
    let s := s.updPwr fun p => { p with refOk := present }
    if s.powered then
      let s := s.setB CLK_STATUS.REF_OK present
      if !present && s.get FAB_SYNT.SRC == 0 then s.setAll [(CLK_STATUS.PLL_LOCK, 0), (FAB_SYNT.LOCKED, 0)] else s
    else s)

/-! ### Stop and wake (R398 to R403) -/

/-- Stop entry begins: the lanes go to electrical idle, sessions, queue pairs and the subscription close; what
firmware had under way is abandoned. -/
def State.enterStop (s : State) : State :=
  let s := (List.range 8).foldl (fun s p => s.setAll [(LNK_STATUS.STATE p, 0), (LNK_STATUS.LANES_UP p, 0)]) s
  let s := s.setAll [(ETH_STATUS.STATE, 0), (ETH_STATUS.LANES_UP, 0), (BCP_CFG.SESSIONS, 0), (ETH_RDMA.QPS, 0)]
  let s := (s.updBoot fun b => { b with write := none, attest := none }).updDet fun d => { d with signing := none }
  (s.updHost fun h => { h with sessions := [], queue := [], busyWith := none, qps := [], sub := none }).updPwr fun p =>
    { p with power := .entering }

/-- The stop state begins (R399): pads clamped, LPDDR in self-refresh, veneer retained or off, rails and clocks off. The
eight bits of RBB_MV cannot hold the 300 mV of R401: DESIGN CHOICE, notes/assumptions/23.md. -/
def State.stopped (s : State) : State :=
  let s := (List.range 16).foldl (fun s c => s.set (MEM_STATUS.STATE c) 2) s
  let retain := s.is PWR_STOP.VENEER_RETAIN
  ((s.setAll [(PAD_HOLD.HELD, 1), (CLK_STATUS.PLL_LOCK, 0), (PWR_BIAS.RBB_MV, min 300 255), (PWR_BIAS.FBB_MV, 0),
    (PWR_BIAS.ASSIST, 0), (FAB_SYNT.LOCKED, 0)]).inc PAD_HOLD.CLAMPS).inc PWR_STOP.STOPS |>.updPwr fun p =>
      { p with power := (if p.wakePend then .waking else .stop), wakePend := false, vnrRetained := retain, ir := 2,
               tapCut := false }

/-- STOP_ENTRY_DONE. A match that came during entry wakes the device at once (R403). -/
def execStopEntryDone (s : State) : Host.Outcome State Fault Refusal :=
  .next (if s.pwr.power = .entering then s.stopped else s)

/-- WAKE_DONE (R402): configured from always-on SRAM as after a warm reset; what the rails that were off did not keep is
lost (R403), a port that gives the frequency source is waited for, and the pads stay clamped until they are released. -/
def execWakeDone (s : State) : Host.Outcome State Fault Refusal :=
  .next (if s.pwr.power = .waking then
      let retained := s.pwr.vnrRetained
      let src := s.get FAB_SYNT.SRC
      let keep := [(FAB_SYNT.ALT_SRC, s.get FAB_SYNT.ALT_SRC),
        (PAD_HOLD.HELD, 1), (PWR_STATUS.LAST_RESET, s.get PWR_STATUS.LAST_RESET), (PWR_STATUS.WAKE_CAUSE, 1)]
      let t := (((s.resetTo 2).configureWarm []).setAll keep).loseOffRails retained
      let t := if retained then t.set VNR_STATUS.RETAINED 1 else t
      let t := t.updPwr fun p => { p with wakeSrc := if src = 0 then none else some src }
      let t := match t.boot.aon with
        | some x => t.loadRows (imageRow x.image)
        | none => t
      ((List.range 16).foldl (fun t c => t.setAll [(MEM_STATUS.STATE c, 1), (MEM_STATUS.RATE c, 10667),
        (MEM_STATUS.PKG0_OK c, 1), (MEM_STATUS.PKG1_OK c, 1)]) t).tripAgain
    else s)

/-- PAD_HOLD.RELEASE (R400). -/
def State.actPadRelease (s : State) : State := (s.set PAD_HOLD.HELD 0).okay

/-- PAD_HOLD_RELEASE: the clamp goes. -/
def execPadHoldRelease (s : State) : Host.Outcome State Fault Refusal := .next (s.write State.actPadRelease)

/-! ### Thermal (R404 to R406) -/

/-- The hottest reading and its sensor, the first of several. -/
def hottest (ts : List Int) : Int × Nat :=
  (ts.zip (List.range ts.length)).foldl (fun m e => if m.1 < e.1 then e else m) (-128, 0)

/-- A signed reading in eight bits. -/
def byteOf (t : Int) : Nat := (t % 256).toNat

/-- An eight-bit reading as a number. -/
def signedByte (b : Nat) : Int := if b < 128 then b else (b : Int) - 256

/-- THERMAL_SAMPLE: 72 readings set the level. -/
def execThermalSample (ts : List Int) (s : State) : Host.Outcome State Fault Refusal :=
  .next (if s.powered && ts.length == 72 then
      let h := hottest ts
      let level := if 115 ≤ h.1 then 3 else if 105 < h.1 ∧ s.get THERM_STATUS.LEVEL = 2 then 2
        else if (s.get THERM_CFG.THROTTLE_C : Int) ≤ h.1 then 1 else 0
      let s := (s.updPwr fun p => { p with temps := ts }).setAll
        [(THERM_STATUS.TJ_C, byteOf h.1), (THERM_STATUS.SENSOR, h.2), (THERM_STATUS.LEVEL, level)]
      let s := if signedByte (s.get THERM_STRETCH.MAX_C) < h.1 then s.set THERM_STRETCH.MAX_C (byteOf h.1) else s
      if 115 ≤ h.1 then s.trip else s
    else s)

/-- THERM_HOT: above 105 °C for 10 ms. -/
def execThermHot (s : State) : Host.Outcome State Fault Refusal :=
  .next (if s.powered && decide (105 < (hottest s.pwr.temps).1) then
      ((s.set THERM_STATUS.HOT 1).set THERM_STATUS.LEVEL (max 2 (s.get THERM_STATUS.LEVEL))).pwrEvent
    else s)

/-! ### Asynchronous inputs (R290, R408, R409) -/

/-- The 1.8 V inputs act: not in reset, and not from the pad clamp's latch to its release (R412). DEDUCED:
notes/assumptions/23.md. -/
def State.pinsLive (s : State) : Bool := s.powered && !s.inReset && !s.is PAD_HOLD.HELD

/-- A pulse that the input filter takes out (R408). -/
def State.filtered (s : State) : State := s.inc PWR_ASYNC_COUNT.FILTERED

/-- A flash write in progress meets PWR_FAIL_N: every load is shed but the always-on domain, the management core and the
flash (R389). -/
def State.shedLoads (s : State) : State :=
  match s.boot.write with
  | some w => (s.updBoot fun b => { b with write := some { w with powerFailed := true } }).updPwr fun p => { p with shed := true }
  | none => s

/-- PWR_FAIL_ASSERT: counted and logged; more than 16 assertions in one second hold the input asserted. In stop and in
reset the level alone is seen (R403, R412). `short` tells a pulse of less than 1 µs. -/
def execPwrFailAssert (s : State) (short : Bool := false) : Host.Outcome State Fault Refusal :=
  .next (if short then (if s.pinsLive then s.filtered else s)
    else if s.pinsLive then
      let now := s.tick.now
      let s := s.updPwr fun p =>
        { p with pfLow := true, pfTimes := now :: p.pfTimes.filter fun t => decide (now - t < s.msCc 1000) }
      let s := ((s.inc PWR_ASYNC_COUNT.PF_ASSERTS).pwrEvent).shedLoads
      if 16 < s.pwr.pfTimes.length then (s.set PWR_ASYNC_FLAGS.PF_RATE 1).inc PWR_ASYNC_COUNT.RATE_LIMITED else s
    else s.updPwr fun p => { p with pfLow := true })

/-- PWR_FAIL_RELEASE. -/
def execPwrFailRelease (s : State) : Host.Outcome State Fault Refusal := .next (s.updPwr fun p => { p with pfLow := false })

/-- PWR_FAIL_STUCK. -/
def execPwrFailStuck (s : State) : Host.Outcome State Fault Refusal :=
  .next (if s.pwr.pfLow && s.pinsLive then (s.set PWR_ASYNC_FLAGS.PF_STUCK 1).pwrEvent else s)

/-- 35 ms in ns, beyond which a low management-bus line is stuck (R408). -/
def smbStuckNs : Nat := 35 * 10 ^ 6

/-- SCL_STUCK: MB_SCL was low for `ns`. Beyond 35 ms the match logic and the SDA driver are released; below 50 ns the
pulse is filtered; a phase under 0.35 µs makes the device NACK the next byte. -/
def execSclStuck (s : State) (ns : Nat := smbStuckNs + 1) : Host.Outcome State Fault Refusal :=
  .next (if s.pwr.power = .off then s
    else if ns < 50 then s.filtered
    else if ns < 350 then
      ((s.set PWR_ASYNC_FLAGS.SMB_RATE 1).inc PWR_ASYNC_COUNT.RATE_LIMITED).updPwr fun p => { p with smbNack := true }
    else if ns ≤ smbStuckNs then s
    else ((s.set PWR_ASYNC_FLAGS.SCL_STUCK 1).inc PWR_ASYNC_COUNT.SMB_TIMEOUTS).pwrEvent)

/-- SDA_STUCK: MB_SDA was low for `ns`. Beyond 35 ms with SCL high the device's own SDA driver is released; below 50 ns
the pulse is filtered. -/
def execSdaStuck (s : State) (ns : Nat := smbStuckNs + 1) : Host.Outcome State Fault Refusal :=
  .next (if s.pwr.power = .off then s
    else if ns < 50 then s.filtered
    else if ns ≤ smbStuckNs then s
    else ((s.set PWR_ASYNC_FLAGS.SDA_STUCK 1).inc PWR_ASYNC_COUNT.SMB_TIMEOUTS).pwrEvent)

/-- The skew check of an accepted edge at cycle `cc` (R290). -/
def State.skewCheck (s : State) (cc : Int) : State :=
  let off : Int := cc - s.get FAB_SQUP_CHK.WIRE_CC
  let s := s.set FAB_SQUP_CHK.LAST_OFFSET (off % 65536).toNat
  if s.get FAB_SQUP_CHK.WINDOW_CC < off.natAbs then (s.inc FAB_SQUP_CHK.SKEW_ERR).corrected scDevice 0 srcFAB else s

/-- SQUP_IN_EDGE: a rising edge `cc` cycles after the device's own tick 0, negative before it, of a pulse `width` cycles
wide. -/
def execSqupInEdge (cc : Int) (width : Nat) (s : State) : Host.Outcome State Fault Refusal :=
  .next (if !s.pinsLive then s
    else if width < 4 then s.inc PWR_ASYNC_COUNT.FILTERED
    else if (match s.pwr.lastSquareEdge with
      | some t => decide (s.tick.now - t < s.tickLen)
      | none => false) then (s.set PWR_ASYNC_FLAGS.SQUP_RATE 1).inc PWR_ASYNC_COUNT.RATE_LIMITED
    else
      let s := s.updPwr fun p => { p with lastSquareEdge := some s.tick.now }
      if s.is FAB_SQUP_CHK.ENABLE && !s.pwr.squpStuck then s.skewCheck cc else s)

/-- SQUP_IN_STUCK: the skew check is suspended until the input falls. -/
def execSqupInStuck (s : State) : Host.Outcome State Fault Refusal :=
  .next (if s.pinsLive then ((s.updPwr fun p => { p with squpStuck := true }).set PWR_ASYNC_FLAGS.SQUP_STUCK 1).pwrEvent
    else s)

/-- SQUP_IN_FALL. -/
def execSqupInFall (s : State) : Host.Outcome State Fault Refusal := .next (s.updPwr fun p => { p with squpStuck := false })

/-! ### The management bus (R402, R403, R407) -/

/-- A transaction to the device's address in stop or during its entry: the address is acknowledged, the first data
byte is not, and the device wakes. -/
def State.smbWake (s : State) : State :=
  let s := (s.emit .smbAck).emit .smbNack
  if s.pwr.power = .stop then s.updPwr fun p => { p with power := .waking }
  else s.updPwr fun p => { p with wakePend := true }

/-- The device sleeps, or is about to. -/
def State.asleep (s : State) : Bool := s.pwr.power == .stop || s.pwr.power == .entering

/-- SMB_ADDRESS_MATCH. -/
def execSmbAddressMatch (addr : Nat) (s : State) : Host.Outcome State Fault Refusal :=
  .next (if s.asleep && addr == s.get PWR_SMB.ADDR then s.smbWake else s)

/-- ALERT_N is asserted: by ERR_STATUS through ALERT_EN, by a device that is dead, or by a failed boot (R342, R377,
R407); in reset it is released (R412). -/
def State.alert (s : State) : Bool :=
  !s.inReset && (decide (Nat.land (s.readWord (fieldsERR 0)) (s.get ERR_CTRL.ALERT_EN) ≠ 0) || s.dead || s.get CFG_STATUS.STATE == 2)

/-- The word of STATUS. -/
def State.smbStatus (s : State) : Nat :=
  s.get CFG_STATUS.STATE + 4 * s.job + 16 * ofBool (s.asleep || s.pwr.power == .waking) + 32 * s.get PWR_ASYNC_FLAGS.RST_STUCK +
    64 * ofBool s.pwr.thermTrip + 128 * ofBool s.dead + 256 * s.get THERM_STATUS.TJ_C

/-- A transaction to the device's address: none without power, one in stop wakes, and one after a phase that was too
short is not acknowledged (R402, R408). -/
def State.smbTurn (s : State) (body : State → State) : State :=
  if s.pwr.power = .off then s
  else if s.asleep then s.smbWake
  else if s.pwr.smbNack then (s.updPwr fun p => { p with smbNack := false }).emit .smbNack
  else body s

/-- SMB_STATUS. -/
def execSmbStatus (s : State) : Host.Outcome State Fault Refusal := .next (s.smbTurn fun s => s.emit (.smbWord s.smbStatus))

/-- A Send Byte command with its PEC, the CRC-8 over the address byte and the command code: refused by NACK at the PEC
byte. PRESUMED: notes/assumptions/23.md. -/
def State.smbCommand (s : State) (code pec : Nat) (ok : Bool) (act : State → State) : State :=
  s.smbTurn fun s =>
  if pec ≠ crc8 [s.get PWR_SMB.ADDR * 2, code] then (s.inc PWR_SMB.PEC_ERR).emit .smbNack
  else if ok then act (s.emit .smbAck)
  else s.emit .smbNack

/-- SMB_STOP: from IDLE only. -/
def execSmbStop (pec : Nat) (s : State) : Host.Outcome State Fault Refusal :=
  .next (s.smbCommand 0x02 pec (s.job == 0 && s.awake && !s.boot.configuring && !s.dead) State.enterStop)

/-- SMB_WARM_RESET. -/
def execSmbWarmReset (pec : Nat) (s : State) : Host.Outcome State Fault Refusal :=
  .next (s.smbCommand 0x03 pec true fun s => (s.resetFrom 2 1).tripAgain)

/-- SMB_ALERT_RESPONSE: the device answers with its own address while it asserts ALERT_N; in stop it ignores every address
but its own (R402). -/
def execSmbAlertResponse (s : State) : Host.Outcome State Fault Refusal :=
  .next (if s.pwr.power ≠ .off ∧ s.asleep = false ∧ s.alert = true then s.emit (.smbAlertAddr (s.get PWR_SMB.ADDR)) else s)

/-! ### The TAP (R419, R420) -/

/-- Instructions that take the pins do so only in reset or after a failed boot, and not after RST_N has cut them off. -/
def State.tapHolds (s : State) : Bool := (s.pwr.rstLow || s.get CFG_STATUS.STATE == 2) && !s.pwr.tapCut

/-- What an instruction selects. -/
def State.tapSelect (s : State) (op : Nat) : State := s.updPwr fun p => { p with ir := op }

/-- The bypass register captures 0. -/
def State.tapBypass (s : State) : State := s.emit (.tdo 0)

/-- The boundary register captures the pins; what they carry is outside the model. -/
def State.tapCapture (s : State) : State :=
  let (v, s) := s.draw
  s.emit (.tdo v)

/-- An instruction reaches the TAP: not without the rails that serve it, and not from the pad clamp's latch to its release
(R406, R412). After RST_N has cut a test off, it behaves as BYPASS (R420). DEDUCED: notes/assumptions/23.md. -/
def State.tap (s : State) (op : Nat) (act : State → State) : Host.Outcome State Fault Refusal :=
  .next (if s.pwr.power = .off ∨ s.pwr.power = .tripped ∨ s.is PAD_HOLD.HELD = true then s
    else if s.pwr.tapCut then (s.tapSelect op).tapBypass
    else act (s.tapSelect op))

/-- EXTEST, EXTEST_PULSE and EXTEST_TRAIN: the pins are captured, and the boundary register that drives them is loaded
with what is shifted in, if anything is; or the instruction behaves as BYPASS. -/
def State.tapTest (s : State) (d : Option Nat) : State :=
  if s.tapHolds then s.tapCapture.updPwr fun p => { p with boundary := d.getD p.boundary } else s.tapBypass

/-- EXTEST. -/
def execExtest (s : State) (d : Option Nat := none) : Host.Outcome State Fault Refusal := s.tap 0 fun s => s.tapTest d

/-- SAMPLE_PRELOAD: the pins are captured, and the boundary register is loaded. -/
def execSamplePreload (d : Nat) (s : State) : Host.Outcome State Fault Refusal :=
  s.tap 1 fun s => s.tapCapture.updPwr fun p => { p with boundary := d }

/-- IDCODE. -/
def execIdcode (s : State) : Host.Outcome State Fault Refusal := s.tap 2 fun s => s.emit (.tdo 0x1B21114B)

/-- CLAMP: the pins hold what the boundary register gives, with bypass selected. -/
def execClamp (s : State) : Host.Outcome State Fault Refusal := s.tap 3 State.tapBypass

/-- HIGHZ: the outputs go to high impedance, with bypass selected. -/
def execHighZ (s : State) : Host.Outcome State Fault Refusal := s.tap 4 State.tapBypass

/-- EXTEST_PULSE. -/
def execExtestPulse (s : State) (d : Option Nat := none) : Host.Outcome State Fault Refusal := s.tap 5 fun s => s.tapTest d

/-- EXTEST_TRAIN. -/
def execExtestTrain (s : State) (d : Option Nat := none) : Host.Outcome State Fault Refusal := s.tap 6 fun s => s.tapTest d

/-- BYPASS. -/
def execBypass (s : State) : Host.Outcome State Fault Refusal := s.tap 0xFF State.tapBypass

/-- TRST_N: the TAP resets, and selects IDCODE. -/
def execTrstN (s : State) : Host.Outcome State Fault Refusal := .next s.tapReset

/-- Who drives the pins: the boundary register, high impedance, or the device (R420). -/
inductive PinControl where
  | device | boundary | highZ
deriving DecidableEq, Repr

/-- The control of the pins; the pad clamp of a stop entry takes precedence over a test. DESIGN CHOICE:
notes/assumptions/32.md. -/
def State.pinControl (s : State) : PinControl :=
  if !s.tapHolds || s.is PAD_HOLD.HELD then .device
  else if s.pwr.ir = 4 then .highZ
  else if s.pwr.ir = 0 ∨ s.pwr.ir = 3 ∨ s.pwr.ir = 5 ∨ s.pwr.ir = 6 then .boundary
  else .device

end Sys2Proof.Machine
end

