-- ==== Sys2Proof/Machine/RegAccess.lean ====
section
/-! DEFINITION. Writes of the register window and of the memories behind it (R7 to R10, R33, R38, R246, R342, R357,
R363, R422): field by field, each by its own access code, with the registers that have rules of their own. -/

namespace Sys2Proof.Machine

open Reg

/-! ### Fields -/

/-- The actions that WO and W1S fields trigger. -/
def commands : List (Fld × (State → State)) :=
  [(TICK_CTRL.LOAD, State.actLoad), (TICK_CTRL.START, State.actStart), (TICK_CTRL.HALT, State.actHalt),
   (TICK_CTRL.UNLOAD, State.actUnload), (TICK_PHASE.ARM, State.actPhaseArm), (TICK_SEAL.SEAL, State.actSeal),
   (TICK_DRY.START, State.actDry), (UPD_EXPORT.ARM, State.actExportArm), (UPD_CTRL.REGEN, State.actRegen),
   (FAB_PERM.ARM, State.actPermArm), (FAB_PERM.CANCEL, State.actPermCancel), (DET_STATE_CTRL.MEASURE, State.actMeasure),
   (DET_PROV_CTRL.SNAP, State.actSnap), (ERR_CTRL.LOG_CLEAR, State.actLogClear), (ERR_CTRL.CNT_CLEAR, State.actCntClear),
   (ERR_CTRL.COMMIT, fun s => s.actCommit []), (PWR_RESET.WARM, State.actWarm), (PAD_HOLD.RELEASE, State.actPadRelease),
   (ERR_SWAP.SWAP, fun s => s.actSwap (s.get ERR_SWAP.PCLUSTER))] ++
  (List.range 8).flatMap fun p => [(LNK_CTRL.TRAIN p, fun s => s.actTrain p), (LNK_CTRL.RESTORE p, fun s => s.actRestore p)]

/-- The action of a WO or W1S field. -/
def State.trigger (s : State) (f : Fld) : State :=
  match commands.find? fun c => c.1 == f with
  | some c => c.2 s
  | none => s

/-- The bits of a word that belong to a field. -/
def Fld.of (f : Fld) (v : Nat) : Nat := v / 2 ^ f.lo % 2 ^ f.width

/-- One field of a register that is written, by its access code (R10, R422). -/
def State.writeField (s : State) (v : Nat) (f : Fld) : State :=
  let x := f.of v
  match f.acc with
  | .ro => s
  | .rw => s.set f x
  | .rwl => s.setLocked f x
  | .w1c => s.set f (s.get f - Nat.land (s.get f) x)
  | .wo | .w1s => if x = 0 then s else s.trigger f

/-- The turn in which a field takes a write: W1C bits clear before an action of the same write can set them, an action sees
the values written with it, and W1S bits are set last, so that no action of the same write leaves one clear (R11).
DEDUCED: notes/assumptions/26.md. -/
def Access.turn : Access → Nat
  | .w1c => 0
  | .ro | .rw | .rwl => 1
  | .wo => 2
  | .w1s => 3

/-- The fields of a register in the order in which they take a write. -/
def inTurn (fs : List Fld) : List Fld := [0, 1, 2, 3].flatMap fun k => fs.filter fun f => f.acc.turn == k

/-- Every field in turn; an action that is turned away makes the access answer an error. -/
def State.writeAll (s : State) (v : Nat) (fs : List Fld) : State :=
  let r := (inTurn fs).foldl (fun (y : State × Bool) f =>
    let s := y.1.okay.writeField v f
    (s, y.2 && s.resp.ok)) (s, true)
  r.1.answer r.2 0

/-! ### Registers -/

/-- Registers with a rule of their own for the whole word. -/
def State.ownRule (s : State) (a v : Nat) : Option State :=
  if a = ROOT_REC_DATA.DATA.addr then some (s.actRootRec v)
  else if a = TICK_PHASE_STEP.AT_STEP.addr then some (s.actPhaseStep v)
  else if a = UPD_EXPORT_STEP.AT_STEP.addr then some (s.actExportStep v)
  else if a = FAB_SYNT.SRC.addr then some (s.actSynt v)
  else if a = CLK_CFG.RATE.addr then some (s.actRate v)
  else if a = ERR_INJECT.ARM.addr then some (s.actInject v)
  else if (pointerAt a).isSome then some (s.writePointer a v)
  else none

/-- A 64-bit write of the register at an address (R9, R10, R246, R422). -/
def State.writeReg (s : State) (a v : Nat) : State :=
  let fs := fieldsAt a
  if fs.isEmpty then s.denied
  else match s.ownRule a v with
    | some t => t
    | none => s.writeAll v fs

/-- REGISTER_WRITE. -/
def execRegisterWrite (a size v : Nat) (s : State) : Host.Outcome State Fault Refusal :=
  .next (s.write fun s => if size ≠ 8 ∨ a % 8 ≠ 0 then s.denied else s.writeReg a v)

/-! ### Memories -/

/-- Host and setup writes to LPDDR or veneer while the job is LOADED end the validity of the measured state (R322). -/
def State.memoryWritten (s : State) (a n : Nat) : State :=
  let s := s.touchTables a n
  if s.job = 1 then s.set DET_STATE_CTRL.VALID 0 else s

/-- The part of memory that one buffer of one step of the inbox window fills (R365, R366). -/
structure InboxPart where
  step : Nat
  index : Nat
  lo : Nat
  hi : Nat
deriving DecidableEq, Repr

/-- The buffers of the inbox window that a range of `n` bytes touches; an empty range touches the buffer it points
into. -/
def State.inboxHits (s : State) (a n : Nat) : List InboxPart :=
  let m := s.get TICK_STEP.STEP
  let d := s.get BCP_INBOX_TBL.DEPTH
  (List.range d).flatMap fun k => ((List.range s.host.inTbl.length).zip s.host.inTbl).filterMap fun e =>
    let lo := e.2.1 + (m + k) % d * 2 ^ e.2.2
    if a < lo + 2 ^ e.2.2 ∧ lo < a + max n 1 then some ⟨m + k, e.1, lo, lo + 2 ^ e.2.2⟩ else none

/-- A buffer of the window is READY. -/
def State.partReady (s : State) (x : InboxPart) : Bool := (s.bufAt x.step x.index).ready

/-- The host transport may write a range of LPDDR over the register window (R357, R363). -/
def State.windowWriteOk (s : State) (a n : Nat) : Bool :=
  inLpddr a n &&
    decide (s.job ≠ 2) && (!s.tick.loaded || (s.inboxHits a n).isEmpty)

/-- A write of the 64-bit word at an address over the setup network or the host transport (R9, R10, R33, R38, R246,
R363). DEDUCED: notes/assumptions/26.md. -/
def State.writeAt (s : State) (a v : Nat) : State :=
  if a % 8 ≠ 0 ∨ 2 ^ 48 ≤ a then s.denied
  else match regionOf s.active a with
    | .csr => s.writeReg a v
    | .lpddr => if s.windowWriteOk a 8 then (((s.memoryWritten a 8).memTraffic [(a, 8)]).wr a 8 v).okay else s.denied
    | .veneer _ _ => ((s.memoryWritten a 8).wr a 8 v).okay
    | .list _ _ _ => s.writeList a v
    | .rowSetup _ off =>
      if 0x20000 ≤ off ∧ off < 0x40000 then s.writeKernel a v
      else if s.tick.loaded then s.denied
      else (s.wr a 8 v).okay
    | .hole => s.denied

end Sys2Proof.Machine
end

