-- ==== Sys2Proof/Machine/Host.lean ====
section
/-! DEFINITION. The Ethernet port and its RoCEv2 transport (R355 to R357, R365, R366, R368). -/

namespace Sys2Proof.Machine

open Reg

/-! ### The port (R355) -/

/-- The port is up. -/
def State.ethUp (s : State) : Bool := s.get ETH_STATUS.STATE == 2 && s.awake && !s.boot.configuring

/-- A frame is dropped and counted. -/
def State.frameDrop (s : State) : State := s.inc ETH_COUNT1.DROPPED

/-- A frame reaches a port that is up; one that reaches a port that is not has no effect. -/
def State.arrives (s : State) (body : State → State) : Host.Outcome State Fault Refusal :=
  .next (if s.ethUp then body (s.inc ETH_COUNT0.RX_FRAMES) else s)

/-- The port accepts a frame's header: the device's address, or one that its type permits beside it, and the tag that
ETH_CFG requires. DESIGN CHOICE: notes/assumptions/22.md (the tag). -/
def State.headerOk (s : State) (e : EthHdr) (permits : Nat → Bool) : Bool :=
  (e.dst == s.get ETH_MAC.MAC || permits e.dst) &&
    (e.vlan.map (·.1) == if s.is ETH_CFG.VLAN_EN then some (s.get ETH_CFG.VLAN_ID) else none)

/-- A frame of a type that is accepted at the device's address, and at such others as the type permits. -/
def State.frameIn (s : State) (e : EthHdr) (permits : Nat → Bool) (body : State → State) : Host.Outcome State Fault Refusal :=
  s.arrives fun s => if s.headerOk e permits then body s else s.frameDrop

/-- An IP version is enabled; a frame of one that is not is dropped. -/
def State.ipIn (s : State) (v6 : Bool) (body : State → State) : State :=
  if s.is (if v6 then ETH_CFG.IPV6_EN else ETH_CFG.IPV4_EN) then body s else s.frameDrop

/-- An address in the 128 bits of the mapped form is an IPv6 address. -/
def isV6 (ip : Nat) : Bool := ip / 2 ^ 32 != 0xFFFF

/-- The IPv6 address of the device. -/
def State.ipv6 (s : State) : Nat := s.get ETH_IPV6_LO.ADDR + s.get ETH_IPV6_HI.ADDR * 2 ^ 64

/-- The solicited-node multicast address of the device's IPv6 address: 33-33-FF and its low 24 bits. -/
def State.solicited (s : State) : Nat := 0x3333FF000000 + s.ipv6 % 2 ^ 24

/-- ETH_FRAME_DROPPED. -/
def execEthFrameDropped (s : State) : Host.Outcome State Fault Refusal := s.arrives State.frameDrop

/-- ARP_REQUEST: accepted at the broadcast address too; answered where it asks for the device's address, to the
Ethernet source of the request. -/
def execArpRequest (eth : EthHdr) (ip target : Nat) (s : State) : Host.Outcome State Fault Refusal :=
  s.frameIn eth (· == 2 ^ 48 - 1) fun s => s.ipIn false fun s =>
    if target = s.get ETH_IPV4.ADDR then s.emitEth eth.src (.arpReply ip) else s

/-- NEIGHBOUR_SOLICITATION: accepted at the solicited-node address too. -/
def execNeighbourSolicitation (eth : EthHdr) (ip target : Nat) (s : State) : Host.Outcome State Fault Refusal :=
  s.frameIn eth (· == s.solicited) fun s => s.ipIn true fun s =>
    if target = s.ipv6 then s.emitEth eth.src (.neighbourAdvert ip) else s

/-- ECHO_REQUEST: the reply carries the request's data. -/
def execEchoRequest (eth : EthHdr) (ip : Nat) (v6 : Bool) (data : List Nat) (s : State) : Host.Outcome State Fault Refusal :=
  s.frameIn eth (fun _ => false) fun s => s.ipIn v6 fun s => s.emitEth eth.src (.echoReply ip v6 data)

/-- PFC_PAUSE: a priority flow-control frame on the port's priority pauses it, or resumes it where the time is 0. -/
def execPfcPause (prio quanta : Nat) (s : State) : Host.Outcome State Fault Refusal :=
  s.arrives fun s =>
    if s.is ETH_CFG.PFC_EN && s.get ETH_CFG.PCP == prio then s.setB ETH_STATUS.PAUSED (decide (quanta ≠ 0)) else s

/-- ETH_LINK_DOWN: the port leaves the up state. -/
def execEthLinkDown (s : State) : Host.Outcome State Fault Refusal :=
  .next (if s.get ETH_STATUS.STATE = 2 then
      s.setAll [(ETH_FLAGS.LINK_DOWN, 1), (ETH_STATUS.STATE, 0), (ETH_STATUS.LANES_UP, 0), (ETH_STATUS.PAUSED, 0)]
    else s)

/-! ### Responses (R356, notes/assumptions/22.md) -/

/-- A packet marked CE is answered with a CNP, one per queue pair in 50 µs. -/
def State.congestion (s : State) (q : Qp) (h : RoceHdr) : State :=
  let due := match q.lastCnp with
    | none => true
    | some t => decide (50 * s.get CLK_STATUS.CORE_MHZ ≤ s.tick.now - t)
  if h.ce && due then (s.setQp { q with lastCnp := some s.tick.now }).emitEth h.eth.src (.cnp q.qpn) else s

/-- The queue pair as it stands; it is the same one but for the time of its last CNP. -/
def State.qpNow (s : State) (q : Qp) : Qp := (s.qp q.qpn).getD q

/-- A RoCEv2 packet: dropped where its queue pair does not exist or its IP version is not enabled (R355), without
effect where the queue pair is in error. A mark is answered before the packet is. -/
def State.roceIn (s : State) (h : RoceHdr) (body : Qp → State → State) : Host.Outcome State Fault Refusal :=
  s.frameIn h.eth (fun _ => false) fun s => match s.qp h.qpn with
    | none => s.frameDrop
    | some q => s.ipIn (isV6 q.args.rgid) fun s =>
        if q.error then s
        else
          let s := s.congestion q h
          body (s.qpNow q) s

/-- NAK codes: PSN sequence error, invalid request, remote access error, remote operational error. PRESUMED:
notes/assumptions/22.md. -/
def nakSeq : Nat := 0
def nakInvalid : Nat := 1
def nakAccess : Nat := 2
def nakOperational : Nat := 3

/-- Answer a packet with a NAK, to its Ethernet source. -/
def State.nakTo (s : State) (h : RoceHdr) (psn code : Nat) : State :=
  (s.inc ETH_COUNT1.NAK_SENT).emitEth h.eth.src (.rdmaNak h.qpn psn code)

/-- Give a queue pair the packet sequence number that it expects next. -/
def State.expect (s : State) (qpn psn : Nat) : State :=
  match s.qp qpn with
  | some q => s.setQp { q with rxPsn := psn % psnMod }
  | none => s

/-- How far a PSN lies from the one expected: 0 as expected, below 2^23 ahead, else accepted before. -/
def Qp.ahead (q : Qp) (psn : Nat) : Nat := (psn % psnMod + psnMod - q.rxPsn % psnMod) % psnMod

/-- The rkey and the range of a request are right: usable LPDDR under ETH_RDMA.RKEY (R356). -/
def State.mayAccess (s : State) (rkey a n : Nat) : Bool := rkey == s.get ETH_RDMA.RKEY && inLpddr a n

/-! ### RDMA WRITE (R323, R357, R366) -/

/-- Why a write is refused: the flag that it sets (R357, R366). DEDUCED: notes/assumptions/22.md. -/
def State.writeRefusal (s : State) (a n : Nat) : Option Fld :=
  if s.job = 0 then none
  else
    let hits := s.inboxHits a n
    if hits.any s.partReady then some ETH_FLAGS.WWIN_NAK
    else match hits.find? fun x => decide (x.lo ≤ a) && decide (a < x.hi) with
      | some x => if x.hi < a + n then some ETH_FLAGS.CAP_NAK else none
      | none => if s.job = 2 then some ETH_FLAGS.WWIN_NAK else none

/-- The part of a write that one buffer receives is hashed in order of arrival; a part that does not start where the
buffer's bytes end leaves a gap (R323). -/
def State.hashPart (s : State) (a : Nat) (data : List Nat) (x : InboxPart) : State :=
  let lo := max a x.lo
  let d := (data.drop (lo - a)).take (x.hi - lo)
  let b := s.bufAt x.step x.index
  let gap := decide (lo - x.lo ≠ b.received)
  (s.setInBuf x.step x.index
    { b with received := b.received + d.length, bytes := b.bytes ++ d, gap := b.gap || gap }).updHost fun h =>
      { h with inputGap := h.inputGap || gap }

/-- The controllers hold the writes of the host transport beyond their reserved share (R259): for how many cycles each
of `l` does is a free value. -/
def State.holdHost (s : State) (l : List Nat) : State :=
  l.foldl (fun s c => let (v, s) := s.draw; s.inc (MEM_REQ.HOST_HELD c) v) s

/-- Place the bytes of a write that is accepted. -/
def State.place (s : State) (a : Nat) (data : List Nat) : State :=
  let hits := if s.job = 0 then [] else s.inboxHits a data.length
  let s := (((s.memoryWritten a data.length).memTraffic [(a, data.length)]).inc ETH_WR_BYTES.BYTES data.length).wrBytes a data
  let s := s.holdHost ((List.range 16).filter fun c =>
    decide (a < (c + 1) * lpddrWindow) && decide (c * lpddrWindow < a + data.length))
  hits.foldl (fun s x => s.hashPart a data x) s

/-- RDMA_WRITE: one packet. The rkey is checked first; a PSN accepted before is acknowledged and discarded before
placement. DESIGN CHOICE: notes/assumptions/22.md. -/
def execRdmaWrite (w : RdmaWrite) (s : State) : Host.Outcome State Fault Refusal :=
  let h := w.toRoceHdr
  s.roceIn h fun q s =>
    if !s.mayAccess w.rkey w.addr w.data.length then s.nakTo h h.psn nakAccess
    else if 2 ^ 23 ≤ q.ahead h.psn then s.emitEth h.eth.src (.rdmaAck q.qpn h.psn)
    else if q.ahead h.psn ≠ 0 then s.nakTo h q.rxPsn nakSeq
    else match s.writeRefusal w.addr w.data.length with
      | some f => (s.set f 1).nakTo h h.psn nakAccess
      | none => ((s.place w.addr w.data).expect q.qpn (h.psn + 1)).emitEth h.eth.src (.rdmaAck q.qpn h.psn)

/-! ### RDMA READ and SEND (R258, R356, R357) -/

/-- What the controllers report while the host transport reads. -/
def State.hostHw (s : State) (hw : List HwFault) : State :=
  hw.foldl (fun s h => match h with
    | .memUe a => s.poisonWord a
    | h => s.hwMem [h] 14 3 fun _ => none) s

/-- RDMA_READ: allowed in every job state; one response packet for each path MTU of data. -/
def execRdmaRead (w : RdmaRead) (hw : List HwFault) (s : State) : Host.Outcome State Fault Refusal :=
  let h := w.toRoceHdr
  s.roceIn h fun q s =>
    if !s.mayAccess w.rkey w.addr w.len then s.nakTo h h.psn nakAccess
    else if q.ahead h.psn ≠ 0 ∧ q.ahead h.psn < 2 ^ 23 then s.nakTo h q.rxPsn nakSeq
    else
      let s := s.hostHw hw
      match s.poisonIn w.addr w.len with
      | [] =>
        let parts := writeParts w.addr 0 (mtuBytes q.args.mtu) w.len
        let s := (s.memTraffic [(w.addr, w.len)]).inc ETH_RD_BYTES.BYTES w.len
        let s := if q.ahead h.psn = 0 then s.expect q.qpn (h.psn + max 1 parts.length) else s
        (parts.zip (List.range parts.length)).foldl (fun s e =>
          s.emitEth h.eth.src (.rdmaReadResp q.qpn ((h.psn + e.2) % psnMod) (s.rdBytes e.1.1 e.1.2.2))) s
      | l => ((l.foldl (fun s a => s.hostPoison a) s).set ETH_FLAGS.UE_NAK 1).nakTo h h.psn nakOperational

/-- HOST_SEND. -/
def execHostSend (qpn psn : Nat) (s : State) (f : RoceFrame := noFrame) : Host.Outcome State Fault Refusal :=
  let h : RoceHdr := ⟨f, qpn, psn⟩
  s.roceIn h fun _ s => s.nakTo h h.psn nakInvalid

/-! ### Acknowledgements of pushes (R356, R368) -/

/-- The oldest push, if it is under way on a queue pair. -/
def State.pushOn (s : State) (qpn : Nat) : Option (OutBind × Push) :=
  match s.host.pushes with
  | x :: _ =>
    (match x.via with
    | some b => if b.qpn = qpn ∧ x.waiting ≠ [] then some (b, x) else none
    | none => none)
  | [] => none

/-- Give the oldest push the packets that still wait. -/
def State.setWaiting (s : State) (l : List Nat) : State :=
  s.updHost fun h => { h with pushes := match h.pushes with
    | x :: t => { x with waiting := l } :: t
    | [] => [] }

/-- The oldest push is acknowledged whole: it is counted, the next one starts, and a hold of action 7 is judged again.
-/
def State.pushDone (s : State) (x : Push) : State :=
  let s := (s.inc BCP_OUTBOX_STAT.PUSHED).set BCP_OUTBOX_LAST.STEP x.step
  let s := s.updHost fun h => { h with pushes := h.pushes.drop 1 }
  (((s.setB BCP_OUTBOX_STAT.PENDING (!s.host.pushes.isEmpty)).startPush).recheckHold)

/-- The packets after an acknowledged one. -/
def afterPsn (psn : Nat) : List Nat → List Nat
  | [] => []
  | p :: l => if p = psn then l else afterPsn psn l

/-- ROCE_ACK: every packet up to the PSN is acknowledged. -/
def execRoceAck (qpn psn : Nat) (s : State) (f : RoceFrame := noFrame) : Host.Outcome State Fault Refusal :=
  let h : RoceHdr := ⟨f, qpn, psn⟩
  s.roceIn h fun q s => match s.pushOn h.qpn with
    | some (_, x) =>
      if x.waiting.contains h.psn then
        let s := s.setQp { q with retries := 0 }
        match afterPsn h.psn x.waiting with
        | [] => s.pushDone x
        | l => s.setWaiting l
      else s
    | none => s

/-- A queue pair enters error, and QP_ERROR is sent (R356, R369): kind 0 retries exhausted, 1 NAK received. -/
def State.qpError (s : State) (q : Qp) (kind : Nat) : State :=
  ((s.setQp { q with error := true }).set ETH_FLAGS.QP_ERR 1).event 0x09 (leBytes 4 q.qpn ++ [kind])

/-- ROCE_NAK: a NAK on an outbox push. -/
def execRoceNak (qpn psn _code : Nat) (s : State) (f : RoceFrame := noFrame) : Host.Outcome State Fault Refusal :=
  let h : RoceHdr := ⟨f, qpn, psn⟩
  s.roceIn h fun q s => match s.pushOn h.qpn with
    | some (_, x) => if x.waiting.contains h.psn then s.qpError q 1 else s
    | none => s

/-- ROCE_ACK_TIMEOUT: the packets not acknowledged are sent again, or the retries are exhausted. -/
def execRoceAckTimeout (qpn : Nat) (s : State) : Host.Outcome State Fault Refusal :=
  .next (match s.qp qpn, s.pushOn qpn with
    | some q, some (b, x) =>
      if q.error then s
      else if q.retries < s.get ETH_RDMA.RETRY then (s.setQp { q with retries := q.retries + 1 }).resendPush q b x
      else s.qpError q 0
    | _, _ => s)

/-- CNP_RECEIVE: the push rate of the queue pair is halved for 100 µs. -/
def execCnpReceive (h : RoceHdr) (s : State) : Host.Outcome State Fault Refusal :=
  s.roceIn h fun q s => (s.setQp { q with halved := true }).set ETH_FLAGS.CNP_RX 1

/-- PUSH_RATE_RESTORE. -/
def execPushRateRestore (qpn : Nat) (s : State) : Host.Outcome State Fault Refusal :=
  .next (match s.qp qpn with
    | some q => s.setQp { q with halved := false }
    | none => s)

end Sys2Proof.Machine
end

