-- ==== Sys2Proof/Machine/Bcp.lean ====
section
/-! DEFINITION. The control protocol (R358 to R370, R372): datagrams and the sequence window, sessions, and the requests
that the management core executes in arrival order. A request row executes the request at the front of the queue, which
must carry the row's header and operands (DESIGN CHOICE: notes/assumptions/22.md). -/

namespace Sys2Proof.Machine

open Reg

/-! ### Datagrams (R358 to R361) -/

/-- The same bytes as an address, first byte highest. -/
def netField (b : List Nat) (off n : Nat) : Nat := leNat ((b.drop off).take n).reverse

/-- An address lies in a prefix, counted in the 128 bits of the mapped form. -/
def inPrefix (ip : Nat) (p : Nat × Nat) : Bool := decide (p.2 ≤ 128) && ip / 2 ^ (128 - p.2) == p.1 / 2 ^ (128 - p.2)

/-- The checks of R358 that drop a datagram. DEDUCED: notes/assumptions/22.md. -/
def State.datagramBad (s : State) (d : Datagram) : Bool :=
  let b := d.bytes
  decide (b.length < 32) || b.length != d.udpLen || field b 0 2 != 0x5142 || field b 6 2 + 32 != b.length ||
    crc32c (b.take 28 ++ List.replicate 4 0 ++ b.drop 32) != field b 28 4 || !(s.boot.allow.any fun p => inPrefix d.src.ip p) ||
    field b 3 1 != 0

/-- The payload has the length that its opcode asks for, and its reserved fields are 0; `none` for an opcode that is not
assigned (R358, R362). -/
def payloadOk (op : Nat) (p : List Nat) : Option Bool :=
  let n := p.length
  if op = opHELLO then some (n == 2)
  else if op = opBYE ∨ op = opJOB_START ∨ op = opJOB_HALT ∨ op = opJOB_UNLOAD ∨ op = opSTOP then some (n == 0)
  else if op = opREG_READ then some (n == 10)
  else if op = opREG_WRITE then some (decide (10 ≤ n) && n == 10 + 8 * field p 8 2)
  else if op = opSETUP_COPY then some (n == 24)
  else if op = opJOB_LOAD ∨ op = opEVENT_ACK then some (n == 8)
  else if op = opDRY_FIT then some (n == 1)
  else if op = opINPUT_READY ∨ op = opOUTBOX_BIND then some (n == 18)
  else if op = opQP_CREATE then some (n == 35)
  else if op = opQP_DESTROY then some (n == 4)
  else if op = opSUBSCRIBE then some (decide (22 ≤ n) && n == 22 + 8 * field p 21 1)
  else if op = opRECORD_WRITE then some (n == 24 && field p 1 7 == 0)
  else if op = opATTEST then some (n == 40)
  else none

/-- A session by its id. -/
def State.session (s : State) (id : Nat) : Option Session := s.host.sessions.find? fun x => x.id == id

/-- The session that a header names, at the header's version (R360). -/
def State.sessionOf (s : State) (h : BcpHdr) : Option Session := (s.session h.session).filter fun x => x.ver == h.version

/-- Replace a session. -/
def State.setSession (s : State) (x : Session) : State :=
  s.updHost fun h => { h with sessions := h.sessions.map fun y => if y.id = x.id then x else y }

/-- Up to 64 requests wait (R359). -/
def State.queueFull (s : State) : Bool := decide (64 ≤ s.host.queue.length)

/-- A request joins the queue. -/
def State.enqueue (s : State) (r : Request) : State := s.updHost fun h => { h with queue := h.queue ++ [r] }

/-- A request that a session has not received before: it enters the window, and is queued or answered at once.
DEDUCED: notes/assumptions/22.md. -/
def State.takeIn (s : State) (x : Session) (r : Request) (rsvdOk : Bool) : State :=
  if s.queueFull then s.inc BCP_DROPS.QFULL
  else
    let high := max x.high r.hdr.seq
    let s := s.setSession
      { x with high := high, window := (r.hdr.seq, none) :: x.window.filter fun w => decide (high < w.1 + 4096) }
    match payloadOk r.op r.payload with
    | none => s.complete r.hdr r.op stOPCODE []
    | some ok => if ok && rsvdOk then s.enqueue r else s.complete r.hdr r.op stFORMAT []

/-- The sequence window (R361). -/
def State.receive (s : State) (x : Session) (r : Request) (rsvdOk : Bool) : State :=
  let h := r.hdr
  if h.seq + 4096 ≤ x.high then (s.inc BCP_DUP.STALE).respond h r.op h.session stSTALE []
  else match x.window.find? fun w => w.1 == h.seq with
    | some (_, some c) => (s.inc BCP_DUP.DUPLICATES).respond h c.1 h.session c.2.1 c.2.2
    | some (_, none) => s
    | none => s.takeIn x r rsvdOk

/-- A request whose datagram has passed the checks. A HELLO belongs to no window, and a request that names an unknown
session or another version enters none (R360). -/
def State.request (s : State) (r : Request) (rsvdOk : Bool) : State :=
  let h := r.hdr
  if r.op = opHELLO then
    if h.version ≠ 0 ∨ h.session ≠ 0 ∨ payloadOk r.op r.payload ≠ some true ∨ !rsvdOk then
      s.respond h r.op h.session stFORMAT []
    else if s.queueFull then s.inc BCP_DROPS.QFULL
    else s.enqueue r
  else match s.sessionOf h with
    | none => s.respond h r.op h.session stSESSION []
    | some x => s.receive x r rsvdOk

/-- BCP_DATAGRAM. -/
def execBcpDatagram (d : Datagram) (s : State) : Host.Outcome State Fault Refusal :=
  s.frameIn ⟨d.dst, d.src.mac, d.vlan⟩ (fun _ => false) fun s => s.ipIn (isV6 d.src.ip) fun s =>
    if s.datagramBad d then s.inc BCP_DROPS.BAD
    else
      let b := d.bytes
      s.request ⟨⟨d.src, field b 2 1, field b 8 8, field b 16 8⟩, field b 4 2, b.drop 32⟩
        (field b 24 2 == 0 && field b 26 2 == 0)

/-! ### Executing requests (R359, R362) -/

/-- The job states in which a request is permitted (table "BCP requests"). -/
def jobPermits (op job : Nat) : Bool :=
  if op = opJOB_LOAD ∨ op = opSTOP ∨ op = opRECORD_WRITE then job == 0
  else if op = opJOB_START ∨ op = opJOB_UNLOAD then job == 1 || job == 3
  else if op = opJOB_HALT then job == 2
  else if op = opDRY_FIT then job == 1
  else if op = opINPUT_READY then job != 0
  else true

/-- The management core serves requests: it is READY, and no long command delays the queue. A dead device serves reads
only (R342). -/
def State.serves (s : State) (op : Nat) : Bool :=
  s.awake && !s.boot.configuring && s.get CFG_STATUS.STATE == 1 && s.host.busyWith.isNone && (!s.dead || op == opREG_READ)

/-- The front of the queue is this request, with a payload that carries the row's operands. DESIGN CHOICE:
notes/assumptions/22.md. -/
def State.front (s : State) (h : BcpHdr) (op : Nat) (carries : List Nat → Bool) : Option Request :=
  match s.host.queue with
  | r :: _ => if r.hdr = h ∧ r.op = op ∧ carries r.payload then some r else none
  | [] => none

/-- The request at the front leaves the queue (R359). -/
def State.dequeue (s : State) : State := s.updHost fun x => { x with queue := x.queue.drop 1 }

/-- Execute the request at the front of the queue. -/
def State.serve (s : State) (h : BcpHdr) (op : Nat) (carries : List Nat → Bool) (body : Request → State → State) :
    Host.Outcome State Fault Refusal :=
  .next (match s.front h op carries with
    | none => s
    | some r =>
      if !s.serves op then s
      else
      let s := s.dequeue
      if op ≠ opHELLO ∧ (s.sessionOf h).isNone then s.complete h op stSESSION []
      else if !jobPermits op s.job then s.complete h op stSTATE []
      else body r s)

/-- A long command begins, and delays the rest of the queue (R359). -/
def State.beginLong (s : State) (r : Request) : State := s.updHost fun x => { x with busyWith := some r }

/-! ### Sessions (R360) -/

/-- Give the number of open sessions to its register. -/
def State.countSessions (s : State) : State := s.set BCP_CFG.SESSIONS s.host.sessions.length

/-- Close a session. -/
def State.closeSession (s : State) (id : Nat) : State :=
  (s.updHost fun h => { h with sessions := h.sessions.filter fun x => x.id != id }).countSessions

/-- The word of the register at an address. -/
def State.wordAt (s : State) (a : Nat) : Nat := s.readWord (fieldsAt a)

/-- Open a session: its completion carries the new id in the header, and H is the HELLO's SEQ. -/
def State.openSession (s : State) (h : BcpHdr) (v : Nat) : State :=
  let id := s.host.nextSession
  let p := leBytes 1 v ++ List.replicate 7 0 ++ leBytes 8 id ++ leBytes 8 (s.wordAt DEV_VERSION.AREV.addr) ++
    leBytes 8 (s.wordAt FAB_ID.DEV.addr)
  let s := s.updHost fun x =>
    { x with nextSession := id + 1,
             sessions := x.sessions ++ [⟨id, v, h.seq, [(h.seq, some (opHELLO, stOK, p))]⟩] }
  s.countSessions.respond h opHELLO id stOK p

/-- HELLO. -/
def execHello (h : BcpHdr) (lo hi : Nat) (s : State) : Host.Outcome State Fault Refusal :=
  s.serve h opHELLO (fun p => field p 0 1 == lo && field p 1 1 == hi) fun _ s =>
    let devLo := s.get BCP_CFG.VER_MIN
    let devHi := s.get BCP_CFG.VER_MAX
    let v := min hi devHi
    if v < max lo devLo then s.respond h opHELLO 0 stVERSION (leBytes 1 devLo ++ leBytes 1 devHi ++ List.replicate 6 0)
    else if 4 ≤ s.host.sessions.length then s.respond h opHELLO 0 stBUSY []
    else s.openSession h v

/-- BYE. -/
def execBye (h : BcpHdr) (s : State) : Host.Outcome State Fault Refusal :=
  s.serve h opBYE (fun _ => true) fun _ s => (s.complete h opBYE stOK []).closeSession h.session

/-- SESSION_IDLE_TIMEOUT. -/
def execSessionIdleTimeout (id : Nat) (s : State) : Host.Outcome State Fault Refusal :=
  .next (if (s.session id).isSome then s.closeSession id else s)

/-! ### Register accesses (R363) -/

/-- The reads of REG_READ in order: the words, and ERRMASK. -/
def State.readRegs (s : State) (a n : Nat) : List Nat × Nat × State :=
  (List.range n).foldl (fun r i =>
    let x := r.2.2.readAt (a + 8 * i)
    match x.1 with
    | some v => (r.1 ++ [v], r.2.1, x.2)
    | none => (r.1 ++ [0], r.2.1 + 2 ^ i, x.2)) ([], 0, s)

/-- The writes of REG_WRITE in order, and ERRMASK. -/
def State.writeRegs (s : State) (a : Nat) (vs : List Nat) : Nat × State :=
  (vs.zip (List.range vs.length)).foldl (fun r e =>
    let s := r.2.writeAt (a + 8 * e.2) e.1
    (if s.resp.ok then r.1 else r.1 + 2 ^ e.2, s)) (0, s)

/-- The status of accesses with an ERRMASK. -/
def accessStatus (mask : Nat) : Nat := if mask = 0 then stOK else stACCESS

/-- REG_READ. -/
def execRegRead (h : BcpHdr) (a n : Nat) (s : State) : Host.Outcome State Fault Refusal :=
  s.serve h opREG_READ (fun p => field p 0 8 == a && field p 8 2 == n) fun _ s =>
    if n = 0 ∨ 32 < n then s.complete h opREG_READ stREFUSED []
    else
      let r := s.readRegs a n
      r.2.2.complete h opREG_READ (accessStatus r.2.1) (r.1.flatMap (leBytes 8) ++ leBytes 4 r.2.1)

/-- REG_WRITE. A write that resets the device ends every session, and nothing is left to complete (R372). -/
def execRegWrite (h : BcpHdr) (a : Nat) (vs : List Nat) (s : State) : Host.Outcome State Fault Refusal :=
  s.serve h opREG_WRITE (fun p => field p 0 8 == a && p.drop 10 == vs.flatMap (leBytes 8) && vs.all fun v => v < 2 ^ 64)
    fun _ s =>
      if vs.length = 0 ∨ 32 < vs.length then s.complete h opREG_WRITE stREFUSED []
      else
        let r := s.writeRegs a vs
        if r.2.boot.configuring then r.2 else r.2.complete h opREG_WRITE (accessStatus r.1) (leBytes 4 r.1)

/-! ### SETUP_COPY (R364) -/

/-- The word at `a` may be a destination of SETUP_COPY. -/
def State.copyDestOk (s : State) (a : Nat) : Bool :=
  match regionOf s.active a with
  | .veneer _ _ => true
  | .list u _ off => !(s.activeBank (off / bankSize u))
  | .rowSetup _ off =>
    if 0x20000 ≤ off ∧ off < 0x40000 then !(s.activeBank ((off - 0x20000) / 0x10000)) else decide (s.job ≠ 2)
  | _ => false

/-- The bank that a word of a list memory or kernel region belongs to. -/
def State.bankOfAddr (s : State) (a : Nat) : Option Nat :=
  match regionOf s.active a with
  | .list u _ off => some (off / bankSize u)
  | .rowSetup _ off => if 0x20000 ≤ off ∧ off < 0x40000 then some ((off - 0x20000) / 0x10000) else none
  | _ => none

/-- The arguments of SETUP_COPY are in range, and its whole destination is permitted. -/
def State.copyOk (s : State) (src dst n : Nat) : Bool :=
  n % 64 == 0 && decide (n ≤ 0x1000000) && inLpddr src n && dst % 8 == 0 && decide (dst + n ≤ 2 ^ 48) &&
    (List.range (n / 64)).all fun k => s.copyDestOk (dst + 64 * k) && s.copyDestOk (dst + 64 * k + 56)

/-- A copy reaches a bank: the bank is unsealed and ARM cleared (R33, R169). -/
def State.copyUnseals (s : State) (dst n b : Nat) : State :=
  if (List.range (n / 64)).any fun k => s.bankOfAddr (dst + 64 * k) == some b || s.bankOfAddr (dst + 64 * k + 56) == some b
  then (s.touchBank b scSeq 0 srcTICK).2 else s

/-- The bytes of a copy land. -/
def State.copyBytes (s : State) (src dst n : Nat) : State :=
  let s := (s.copyUnseals dst n 0).copyUnseals dst n 1
  let s := if (regionOf s.active dst matches .veneer _ _) then s.memoryWritten dst n else s
  (s.memTraffic [(src, n)]).wrBytes dst (s.rdBytes src n)

/-- SETUP_COPY. DESIGN CHOICE: notes/assumptions/22.md. -/
def execSetupCopy (h : BcpHdr) (src dst n : Nat) (s : State) : Host.Outcome State Fault Refusal :=
  s.serve h opSETUP_COPY (fun p => field p 0 8 == src && field p 8 8 == dst && field p 16 8 == n) fun r s =>
    if !s.copyOk src dst n then s.complete h opSETUP_COPY stREFUSED []
    else match s.poisonIn src n with
      | [] => (s.copyBytes src dst n).beginLong r
      | l => (l.foldl (fun s a => s.hostPoison a) s).complete h opSETUP_COPY stREFUSED []

/-- SETUP_COPY_DONE: the last byte has landed. -/
def execSetupCopyDone (s : State) : Host.Outcome State Fault Refusal := .next (s.completeLong opSETUP_COPY stOK [])

/-! ### Job commands (R362, R367, R372) -/

/-- The completion of a request that writes a control field: STATE where the write was turned away. -/
def State.completeWrite (s : State) (h : BcpHdr) (op : Nat) : State :=
  s.complete h op (if s.resp.ok then stOK else stSTATE) []

/-- JOB_LOAD: its completion follows the seal. -/
def execJobLoad (h : BcpHdr) (step : Nat) (s : State) : Host.Outcome State Fault Refusal :=
  s.serve h opJOB_LOAD (fun p => field p 0 8 == step) fun r s =>
    let s := ((s.setLocked TICK_LOAD_STEP.STEP step).beginLong r).actLoad
    if s.resp.ok then s else s.completeLong opJOB_LOAD stSTATE []

/-- JOB_START. -/
def execJobStart (h : BcpHdr) (s : State) : Host.Outcome State Fault Refusal :=
  s.serve h opJOB_START (fun _ => true) fun _ s =>
    let n := s.get TICK_STEP.STEP
    if !s.host.outTbl.isEmpty && s.host.bind.isNone then s.complete h opJOB_START stREFUSED []
    else if !(s.resident n && s.resident (n + 1)) then s.complete h opJOB_START stNOT_RESIDENT []
    else s.actStart.completeWrite h opJOB_START

/-- JOB_HALT. -/
def execJobHalt (h : BcpHdr) (s : State) : Host.Outcome State Fault Refusal :=
  s.serve h opJOB_HALT (fun _ => true) fun _ s => s.actHalt.completeWrite h opJOB_HALT

/-- JOB_UNLOAD (R372). -/
def execJobUnload (h : BcpHdr) (s : State) : Host.Outcome State Fault Refusal :=
  s.serve h opJOB_UNLOAD (fun _ => true) fun _ s =>
    let s := s.actUnload
    ((s.updHost fun x => { x with inbox := [], pushes := [] }).set BCP_OUTBOX_STAT.PENDING 0).completeWrite h opJOB_UNLOAD

/-- DRY_FIT. -/
def execDryFit (h : BcpHdr) (bank : Nat) (s : State) : Host.Outcome State Fault Refusal :=
  s.serve h opDRY_FIT (fun p => field p 0 1 == bank) fun _ s =>
    if 1 < bank then s.complete h opDRY_FIT stREFUSED []
    else if !s.resident (s.get TICK_STEP.STEP) then s.complete h opDRY_FIT stNOT_RESIDENT []
    else ((s.set TICK_DRY.BANK bank).actDry).completeWrite h opDRY_FIT

/-! ### Inbox and outbox (R366, R368) -/

/-- An INPUT_READY that is refused. -/
def State.inputRefused (s : State) (h : BcpHdr) (status : Nat) : State :=
  (s.inc BCP_INBOX_STAT.REFUSED).complete h opINPUT_READY status []

/-- INPUT_READY. -/
def execInputReady (h : BcpHdr) (step b len : Nat) (s : State) : Host.Outcome State Fault Refusal :=
  s.serve h opINPUT_READY (fun p => field p 0 8 == step && field p 8 2 == b && field p 10 8 == len) fun _ s =>
    let m := s.get TICK_STEP.STEP
    let x := s.bufAt step b
    if step < m ∨ m + s.get BCP_INBOX_TBL.DEPTH ≤ step ∨ s.get BCP_INBOX_TBL.COUNT ≤ b ∨ x.ready then
      s.inputRefused h stREFUSED
    else if len ≠ x.received then s.inputRefused h stLENGTH
    else (((s.setInBuf step b { x with ready := true, len := len }).inc BCP_INBOX_STAT.READY).complete h opINPUT_READY
      stOK []).recheckHold

/-- The oldest push restarts from buffer 0 where its queue pair is in error or gone. -/
def State.rebindPush (s : State) : State :=
  match s.host.pushes with
  | x :: _ =>
    let stuck := match x.via with
      | some b => (match s.qp b.qpn with
        | some q => q.error
        | none => true)
      | none => true
    (if stuck then s.setWaiting [] else s).startPush
  | [] => s

/-- OUTBOX_BIND. DESIGN CHOICE: notes/assumptions/22.md. -/
def execOutboxBind (h : BcpHdr) (qpn a rkey ring : Nat) (s : State) : Host.Outcome State Fault Refusal :=
  s.serve h opOUTBOX_BIND (fun p => field p 0 4 == qpn && field p 4 8 == a && field p 12 4 == rkey && field p 16 2 == ring)
    fun _ s =>
      if (s.qp qpn).isNone ∨ ring = 0 then s.complete h opOUTBOX_BIND stREFUSED []
      else (((s.updHost fun x => { x with bind := some ⟨qpn, a, rkey, ring⟩ }).set BCP_OUTBOX_STAT.BOUND 1).complete h
        opOUTBOX_BIND stOK []).rebindPush

/-! ### Queue pairs (R356) -/

/-- Give the number of queue pairs to its register. -/
def State.countQps (s : State) : State := s.set ETH_RDMA.QPS s.host.qps.length

/-- QP_CREATE. -/
def execQpCreate (h : BcpHdr) (q : QpArgs) (s : State) : Host.Outcome State Fault Refusal :=
  s.serve h opQP_CREATE (fun p => field p 0 4 == q.rqpn && netField p 4 16 == q.rgid && netField p 20 6 == q.rmac &&
      field p 26 4 == q.spsn && field p 30 4 == q.rpsn && field p 34 1 == q.mtu) fun _ s =>
    if q.mtu < 3 ∨ 5 < q.mtu then s.complete h opQP_CREATE stREFUSED []
    else if 64 ≤ s.host.qps.length then s.complete h opQP_CREATE stBUSY []
    else
      let n := s.host.nextQpn
      (s.updHost fun x =>
        { x with nextQpn := n + 1,
                 qps := x.qps ++ [⟨n, q, q.spsn % psnMod, q.rpsn % psnMod, 0, false, false, none⟩] }).countQps.complete h
        opQP_CREATE stOK (leBytes 4 n)

/-- QP_DESTROY. -/
def execQpDestroy (h : BcpHdr) (qpn : Nat) (s : State) : Host.Outcome State Fault Refusal :=
  s.serve h opQP_DESTROY (fun p => field p 0 4 == qpn) fun _ s =>
    if (s.qp qpn).isNone then s.complete h opQP_DESTROY stREFUSED []
    else ((s.updHost fun x => { x with qps := x.qps.filter fun y => y.qpn != qpn }).countQps).complete h opQP_DESTROY stOK []

/-! ### Events (R369, R370) -/

/-- The subscription's register addresses, as the payload gives them. -/
def sampleAddrs (p : List Nat) : List Nat := (List.range (field p 21 1)).map fun i => field p (22 + 8 * i) 8

/-- SUBSCRIBE: the only event destination; the Ethernet source of the request is the next hop. -/
def execSubscribe (h : BcpHdr) (q : SubArgs) (s : State) : Host.Outcome State Fault Refusal :=
  s.serve h opSUBSCRIBE (fun p => netField p 0 16 == q.dst && field p 16 2 == q.port && field p 18 2 == q.classes &&
      field p 20 1 == q.sampleLog2 && sampleAddrs p == q.addrs) fun _ s =>
    if 32 < q.addrs.length then s.complete h opSUBSCRIBE stREFUSED []
    else (s.updHost fun x => { x with sub := some ⟨h.session, h.version, h.src.mac, q⟩ }).complete h opSUBSCRIBE stOK []

/-- EVENT_ACK: every event up to and including EVSEQ. -/
def execEventAck (h : BcpHdr) (ev : Nat) (s : State) : Host.Outcome State Fault Refusal :=
  s.serve h opEVENT_ACK (fun p => field p 0 8 == ev) fun _ s =>
    let s := s.updHost fun x => { x with events := x.events.filter fun e => decide (ev < e.evseq) }
    (s.set BCP_EVT.QUEUED s.host.events.length).complete h opEVENT_ACK stOK []

/-- EVENT_RESEND. -/
def execEventResend (s : State) : Host.Outcome State Fault Refusal :=
  .next (match s.host.sub with
    | some b => s.host.events.foldl (fun s e => s.sendEvent b e) s
    | none => s)

/-! ### STOP (R398) -/

/-- STOP: the completion is sent before entry begins. -/
def execStop (h : BcpHdr) (s : State) : Host.Outcome State Fault Refusal :=
  s.serve h opSTOP (fun _ => true) fun _ s => (s.complete h opSTOP stOK []).enterStop

end Sys2Proof.Machine
end

