-- ==== Sys2Proof/Machine/ExnCore.lean ====
section
/-! DEFINITION. The row controllers (R168 to R174, R177, R182, R188, R189): register files, the two contexts, the memory
view, exceptions, and the running of one instruction. The spec gives no instruction encodings: a command carries one
decoded instruction of a row (DESIGN CHOICE: notes/assumptions/8.md). -/

namespace Sys2Proof.Machine

open Reg

/-! ### Register files (R175, R178, R179) -/

/-- Register files: general, floating, Exeno-S, Exeno-L, masks, and the instruction address. -/
def kG : Nat := 0
def kF : Nat := 1
def kSV : Nat := 2
def kLV : Nat := 3
def kLM : Nat := 4
def kPC : Nat := 5

/-- The place of a register: row, context (0 list, 1 service), file and number. -/
def xKey (r x kind i : Nat) : Nat := ((r * 2 + x) * 8 + kind) * 32 + i % 32

/-- VLEN of this generation (R179). -/
def vlen : Nat := 2048

/-- The bits of a register of a file. -/
def xBits (kind : Nat) : Nat :=
  match kind with
  | 2 => 128
  | 3 => vlen
  | 4 => vlen / 8
  | 5 => 18
  | _ => 64

/-- A register; g0 reads 0 (R175). -/
def State.xGet (s : State) (r x kind i : Nat) : Nat := if kind = kG ∧ i = 0 then 0 else Store.get s.xr 0 (xKey r x kind i)

/-- Write a register, cut to its width; g0 ignores writes (R175). -/
def State.xSet (s : State) (r x kind i v : Nat) : State :=
  if kind = kG ∧ i = 0 then s else { s with xr := Store.put s.xr 0 (xKey r x kind i) (v % 2 ^ xBits kind) }

def State.pc (s : State) (r x : Nat) : Nat := s.xGet r x kPC 0
def State.setPc (s : State) (r x v : Nat) : State := s.xSet r x kPC 0 v

/-- The row's own state. -/
def State.row (s : State) (r : Nat) : RowSt := Store.get s.rows RowSt.reset r
def State.setRow (s : State) (r : Nat) (v : RowSt) : State := { s with rows := Store.put s.rows RowSt.reset r v }

/-! ### How an instruction ends (R171, R182, R188) -/

/-- The exception causes of R188. -/
def cMISALIGNED : Nat := 1
def cACCESS : Nat := 2
def cILLEGAL : Nat := 3
def cMEM_UE : Nat := 4
def cBREAK : Nat := 5
def cSUSPEND : Nat := 6

/-- How an instruction ends: the next one follows; a jump; an exception with its cause and data address; an exception of a
vector instruction at an element; a suspension at an element; or the entry or event it belonged to has ended. -/
inductive XEnd where
  | next
  | jump (pc : Nat)
  | exc (cause addr : Nat)
  | excAt (k cause addr : Nat)
  | stop (k : Nat)
  | ended
deriving DecidableEq, Repr

/-! ### The memory view (R172) -/

/-- What an address of a row's view names. -/
inductive View where
  | mem (a : Nat)
  | reg (a : Nat)
  | none
deriving DecidableEq, Repr

/-- The row's own scratch as the setup network places it (R172). -/
def scratchAt (r off : Nat) : Nat := rowPriv r + 0x80000 + off

/-- A register block that a row sees: its own, those of its row's clusters, and ERR (R172). -/
def ownBlock (r a : Nat) : Bool :=
  (decide (exnBase r ≤ a) && decide (a < exnBase r + 0x10000)) ||
    (decide (arrBase (34 * r) ≤ a) && decide (a < arrBase (34 * r + 34))) ||
    (decide (errBase ≤ a) && decide (a < errBase + 0x10000))

/-- The place that an access of `n` bytes at `a` reaches in a context (table "Row controller memory view"). -/
def State.view (s : State) (r x a n : Nat) (write : Bool) : View :=
  let svc := decide (x = 1)
  if a + n ≤ lpddrEnd then (if svc && write then .none else .mem a)
  else match regionOf s.active a with
    | .veneer _ off => if (svc && write) || decide (veneerSize < off + n) then .none else .mem a
    | .csr => if svc && ownBlock r a && n == 8 && !(fieldsAt a).isEmpty then .reg a else .none
    | _ =>
      if 0x050000100000 ≤ a ∧ a + n ≤ 0x050000110000 then (if svc then .mem (scratchAt r (a - 0x050000100000)) else .none)
      else if 0x050000110000 ≤ a ∧ a + n ≤ 0x050000180000 then
        (if svc && write then .none else .mem (scratchAt r (a - 0x050000100000)))
      else .none

/-- Data bytes that a row moves to or from LPDDR. -/
def State.rowTraffic (s : State) (a n : Nat) : State := if a < lpddrEnd then s.memTraffic [(a, n)] else s

/-- Why an access fails, if it does: alignment first, then the view (R172, R175). -/
def State.rowFault (s : State) (r x a n align : Nat) (write : Bool) : Option Nat :=
  if a % align ≠ 0 then some cMISALIGNED
  else if s.view r x a n write = .none then some cACCESS
  else none

/-- Read `n` bytes: a value, or the cause of an exception. A read of ACC_DBG_DATA that R118 does not permit returns an
error status, which is ACCESS. DEDUCED: notes/assumptions/28.md. -/
def State.rowRead (s : State) (r x a n align : Nat) : Except Nat Nat × State :=
  match s.rowFault r x a n align false with
  | some c => (.error c, s)
  | none => match s.view r x a n false with
    | .mem m => if (s.poisonIn m n).isEmpty then (.ok (s.rd m n), s.rowTraffic m n) else (.error cMEM_UE, s)
    | .reg m =>
      (match accDbgOf m with
      | some p => let t := s.accDebug p; (if t.resp.ok then .ok t.resp.data else .error cACCESS, s)
      | none => (.ok (s.readWord (fieldsAt m)), s))
    | .none => (.error cACCESS, s)

/-- Write `n` bytes: the cause of an exception, if one is raised. -/
def State.rowWrite (s : State) (r x a n align v : Nat) : Option Nat × State :=
  match s.rowFault r x a n align true with
  | some c => (some c, s)
  | none => match s.view r x a n true with
    | .mem m => (none, (s.rowTraffic m n).wr m n v)
    | .reg m => (none, s.writeReg m v)
    | .none => (some cACCESS, s)

/-! ### Errors of a row (R189) -/

/-- An EXN_HWERR bit is set and counted. -/
def State.hwErr (s : State) (f : Fld) (r : Nat) : State := (s.set f 1).inc (EXN_HWERR.COUNT r)

/-- An error of the row's own hardware, in a class. -/
def State.rowError (s : State) (cls r code : Nat) : State := s.raiseOpen cls scRow r srcEXN code

/-- An address lies in the firmware scratch. -/
def inFwScratch (a : Nat) : Bool := decide (0x050000100000 ≤ a) && decide (a < 0x050000110000)

/-- An uncorrectable error of the row's scratch at address `a` of its view: contained-class in the job's part, whichever
context meets it, and fatal-to-device in the firmware's (R189). -/
def State.scratchUe (s : State) (r a : Nat) : State :=
  let s := s.hwErr (EXN_HWERR.SCR_UE r) r
  if inFwScratch a then s.rowError 3 r 3 else s.rowError 1 r cMEM_UE

/-- What the checkers saw during an instruction that accesses `a`, raised in its class (R189), and, where an
uncorrectable error of the kernel region makes the instruction end with MEM_UE, its data address (R188). A word of memory
or of the scratch that is lost raises its error at the element that reads it (R182, R183); `ownUe` is that of the scratch
word at `a`. -/
def State.rowHw (s : State) (r x a : Nat) (hw : List HwFault) : Option Nat × State :=
  hw.foldl (fun y h =>
    let s := y.2
    match h with
    | .memUe m => (y.1, s.poisonWord m)
    | .imemCe => (y.1, (s.hwErr (EXN_HWERR.IMEM_CE r) r).rowError 0 r 0)
    | .imemUe =>
      let s := s.hwErr (EXN_HWERR.IMEM_UE r) r
      if x = 0 then (some 0, s.rowError 1 r cMEM_UE) else (y.1, s.rowError 3 r 1)
    | .ownCe => (y.1, (s.hwErr (EXN_HWERR.SCR_CE r) r).rowError 0 r 2)
    | .ownUe => (y.1, match s.view r x a 1 false with
      | .mem m => if m < rowPriv 0 then s else s.poisonWord m
      | _ => s)
    | .rfPar => (y.1, (s.hwErr (EXN_HWERR.RF_PAR r) r).rowError (if x = 0 then 1 else 3) r 4)
    | h => (y.1, s.hwMem [h] 4 2)) (none, s)

/-! ### Exceptions (R182, R188) -/

/-- An uncorrectable error that a load or fetch met, in the class of its memory (R188, R252, R258). Firmware's handler
deals with its own. -/
def State.rowUe (s : State) (r x a : Nat) : State :=
  match s.view r x a 1 false with
  | .mem m =>
    if m < 0x020000000000 then
      (if x = 0 then
         (match s.poisonIn (m / 8 * 8) 8 with
         | [] => s.poisonIn (m / 8 * 8 + 8) 8
         | l => l).foldl (fun s w => s.memUncorrectable w 4 2) s
       else (s.inc (if m < lpddrEnd then MEM_ECC.UE (m / lpddrWindow) else VNR_ECC.UE)).memRecord m 1 4 2)
    else s.scratchUe r a
  | _ => if x = 0 then s.rowError 1 r cMEM_UE else s

/-- The first exception of a list context is recorded; the entry ends, and the row's later entries of the step return at
once (R188). -/
def State.listException (s : State) (r cause addr : Nat) (raised : Bool) : State :=
  let desc := match (s.row r).call with
    | some c => c.desc
    | none => 0
  let s := if s.is (EXN_FAULT.VALID r) then s
    else s.setAll [(EXN_FAULT.CAUSE r, cause), (EXN_FAULT.DESC r, desc), (EXN_FAULT.RESUME r, s.get (LV_RESUME.INDEX r 0)),
      (EXN_FAULT.EPC r, s.pc r 0), (EXN_FAULT.VALID r, 1), (EXN_FAULT_ADDR.ADDR r, addr)]
  let s := (s.setRow r { s.row r with faulted := true }).endCall r
  let s := s.engineDone .row r 1 s.tick.cc
  if raised then s else if cause = cMEM_UE then s.rowUe r 0 addr else s.fatalAtGlue scRow r srcEXN cause

/-- An exception: EXC_INFO and EXC_ADDR are set. In the service context firmware's handler runs; where it stands is not
stated, but that it is an instruction of the firmware region. -/
def State.exception (s : State) (r x cause addr : Nat) (raised : Bool) : State :=
  let s := s.setAll [(EXC_INFO.CAUSE r x, cause), (EXC_INFO.EPC r x, s.pc r x), (EXC_ADDR.ADDR r x, addr)]
  if x = 0 then s.listException r cause addr raised
  else
    let s := if !raised && cause == cMEM_UE then s.rowUe r x addr else s
    let (v, s) := s.draw
    s.setPc r x (v % 0x8000 * 4)

/-! ### Running one instruction -/

/-- The context that executes (EXN_STATUS.CTX): the list context only while its entry runs. DEDUCED:
notes/assumptions/8.md. -/
def State.context (s : State) (r : Nat) : Option Nat :=
  if s.dead || !s.awake || s.boot.configuring || s.tick.freeze != 0 then none
  else match s.get (EXN_STATUS.CTX r) with
    | 1 => if (s.row r).call.isSome then some 0 else none
    | 2 => some 1
    | _ => none

/-- Why the fetch at the instruction address fails, if it does: kernels execute from the active half, firmware from its
own region (R172, R175). -/
def State.fetchFault (s : State) (r x : Nat) : Option Nat :=
  let pc := s.pc r x
  let lo := if x = 0 then 0x20000 + s.runBank * 0x10000 else 0
  let n := if x = 0 then 0x10000 else 0x20000
  if pc % 4 ≠ 0 then some cMISALIGNED
  else if pc < lo ∨ lo + n ≤ pc then some cACCESS
  else none

/-- The service context is suspended at the instruction that is next (R171, R182, R188). -/
def State.suspend (s : State) (r x : Nat) : State :=
  s.setAll [(EXC_INFO.CAUSE r x, cSUSPEND), (EXC_INFO.EPC r x, s.pc r x), (EXC_ADDR.ADDR r x, 0)]

/-- What follows the end of an instruction. -/
def State.finish (s : State) (r x : Nat) : XEnd → State
  | .next => s.setPc r x (s.pc r x + 4)
  | .jump t => s.setPc r x t
  | .exc c a => s.exception r x c a false
  | .excAt k c a => (s.set (LV_RESUME.INDEX r x) k).exception r x c a false
  | .stop k => (s.set (LV_RESUME.INDEX r x) k).suspend r x
  | .ended => s

/-- One instruction of a row, in the context that executes, with what the checkers saw at its fetch, its operands and its
access to the address `addr` (R189). -/
def State.instrHw (s : State) (r : Nat) (hw : List HwFault) (addr : Nat → State → Nat) (body : Nat → State → State × XEnd) :
    Host.Outcome State Fault Refusal :=
  State.forUnit 64 r (match s.context r with
    | none => s
    | some x => match s.fetchFault r x with
      | some c => s.exception r x c 0 false
      | none =>
        let h := s.rowHw r x (addr x s) hw
        if h.2.context r ≠ some x then h.2
        else match h.1 with
          | some a => h.2.exception r x cMEM_UE a true
          | none => let y := body x h.2; y.1.finish r x y.2)

/-- One instruction that accesses no memory. -/
def State.instr (s : State) (r : Nat) (hw : List HwFault) (body : Nat → State → State × XEnd) :
    Host.Outcome State Fault Refusal :=
  s.instrHw r hw (fun _ _ => 0) body

/-! ### Operands -/

/-- A 16-bit immediate, sign-extended to 64 bits. -/
def imm16 (v : Nat) : Nat := ofSigned 64 (toSigned 16 v)

/-- Base plus 16-bit offset (R175). -/
def State.baseOff (s : State) (r x a off : Nat) : Nat := (s.xGet r x kG a + imm16 off) % 2 ^ 64

/-- Element `k` of a register of `ew`-bit elements. -/
def lane (v ew k : Nat) : Nat := v / 2 ^ (ew * k) % 2 ^ ew

/-- Replace element `k`. -/
def setLane (v ew k e : Nat) : Nat := v - lane v ew k * 2 ^ (ew * k) + e % 2 ^ ew * 2 ^ (ew * k)

/-- The format of floating elements of a width. -/
def fmtOfBits (ew : Nat) : Nat := if ew = 64 then fFP64 else fFP32

/-- The value of a floating code of a width. -/
def fval (ew v : Nat) : Val := decode (fmtOfBits ew) (v % 2 ^ ew)

/-- The code of a value after one RNE rounding (R176). -/
def fcode (ew : Nat) (v : Val) : Nat := rne (fmtOfBits ew) v

end Sys2Proof.Machine
end

