-- ==== Sys2Proof/Machine/ExnScalar.lean ====
section
/-! DEFINITION. CALL entries and service events (R168 to R171), and the scalar and Exeno-S instructions of the row
controllers (R175 to R178). -/

namespace Sys2Proof.Machine

open Reg

/-! ### CALL entries and the service context (R170, R171) -/

/-- The engine of CALL entries. -/
def engCall : Nat := 1

/-- The first instruction of a kernel: its table entry's word offset in the bank's half (R169). -/
def State.kernelPc (s : State) (r d : Nat) : Nat :=
  let b := s.runBank
  let w := s.sealedRd (kernelBase r b + s.ktblAt r d) 8
  0x20000 + b * 0x10000 + bits w 15 2 * 4

/-- The list context begins a CALL entry: arguments in g1 to g4, and its first instruction (R170). -/
def State.enterCall (s : State) (r : Nat) (i : Issue) : State :=
  let c := s.get (EXN_STATUS.CTX r)
  let s := if c = 2 then ((s.set (EXN_STATUS.SUSPENDED r) 1).inc (EXN_ENTRIES.SUSPENDS r)).suspend r 1 else s
  let s := s.setRow r { s.row r with call := some ⟨i.desc, i.startCc, i.startCc + i.busyCc, decide (2 ≤ c)⟩ }
  let s := (((s.xSet r 0 kG 1 i.tag).xSet r 0 kG 2 i.arg).xSet r 0 kG 3 i.tick).xSet r 0 kG 4 (s.get TICK_STEP.STEP)
  (s.set (EXN_STATUS.CTX r) 1).setPc r 0 (s.kernelPc r i.desc)

/-- CALL: the service context is suspended, and the kernel starts (R170, R171). An uncorrectable error of the kernel
region that the fetch of its first instruction meets ends the entry with MEM_UE (R188, R189). -/
def execKernelCall (i : Issue) (hw : List HwFault) (s : State) : Host.Outcome State Fault Refusal :=
  s.issue .row engCall i true fun s =>
    let r := i.idx
    let y := hw.foldl (fun (y : Bool × State) h => match h with
      | .descPar => (y.1, let (v, s) := y.2.draw; s.descPar scRow r srcEXN (v % 2 ^ 16))
      | h => let z := y.2.rowHw r 0 0 [h]; (y.1 || z.1.isSome, z.2)) (false, s)
    let s := y.2.set (EXN_STATUS.LAST_DESC r) i.desc
    if !s.running then s
    else if (s.row r).faulted then s.engineDone .row r engCall i.startCc
    else
      let s := s.enterCall r i
      if y.1 then s.exception r 0 cMEM_UE 0 true else s

/-- A CALL entry ends by RET at cycle `cc` (R170). -/
def State.retList (s : State) (r cc : Nat) (c : CallRec) : State :=
  let s := ((s.endCall r).engineDone .row r engCall cc).inc (EXN_ENTRIES.CALLS r)
  let n := cc - c.startCc
  if s.get (EXN_ENTRY_MAX.MAX_CC r) < n then s.setAll [(EXN_ENTRY_MAX.MAX_CC r, n), (EXN_ENTRY_MAX.DESC r, c.desc)] else s

/-- RET: in the list context the entry ends, unless its deadline has passed; in the service context the instruction at
EPC follows. DESIGN CHOICE: notes/assumptions/28.md. -/
def execRet (r cc : Nat) (s : State) (hw : List HwFault := []) : Host.Outcome State Fault Refusal :=
  s.instr r hw fun x s =>
    if x = 1 then (s, .jump (s.get (EXC_INFO.EPC r 1)))
    else match (s.row r).call with
      | some c => (if cc ≤ c.endCc || s.excused then s.retList r cc c else s, .ended)
      | none => (s, .ended)

/-- CALL_DEADLINE: the kernel is stopped, and schedule fault BUSY is raised. While a stretch cause is active the kernel
runs on (R17). -/
def execCallDeadline (r : Nat) (s : State) : Host.Outcome State Fault Refusal :=
  State.forUnit 64 r (match (s.row r).call, s.runningRec .row r engCall with
    | some c, some b =>
      if s.excused then s else
      let s := (s.endCall r).engineDone .row r engCall c.endCc
      s.schedFault 2 fBUSY .row r b.entry
    | _, _ => s)

/-- SERVICE_RESUME: the service context resumes, and the events latched meanwhile reach it. -/
def execServiceResume (r : Nat) (s : State) : Host.Outcome State Fault Refusal :=
  State.forUnit 64 r (if s.get (EXN_STATUS.CTX r) = 3 then
      (s.setAll [(EXN_STATUS.CTX r, 2), (EXN_STATUS.SUSPENDED r, 0), (EXN_STATUS.PENDING r, 0)]).setRow r
        { s.row r with events := [] }
    else s)

/-- SERVICE_EVENT: the service context runs on it, or it is latched while a CALL is active; a 65th is lost (R171). -/
def execServiceEvent (r ev : Nat) (s : State) : Host.Outcome State Fault Refusal :=
  State.forUnit 64 r (if s.dead || !s.awake || s.boot.configuring then s
    else match s.get (EXN_STATUS.CTX r) with
      | 0 => s.set (EXN_STATUS.CTX r) 2
      | 2 => s
      | _ =>
        let l := (s.row r).events
        if l.length < 64 then (s.setRow r { s.row r with events := l ++ [ev] }).set (EXN_STATUS.PENDING r) (l.length + 1)
        else (s.set (EXN_STATUS.SVC_OVF r) 1).rowError 0 r 3)

/-! ### Integer instructions (R175) -/

def shl (v n : Nat) : Nat := v * 2 ^ n
def shr (v n : Nat) : Nat := v / 2 ^ n
/-- Arithmetic right shift at a width. -/
def sra (w v n : Nat) : Nat := ofSigned w ((toSigned w v).fdiv (2 ^ n))

/-- Shifts by an amount, at a width; the result of an amount at or above the width is not stated, and is a free function
of the operands. -/
def shiftL (w v n : Nat) : Nat := if n < w then shl v n % 2 ^ w else Config.openShift 0 w v n % 2 ^ w
def shiftR (w v n : Nat) : Nat := if n < w then shr v n % 2 ^ w else Config.openShift 1 w v n % 2 ^ w
def shiftA (w v n : Nat) : Nat := if n < w then sra w v n % 2 ^ w else Config.openShift 2 w v n % 2 ^ w

/-- Integer operations on 64-bit values: immediates are sign-extended, but for the logic operations' (R175). -/
def intOp (o : IntOp) (a b imm : Nat) : Nat :=
  let i := imm16 imm
  let u := imm % 2 ^ 16
  let sg := toSigned 64
  match o with
  | .add => a + b
  | .sub => a + 2 ^ 64 - b
  | .and => Nat.land a b
  | .or => Nat.lor a b
  | .xor => Nat.xor a b
  | .sll => shiftL 64 a b
  | .srl => shiftR 64 a b
  | .sra => shiftA 64 a b
  | .slt => ofBool (decide (sg a < sg b))
  | .sltu => ofBool (decide (a < b))
  | .seq => ofBool (a == b)
  | .addi => a + i
  | .andi => Nat.land a u
  | .ori => Nat.lor a u
  | .xori => Nat.xor a u
  | .slli => shiftL 64 a u
  | .srli => shiftR 64 a u
  | .srai => shiftA 64 a u
  | .slti => ofBool (decide (sg a < sg i))
  | .sltiu => ofBool (decide (a < i))
  | .lui => imm % 2 ^ 32 * 2 ^ 32
  | .const => a / 2 ^ 32 * 2 ^ 32 + imm % 2 ^ 32

/-- INTEGER_OP. DESIGN CHOICE: notes/assumptions/28.md. -/
def execIntegerOp (r : Nat) (o : IntOp) (d a b imm : Nat) (s : State) (hw : List HwFault := []) :
    Host.Outcome State Fault Refusal :=
  s.instr r hw fun x s => (s.xSet r x kG d (intOp o (s.xGet r x kG a) (s.xGet r x kG b) imm), .next)

/-- Multiply and divide; the result of a division by zero, or of the most negative number by −1, is not stated, and is a
free function of the operands. -/
def mulOp (o : MulOp) (a b : Nat) : Nat :=
  let sa := toSigned 64 a
  let sb := toSigned 64 b
  let bad := b == 0
  let badS := bad || (a == 2 ^ 63 && b == 2 ^ 64 - 1)
  let orFree (c : Bool) (k v : Nat) : Nat := if c then Config.openDivide k a b % 2 ^ 64 else v
  match o with
  | .mulLo => a * b
  | .mulHiU => a * b / 2 ^ 64
  | .mulHiS => ofSigned 64 ((sa * sb).fdiv (2 ^ 64))
  | .divU => orFree bad 0 (a / b)
  | .divS => orFree badS 2 (ofSigned 64 (sa.tdiv sb))
  | .remU => orFree bad 1 (a % b)
  | .remS => orFree badS 3 (ofSigned 64 (sa.tmod sb))

/-- MULTIPLY_DIVIDE. DESIGN CHOICE: notes/assumptions/28.md. -/
def execMultiplyDivide (r : Nat) (o : MulOp) (d a b : Nat) (s : State) (hw : List HwFault := []) :
    Host.Outcome State Fault Refusal :=
  s.instr r hw fun x s => (s.xSet r x kG d (mulOp o (s.xGet r x kG a) (s.xGet r x kG b)), .next)

/-- A conditional branch is taken. -/
def taken (o : BranchOp) (a b : Nat) : Bool :=
  match o with
  | .eq => a == b
  | .ne => a != b
  | .lt => decide (toSigned 64 a < toSigned 64 b)
  | .ge => decide (toSigned 64 b ≤ toSigned 64 a)
  | .ltu => decide (a < b)
  | .geu => decide (b ≤ a)
  | _ => true

/-- BRANCH: the displacement is in bytes; jump-and-link leaves the address of the next instruction. -/
def execBranch (r : Nat) (o : BranchOp) (d a b off : Nat) (s : State) (hw : List HwFault := []) :
    Host.Outcome State Fault Refusal :=
  s.instr r hw fun x s =>
    let pc := s.pc r x
    let ga := s.xGet r x kG a
    match o with
    | .jumpLink => (s.xSet r x kG d (pc + 4), .jump (pc + off))
    | .jumpReg => (s, .jump (ga + off))
    | _ => (s, if taken o ga (s.xGet r x kG b) then .jump (pc + off) else .next)

/-! ### Loads and stores (R172, R175) -/

/-- Sizes of scalar accesses. -/
def sizeOk (n : Nat) : Bool := n == 1 || n == 2 || n == 4 || n == 8

/-- The register that a load or store names: g0 to g31, then f0 to f31. -/
def fileOf (d : Nat) : Nat := if d < 32 then kG else kF

/-- LOAD. -/
def execLoad (r bytes : Nat) (sext : Bool) (d a off : Nat) (hw : List HwFault) (s : State) :
    Host.Outcome State Fault Refusal :=
  s.instrHw r hw (fun x s => s.baseOff r x a off) fun x s =>
    if !sizeOk bytes then (s, .exc cILLEGAL 0)
    else
      let addr := s.baseOff r x a off
      match s.rowRead r x addr bytes bytes with
      | (.ok v, s) =>
        (s.xSet r x (fileOf d) d (if sext && decide (d < 32) then ofSigned 64 (toSigned (8 * bytes) v) else v), .next)
      | (.error c, s) => (s, .exc c addr)

/-- A store to part of a poisoned veneer word meets the error on its read half (R252), and so does one to part of a
scratch word (R189); a whole scratch word is no longer poisoned. -/
def State.storeHalf (s : State) (r x addr bytes : Nat) : State :=
  match s.rowFault r x addr bytes bytes true, s.view r x addr bytes true with
  | none, .mem m =>
    if m < rowPriv 0 then (if x = 0 then s.noteWrite id [(m, bytes)] 4 else s)
    else
      let met := s.poisonIn m bytes
      if met.isEmpty then s
      else if bytes < 8 then s.scratchUe r addr
      else { s with poison := s.poison.filter fun w => !met.contains w }
  | _, _ => s

/-- STORE. -/
def execStore (r bytes a b off : Nat) (hw : List HwFault) (s : State) : Host.Outcome State Fault Refusal :=
  s.instrHw r hw (fun x s => s.baseOff r x a off) fun x s =>
    if !sizeOk bytes then (s, .exc cILLEGAL 0)
    else
      let addr := s.baseOff r x a off
      match (s.storeHalf r x addr bytes).rowWrite r x addr bytes bytes (s.xGet r x (fileOf b) b % 2 ^ (8 * bytes)) with
      | (none, s) => (s, .next)
      | (some c, s) => (s, .exc c addr)

/-! ### Floating instructions (R44, R45, R176) -/

/-- Ordered comparison of two values: false where either is a NaN. -/
def fcmp (p : Int → Bool) (a b : Val) : Bool := !a.isNan && !b.isNan && p (Val.cmp a b)

/-- FLOAT_OP: one RNE rounding; compares write a general register. -/
def execFloatOp (r : Nat) (o : FloatOp) (dbl : Bool) (d a b c : Nat) (s : State) (hw : List HwFault := []) :
    Host.Outcome State Fault Refusal :=
  s.instr r hw fun x s =>
    let ew := if dbl then 64 else 32
    let f (i : Nat) := fval ew (s.xGet r x kF i)
    let put (v : Val) : State × XEnd := (s.xSet r x kF d (fcode ew v), .next)
    let flag (p : Int → Bool) : State × XEnd := (s.xSet r x kG d (ofBool (fcmp p (f a) (f b))), .next)
    match o with
    | .add => put ((f a).add (f b))
    | .sub => put ((f a).sub (f b))
    | .mul => put ((f a).mul (f b))
    | .fma => put (Val.fma (f a) (f b) (f c))
    | .div => put ((f a).div (f b))
    | .sqrt => put (f a).sqrt
    | .min => put ((f a).minimum (f b))
    | .max => put ((f a).maximum (f b))
    | .eq => flag (· == 0)
    | .lt => flag (decide <| · < 0)
    | .le => flag (decide <| · ≤ 0)

/-- The rounding mode of a conversion's mode field (R175). -/
def rndOf : Nat → Option Rnd
  | 0 => some .rne
  | 1 => some .rtz
  | 2 => some .rup
  | 3 => some .rdn
  | _ => none

/-- The source of a conversion. -/
def State.convSrc (s : State) (r x a : Nat) : NumTy → Val
  | .f64 => fval 64 (s.xGet r x kF a)
  | .f32 => fval 32 (s.xGet r x kF a)
  | .i32 => .ofInt (toSigned 32 (s.xGet r x kG a))
  | .i64 => .ofInt (toSigned 64 (s.xGet r x kG a))

/-- INT64 of a value; what does not fit is not stated, and is a free function of the source. -/
def convI64 (rnd : Nat) (md : Rnd) (v : Val) : Nat :=
  let free := Config.openInt64 rnd (rne fFP64 v) % 2 ^ 64
  match v with
  | .fin neg m e =>
    let n := roundAt md neg m e 0
    let i : Int := if neg then -(n : Int) else n
    if -(2 ^ 63) ≤ i ∧ i < 2 ^ 63 then ofSigned 64 i else free
  | _ => free

/-- CONVERSION: INT32 saturates as R58 gives. DESIGN CHOICE: notes/assumptions/28.md. -/
def execConversion (r : Nat) (o : ConvOp) (rnd d a : Nat) (s : State) (hw : List HwFault := []) :
    Host.Outcome State Fault Refusal :=
  s.instr r hw fun x s =>
    match rndOf rnd with
    | none => (s, .exc cILLEGAL 0)
    | some md =>
      let v := s.convSrc r x a o.src
      match o.dst with
      | .f64 => (s.xSet r x kF d (convFp fFP64 md true false v).1, .next)
      | .f32 => (s.xSet r x kF d (convFp fFP32 md true false v).1, .next)
      | .i32 => (s.xSet r x kG d (ofSigned 64 (toSigned 32 (convI32 md v).1)), .next)
      | .i64 => (s.xSet r x kG d (convI64 rnd md v), .next)

/-! ### Control registers (R177, R182) -/

/-- The fields of a control register by its number; none where no register stands. -/
def csrFields (r x : Nat) : Nat → List Fld
  | 0x010 => [EXC_INFO.CAUSE r x, EXC_INFO.EPC r x]
  | 0x011 => [EXC_ADDR.ADDR r x]
  | 0x020 => [VL.VL r x]
  | 0x021 => [VTYPE.EW r x]
  | 0x022 => [LV_RESUME.INDEX r x]
  | 0x023 => [LV_FAULTLEN.COUNT r x]
  | 0x024 => [LV_VLEN.VLEN r x]
  | 0x030 => [CYCLE.COUNT r x]
  | _ => []

/-- CSR_READ: CYCLE counts core cycles, and is ILLEGAL in the list context. -/
def execCsrRead (r d csr : Nat) (s : State) (hw : List HwFault := []) : Host.Outcome State Fault Refusal :=
  s.instr r hw fun x s =>
    if (csrFields r x csr).isEmpty || (csr == 0x030 && x == 0) then (s, .exc cILLEGAL 0)
    else
      let v := if csr = 0x030 then s.tick.now
        else (csrFields r x csr).foldl (fun w f => w + s.get f * 2 ^ f.lo) 0
      (s.xSet r x kG d v, .next)

/-- CSR_WRITE: RW fields take the value. -/
def execCsrWrite (r a csr : Nat) (s : State) (hw : List HwFault := []) : Host.Outcome State Fault Refusal :=
  s.instr r hw fun x s =>
    let v := s.xGet r x kG a
    if (csrFields r x csr).isEmpty then (s, .exc cILLEGAL 0)
    else ((csrFields r x csr).foldl (fun s f => if f.acc = .rw then s.set f (v / 2 ^ f.lo) else s) s, .next)

/-- BREAK. -/
def execBrk (r : Nat) (s : State) (hw : List HwFault := []) :
    Host.Outcome State Fault Refusal := s.instr r hw fun _ s => (s, .exc cBREAK 0)

/-- FENCE: every fetch of the model reads memory as it stands. -/
def execFence (r : Nat) (s : State) (hw : List HwFault := []) :
    Host.Outcome State Fault Refusal := s.instr r hw fun _ s => (s, .next)

/-- LANES (R179). -/
def execLanes (r ew d : Nat) (s : State) (hw : List HwFault := []) : Host.Outcome State Fault Refusal :=
  s.instr r hw fun x s => if ew = 8 ∨ ew = 16 ∨ ew = 32 ∨ ew = 64 then (s.xSet r x kG d (vlen / ew), .next) else (s, .exc cILLEGAL 0)

/-! ### Exeno-S (R178) -/

/-- The element widths of the vector extensions. -/
def widthOk (ew : Nat) : Bool := ew == 8 || ew == 16 || ew == 32 || ew == 64

/-- Floating elements have 32 or 64 bits. -/
def fwidthOk (ew : Nat) : Bool := ew == 32 || ew == 64

/-- Whether an Exeno-S operation is a floating one. -/
def sIsF : SOp → Bool
  | .fadd | .fsub | .fmul | .ffma | .fmin | .fmax => true
  | _ => false

/-- Minimum or maximum of two elements as signed numbers. -/
def minS (w a b : Nat) : Nat := if toSigned w a ≤ toSigned w b then a else b
def maxS (w a b : Nat) : Nat := if toSigned w a ≤ toSigned w b then b else a

/-- One element of an Exeno-S operation. -/
def sLane (o : SOp) (w a b c : Nat) : Nat :=
  let f := fval w
  match o with
  | .add => a + b
  | .sub => a + 2 ^ w - b
  | .mul => a * b
  | .and => Nat.land a b
  | .or => Nat.lor a b
  | .xor => Nat.xor a b
  | .shl => shiftL w a b
  | .shr => shiftR w a b
  | .sra => shiftA w a b
  | .minS => minS w a b
  | .maxS => maxS w a b
  | .minU => min a b
  | .maxU => max a b
  | .fadd => fcode w ((f a).add (f b))
  | .fsub => fcode w ((f a).sub (f b))
  | .fmul => fcode w ((f a).mul (f b))
  | .ffma => fcode w (Val.fma (f a) (f b) (f c))
  | .fmin => fcode w ((f a).minimum (f b))
  | .fmax => fcode w ((f a).maximum (f b))

/-- EXENO_S_ARITH: shifts take each element's amount from the second source. -/
def execExenoSArith (r : Nat) (o : SOp) (ew d a b c : Nat) (s : State) (hw : List HwFault := []) :
    Host.Outcome State Fault Refusal :=
  s.instr r hw fun x s =>
    if !widthOk ew || (sIsF o && !fwidthOk ew) then (s, .exc cILLEGAL 0)
    else
      let g (i : Nat) := s.xGet r x kSV (i % 16)
      let va := g a
      let vb := g b
      let vc := g c
      let y := (List.range (128 / ew)).foldl (fun y k =>
        setLane y ew k (sLane o ew (lane va ew k) (lane vb ew k) (lane vc ew k))) 0
      (s.xSet r x kSV (d % 16) y, .next)

/-- EXENO_S_LANE. A shuffle takes byte `i` from the 32 bytes of its two sources at the index in byte `i` of the register
that `ln` names; what an index above 31 takes is not stated, and is a free function of the operands. -/
def execExenoSLane (r : Nat) (o : SLaneOp) (ew d a b ln : Nat) (s : State) (hw : List HwFault := []) :
    Host.Outcome State Fault Refusal :=
  s.instr r hw fun x s =>
    let sv (i : Nat) := s.xGet r x kSV (i % 16)
    if !widthOk ew then (s, .exc cILLEGAL 0)
    else match o with
      | .lins =>
        if 128 / ew ≤ ln then (s, .exc cILLEGAL 0)
        else (s.xSet r x kSV (d % 16) (setLane (sv d) ew ln (s.xGet r x kG a)), .next)
      | .lext => if 128 / ew ≤ ln then (s, .exc cILLEGAL 0) else (s.xSet r x kG d (lane (sv a) ew ln), .next)
      | .bcast =>
        (s.xSet r x kSV (d % 16) ((List.range (128 / ew)).foldl (fun v k => setLane v ew k (s.xGet r x kG a)) 0), .next)
      | .shuffle =>
        let src := sv a + sv b * 2 ^ 128
        let y := (List.range 16).foldl (fun y k =>
          let i := lane (sv ln) 8 k
          setLane y 8 k (if i < 32 then lane src 8 i else Config.openShuffle (sv a) (sv b) i)) 0
        (s.xSet r x kSV (d % 16) y, .next)

/-- EXENO_S_LOAD_STORE: 128 bits, aligned to 16 B. -/
def execExenoSLoadStore (r : Nat) (isStore : Bool) (d a off : Nat) (hw : List HwFault) (s : State) :
    Host.Outcome State Fault Refusal :=
  s.instrHw r hw (fun x s => s.baseOff r x a off) fun x s =>
    let addr := s.baseOff r x a off
    if isStore then
      match s.rowWrite r x addr 16 16 (s.xGet r x kSV (d % 16)) with
      | (none, s) => (s, .next)
      | (some c, s) => (s, .exc c addr)
    else
      match s.rowRead r x addr 16 16 with
      | (.ok v, s) => (s.xSet r x kSV (d % 16) v, .next)
      | (.error c, s) => (s, .exc c addr)

end Sys2Proof.Machine
end

