-- ==== Sys2Proof/Machine/ExnVector.lean ====
section
/-! DEFINITION. Exeno-L (R179 to R187): counts and masks, elements in ascending order, suspension and resume, memory
instructions, scatter-add and gates. -/

namespace Sys2Proof.Machine

open Reg

/-! ### Counts, masks and resume (R179, R180, R182) -/

/-- n of an instruction: its count register, clamped; g0 selects every element. -/
def State.vCount (s : State) (r x : Nat) (v : VArgs) (limit : Nat) : Nat :=
  if v.gc % 32 = 0 then limit else min (s.xGet r x kG (v.gc % 32)) limit

/-- Element `k` is active. -/
def State.vActive (s : State) (r x : Nat) (v : VArgs) (k : Nat) : Bool :=
  match v.mask with
  | some m => bit (s.xGet r x kLM (m % 8)) k
  | none => true

/-- Element `k` of a vector register. -/
def State.vGet (s : State) (r x i ew k : Nat) : Nat := lane (s.xGet r x kLV i) ew k

/-- Replace element `k` of a vector register. -/
def State.vSet (s : State) (r x i ew k e : Nat) : State := s.xSet r x kLV i (setLane (s.xGet r x kLV i) ew k e)

/-- The code of an element width in VTYPE. -/
def ewCode (ew : Nat) : Nat := if ew = 8 then 0 else if ew = 16 then 1 else if ew = 32 then 2 else 3

/-- Elements `k` onwards, `left` of them, in ascending order: skipped where the mask is 0, until a suspension or an
exception stops the instruction. -/
def vLoop (stop : Option Nat) (active : Nat → Bool) (f : Nat → State → State × Option (Nat × Nat)) :
    Nat → Nat → State → State × XEnd
  | 0, _, s => (s, .next)
  | left + 1, k, s =>
    if stop = some k then (s, .stop k)
    else if !active k then vLoop stop active f left (k + 1) s
    else match f k s with
      | (s, none) => vLoop stop active f left (k + 1) s
      | (s, some e) => (s, .excAt k e.1 e.2)

/-- LV_RESUME returns to 0 when a vector instruction completes (R182). -/
def State.vDone (s : State) (r x : Nat) : State := s.set (LV_RESUME.INDEX r x) 0

/-- An Exeno-L instruction whose elements are handled by `f`: VL and VTYPE record it, and it starts at LV_RESUME. Only
the service context is suspended. -/
def State.vRun (s : State) (r x : Nat) (v : VArgs) (limit : Nat) (f : Nat → State → State × Option (Nat × Nat)) :
    State × XEnd :=
  let n := s.vCount r x v limit
  let s := s.setAll [(VL.VL r x, n), (VTYPE.EW r x, ewCode v.ew)]
  let k := s.get (LV_RESUME.INDEX r x)
  let y := vLoop (if x = 1 then v.stop else none) (s.vActive r x v) f (n - k) k s
  match y.2 with
  | .next => (y.1.vDone r x, .next)
  | e => (y.1, e)

/-- The elements that a register holds. -/
def vMax (ew : Nat) : Nat := vlen / ew

/-- An Exeno-L instruction without memory access. -/
def State.vInstr (s : State) (r : Nat) (hw : List HwFault) (v : VArgs) (legal : Bool)
    (f : Nat → Nat → State → State × Option (Nat × Nat)) : Host.Outcome State Fault Refusal :=
  s.instr r hw fun x s => if widthOk v.ew && legal then s.vRun r x v (vMax v.ew) (f x) else (s, .exc cILLEGAL 0)

/-- An Exeno-L memory instruction with its base in a general register. -/
def State.vMem (s : State) (r : Nat) (v : VArgs) (legal : Bool) (limit a : Nat) (hw : List HwFault)
    (f : Nat → Nat → State → State × Option (Nat × Nat)) : Host.Outcome State Fault Refusal :=
  s.instrHw r hw (fun x s => s.xGet r x kG a) fun x s =>
    if widthOk v.ew && legal then s.vRun r x v limit (f x) else (s, .exc cILLEGAL 0)

/-! ### Element-wise instructions (R176, R180) -/

/-- Whether a vector operation is a floating one. -/
def vIsF : VOp → Bool
  | .fadd | .fsub | .fmul | .ffma | .fmin | .fmax => true
  | _ => false

/-- One element of a vector operation. -/
def vLane (o : VOp) (w a b c : Nat) : Nat :=
  match o with
  | .fadd => sLane .fadd w a b c
  | .fsub => sLane .fsub w a b c
  | .fmul => sLane .fmul w a b c
  | .ffma => sLane .ffma w a b c
  | .fmin => sLane .fmin w a b c
  | .fmax => sLane .fmax w a b c
  | .add => sLane .add w a b c
  | .sub => sLane .sub w a b c
  | .mul => sLane .mul w a b c
  | .fma => a * b + c
  | .minS => sLane .minS w a b c
  | .maxS => sLane .maxS w a b c
  | .minU => sLane .minU w a b c
  | .maxU => sLane .maxU w a b c
  | .and => sLane .and w a b c
  | .or => sLane .or w a b c
  | .xor => sLane .xor w a b c
  | .shl => sLane .shl w a b c
  | .shr => sLane .shr w a b c
  | .sra => sLane .sra w a b c

/-- VECTOR_ELEMENTWISE. -/
def execVectorElementwise (r : Nat) (v : VArgs) (o : VOp) (d a b c : Nat) (s : State) (hw : List HwFault := []) :
    Host.Outcome State Fault Refusal :=
  s.vInstr r hw v (!vIsF o || fwidthOk v.ew) fun x k s =>
    let g (i : Nat) := s.vGet r x i v.ew k
    (s.vSet r x d v.ew k (vLane o v.ew (g a) (g b) (g c)), none)

/-- VDIV_VSQRT. -/
def execVdivVsqrt (r : Nat) (v : VArgs) (sqrt : Bool) (d a b : Nat) (s : State) (hw : List HwFault := []) :
    Host.Outcome State Fault Refusal :=
  s.vInstr r hw v (fwidthOk v.ew) fun x k s =>
    let f (i : Nat) := fval v.ew (s.vGet r x i v.ew k)
    (s.vSet r x d v.ew k (fcode v.ew (if sqrt then (f a).sqrt else (f a).div (f b))), none)

/-- Whether a comparison is a floating one. -/
def cmpIsF : CmpOp → Bool
  | .feq | .flt | .fle => true
  | _ => false

/-- One comparison. -/
def vCompare (o : CmpOp) (w a b : Nat) : Bool :=
  match o with
  | .feq => fcmp (· == 0) (fval w a) (fval w b)
  | .flt => fcmp (decide <| · < 0) (fval w a) (fval w b)
  | .fle => fcmp (decide <| · ≤ 0) (fval w a) (fval w b)
  | .eq => a == b
  | .ne => a != b
  | .ltS => decide (toSigned w a < toSigned w b)
  | .ltU => decide (a < b)
  | .leS => decide (toSigned w a ≤ toSigned w b)
  | .leU => decide (a ≤ b)

/-- VCMP: bits of a mask register. -/
def execVcmp (r : Nat) (v : VArgs) (o : CmpOp) (d a b : Nat) (s : State) (hw : List HwFault := []) :
    Host.Outcome State Fault Refusal :=
  s.vInstr r hw v (!cmpIsF o || fwidthOk v.ew) fun x k s =>
    let c := vCompare o v.ew (s.vGet r x a v.ew k) (s.vGet r x b v.ew k)
    (s.xSet r x kLM (d % 8) (setLane (s.xGet r x kLM (d % 8)) 1 k (ofBool c)), none)

/-- VMERGE: the first source where the selecting mask is 1, the second elsewhere. -/
def execVmerge (r : Nat) (v : VArgs) (d a b m : Nat) (s : State) (hw : List HwFault := []) :
    Host.Outcome State Fault Refusal :=
  s.vInstr r hw v true fun x k s =>
    let i := if bit (s.xGet r x kLM (m % 8)) k then a else b
    (s.vSet r x d v.ew k (s.vGet r x i v.ew k), none)

/-! ### Ordered accumulation (R181) -/

/-- VACCO: one RNE rounding per active element, from the value that the register holds. -/
def execVacco (r : Nat) (v : VArgs) (f a : Nat) (s : State) (hw : List HwFault := []) : Host.Outcome State Fault Refusal :=
  s.vInstr r hw v (fwidthOk v.ew) fun x k s =>
    (s.xSet r x kF f (fcode v.ew ((fval v.ew (s.xGet r x kF f)).add (fval v.ew (s.vGet r x a v.ew k)))), none)

/-- VIACC: elements are signed; sums wrap at 64 bits. -/
def execViacc (r : Nat) (v : VArgs) (o : IAccOp) (d a : Nat) (s : State) (hw : List HwFault := []) :
    Host.Outcome State Fault Refusal :=
  s.vInstr r hw v true fun x k s =>
    let e := ofSigned 64 (toSigned v.ew (s.vGet r x a v.ew k))
    let g := s.xGet r x kG d
    (s.xSet r x kG d (match o with
      | .sum => g + e
      | .min => minS 64 g e
      | .max => maxS 64 g e), none)

/-! ### Loads and stores (R180, R183) -/

/-- Load element `k` from an address. -/
def State.vLoadAt (s : State) (r x d ew k addr : Nat) : State × Option (Nat × Nat) :=
  match s.rowRead r x addr (ew / 8) (ew / 8) with
  | (.ok e, s) => (s.vSet r x d ew k e, none)
  | (.error c, s) => (s, some (c, addr))

/-- Store an element to an address: an access of its own, which meets the error of a poisoned word that it covers in part
(R180, R252). -/
def State.vStoreAt (s : State) (r x addr bytes e : Nat) : State × Option (Nat × Nat) :=
  match (s.storeHalf r x addr bytes).rowWrite r x addr bytes bytes e with
  | (none, s) => (s, none)
  | (some c, s) => (s, some (c, addr))

/-- Element `k` of a unit-stride access of `n`-byte elements. -/
def State.unitAt (s : State) (r x a k n : Nat) : Nat := (s.xGet r x kG a + k * n) % 2 ^ 64

/-- Element `k` of a strided access. -/
def State.strideAt (s : State) (r x a st k : Nat) : Nat := (s.xGet r x kG a + k * s.xGet r x kG st) % 2 ^ 64

/-- VLD. -/
def execVld (r : Nat) (v : VArgs) (d a : Nat) (hw : List HwFault) (s : State) : Host.Outcome State Fault Refusal :=
  s.vMem r v true (vMax v.ew) a hw fun x k s => s.vLoadAt r x d v.ew k (s.unitAt r x a k (v.ew / 8))

/-- VST. -/
def execVst (r : Nat) (v : VArgs) (d a : Nat) (hw : List HwFault) (s : State) : Host.Outcome State Fault Refusal :=
  s.vMem r v true (vMax v.ew) a hw fun x k s =>
    s.vStoreAt r x (s.unitAt r x a k (v.ew / 8)) (v.ew / 8) (s.vGet r x d v.ew k)

/-- VLDS. -/
def execVlds (r : Nat) (v : VArgs) (d a st : Nat) (hw : List HwFault) (s : State) : Host.Outcome State Fault Refusal :=
  s.vMem r v true (vMax v.ew) a hw fun x k s => s.vLoadAt r x d v.ew k (s.strideAt r x a st k)

/-- VSTS. -/
def execVsts (r : Nat) (v : VArgs) (d a st : Nat) (hw : List HwFault) (s : State) : Host.Outcome State Fault Refusal :=
  s.vMem r v true (vMax v.ew) a hw fun x k s =>
    s.vStoreAt r x (s.strideAt r x a st k) (v.ew / 8) (s.vGet r x d v.ew k)

/-- The end of a first-fault load: ACCESS or MISALIGNED at an element above 0 stops it without an exception (R183). -/
def State.probeEnd (s : State) (r x : Nat) : XEnd → State × XEnd
  | .next => (s.set (LV_FAULTLEN.COUNT r x) (s.get (VL.VL r x)), .next)
  | .excAt k c a =>
    if k ≠ 0 ∧ c ≠ cMEM_UE then ((s.set (LV_FAULTLEN.COUNT r x) k).vDone r x, .next) else (s, .excAt k c a)
  | e => (s, e)

/-- VLPROBE. -/
def execVlprobe (r : Nat) (v : VArgs) (d a : Nat) (hw : List HwFault) (s : State) : Host.Outcome State Fault Refusal :=
  s.instrHw r hw (fun x s => s.xGet r x kG a) fun x s =>
    if !widthOk v.ew then (s, .exc cILLEGAL 0)
    else
      let y := s.vRun r x v (vMax v.ew) fun k s => s.vLoadAt r x d v.ew k (s.unitAt r x a k (v.ew / 8))
      y.1.probeEnd r x y.2

/-- The formats that VLW widens (table "Exeno-L instructions"). -/
def widenFmt (f : Nat) : Bool := f == fFP16 || f == fBF16 || f == fE4M3 || f == fE5M2

/-- VLW: exact widening (R56). -/
def execVlw (r : Nat) (v : VArgs) (fmt d a : Nat) (hw : List HwFault) (s : State) : Host.Outcome State Fault Refusal :=
  s.vMem r v (fwidthOk v.ew && widenFmt fmt) (vMax v.ew) a hw fun x k s =>
    let n := fmtBytes fmt
    let addr := s.unitAt r x a k n
    match s.rowRead r x addr n n with
    | (.ok e, s) => (s.vSet r x d v.ew k (fcode v.ew (decode fmt e)), none)
    | (.error c, s) => (s, some (c, addr))

/-! ### Gather, scatter and scatter-add (R184 to R186) -/

/-- The count limit of indexed instructions. -/
def xMax (ew : Nat) : Nat := min (vlen / 32) (vMax ew)

/-- The address of element `k`: base plus a signed 32-bit index of data elements. -/
def State.indexAt (s : State) (r x a i ew k : Nat) : Nat :=
  ofSigned 64 ((s.xGet r x kG a : Int) + toSigned 32 (s.vGet r x i 32 k) * (ew / 8 : Nat))

/-- VLX. -/
def execVlx (r : Nat) (v : VArgs) (d a i : Nat) (hw : List HwFault) (s : State) : Host.Outcome State Fault Refusal :=
  s.vMem r v true (xMax v.ew) a hw fun x k s => s.vLoadAt r x d v.ew k (s.indexAt r x a i v.ew k)

/-- VSX. -/
def execVsx (r : Nat) (v : VArgs) (d a i : Nat) (hw : List HwFault) (s : State) : Host.Outcome State Fault Refusal :=
  s.vMem r v true (xMax v.ew) a hw fun x k s =>
    s.vStoreAt r x (s.indexAt r x a i v.ew k) (v.ew / 8) (s.vGet r x d v.ew k)

/-- The sum of two elements: one RNE rounding, or wrap-around. -/
def elemAdd (int : Bool) (ew a b : Nat) : Nat :=
  if int then (a + b) % 2 ^ ew else fcode ew ((fval ew a).add (fval ew b))

/-- Add an element into memory. -/
def State.addAt (s : State) (r x addr ew : Nat) (int : Bool) (e : Nat) : State × Option (Nat × Nat) :=
  let n := ew / 8
  match s.rowFault r x addr n n true with
  | some c => (s, some (c, addr))
  | none => match s.rowRead r x addr n n with
    | (.ok m, s) => s.vStoreAt r x addr n (elemAdd int ew m e)
    | (.error c, s) => (s, some (c, addr))

/-- The ordered scatter-add; it is counted when it completes. -/
def State.scatterO (s : State) (r x : Nat) (v : VArgs) (int : Bool) (d a i : Nat) : State × XEnd :=
  let y := s.vRun r x v (xMax v.ew) fun k s => s.addAt r x (s.indexAt r x a i v.ew k) v.ew int (s.vGet r x d v.ew k)
  match y.2 with
  | .next => (y.1.inc (EXN_SCATTER.ORDERED r), .next)
  | e => (y.1, e)

/-- VSXA_O. -/
def execVsxaO (r : Nat) (v : VArgs) (int : Bool) (d a i : Nat) (hw : List HwFault) (s : State) :
    Host.Outcome State Fault Refusal :=
  s.instrHw r hw (fun x s => s.xGet r x kG a) fun x s =>
    if widthOk v.ew && (int || fwidthOk v.ew) then s.scatterO r x v int d a i else (s, .exc cILLEGAL 0)

/-- The active elements of one group, each with its address and value. -/
def State.groupOf (s : State) (r x : Nat) (v : VArgs) (d a i k n : Nat) : List (Nat × Nat × Nat) :=
  ((List.range n).filter fun j => s.vActive r x v (k + j)).map fun j =>
    (k + j, s.indexAt r x a i v.ew (k + j), s.vGet r x d v.ew (k + j))

/-- The first element of a group whose access fails. -/
def State.groupFault (s : State) (r x ew : Nat) (g : List (Nat × Nat × Nat)) : Option (Nat × Nat) :=
  g.findSome? fun e =>
    match s.rowFault r x e.2.1 (ew / 8) (ew / 8) true with
    | some c => some (c, e.2.1)
    | none => match s.rowRead r x e.2.1 (ew / 8) (ew / 8) with
      | (.error c, _) => some (c, e.2.1)
      | _ => none

/-- The sums that some order of `l`, at most `n` elements, leaves from `x`. -/
def addOrders (ew : Nat) : Nat → List Nat → Nat → List Nat
  | 0, _, x => [x]
  | n + 1, l, x =>
    if l.isEmpty then [x]
    else ((List.range l.length).flatMap fun i =>
      addOrders ew n (l.eraseIdx i) (elemAdd false ew x (l.getD i 0))).eraseDups

/-- What elements that share an address combine to, in one order or another. -/
def combinations (ew : Nat) (es : List Nat) : List Nat :=
  ((List.range es.length).flatMap fun i => addOrders ew es.length (es.eraseIdx i) (es.getD i 0)).eraseDups

/-- The elements of a group are added address by address; those that share one are combined before the add, in an order
that the spec leaves open: the sum is a free value unless every order leaves the same in memory (R185). -/
def State.groupAdd (s : State) (r x ew : Nat) (int : Bool) (g : List (Nat × Nat × Nat)) : State :=
  (g.map (·.2.1)).eraseDups.foldl (fun s addr =>
    let es := (g.filter fun e => e.2.1 == addr).map (·.2.2)
    if int || es.length == 1 then es.foldl (fun s e => (s.addAt r x addr ew int e).1) s
    else
      let cs := combinations ew es
      let left := match s.rowRead r x addr (ew / 8) (ew / 8) with
        | (.ok m, _) => (cs.map (elemAdd int ew m)).eraseDups.length
        | _ => cs.length
      if left ≤ 1 then (s.addAt r x addr ew int (cs.headD 0)).1
      else
        let (v, s) := s.draw
        (s.vStoreAt r x addr (ew / 8) (v % 2 ^ ew)).1) s

/-- Aligned groups of 8 elements, from element `k` to `n`: a stop or an exception leaves LV_RESUME at a multiple of 8, also
where a handler had set it to none. -/
def State.groupLoop (s : State) (r x : Nat) (v : VArgs) (int : Bool) (d a i n : Nat) (stop : Option Nat) :
    Nat → Nat → State × XEnd
  | 0, _ => (s, .next)
  | left + 1, k =>
    if n ≤ k then (s, .next)
    else if (stop.map fun t => t / 8) = some (k / 8) then (s, .stop (k / 8 * 8))
    else
      let m := min n ((k / 8 + 1) * 8) - k
      let g := s.groupOf r x v d a i k m
      match s.groupFault r x v.ew g with
      | some e => (s, .excAt (k / 8 * 8) e.1 e.2)
      | none => (s.groupAdd r x v.ew int g).groupLoop r x v int d a i n stop left (k + m)

/-- The unordered scatter-add. -/
def State.scatterU (s : State) (r x : Nat) (v : VArgs) (int : Bool) (d a i : Nat) : State × XEnd :=
  let n := s.vCount r x v (xMax v.ew)
  let s := (s.setAll [(VL.VL r x, n), (VTYPE.EW r x, ewCode v.ew)]).ndUsed DET_ND_USED.VSXA_U
  let k := s.get (LV_RESUME.INDEX r x)
  let y := s.groupLoop r x v int d a i n (if x = 1 then v.stop else none) (n + 1) k
  match y.2 with
  | .next => (y.1.vDone r x, .next)
  | e => (y.1, e)

/-- VSXA_U: under STRICT it runs as VSXA.O (R186); otherwise its use is recorded (R316). -/
def execVsxaU (r : Nat) (v : VArgs) (int : Bool) (d a i : Nat) (hw : List HwFault) (s : State) :
    Host.Outcome State Fault Refusal :=
  s.instrHw r hw (fun x s => s.xGet r x kG a) fun x s =>
    if !(widthOk v.ew && (int || fwidthOk v.ew)) then (s, .exc cILLEGAL 0)
    else if s.is DET_MODE.STRICT then
      let y := s.scatterO r x v int d a i
      match y.2 with
      | .next => (y.1.inc (EXN_SCATTER.SERIALISED r), .next)
      | e => (y.1, e)
    else s.scatterU r x v int d a i

/-! ### Gates (R187) -/

/-- VSG: elements are converted at a gate slot and counted in its census entry; the element index is a general
register's value plus the element's number. -/
def execVsg (r : Nat) (v : VArgs) (d a i slot : Nat) (hw : List HwFault) (s : State) :
    Host.Outcome State Fault Refusal :=
  s.instrHw r hw (fun x s => s.xGet r x kG a) fun x s =>
    if !fwidthOk v.ew || decide (16 ≤ slot) || !(s.gateSlotOk r slot) then (s, .exc cILLEGAL 0)
    else
      let g := gateOf (s.get (EXN_GATE.GATE r slot))
      let n := fmtBytes g.fmt
      s.vRun r x v (vMax v.ew) fun k s =>
        let addr := s.unitAt r x a k n
        match s.rowFault r x addr n n true with
        | some c => (s, some (c, addr))
        | none =>
          let y := s.gateAll (s.get (EXN_GATE.CLASS r slot)) g (s.get (EXN_GATE.TENSOR_ID r slot))
            [((s.xGet r x kG i + k) % 2 ^ 64, fval v.ew (s.vGet r x d v.ew k))]
          y.2.vStoreAt r x addr n (y.1.headD 0)

end Sys2Proof.Machine
end

