-- ==== Sys2Proof/Machine/HostBoot.lean ====
section
/-! DEFINITION. Attestation and writing the configuration flash (R386 to R389). -/

namespace Sys2Proof.Machine

open Reg

/-! ### ATTEST (R386) -/

/-- The bytes of a report that the device key signs. -/
def State.attestBody (s : State) (x : Aon) (nonce : Nat) : List Nat :=
  leBytes 4 Config.attestMagic ++ leBytes 4 4744 ++ leBytes 32 nonce ++ leBytes 8 (s.wordAt DEV_VERSION.AREV.addr) ++
    leBytes 8 (s.wordAt DET_FW.VERSION.addr) ++ leBytes 8 (s.get TICK_STEP.STEP) ++ (List.range 8).flatMap x.meas ++
    (devIdCert x.devBody ++ List.replicate certLen 0).take certLen

/-- A signature under a private key in its padded form of 1,280 bytes. -/
def signature (sec m : List Nat) : List Nat := ((Config.falconSign sec m).map (· % 256) ++ List.replicate sigLen 0).take sigLen

/-- ATTEST. DESIGN CHOICE: notes/assumptions/22.md. -/
def execAttest (h : BcpHdr) (nonce a : Nat) (s : State) : Host.Outcome State Fault Refusal :=
  s.serve h opATTEST (fun p => field p 0 32 == nonce && field p 32 8 == a) fun r s =>
    match s.boot.aon with
    | some x =>
      if s.is CFG_STATUS.ID_FAIL || a % 64 != 0 || !inLpddr a 4744 then s.complete h opATTEST stREFUSED []
      else (s.beginLong r).updBoot fun b => { b with attest := some (a, s.attestBody x nonce) }
    | none => s.complete h opATTEST stREFUSED []

/-- ATTEST_SIGN_DONE: the report is written, and the request completes; while a provenance signature is in progress the
request waits for it. -/
def execAttestSignDone (s : State) : Host.Outcome State Fault Refusal :=
  .next (if s.det.signing.isSome then s else match s.boot.attest, s.boot.aon with
    | some (a, body), some x =>
      let report := body ++ signature x.sec body
      let s := (s.updBoot fun b => { b with attest := none }).memTraffic [(a, 4744)]
      (s.wrBytes a report).completeLong opATTEST stOK (leBytes 4 4744 ++ shake256 report)
    | _, _ => s)

/-! ### RECORD_WRITE (R387 to R389) -/

def resWritten : Nat := 0
def resHoldup : Nat := 1
def resPwrFail : Nat := 2
def resSignature : Nat := 3
def resFormat : Nat := 4
def resFlash : Nat := 5

/-- The result of checking a new item, format first (R387). -/
def checkResult (format signed : Bool) : Nat := if !format then resFormat else if !signed then resSignature else resWritten

/-- The item that a RECORD_WRITE writes, as the bytes of its target, with the target's offset, or the result that stops
it: the checks of the item's table, the signatures and the signer's permission (R376, R378, R379, R381, R382, R387).
DEDUCED: notes/assumptions/12.md. -/
def Aon.newItem (x : Aon) (kind : Nat) (b : List Nat) : Nat × FlashWrite :=
  let root := imageRoot x.image
  let w (off : Nat) (data : List Nat) : FlashWrite := { kind := kind, off := off, data := data, done := 0, powerFailed := false }
  match kind with
  | 0 =>
    let d := recordCopy 0 (recordSeqno x.dev + 1) (factorySection x.devBody ++ b)
    (checkResult (repairFormat b && decide (d.length ≤ devSize)) (repairSigner root (sectionCert b) x.owner && sectionSigned b),
      w (devOff (1 - x.devCopy)) d)
  | 1 =>
    let d := recordCopy 1 ((x.site.map recordSeqno).getD 0 + 1) b
    (checkResult (siteFormat b && decide (d.length ≤ siteSize)) (siteBodyOk root b (x.site.map fun _ => x.owner)),
      w (siteOff (1 - x.siteCopy)) d)
  | 2 =>
    (checkResult (imageFormat b && b.length == imageLen b && decide (b.length ≤ slotSize)) (imageSigned b),
      w (slotOff (1 - x.slot)) b)
  | _ => (resFormat, w 0 [])

/-- The sectors that are still to be written. -/
def FlashWrite.left (w : FlashWrite) : Nat := ceilDiv w.data.length 4096 - w.done

/-- The offset of the next sector, and what it is to hold. -/
def FlashWrite.sector (w : FlashWrite) : Nat × List Nat := (w.off + w.done * 4096, part w.data (w.done * 4096) 4096)

/-- The state of the XSPI_* pins (R373, R400, R412). -/
inductive XspiPins where
  | driven | highZ | clamped
deriving DecidableEq, Repr

/-- In reset, and in a boundary-scan test, the device does not drive the flash; from the pad clamp's latch to its release
XSPI_CS_N is held high, so that the flash sees no command. -/
def State.xspi (s : State) : XspiPins :=
  if s.is PAD_HOLD.HELD then .clamped
  else if s.inReset || s.pinControl != .device then .highZ
  else .driven

/-- The device gives the flash a command; one that does not reach it has no effect. -/
def State.flash (s : State) (f : List Host.Cell → List Host.Cell) : State :=
  if s.xspi = .driven then s.updBoot fun b => { b with flash := f b.flash } else s

/-- The write ends with a result: the request completes, OK only with RESULT 0 (R387). -/
def State.recordDone (s : State) (res : Nat) : State :=
  let s := (s.setAll [(CFG_FLASH.BUSY, 0), (CFG_FLASH.LAST_RESULT, res)]).updBoot fun b => { b with write := none }
  (s.updPwr fun p => { p with shed := false }).completeLong opRECORD_WRITE (if res = resWritten then stOK else stREFUSED) [res]

/-- E of R388 in units of 10^-10 mJ, from C in µF and V in 10 mV; below V_min it is negative. -/
def holdupE (uf v : Nat) : Int := uf * ((v : Int) * v - 3800 * 3800) * 500

/-- 2 × E_sec in µJ, from T_ERASE_MS and T_PAGE_US. -/
def holdupNeed (eraseMs pageUs : Nat) : Nat := 12 * (1000 * eraseMs + 16 * pageUs)

/-- The capacitance and times of the site record (R379). -/
def Aon.holdup (x : Aon) : Nat × Nat × Nat :=
  match x.siteBody with
  | some b => (Config.siteField b 41 % 2 ^ 32, Config.siteField b 42, Config.siteField b 43)
  | none => (0, 400, 3000)

/-- The next sector is erased if the capacitor holds enough and PWR_FAIL_N is deasserted (R388, R389). What HUP_SENSE
reads is a measurement. DESIGN CHOICE: notes/assumptions/22.md. -/
def State.startSector (s : State) (x : Aon) (w : FlashWrite) : State :=
  let (r, s) := s.draw
  let v := r % 2 ^ 16
  let (uf, er, pg) := x.holdup
  let e := holdupE uf v
  let need := holdupNeed er pg
  let s := s.setAll [(CFG_HUP.V_10MV, v), (CFG_HUP.E_MJ, min (e.toNat / 10 ^ 10) (2 ^ 24 - 1)),
    (CFG_HUP.NEED_MJ, min (need / 1000) (2 ^ 24 - 1))]
  if s.pfActive then s.recordDone resPwrFail
  else if uf = 0 ∨ e < need * 10 ^ 7 then (s.set CFG_FLASH.HOLDUP_LOW 1).recordDone resHoldup
  else s.flash fun fl => flashErase fl w.sector.1

/-- RECORD_WRITE. -/
def execRecordWrite (h : BcpHdr) (kind a len : Nat) (s : State) : Host.Outcome State Fault Refusal :=
  s.serve h opRECORD_WRITE (fun p => field p 0 1 == kind && field p 8 8 == a && field p 16 8 == len) fun r s =>
    let s := ((s.inc CFG_FLASH.WRITES).setAll [(CFG_FLASH.BUSY, 1), (CFG_FLASH.SECTORS, 0)]).beginLong r
    match s.boot.aon with
    | none => s.recordDone resFormat
    | some x =>
      if !inLpddr a len then s.recordDone resFormat
      else match s.poisonIn a len with
        | [] =>
          let s := s.memTraffic [(a, len)]
          let (res, w) := x.newItem kind (s.rdBytes a len)
          if res ≠ resWritten then s.recordDone res
          else (s.updBoot fun b => { b with write := some w }).startSector x w
        | l => (l.foldl (fun s a => s.hostPoison a) s).recordDone resFormat

/-- The last sector is written: the target is read back and verified (R387). -/
def State.verifyRecord (s : State) (w : FlashWrite) : State :=
  let (v, s) := s.draw
  let same := decide (s.xspi = .driven) && flashBytes s.boot.flash w.off w.data.length == w.data.map (· % 256)
  s.recordDone (if same && Config.flashVerify v then resWritten else resFlash)

/-- FLASH_SECTOR_DONE: the sector holds its part of the new content. After an assertion of PWR_FAIL_N no further sector is
started (R389). -/
def execFlashSectorDone (s : State) : Host.Outcome State Fault Refusal :=
  .next (match s.boot.write, s.boot.aon with
    | some w, some x =>
      let s := (s.flash fun fl => flashPut fl w.sector.1 w.sector.2).inc CFG_FLASH.SECTORS
      let w := { w with done := w.done + 1 }
      if w.powerFailed then s.recordDone resPwrFail
      else if w.left = 0 then s.verifyRecord w
      else (s.updBoot fun b => { b with write := some w }).startSector x w
    | _, _ => s)

end Sys2Proof.Machine
end

