-- ==== Sys2Proof/Machine/Dispatch.lean ====
section
/-! DEFINITION. The dispatch: one arm for each command, in the order of the spec's table of operations and events. -/

namespace Sys2Proof.Machine

/-- The effect of a command on everything but the queue. -/
def exec (i : Instr) (s : State) : Host.Outcome State Fault Refusal :=
  match i with
  | .tickCtrlLoad => Sys2Proof.Machine.execTickCtrlLoad s
  | .sealDone => Sys2Proof.Machine.execSealDone s
  | .tickSeal => Sys2Proof.Machine.execTickSeal s
  | .tickCtrlStart => Sys2Proof.Machine.execTickCtrlStart s
  | .tickCtrlHalt => Sys2Proof.Machine.execTickCtrlHalt s
  | .tickCtrlUnload => Sys2Proof.Machine.execTickCtrlUnload s
  | .tickDryStart bank => Sys2Proof.Machine.execTickDryStart bank s
  | .tickPhaseArm => Sys2Proof.Machine.execTickPhaseArm s
  | .tickPhaseStepWrite v => Sys2Proof.Machine.execTickPhaseStepWrite v s
  | .listMemoryWrite a v => Sys2Proof.Machine.execListMemoryWrite a v s
  | .descriptorPointerWrite a v => Sys2Proof.Machine.execDescriptorPointerWrite a v s
  | .kernelRegionWrite a v => Sys2Proof.Machine.execKernelRegionWrite a v s
  | .registerWrite a size v => Sys2Proof.Machine.execRegisterWrite a size v s
  | .accDebugRead p => Sys2Proof.Machine.execAccDebugRead p s
  | .rootRecWrite v => Sys2Proof.Machine.execRootRecWrite v s
  | .nop u e => Sys2Proof.Machine.execNop u e s
  | .mark u e => Sys2Proof.Machine.execMark u e s
  | .matmul e hw => Sys2Proof.Machine.execMatmul e hw s
  | .matmulComplete p q cc => Sys2Proof.Machine.execMatmulComplete p q cc s
  | .gangOn e => Sys2Proof.Machine.execGangOn e s
  | .gangOff e => Sys2Proof.Machine.execGangOff e s
  | .scarfPeer e hw => Sys2Proof.Machine.execScarfPeer e hw s
  | .arrayReserve e => Sys2Proof.Machine.execArrayReserve e s
  | .chain e hw => Sys2Proof.Machine.execChain e hw s
  | .chainComplete p cc => Sys2Proof.Machine.execChainComplete p cc s
  | .finisherReserve e => Sys2Proof.Machine.execFinisherReserve e s
  | .tableLoad e hw => Sys2Proof.Machine.execTableLoad e hw s
  | .tableLoadComplete p cc => Sys2Proof.Machine.execTableLoadComplete p cc s
  | .tap e hw => Sys2Proof.Machine.execTap e hw s
  | .kernelCall e hw => Sys2Proof.Machine.execKernelCall e hw s
  | .ret r cc hw => Sys2Proof.Machine.execRet r cc s hw
  | .callDeadline r => Sys2Proof.Machine.execCallDeadline r s
  | .serviceResume r => Sys2Proof.Machine.execServiceResume r s
  | .serviceEvent r ev => Sys2Proof.Machine.execServiceEvent r ev s
  | .integerOp r o d a b imm hw => Sys2Proof.Machine.execIntegerOp r o d a b imm s hw
  | .multiplyDivide r o d a b hw => Sys2Proof.Machine.execMultiplyDivide r o d a b s hw
  | .branch r o d a b off hw => Sys2Proof.Machine.execBranch r o d a b off s hw
  | .load r bytes sext d a off hw => Sys2Proof.Machine.execLoad r bytes sext d a off hw s
  | .store r bytes a b off hw => Sys2Proof.Machine.execStore r bytes a b off hw s
  | .floatOp r o dbl d a b c hw => Sys2Proof.Machine.execFloatOp r o dbl d a b c s hw
  | .conversion r o rnd d a hw => Sys2Proof.Machine.execConversion r o rnd d a s hw
  | .csrRead r d csr hw => Sys2Proof.Machine.execCsrRead r d csr s hw
  | .csrWrite r a csr hw => Sys2Proof.Machine.execCsrWrite r a csr s hw
  | .brk r hw => Sys2Proof.Machine.execBrk r s hw
  | .fence r hw => Sys2Proof.Machine.execFence r s hw
  | .exenoSArith r o ew d a b c hw => Sys2Proof.Machine.execExenoSArith r o ew d a b c s hw
  | .exenoSLane r o ew d a b lane hw => Sys2Proof.Machine.execExenoSLane r o ew d a b lane s hw
  | .exenoSLoadStore r isStore d a off hw => Sys2Proof.Machine.execExenoSLoadStore r isStore d a off hw s
  | .lanes r ew d hw => Sys2Proof.Machine.execLanes r ew d s hw
  | .vectorElementwise r v o d a b c hw => Sys2Proof.Machine.execVectorElementwise r v o d a b c s hw
  | .vdivVsqrt r v sqrt d a b hw => Sys2Proof.Machine.execVdivVsqrt r v sqrt d a b s hw
  | .vcmp r v o d a b hw => Sys2Proof.Machine.execVcmp r v o d a b s hw
  | .vmerge r v d a b m hw => Sys2Proof.Machine.execVmerge r v d a b m s hw
  | .vacco r v f a hw => Sys2Proof.Machine.execVacco r v f a s hw
  | .viacc r v o d a hw => Sys2Proof.Machine.execViacc r v o d a s hw
  | .vld r v d a hw => Sys2Proof.Machine.execVld r v d a hw s
  | .vst r v d a hw => Sys2Proof.Machine.execVst r v d a hw s
  | .vlds r v d a st hw => Sys2Proof.Machine.execVlds r v d a st hw s
  | .vsts r v d a st hw => Sys2Proof.Machine.execVsts r v d a st hw s
  | .vlprobe r v d a hw => Sys2Proof.Machine.execVlprobe r v d a hw s
  | .vlw r v fmt d a hw => Sys2Proof.Machine.execVlw r v fmt d a hw s
  | .vlx r v d a x hw => Sys2Proof.Machine.execVlx r v d a x hw s
  | .vsx r v d a x hw => Sys2Proof.Machine.execVsx r v d a x hw s
  | .vsxaO r v int d a x hw => Sys2Proof.Machine.execVsxaO r v int d a x hw s
  | .vsxaU r v int d a x hw => Sys2Proof.Machine.execVsxaU r v int d a x hw s
  | .vsg r v d a x slot hw => Sys2Proof.Machine.execVsg r v d a x slot hw s
  | .send e hw => Sys2Proof.Machine.execSend e hw s
  | .sendComplete p cc => Sys2Proof.Machine.execSendComplete p cc s
  | .land e => Sys2Proof.Machine.execLand e s
  | .pass e => Sys2Proof.Machine.execPass e s
  | .mover e hw => Sys2Proof.Machine.execMover e hw s
  | .moveComplete p cc => Sys2Proof.Machine.execMoveComplete p cc s
  | .norm e hw => Sys2Proof.Machine.execNorm e hw s
  | .normComplete u cc => Sys2Proof.Machine.execNormComplete u cc s
  | .normSum e hw => Sys2Proof.Machine.execNormSum e s hw
  | .updApply e hw => Sys2Proof.Machine.execUpdApply e hw s
  | .applyComplete u cc => Sys2Proof.Machine.execApplyComplete u cc s
  | .rootSeg e => Sys2Proof.Machine.execRootSeg e s
  | .gaugeSeg e => Sys2Proof.Machine.execGaugeSeg e s
  | .rootPiece g d p hw => Sys2Proof.Machine.execRootPiece g d p hw s
  | .solve e => Sys2Proof.Machine.execSolve e s
  | .solverPiece ctx adj p fab hw => Sys2Proof.Machine.execSolverPiece ctx adj p fab hw s
  | .tickBoundary => Sys2Proof.Machine.execTickBoundary s
  | .tickClose => Sys2Proof.Machine.execTickClose s
  | .stretchClose q => Sys2Proof.Machine.execStretchClose q s
  | .stretchNotice p amount dev count => Sys2Proof.Machine.execStretchNotice p amount dev count s
  | .freezeEnd => Sys2Proof.Machine.execFreezeEnd s
  | .stretchLimit => Sys2Proof.Machine.execStretchLimit s
  | .engineBusyFault u idx eng entry => Sys2Proof.Machine.execEngineBusyFault u idx eng entry s
  | .injectedError => Sys2Proof.Machine.execInjectedError s
  | .pendingErrorCheck => Sys2Proof.Machine.execPendingErrorCheck s
  | .spareSwapDone => Sys2Proof.Machine.execSpareSwapDone s
  | .checksumExchange => Sys2Proof.Machine.execChecksumExchange s
  | .checksumFrame dev key crc rgroup => Sys2Proof.Machine.execChecksumFrame dev key crc s rgroup
  | .secondExchange hw => Sys2Proof.Machine.execSecondExchange s hw
  | .repairTransferLanded key data => Sys2Proof.Machine.execRepairTransferLanded key data s
  | .commit hw => Sys2Proof.Machine.execCommit hw s
  | .reshardPermutation hw => Sys2Proof.Machine.execReshardPermutation s hw
  | .permutationDone ins => Sys2Proof.Machine.execPermutationDone ins s
  | .permutationTimeout => Sys2Proof.Machine.execPermutationTimeout s
  | .phaseChange => Sys2Proof.Machine.execPhaseChange s
  | .inputResidencyCheck => Sys2Proof.Machine.execInputResidencyCheck s
  | .barrierGather p act v => Sys2Proof.Machine.execBarrierGather p act v s
  | .barrierRelease act v => Sys2Proof.Machine.execBarrierRelease act v s
  | .squareUpGather p t => Sys2Proof.Machine.execSquareUpGather p t s
  | .squareUpGo g => Sys2Proof.Machine.execSquareUpGo g s
  | .tickZero => Sys2Proof.Machine.execTickZero s
  | .glueUpWatchdog => Sys2Proof.Machine.execGlueUpWatchdog s
  | .haltNotice p e => Sys2Proof.Machine.execHaltNotice p e s
  | .queuedError => Sys2Proof.Machine.execQueuedError s
  | .errLogClear => Sys2Proof.Machine.execErrLogClear s
  | .errCntClear => Sys2Proof.Machine.execErrCntClear s
  | .errCtrlCommit hw => Sys2Proof.Machine.execErrCtrlCommit hw s
  | .errSwap pc => Sys2Proof.Machine.execErrSwap pc s
  | .errInjectArm v => Sys2Proof.Machine.execErrInjectArm v s
  | .updRegen => Sys2Proof.Machine.execUpdRegen s
  | .regenDone hw => Sys2Proof.Machine.execRegenDone hw s
  | .updExportArm => Sys2Proof.Machine.execUpdExportArm s
  | .updExportStepWrite v => Sys2Proof.Machine.execUpdExportStepWrite v s
  | .fabPermArm => Sys2Proof.Machine.execFabPermArm s
  | .fabPermCancel => Sys2Proof.Machine.execFabPermCancel s
  | .lnkTrain p => Sys2Proof.Machine.execLnkTrain p s
  | .linkTrainDone p t => Sys2Proof.Machine.execLinkTrainDone p t s
  | .lnkRestore p => Sys2Proof.Machine.execLnkRestore p s
  | .syntSourceWrite v => Sys2Proof.Machine.execSyntSourceWrite v s
  | .syntSourceLoss => Sys2Proof.Machine.execSyntSourceLoss s
  | .holdoverTimeout => Sys2Proof.Machine.execHoldoverTimeout s
  | .clkRateWrite v => Sys2Proof.Machine.execClkRateWrite v s
  | .pllRelockDone => Sys2Proof.Machine.execPllRelockDone s
  | .detMeasure => Sys2Proof.Machine.execDetMeasure s
  | .measureDone hw => Sys2Proof.Machine.execMeasureDone hw s
  | .detProvSnap => Sys2Proof.Machine.execDetProvSnap s
  | .provenanceSignDone => Sys2Proof.Machine.execProvenanceSignDone s
  | .padHoldRelease => Sys2Proof.Machine.execPadHoldRelease s
  | .pwrResetWarm => Sys2Proof.Machine.execPwrResetWarm s
  | .frameArrive p cc f => Sys2Proof.Machine.execFrameArrive p cc f s
  | .ackReceive p seq => Sys2Proof.Machine.execAckReceive p seq s
  | .nakReceive p seq => Sys2Proof.Machine.execNakReceive p seq s
  | .linkAckTimeout p => Sys2Proof.Machine.execLinkAckTimeout p s
  | .replayExhausted p => Sys2Proof.Machine.execReplayExhausted p s
  | .laneLockLoss p => Sys2Proof.Machine.execLaneLockLoss p s
  | .partnerLoss p => Sys2Proof.Machine.execPartnerLoss p s
  | .berWarn p corr => Sys2Proof.Machine.execBerWarn p corr s
  | .squpInEdge cc width => Sys2Proof.Machine.execSqupInEdge cc width s
  | .squpInStuck => Sys2Proof.Machine.execSqupInStuck s
  | .veneerScrub p f passEnd => Sys2Proof.Machine.execVeneerScrub p f passEnd s
  | .lpddrScrub c a f passEnd => Sys2Proof.Machine.execLpddrScrub c a f passEnd s
  | .mr4Over c mult => Sys2Proof.Machine.execMr4Over c mult s
  | .veneerInitDone => Sys2Proof.Machine.execVeneerInitDone s
  | .lpddrReady c pkg0 pkg1 => Sys2Proof.Machine.execLpddrReady c pkg0 pkg1 s
  | .ethFrameDropped => Sys2Proof.Machine.execEthFrameDropped s
  | .arpRequest eth ip target => Sys2Proof.Machine.execArpRequest eth ip target s
  | .neighbourSolicitation eth ip target => Sys2Proof.Machine.execNeighbourSolicitation eth ip target s
  | .echoRequest eth ip v6 data => Sys2Proof.Machine.execEchoRequest eth ip v6 data s
  | .pfcPause prio quanta => Sys2Proof.Machine.execPfcPause prio quanta s
  | .rdmaWrite w => Sys2Proof.Machine.execRdmaWrite w s
  | .rdmaRead w hw => Sys2Proof.Machine.execRdmaRead w hw s
  | .hostSend qpn psn f => Sys2Proof.Machine.execHostSend qpn psn s f
  | .roceAck qpn psn f => Sys2Proof.Machine.execRoceAck qpn psn s f
  | .roceNak qpn psn code f => Sys2Proof.Machine.execRoceNak qpn psn code s f
  | .roceAckTimeout qpn => Sys2Proof.Machine.execRoceAckTimeout qpn s
  | .cnpReceive h => Sys2Proof.Machine.execCnpReceive h s
  | .bcpDatagram d => Sys2Proof.Machine.execBcpDatagram d s
  | .hello h lo hi => Sys2Proof.Machine.execHello h lo hi s
  | .bye h => Sys2Proof.Machine.execBye h s
  | .regRead h a n => Sys2Proof.Machine.execRegRead h a n s
  | .regWrite h a vs => Sys2Proof.Machine.execRegWrite h a vs s
  | .setupCopy h src dst n => Sys2Proof.Machine.execSetupCopy h src dst n s
  | .jobLoad h step => Sys2Proof.Machine.execJobLoad h step s
  | .jobStart h => Sys2Proof.Machine.execJobStart h s
  | .jobHalt h => Sys2Proof.Machine.execJobHalt h s
  | .jobUnload h => Sys2Proof.Machine.execJobUnload h s
  | .dryFit h bank => Sys2Proof.Machine.execDryFit h bank s
  | .inputReady h step b len => Sys2Proof.Machine.execInputReady h step b len s
  | .outboxBind h qpn a rkey ring => Sys2Proof.Machine.execOutboxBind h qpn a rkey ring s
  | .qpCreate h q => Sys2Proof.Machine.execQpCreate h q s
  | .qpDestroy h qpn => Sys2Proof.Machine.execQpDestroy h qpn s
  | .subscribe h q => Sys2Proof.Machine.execSubscribe h q s
  | .eventAck h ev => Sys2Proof.Machine.execEventAck h ev s
  | .stop h => Sys2Proof.Machine.execStop h s
  | .recordWrite h kind a len => Sys2Proof.Machine.execRecordWrite h kind a len s
  | .flashSectorDone => Sys2Proof.Machine.execFlashSectorDone s
  | .attest h nonce a => Sys2Proof.Machine.execAttest h nonce a s
  | .attestSignDone => Sys2Proof.Machine.execAttestSignDone s
  | .sessionIdleTimeout id => Sys2Proof.Machine.execSessionIdleTimeout id s
  | .eventResend => Sys2Proof.Machine.execEventResend s
  | .powerOn => Sys2Proof.Machine.execPowerOn s
  | .porRelease => Sys2Proof.Machine.execPorRelease s
  | .brownOut => Sys2Proof.Machine.execBrownOut s
  | .railFault rail => Sys2Proof.Machine.execRailFault rail s
  | .rstNAssert => Sys2Proof.Machine.execRstNAssert s
  | .rstNRelease w prog => Sys2Proof.Machine.execRstNRelease w s prog
  | .rstNStuck => Sys2Proof.Machine.execRstNStuck s
  | .configurationDone lost => Sys2Proof.Machine.execConfigurationDone s lost
  | .pwrFailAssert short => Sys2Proof.Machine.execPwrFailAssert s short
  | .pwrFailRelease => Sys2Proof.Machine.execPwrFailRelease s
  | .pwrFailStuck => Sys2Proof.Machine.execPwrFailStuck s
  | .powerAverage watts => Sys2Proof.Machine.execPowerAverage watts s
  | .thermalSample ts => Sys2Proof.Machine.execThermalSample ts s
  | .thermHot => Sys2Proof.Machine.execThermHot s
  | .smbAddressMatch addr => Sys2Proof.Machine.execSmbAddressMatch addr s
  | .wakeDone => Sys2Proof.Machine.execWakeDone s
  | .stopEntryDone => Sys2Proof.Machine.execStopEntryDone s
  | .smbStatus => Sys2Proof.Machine.execSmbStatus s
  | .smbStop pec => Sys2Proof.Machine.execSmbStop pec s
  | .smbWarmReset pec => Sys2Proof.Machine.execSmbWarmReset pec s
  | .smbAlertResponse => Sys2Proof.Machine.execSmbAlertResponse s
  | .sclStuck ns => Sys2Proof.Machine.execSclStuck s ns
  | .sdaStuck ns => Sys2Proof.Machine.execSdaStuck s ns
  | .extest d => Sys2Proof.Machine.execExtest s d
  | .samplePreload d => Sys2Proof.Machine.execSamplePreload d s
  | .idcode => Sys2Proof.Machine.execIdcode s
  | .clamp => Sys2Proof.Machine.execClamp s
  | .highZ => Sys2Proof.Machine.execHighZ s
  | .extestPulse d => Sys2Proof.Machine.execExtestPulse s d
  | .extestTrain d => Sys2Proof.Machine.execExtestTrain s d
  | .bypass => Sys2Proof.Machine.execBypass s
  | .trstN => Sys2Proof.Machine.execTrstN s
  | .tapComplete p cc => Sys2Proof.Machine.execTapComplete p cc s
  | .normSumComplete u cc => Sys2Proof.Machine.execNormSumComplete u cc s
  | .setupCopyDone => Sys2Proof.Machine.execSetupCopyDone s
  | .refclkLoss present => Sys2Proof.Machine.execRefclkLoss present s
  | .ethLinkDown => Sys2Proof.Machine.execEthLinkDown s
  | .mr4ConditionEnds c mult => Sys2Proof.Machine.execMr4ConditionEnds c mult s
  | .squpInFall => Sys2Proof.Machine.execSqupInFall s
  | .partnerTrainingRequest p => Sys2Proof.Machine.execPartnerTrainingRequest p s
  | .cumulativeAck p => Sys2Proof.Machine.execCumulativeAck p s
  | .pushRateRestore qpn => Sys2Proof.Machine.execPushRateRestore qpn s

end Sys2Proof.Machine
end

