-- ==== Sys2Proof/Safety.lean ====
section
/-! DEFINITION. What a safe state is, in the terms that the claims use: memory, register fields and row registers in
their one canonical form, so that equal contents are equal data; and the phrases in which the claims say what a
command needs and what it leaves alone. -/

namespace Sys2Proof.Machine

/-- Memory, register fields and row registers are canonical: keys rise strictly, no byte of memory is listed as 0, and
no row register is listed as 0. -/
def Canon (mem : List Host.Cell) (flds xr : List (Nat × Nat)) : Prop :=
  Memory.wf mem = true ∧ Store.sorted flds = true ∧ (Store.sorted xr && xr.all fun e => e.2 != 0) = true

/-- The invariant of the device. -/
def State.Inv (s : State) : Prop := Canon s.mem s.flds s.xr

/-! ### What a command leaves alone -/

/-- `t` differs from `s` at most in the register fields of a list. -/
def OnlyFields (s t : State) (l : List Fld) : Prop :=
  { t with flds := s.flds } = s ∧ ∀ g : Fld, g.key ∉ l.map Fld.key → t.get g = s.get g

/-- `t` differs from `s` at most in the row registers with the keys of a list. -/
def OnlyRowRegs (s t : State) (l : List Nat) : Prop :=
  { t with xr := s.xr } = s ∧ ∀ k, k ∉ l → Store.get t.xr 0 k = Store.get s.xr 0 k

/-- Every byte outside the ranges of a list reads as before. -/
def BytesKept (s t : State) (rs : List (Nat × Nat)) : Prop :=
  ∀ x, (∀ r ∈ rs, x < r.1 ∨ r.1 + r.2 ≤ x) → Memory.read t.mem x = Memory.read s.mem x

/-! ### What a command needs -/

/-- Every child of the spanning tree has sent its gather of the square-up. -/
def State.allGathered (s : State) : Bool := s.children.all fun p => s.tick.gathers.any fun g => g.1 == p

/-- It is the turn of a list entry: a step runs, a tick is open and not frozen, the entry's unit exists and, if it is a
cluster, holds a logical id (R22), the entry belongs to the open tick, and its START_CC lies in the work window and has
not passed (R15, R17). -/
def Turn (s : State) (u : UnitKind) (i : Issue) : Prop :=
  i.idx < u.count ∧ (u = .cluster → s.isActive i.idx = true) ∧ s.running = true ∧ s.tick.inTick = true ∧
    s.tick.freeze = 0 ∧ i.tick = s.get Reg.TICK_STATUS.TICK_IN_STEP ∧ s.tick.cc ≤ i.startCc ∧
    i.startCc < s.tickLen - s.kerf

/-- The engine is idle at a cycle: no entry runs on it whose completion has yet to come or whose declared interval has
yet to end (R27). -/
def Idle (s : State) (u : UnitKind) (idx eng cc : Nat) : Prop :=
  ∀ b, s.busyRec u idx eng = some b → b.waits = false ∧ b.endCc ≤ cc

/-- It is the turn of an entry, and its engine is idle: the entry issues (R15, R17, R22, R27). -/
def Ready (s : State) (u : UnitKind) (eng : Nat) (i : Issue) : Prop := Turn s u i ∧ Idle s u i.idx eng i.startCc

/-- The state in which an entry that has issued does its work: its cycle has come, and it occupies its engine. -/
def State.entered (s : State) (u : UnitKind) (eng : Nat) (i : Issue) (waits : Bool) : State :=
  (s.atCc i.startCc).occupy u eng i waits

/-- The engine is occupied by an entry over its declared interval; `waits` says that it stays so until its completion.
-/
def Occupied (t : State) (u : UnitKind) (eng : Nat) (i : Issue) (waits : Bool) : Prop :=
  ∃ b, t.busyRec u i.idx eng = some b ∧ b.entry = i.entry ∧ b.endCc = i.startCc + i.busyCc ∧ b.waits = waits

/-- BUSY has halted the slice at an entry, which has not run: TICK_FAULT names it, and memory is as it was (R27, R340). -/
def BusyHalt (s t : State) (u : UnitKind) (i : Issue) : Prop :=
  t.job = 3 ∧ t.mem = s.mem ∧ t.tick.inTick = false ∧ t.get Reg.TICK_FAULT.CODE = 0x10 ∧
    t.get Reg.TICK_FAULT.UNIT_CLASS = u.code % 2 ^ Reg.TICK_FAULT.UNIT_CLASS.width ∧
    t.get Reg.TICK_FAULT.UNIT_INDEX = i.idx % 2 ^ Reg.TICK_FAULT.UNIT_INDEX.width ∧
    t.get Reg.TICK_FAULT.ENTRY = i.entry % 2 ^ Reg.TICK_FAULT.ENTRY.width ∧
    t.get Reg.ERR_COUNT1.FATAL_SLICE = min (s.get Reg.ERR_COUNT1.FATAL_SLICE + 1) (2 ^ 32 - 1)

/-! ### What the engines compute and store -/

/-- It is the turn of an array entry, and the engine it runs on is idle: the whole array (engine 1), or one quadrant
while the whole array is idle too (R75, R79, R88). -/
def ArrReady (s : State) (eng : Nat) (i : Issue) : Prop :=
  Turn s .cluster i ∧ Idle s .cluster i.idx eng i.startCc ∧ Idle s .cluster i.idx 1 i.startCc ∧
    (eng = 1 → ∀ q, q < 4 → Idle s .cluster i.idx (16 + q) i.startCc)

/-- An offset lies in what an operation stores in C's space: the rows of its batch items and, for an MX format, their
scale bytes (R72, R73). -/
def Op.stores (o : Op) (off : Nat) : Prop :=
  let d := o.me.d
  let g := gateOf d.gate
  let rowBytes := if isMx g.fmt then ceilDiv d.n 32 * (4 * fmtBits g.fmt) else d.n * fmtBytes g.fmt
  ∃ item < d.batch, ∃ m < d.m,
    let base := d.cOff + item * d.cBstr * 64
    (base + m * d.ldc ≤ off ∧ off < base + m * d.ldc + rowBytes) ∨
    (isMx g.fmt = true ∧ mxScaleOff base d.m d.n d.ldc g.fmt + m * ceilDiv d.n 32 ≤ off ∧
      off < mxScaleOff base d.m d.n d.ldc g.fmt + (m + 1) * ceilDiv d.n 32)

/-- The bytes from one row of a drained block's totals to the next in an accumulator half: as many totals as the
member's tile is wide (R116). -/
def Op.rowPitch (o : Op) (b : Drained) : Nat :=
  min o.me.d.n (tileWidth (opClass o.me.d.aFmt) o.me.d.shape) * totalBytes b.out.fmt

/-- What an array operation leaves: the totals of its last block, row by row, in the accumulators, and every byte as it
was outside the accumulators of its blocks and what it stores through C's space. -/
def OpDone (s t : State) (o : Op) : Prop :=
  (∀ b, o.drains = true → (s.formBlocks o).getLast? = some b → ∀ r, r < b.rows.length → ∀ l,
    l = totalsBytes b.out.fmt ((b.out.totals.drop (r * b.cols.length)).take b.cols.length) →
    t.rdBytes (accOff o.me.p o.quad b.half + r * o.rowPitch b) l.length = l) ∧
  (∀ x, (∀ b ∈ s.formBlocks o, x < accOff o.me.p o.quad b.half ∨
      accOff o.me.p o.quad b.half + b.rows.length * o.rowPitch b ≤ x) →
    (∀ off, o.stores off → s.spaceAddr o.me.p o.me.d.cSpace off 1 ≠ some x) →
    Memory.read t.mem x = Memory.read s.mem x)

/-- An address lies in a space that a stream slot of a chain names (R125). -/
def State.chainSpaces (s : State) (p ch x : Nat) : Prop :=
  ∃ k ∈ (s.chainDesc p ch).slots, k ≠ 0xFFFF ∧ ∃ off : Nat, s.spaceAddr p (s.stream p k).space off 1 = some x

/-- A value is the whole number `z`. -/
def Val.isWhole (v : Val) (z : Int) : Prop :=
  ∃ n m e, v = .fin n m e ∧ Val.sgn n m * 2 ^ e.toNat = z * 2 ^ (-e).toNat

/-- A descriptor of the plainest matrix product: one cluster's whole array, 16-bit operands and FP32 results by row in the
cluster's own region, each row within its stride and each matrix within the region, no jig, chain or epilogue, and at most 4,096
positions of K (R67, R68, R71, R72, R80, R102). -/
def ArrDesc.plain (d : ArrDesc) : Prop :=
  d.shape = 0 ∧ opClass d.aFmt = 0 ∧ opClass d.bFmt = 0 ∧ d.aSpace = 0 ∧ d.bSpace = 0 ∧ d.cSpace = 0 ∧ d.aT = false ∧
    d.bT = false ∧ d.jig = false ∧ d.accIn = false ∧ d.accHold = false ∧ d.wide = false ∧ d.epi = 0 ∧ d.batch = 1 ∧
    0 < d.mBlk ∧ d.k ≤ 4096 ∧ (gateOf d.gate).fmt = fFP32 ∧ (gateOf d.gate).rnd = 0 ∧
    2 * d.k ≤ d.lda ∧ 2 * d.n ≤ d.ldb ∧ 4 * d.n ≤ d.ldc ∧ d.aOff + d.m * d.lda ≤ veneerSize ∧
    d.bOff + d.k * d.ldb ≤ veneerSize ∧ d.cOff + d.m * d.ldc ≤ veneerSize

/-- An engine that waits for its completion is running an entry with these notes, and no freeze pauses it (R18). -/
def Waiting (s : State) (u : UnitKind) (idx eng : Nat) (info : List Nat) : Prop :=
  s.tick.freeze = 0 ∧ ∃ b, s.busyRec u idx eng = some b ∧ b.waits = true ∧ b.info = info

/-- A counter of a field's width saturates. -/
def sat (f : Fld) (n : Nat) : Nat := min n (2 ^ f.width - 1)

/-- Row `r` executes in context `x`: the device is powered, out of reset, configured and not dead, no freeze pauses it (R18), and a
kernel runs in the list context (0) or the service context (1) runs (R170, R171). -/
def RowIn (s : State) (r x : Nat) : Prop :=
  r < 64 ∧ s.dead = false ∧ s.awake = true ∧ s.boot.configuring = false ∧ s.tick.freeze = 0 ∧
    ((x = 0 ∧ s.get (Reg.EXN_STATUS.CTX r) = 1 ∧ (s.row r).call.isSome = true) ∨
      (x = 1 ∧ s.get (Reg.EXN_STATUS.CTX r) = 2))

/-- Row `r` executes an instruction in context `x`: its instruction address is a multiple of 4 in the kernel region of
the running bank, or in the firmware region (R172, R175). -/
def RowRuns (s : State) (r x : Nat) : Prop :=
  RowIn s r x ∧ s.pc r x % 4 = 0 ∧
    (x = 0 → 0x20000 + s.runBank * 0x10000 ≤ s.pc r x ∧ s.pc r x < 0x30000 + s.runBank * 0x10000) ∧
    (x = 1 → s.pc r x < 0x20000)

/-- An address takes no write of a register: it is unaligned or outside the address space, holds no register, is a hole,
or lies in LPDDR where the host may not write now (R9, R246, R363). -/
def State.refusesWord (s : State) (a : Nat) : Bool :=
  decide (a % 8 ≠ 0 ∨ 2 ^ 48 ≤ a) || match regionOf s.active a with
    | .csr => (fieldsAt a).isEmpty
    | .lpddr => !s.windowWriteOk a 8
    | .hole => true
    | _ => false

/-- The fields of a register that a plain write changes: RW takes its bits, and a 1 clears a bit of W1C (R10). -/
def plainFields (a : Nat) : List Fld := (fieldsAt a).filter fun f => f.acc == .rw || f.acc == .w1c

/-- An address holds a register without a rule of its own, none of whose fields acts or is locked: each is RW, RO or W1C
(R9, R10). -/
def State.plainWord (s : State) (a : Nat) : Prop :=
  a % 8 = 0 ∧ a < 2 ^ 48 ∧ regionOf s.active a = .csr ∧ fieldsAt a ≠ [] ∧ (∀ v, s.ownRule a v = none) ∧
    (∀ f ∈ fieldsAt a, f.acc = .rw ∨ f.acc = .ro ∨ f.acc = .w1c) ∧ ((fieldsAt a).map Fld.key).Nodup

/-- What the device routes by its tables to a device of its slice leaves by port `o` (R282, R283, R298). -/
def Routed (s : State) (dev o : Nat) : Prop :=
  s.get (Reg.LNK_RTBL.OUT (Config.ownTable % 8) (dev / 8) (dev % 8)) < 8 ∧
    s.egress (s.get (Reg.LNK_RTBL.OUT (Config.ownTable % 8) (dev / 8) (dev % 8)))
      (s.get (Reg.LNK_RTBL.ALT (Config.ownTable % 8) (dev / 8) (dev % 8))) = some o ∧
    s.carries o (s.get Reg.FAB_SLICE.ID) = true

/-- A request stands at the front of the queue with its payload, and the management core executes it (R359, R360,
R362). -/
def Served (s : State) (h : BcpHdr) (op : Nat) (p : List Nat) : Prop :=
  (∃ q, s.host.queue = ⟨h, op, p⟩ :: q) ∧ s.serves op = true ∧ (s.sessionOf h).isSome = true ∧ jobPermits op s.job = true

/-- A completion was sent since `s` (R359). -/
def CompletionSent (s t : State) (h : BcpHdr) (op status : Nat) (p : List Nat) : Prop :=
  ∃ l e, t.out = s.out ++ l ∧ e.dst = h.src.mac ∧
    Msg.eth e (.bcp h.src.ip h.src.port (completionBytes h op h.session status p)) ∈ l

/-- The request at the front has left the queue, and no other one (R359). -/
def LeftQueue (s t : State) : Prop := t.host.queue = s.host.queue.drop 1

/-- A packet of an existing queue pair that is not in error, without a congestion mark, arrives at a port that is up, at
the device's address, with the tag that ETH_CFG requires and an IP version that is enabled (R355, R356). -/
def Arrives (s : State) (h : RoceHdr) (q : Qp) : Prop :=
  s.ethUp = true ∧ s.headerOk h.eth (fun _ => false) = true ∧ s.qp h.qpn = some q ∧
    s.is (if isV6 q.args.rgid then Reg.ETH_CFG.IPV6_EN else Reg.ETH_CFG.IPV4_EN) = true ∧ q.error = false ∧ h.ce = false

/-! ### What an instruction of a row controller leaves -/

/-- What no instruction of row `r` that ends without an exception changes: anything but registers of the row, memory,
the traffic counters, the census, the record of nondeterministic options and free values. -/
def RowKept (s t : State) (r : Nat) : Prop :=
  { t with xr := s.xr, flds := s.flds, mem := s.mem, poison := s.poison, freeCtr := s.freeCtr, census := s.census } = s ∧
    ∀ g : Fld, g.lo < 64 → (g.addr < exnBase r ∨ exnBase r + 0x10000 ≤ g.addr) →
      (g.addr < csrBase r 0 ∨ csrBase r 0 + 0x20000 ≤ g.addr) → (g.addr < 0x030050000000 ∨ 0x030058000000 ≤ g.addr) →
      g.addr ≠ Reg.DET_ND_USED.SRE.addr → t.get g = s.get g

/-- Row `r` has written `v`, cut to the register's width, to one register of context `x` and goes on with the next
instruction; g0 stays 0. Nothing else changes. -/
def RegResult (s t : State) (r x k d v : Nat) : Prop :=
  t.xGet r x k d = (if k = kG ∧ d = 0 then 0 else v % 2 ^ xBits k) ∧ t.pc r x = (s.pc r x + 4) % 2 ^ 18 ∧
    OnlyRowRegs s t [xKey r x k d, xKey r x kPC 0]

/-- An Exeno-L instruction of a legal element width runs, and nothing suspends it (R179, R182). -/
def VecRuns (s : State) (r x : Nat) (v : VArgs) : Prop := RowRuns s r x ∧ widthOk v.ew = true ∧ (x = 0 ∨ v.stop = none)

/-- Element `k` takes part: from LV_RESUME on, below the count, with its mask bit set (R179, R180, R182). -/
def State.partakes (s : State) (r x : Nat) (v : VArgs) (limit k : Nat) : Bool :=
  decide (s.get (Reg.LV_RESUME.INDEX r x) ≤ k) && decide (k < s.vCount r x v limit) && s.vActive r x v k

/-- An Exeno-L instruction has completed: the next one follows, VL and VTYPE record it, LV_RESUME is 0, and row
registers outside a list keep their values. -/
def VecDone (s t : State) (r x : Nat) (v : VArgs) (limit : Nat) (regs : List Nat) : Prop :=
  t.pc r x = (s.pc r x + 4) % 2 ^ 18 ∧ t.get (Reg.LV_RESUME.INDEX r x) = 0 ∧
    t.get (Reg.VL.VL r x) = s.vCount r x v limit % 2 ^ (Reg.VL.VL r x).width ∧ t.get (Reg.VTYPE.EW r x) = ewCode v.ew ∧
    (∀ q, q ∉ xKey r x kPC 0 :: regs → Store.get t.xr 0 q = Store.get s.xr 0 q) ∧ RowKept s t r

/-- An access of `n` bytes at an address of a row's view reaches memory at `m`: aligned, permitted, and it meets no
uncorrectable error: nothing poisoned there, but for a write what it covers whole or what lies in LPDDR. -/
def State.reaches (s : State) (r x a n : Nat) (write : Bool) (m : Nat) : Prop :=
  a % n = 0 ∧ s.view r x a n write = .mem m ∧
    ∀ w ∈ s.poisonIn m n, write = true ∧ (w < lpddrEnd ∨ coversWord m n w = true)

/-- The addresses of a memory instruction's elements reach memory at `place k`. -/
def State.allReach (s : State) (r x : Nat) (v : VArgs) (limit n : Nat) (write : Bool) (addr place : Nat → Nat) : Prop :=
  ∀ k, s.partakes r x v limit k = true → s.reaches r x (addr k) n write (place k)

/-- Two ranges, each an address and a length, do not meet. -/
def RangesApart (a b : Nat × Nat) : Prop := a.1 + a.2 ≤ b.1 ∨ b.1 + b.2 ≤ a.1

/-- The places that a list of permutation entries names on this device itself (R296). -/
def State.localDsts (s : State) (E : List PermEntry) : List (Nat × Nat) :=
  E.filterMap fun e => if e.dev = s.get Reg.FAB_ID.DEV then (s.endRange e.dstV e.dst e.bytes).map fun a => (a, e.bytes) else none

/-- The places that arriving bytes of a permutation are for (R296). -/
def State.inDsts (s : State) (ins : List PermIn) : List (Nat × Nat) :=
  ins.filterMap fun x => (s.endRange x.veneer x.addr x.data.length).map fun a => (a, x.data.length)

/-- Every arrival comes by a port that is up and carries the device's slice (R282, R283). -/
def State.arrivesIn (s : State) (ins : List PermIn) : Prop :=
  ∀ x ∈ ins, x.port < 8 ∧ s.get (Reg.LNK_STATUS.STATE x.port) = 2 ∧ s.carries x.port (s.get Reg.FAB_SLICE.ID) = true

/-- A data frame with these contents has left by port `o`, or waits for the window of that port (R268, R269). -/
def FrameSent (t : State) (o dev off : Nat) (bytes : List Nat) : Prop :=
  ∃ f : Frame, (Msg.frame o f ∈ t.out ∨ f ∈ (t.link o).held) ∧ f.ctrl = false ∧ f.dst = dev ∧ f.offset = off ∧ f.payload = bytes

/-- What the replicas of a shard hold, as far as this device has heard (R294). -/
def State.replicaCrcs (s : State) (x : ChkSlot) : List (Nat × Nat) :=
  (s.get Reg.FAB_ID.DEV, x.crc) :: (s.peersOf x).filterMap fun d => (s.peerCrc d x.rgroup x.key).map fun c => (d, c)

/-- Two ranges of `n` bytes do not meet. -/
def Apart (n a b : Nat) : Prop := a + n ≤ b ∨ b + n ≤ a

end Sys2Proof.Machine
end

