-- ==== Sys2Proof/Certificates/Slice0/Obligations.lean ====
section
/-! DEFINITION. The statements about the device: what the commands do, by family, what they leave alone, and the
invariant that every step keeps. Fields may hold any number in a state that no run reaches, so a claim about a field
that takes another field's value says how it is cut to its width. -/

open Sys2Proof Sys2Proof.Machine Sys2Proof.Machine.Reg

/-! ### The block as a whole -/

/-- A step takes the command at the front of the queue: it is `exec` of that command on the state with the queue's
rest. With no command waiting a step lets one core cycle pass and changes nothing else. The model's choice:
notes/assumptions/1.md. -/
def Obligations.StepRunsTheFrontCommandOrIdles : Prop :=
  (∀ (s : State) (c : Instr) (rest : List Instr), s.pending = c :: rest → step s = exec c { s with pending := rest }) ∧
  (∀ s : State, s.pending = [] →
      ∃ t, step s = .next t ∧ t.tick.now = s.tick.now + 1 ∧ { t with tick := s.tick } = s ∧
        { t.tick with now := s.tick.now } = s.tick)

/-- Every step keeps memory, register fields and row registers in their one canonical form. -/
def Obligations.EveryStepKeepsTheCanonicalForm : Prop :=
  ∀ s t : State, s.Inv → step s = .next t → t.Inv

/-- No command changes the queue of waiting commands. -/
def Obligations.CommandsLeaveTheQueueAlone : Prop :=
  ∀ (c : Instr) (s t : State), exec c s = .next t → t.pending = s.pending

/-- After reset every register field holds its reset value, no job is loaded, no bank is sealed, memory reads 0, no
engine runs, no message has been sent and no command waits. What memory reads that the spec gives no reset contents is
the model's choice: notes/assumptions/4.md. The state after reset is canonical. -/
def Obligations.ResetIsCanonicalAndAtResetValues : Prop :=
  ((∀ f : Fld, State.reset.get f = f.reset) ∧ State.reset.job = 0 ∧ State.reset.tick.loaded = false ∧
      State.reset.sealA = none ∧ State.reset.sealB = none ∧ (∀ a, Memory.read State.reset.mem a = 0) ∧
      State.reset.tick.busy = [] ∧ State.reset.out = [] ∧ State.reset.pending = []) ∧
  (State.reset.Inv)

/-! ### The register window -/

/-- A whole-word write of a register of RW fields stores every field, answers without error and nothing else changes.
-/
def Obligations.RegisterWriteStoresEveryField : Prop :=
  ∀ (s : State) (a v : Nat), s.accepts = true → a % 8 = 0 → fieldsAt a ≠ [] → s.ownRule a v = none →
    (∀ f ∈ fieldsAt a, f.acc = .rw) → ((fieldsAt a).map Fld.key).Nodup →
    ∃ t, exec (.registerWrite a 8 v) s = .next t ∧ t.resp = ⟨true, 0⟩ ∧ (∀ f ∈ fieldsAt a, t.get f = f.of v) ∧
      OnlyFields s.okay t (fieldsAt a)

/-- An access of another size than 8 bytes, at an address that is not a multiple of 8, or where no register stands has
no effect and answers an error. A device that has met a fatal-to-device error, whose boot has failed, that is in reset or whose core rails are off
accepts no write: every command of the register window but reads and reset changes nothing and answers an error. -/
def Obligations.RefusedRegisterWritesHaveNoEffect : Prop :=
  (∀ (s : State) (a size v : Nat), s.accepts = true → (size ≠ 8 ∨ a % 8 ≠ 0 ∨ fieldsAt a = []) →
      exec (.registerWrite a size v) s = .next s.denied) ∧
  (∀ (s : State) (a v w : Nat), s.accepts = false →
      (∀ c ∈ [Instr.registerWrite a w v, .tickCtrlLoad, .tickSeal, .tickCtrlStart, .tickCtrlHalt, .tickCtrlUnload,
          .tickDryStart v, .tickPhaseArm, .tickPhaseStepWrite v, .listMemoryWrite a v, .descriptorPointerWrite a v,
          .kernelRegionWrite a v, .rootRecWrite v, .errLogClear, .errCntClear, .errCtrlCommit [], .errSwap v, .errInjectArm v,
          .updRegen, .updExportArm, .updExportStepWrite v, .fabPermArm, .fabPermCancel, .syntSourceWrite v, .clkRateWrite v,
          .detMeasure, .detProvSnap, .padHoldRelease], exec c s = .next s.denied) ∧
      (w < 8 → exec (.lnkTrain w) s = .next s.denied ∧ exec (.lnkRestore w) s = .next s.denied))

/-- One field of a register that is written, by its access code: RO keeps its value; RW takes its bits; a 1 written to
W1C clears; RW-L takes its bits while no job is loaded, and keeps its value and counts a corrected-class event when a
loaded job is written a different value, in every register block; a 0 written to WO or W1S does nothing. -/
def Obligations.FieldsObeyTheirAccessCodes : Prop :=
  ∀ (s : State) (v : Nat) (f : Fld),
    (f.acc = .ro → s.writeField v f = s) ∧
    (f.acc = .rw → s.writeField v f = s.set f (f.of v)) ∧
    (f.acc = .w1c → s.writeField v f = s.set f (s.get f - Nat.land (s.get f) (f.of v))) ∧
    (f.acc = .rwl → s.tick.loaded = false → s.writeField v f = s.set f (f.of v)) ∧
    (f.acc = .rwl → s.tick.loaded = true → f.of v = s.get f → s.writeField v f = s) ∧
    (f.acc = .rwl → s.tick.loaded = true → f.of v ≠ s.get f →
      f.key ∉ [ERR_COUNT0.CORRECTED.key, ERR_LOG_STATUS.TOTAL.key, ERR_LOG_STATUS.NEXT.key, ERR_LOG_STATUS.WRAPPED.key] →
      (s.writeField v f).get f = s.get f ∧ (s.writeField v f).mem = s.mem ∧
        (s.writeField v f).get ERR_COUNT0.CORRECTED = min (s.get ERR_COUNT0.CORRECTED + 1) (2 ^ 32 - 1)) ∧
    ((f.acc = .wo ∨ f.acc = .w1s) → f.of v = 0 → s.writeField v f = s)

/-! ### Loading, sealing and the requests of the tick controller -/

/-- TICK_CTRL.LOAD in IDLE, while no seal is in progress: where no condition refuses the load, the step register takes
TICK_LOAD_STEP, bank A becomes the active bank and its seal begins, and the addresses of the map keep their bytes;
otherwise the load is refused with schedule fault CFG, and neither the tick controller nor memory changes. -/
def Obligations.LoadBeginsTheSealOrIsRefused : Prop :=
  ∀ s : State, s.accepts = true → s.job = 0 → s.tick.sealing = none →
    (s.cfgOk = true → ∃ t, exec .tickCtrlLoad s = .next t ∧ t.resp = ⟨true, 0⟩ ∧ t.tick.sealing = some 0 ∧
      t.tick.sealLoad = true ∧ t.tick.loaded = true ∧ t.get TICK_STATUS.SEALING = 1 ∧ t.get TICK_STATUS.BANK = 0 ∧
      t.get TICK_STATUS.SEALED_A = 0 ∧ t.get TICK_STEP.STEP = s.get TICK_LOAD_STEP.STEP % 2 ^ 64 ∧ t.job = 0 ∧
      ∀ x, x < 2 ^ 48 → Memory.read t.mem x = Memory.read s.mem x) ∧
    (s.cfgOk = false → ∃ t, exec .tickCtrlLoad s = .next t ∧ t.tick = s.tick ∧ t.mem = s.mem ∧ t.job = 0 ∧
      (s.is TICK_FAULT.VALID = false → t.get TICK_FAULT.CODE = cCFG ∧ t.get TICK_FAULT.UNIT_CLASS = 15 ∧
        t.get TICK_FAULT.VALID = 1))

/-- The end of a seal. A bank that passes becomes sealed, with private copies of memory, registers and map as they
stood; a load then reaches LOADED. A bank that fails is named in TICK_FAULT with the lowest code of its first failing
entry, is not sealed, and a load ends in IDLE. Memory does not change. -/
def Obligations.SealDoneSealsOrFaults : Prop :=
  ∀ (s : State) (b : Nat), s.tick.sealing = some b → b < 2 →
    (s.sealFault b = none → ∃ t c, exec .sealDone s = .next t ∧ t.get (sealedF b) = 1 ∧ t.get TICK_STATUS.SEALING = 0 ∧
      t.tick.sealing = none ∧ (if b = 0 then t.sealA else t.sealB) = some c ∧ c.mem = s.mem ∧ c.active = s.active ∧
      (∀ g : Fld, g.key ≠ TICK_STATUS.SEALING.key → Store.get c.flds g.reset g.key = s.get g) ∧ t.mem = s.mem ∧
      (s.tick.sealLoad = true → t.job = 1)) ∧
    (∀ f, s.sealFault b = some f → ∃ t, exec .sealDone s = .next t ∧ t.get TICK_STATUS.SEALING = 0 ∧
      t.tick.sealing = none ∧ t.get (sealedF b) = s.get (sealedF b) ∧ t.mem = s.mem ∧ t.job = s.job ∧
      (s.tick.sealLoad = true → t.tick.loaded = false) ∧
      (s.is TICK_FAULT.VALID = false → t.get TICK_FAULT.CODE = f.code % 2 ^ TICK_FAULT.CODE.width ∧
        t.get TICK_FAULT.UNIT_CLASS = f.u.code % 2 ^ TICK_FAULT.UNIT_CLASS.width ∧
        t.get TICK_FAULT.UNIT_INDEX = f.idx % 2 ^ TICK_FAULT.UNIT_INDEX.width ∧
        t.get TICK_FAULT.ENTRY = f.entry % 2 ^ TICK_FAULT.ENTRY.width ∧ t.get TICK_FAULT.BANK = b ∧
        t.get TICK_FAULT.VALID = 1))

/-- TICK_SEAL unseals and begins to seal the inactive bank, or in HALT the active bank where that is not sealed;
TICK_CTRL.HALT in RUN asks for a halt; TICK_PHASE.ARM arms only when the inactive bank is sealed and AT_STEP exceeds
TICK_STEP + 1; TICK_PHASE_STEP is written while ARM is 0, and is kept, with a corrected-class event, while ARM is 1.
TICK_CTRL.UNLOAD in LOADED or HALT returns the tick controller to IDLE with both banks unsealed, no engine running and
no request held; every address of the map keeps its byte. That TICK_SEAL unseals the bank when its seal begins, and answers an
error in IDLE, is the model's reading (DEDUCED): notes/assumptions/13.md. -/
def Obligations.TickControlRequestsTakeEffect : Prop :=
  (∀ s : State, s.accepts = true →
      (∀ b, s.job ≠ 0 → s.tick.sealing = none →
        b = (if s.job = 3 ∧ s.is (sealedF (s.get TICK_STATUS.BANK)) = false then s.get TICK_STATUS.BANK
          else 1 - s.get TICK_STATUS.BANK) →
        ∃ t, exec .tickSeal s = .next t ∧ t.resp = ⟨true, 0⟩ ∧ t.tick.sealing = some b ∧ t.tick.sealLoad = false ∧
          t.get TICK_STATUS.SEALING = 1 ∧ t.get (sealedF b) = 0 ∧ t.mem = s.mem ∧
          ∀ g : Fld, g.key ≠ TICK_STATUS.SEALING.key → g.key ≠ (sealedF b).key → t.get g = s.get g) ∧
      (s.job = 2 → ∃ t, exec .tickCtrlHalt s = .next t ∧ t.tick.haltPend = true ∧ t.resp = ⟨true, 0⟩ ∧
        { t with tick := s.tick, resp := s.resp } = s) ∧
      (s.is (sealedF s.inactive) = true → s.get TICK_STEP.STEP + 1 < s.get TICK_PHASE_STEP.AT_STEP →
        ∃ t, exec .tickPhaseArm s = .next t ∧ t.get TICK_PHASE.ARM = 1 ∧ OnlyFields s.okay t [TICK_PHASE.ARM]) ∧
      (s.is (sealedF s.inactive) = false ∨ s.get TICK_PHASE_STEP.AT_STEP ≤ s.get TICK_STEP.STEP + 1 →
        exec .tickPhaseArm s = .next s.okay) ∧
      (∀ v, s.is TICK_PHASE.ARM = false → ∃ t, exec (.tickPhaseStepWrite v) s = .next t ∧
        t.get TICK_PHASE_STEP.AT_STEP = v % 2 ^ 64 ∧ OnlyFields s.okay t [TICK_PHASE_STEP.AT_STEP]) ∧
      (∀ v, s.is TICK_PHASE.ARM = true → ∃ t, exec (.tickPhaseStepWrite v) s = .next t ∧
        t.get TICK_PHASE_STEP.AT_STEP = s.get TICK_PHASE_STEP.AT_STEP ∧ t.mem = s.mem ∧
        t.get ERR_COUNT0.CORRECTED = min (s.get ERR_COUNT0.CORRECTED + 1) (2 ^ 32 - 1))) ∧
  (∀ s : State, s.accepts = true → s.job = 1 ∨ s.job = 3 →
      ∃ t, exec .tickCtrlUnload s = .next t ∧ t.resp = ⟨true, 0⟩ ∧ t.job = 0 ∧ t.get TICK_STATUS.SEALED_A = 0 ∧
        t.get TICK_STATUS.SEALED_B = 0 ∧ t.sealA = none ∧ t.sealB = none ∧ t.get TICK_PHASE.ARM = 0 ∧
        t.tick.loaded = false ∧ t.tick.busy = [] ∧ t.tick.startPend = false ∧ t.tick.dryPend = false ∧
        ∀ x, x < 2 ^ 48 → Memory.read t.mem x = Memory.read s.mem x)

/-- A permitted START, and a permitted dry fit of a sealed bank, are held until the square-up: while a child's gather
is missing the request stands, the job state does not change and no tick starts. A start also writes bindings into descriptors,
so its clause supposes that no word of memory is uncorrectable. -/
def Obligations.StartAndDryFitWaitForTheSquareUp : Prop :=
  ∀ s : State, s.accepts = true → s.allGathered = false →
    (s.startOk = true → s.poison = [] → ∃ t, exec .tickCtrlStart s = .next t ∧ t.resp = ⟨true, 0⟩ ∧ t.tick.startPend = true ∧
      t.job = s.job ∧ t.tick.inTick = s.tick.inTick ∧ t.tick.tickZeroAt = s.tick.tickZeroAt) ∧
    (∀ b, b < 2 → (s.set TICK_DRY.BANK b).dryOk = true → s.is (sealedF b) = true →
      ∃ t, exec (.tickDryStart b) s = .next t ∧ t.resp = ⟨true, 0⟩ ∧ t.tick.dryPend = true ∧ t.get TICK_DRY.BANK = b ∧
        t.job = s.job ∧ t.mem = s.mem ∧ t.tick.inTick = s.tick.inTick)

/-- A write to a list memory, a kernel region or a descriptor pointer of a bank that is not active takes place, unseals
the bank and disarms the phase change; under a loaded job a write that reaches the active bank changes nothing of it,
and counts a corrected-class event. -/
def Obligations.BankWritesUnsealOrAreLogged : Prop :=
  ∀ (s : State) (a v b : Nat), s.accepts = true → a % 8 = 0 → b < 2 →
    (∀ c, (c = .listMemoryWrite a v ∧ ∃ u i o, regionOf s.active a = .list u i o ∧ b = o / bankSize u) ∨
        (c = .kernelRegionWrite a v ∧ ∃ r o, regionOf s.active a = .rowSetup r o ∧ 0x20000 ≤ o ∧ o < 0x40000 ∧
          b = (o - 0x20000) / 0x10000) →
      (s.activeBank b = false → ∃ t, exec c s = .next t ∧ t.resp = ⟨true, 0⟩ ∧ t.rd a 8 = v % 2 ^ 64 ∧
        BytesKept s t [(a, 8)] ∧ t.get (sealedF b) = 0 ∧ t.get TICK_PHASE.ARM = 0) ∧
      (s.activeBank b = true → ∃ t, exec c s = .next t ∧ t.mem = s.mem ∧
        t.get ERR_COUNT0.CORRECTED = min (s.get ERR_COUNT0.CORRECTED + 1) (2 ^ 32 - 1))) ∧
    (∀ sc i src, pointerAt a = some (b, sc, i, src) →
      (s.activeBank b = false → ∃ t, exec (.descriptorPointerWrite a v) s = .next t ∧ t.resp = ⟨true, 0⟩ ∧
        t.mem = s.mem ∧ t.get (sealedF b) = 0 ∧ t.get TICK_PHASE.ARM = 0 ∧
        ∀ f ∈ fieldsAt a, f.acc = .rw → t.get f = f.of v) ∧
      (s.activeBank b = true → ∃ t, exec (.descriptorPointerWrite a v) s = .next t ∧ t.mem = s.mem ∧
        (∀ f ∈ fieldsAt a, t.get f = s.get f) ∧
        t.get ERR_COUNT0.CORRECTED = min (s.get ERR_COUNT0.CORRECTED + 1) (2 ^ 32 - 1)))

/-- ACC_DBG_DATA answers the selected word of the totals in HALT while debugging is enabled, and an error otherwise.
ROOT_REC_DATA, written in IDLE or LOADED, reads back with its reserved bits 0; in RUN and HALT the records keep their
values. Nothing else changes. -/
def Obligations.DebugReadAndRootRecordWrite : Prop :=
  ∀ (s : State),
    (∀ p, p < nPhys →
      (s.is (ACC_DEBUG.ENABLE p) = true → s.job = 3 → exec (.accDebugRead p) s = .next (s.answer true
        (s.rd (accOff p 0 (s.get (ACC_DBG_INDEX.HALF p)) + s.get (ACC_DBG_INDEX.WORD p) * 8) 8))) ∧
      (s.is (ACC_DEBUG.ENABLE p) = false ∨ s.job ≠ 3 → exec (.accDebugRead p) s = .next s.denied)) ∧
    (∀ v, s.accepts = true →
      (s.job = 0 ∨ s.job = 1 → ∃ t, exec (.rootRecWrite v) s = .next t ∧ t.resp = ⟨true, 0⟩ ∧
        t.rootRecWord (s.get ROOT_REC_INDEX.DESC) (s.get ROOT_REC_INDEX.WORD) =
          (if s.get ROOT_REC_INDEX.WORD = 0 then bits v 6 0 + bits v 23 8 * 256 + bits v 63 32 * 2 ^ 32 else bits v 31 0) ∧
        { t with root := s.root, resp := s.resp } = s) ∧
      (s.job = 2 ∨ s.job = 3 → ∃ t, exec (.rootRecWrite v) s = .next t ∧ t.root = s.root ∧ t.mem = s.mem))

/-! ### Ticks -/

/-- A tick begins at the boundary where none is open, and tick 0 at the cycle set by the square-up: the cycle count is
0, TICK_COUNT increments, memory keeps its bytes. Tick 0 also sets TICK_IN_STEP to 0, pulses SQUP_OUT, which is low in reset,
and zeroes the list contexts (R170). -/
def Obligations.TicksBegin : Prop :=
  ∀ s : State, s.running = true →
    (s.tick.haltAtBoundary = false → s.tick.inTick = false → s.tick.freeze = 0 → s.tick.glue = 0 →
      s.tick.tickZeroAt = none →
      ∃ t, exec .tickBoundary s = .next t ∧ t.tick.inTick = true ∧ t.tick.cc = 0 ∧
        t.get TICK_COUNT.COUNT = (s.get TICK_COUNT.COUNT + 1) % 2 ^ TICK_COUNT.COUNT.width ∧ t.mem = s.mem ∧ t.xr = s.xr ∧
        t.job = s.job ∧ t.get TICK_STATUS.TICK_IN_STEP = s.get TICK_STATUS.TICK_IN_STEP ∧ t.out = s.out) ∧
    (∀ z, s.tick.tickZeroAt = some z → ∃ t, exec .tickZero s = .next t ∧ t.tick.inTick = true ∧ t.tick.cc = 0 ∧
      t.tick.glue = 0 ∧ t.tick.tickZeroAt = none ∧ t.get TICK_STATUS.TICK_IN_STEP = 0 ∧ t.job = s.job ∧
      t.get TICK_COUNT.COUNT = (s.get TICK_COUNT.COUNT + 1) % 2 ^ TICK_COUNT.COUNT.width ∧ t.mem = s.mem ∧
      (s.inReset = false → Msg.squpPulse ∈ t.out) ∧ (∀ k, k / 256 % 2 = 0 → Store.get t.xr 0 k = 0) ∧
      (∀ k, k / 256 % 2 ≠ 0 → Store.get t.xr 0 k = Store.get s.xr 0 k))

/-- A tick that is not the step's last closes at cc T when every engine is idle, every transfer has landed and nothing
holds it; with work that a cause excuses, or while it is held, it stretches; with work that no cause excuses it raises
OVERRUN, which names the first unit outstanding, and a step in RUN halts (R27). That a hold stretches a tick even where work
that nothing excuses is outstanding, and OVERRUN waits for the end of the hold, is the model's choice (DESIGN CHOICE):
notes/assumptions/15.md. -/
def Obligations.TickCloses : Prop :=
  ∀ s : State, s.running = true → s.tick.inTick = true → s.tick.freeze = 0 → s.is TICK_STATUS.STRETCHING = false →
    s.tick.haltAtBoundary = false → s.tick.glue = 0 →
    (s.outstanding s.tickLen = false → s.hold = 0 → s.get TICK_STATUS.TICK_IN_STEP + 1 < s.stepTicks →
      ∃ t, exec .tickClose s = .next t ∧ t.tick.inTick = false ∧ t.tick.glue = 0 ∧ t.mem = s.mem ∧ t.out = s.out ∧
        t.get TICK_STATUS.TICK_IN_STEP = (s.get TICK_STATUS.TICK_IN_STEP + 1) % 2 ^ TICK_STATUS.TICK_IN_STEP.width ∧
        t.get TICK_STRETCH_TOTAL.TOTAL_CC = s.get TICK_STRETCH_TOTAL.TOTAL_CC ∧ t.job = s.job) ∧
    (0 < s.hold ∨ (s.outstanding s.tickLen = true ∧ s.excused = true) →
      ∃ t, exec .tickClose s = .next t ∧ t.get TICK_STATUS.STRETCHING = 1 ∧ t.tick.inTick = true ∧
        OnlyFields { s with tick := t.tick } t [TICK_STATUS.STRETCHING]) ∧
    (s.outstanding s.tickLen = true → s.excused = false → s.hold = 0 → s.err.handling = none → s.job = 2 →
      s.is ERR_SWAP.BUSY = false → s.is TICK_FAULT.VALID = false → ∀ c, firstCand (s.overrunCandidates s.tickLen) = some c →
      ∃ t, exec .tickClose s = .next t ∧ t.job = 3 ∧ t.mem = s.mem ∧ t.get TICK_FAULT.CODE = 0x11 ∧
        t.get TICK_FAULT.UNIT_CLASS = c.1.code % 2 ^ TICK_FAULT.UNIT_CLASS.width ∧
        t.get TICK_FAULT.UNIT_INDEX = c.2.1 % 2 ^ TICK_FAULT.UNIT_INDEX.width ∧
        t.get TICK_FAULT.ENTRY = c.2.2 % 2 ^ TICK_FAULT.ENTRY.width)

/-- A stretched tick that is not the step's last closes at a quantum boundary when nothing is outstanding and nothing
holds it, and counts the whole amount; at the limit it closes with its engines stopped and its transfers abandoned,
STRETCH_LIMIT is raised in class contained, and of memory only the bytes that these write are open. -/
def Obligations.StretchedTicksClose : Prop :=
  ∀ s : State, s.running = true → s.tick.inTick = true → s.tick.freeze = 0 → s.is TICK_STATUS.STRETCHING = true →
    s.tick.haltAtBoundary = false → s.tick.glue = 0 → s.get TICK_STATUS.TICK_IN_STEP + 1 < s.stepTicks →
    (∀ q, 0 < q → q * 256 ≤ s.get TICK_STRETCH_LIMIT.LIMIT_KCC * 1024 → s.hold ≤ q * 256 →
      s.outstanding (s.tickLen + q * 256) = false →
      ∃ t, exec (.stretchClose q) s = .next t ∧ t.tick.inTick = false ∧ t.get TICK_STATUS.STRETCHING = 0 ∧ t.mem = s.mem ∧
        t.get TICK_STRETCH.LAST_CC = min (q * 256 + s.tick.frozen) (2 ^ 26 - 1) ∧
        t.get TICK_STRETCH_TOTAL.TOTAL_CC =
          min (s.get TICK_STRETCH_TOTAL.TOTAL_CC + q * 256) (2 ^ TICK_STRETCH_TOTAL.TOTAL_CC.width - 1) ∧
        t.get TICK_STATUS.TICK_IN_STEP = (s.get TICK_STATUS.TICK_IN_STEP + 1) % 2 ^ TICK_STATUS.TICK_IN_STEP.width) ∧
    (s.outstanding (s.tickLen + s.get TICK_STRETCH_LIMIT.LIMIT_KCC * 1024) = true → s.err.handling = none →
      ∃ t, exec .stretchLimit s = .next t ∧ t.tick.inTick = false ∧ t.tick.busy = [] ∧
        t.get TICK_STATUS.STRETCHING = 0 ∧ t.job = s.job ∧
        t.get ERR_COUNT0.CONTAINED = min (s.get ERR_COUNT0.CONTAINED + 1) (2 ^ 32 - 1) ∧
        (s.is TICK_FAULT.VALID = false → t.get TICK_FAULT.CODE = 0x12) ∧
        (∀ l ∈ t.lands, l.open (s.get TICK_COUNT.COUNT) = false) ∧
        BytesKept s t (s.tick.busy.flatMap (·.dst) ++ s.lands.flatMap s.landRange))

/-- A stretch notice goes on along every other tree port, unless the device is in reset; for the open tick it is added to the close, for a tick that
has closed it freezes the device by the amount not yet applied, and the end of the freeze lets the engines resume where
they stopped. Memory does not change. -/
def Obligations.StretchNoticesLengthenOrFreeze : Prop :=
  ∀ s : State,
    (∀ p a d c, p < 8 → ∃ t, exec (.stretchNotice p a d c) s = .next t ∧ t.mem = s.mem ∧ t.job = s.job ∧
      (s.inReset = false →
        t.out = s.out ++ (s.treePorts.filter fun q => some q != some p).map (fun q => Msg.stretch q a d c)) ∧
      (s.running = true → s.tick.inTick = true → c = s.get TICK_COUNT.COUNT → t.tick.notice = max s.tick.notice a ∧
        t.flds = s.flds) ∧
      (s.running = true → s.tick.inTick = true → c < s.get TICK_COUNT.COUNT → (∀ e ∈ s.tick.applied, e.1 ≠ c) → 0 < a →
        t.tick.freeze = s.tick.freeze + a ∧
        t.get TICK_STRETCH_TOTAL.TOTAL_CC =
          min (s.get TICK_STRETCH_TOTAL.TOTAL_CC + a) (2 ^ TICK_STRETCH_TOTAL.TOTAL_CC.width - 1) ∧
        OnlyFields { s with tick := t.tick, out := t.out } t
          [TICK_STRETCH.LAST_CC, TICK_STRETCH.TICKS_STRETCHED, TICK_STRETCH_TOTAL.TOTAL_CC])) ∧
    (0 < s.tick.freeze → ∃ t, exec .freezeEnd s = .next t ∧ t.tick.freeze = 0 ∧ t.tick.now = s.tick.now + s.tick.freeze ∧
      t.tick.cc = s.tick.cc ∧ t.tick.busy = s.tick.busy ∧ { t with tick := s.tick } = s)

/-- An engine that runs past its declared interval with no cause that excuses it, or is busy when its next entry issues,
raises BUSY: TICK_FAULT names the entry, the error is fatal to the slice, a step in RUN halts with its committed memory. The
second and third clause take every entry that occupies an engine: those of the array, whole or by quadrant, of the finisher, the
tap, the egress, the ingress, the mover, the update units, the row controllers and the sequencers. That the entry itself is not
run, so that memory keeps every byte, is the model's choice (DESIGN CHOICE): notes/assumptions/31.md. ENGINE_BUSY_FAULT completes:
exec answers a next state for every unit that exists; where no step runs, the engine runs nothing, a freeze pauses it or a
cause excuses it, nothing changes (R17, R18, R27). -/
def Obligations.BusyEngineHaltsTheSlice : Prop :=
  (∀ (s : State) (u : UnitKind) (idx eng e : Nat), idx < u.count →
    ∃ t, exec (.engineBusyFault u idx eng e) s = .next t ∧ t.mem = s.mem ∧
      (s.running = false ∨ s.busyRec u idx eng = none ∨ s.tick.freeze ≠ 0 ∨ s.excused = true → t = s)) ∧
  ∀ s : State, s.job = 2 → s.err.handling = none → s.is ERR_SWAP.BUSY = false → s.is TICK_FAULT.VALID = false →
    (∀ u idx eng e, idx < u.count → (s.busyRec u idx eng).isSome = true → s.tick.freeze = 0 → s.excused = false →
      ∃ t, exec (.engineBusyFault u idx eng e) s = .next t ∧ t.job = 3 ∧ t.mem = s.mem ∧ t.tick.inTick = false ∧
        t.get TICK_FAULT.CODE = 0x10 ∧ t.get TICK_FAULT.UNIT_CLASS = u.code % 2 ^ TICK_FAULT.UNIT_CLASS.width ∧
        t.get TICK_FAULT.UNIT_INDEX = idx % 2 ^ TICK_FAULT.UNIT_INDEX.width ∧
        t.get TICK_FAULT.ENTRY = e % 2 ^ TICK_FAULT.ENTRY.width ∧ t.get TICK_FAULT.VALID = 1 ∧
        t.get ERR_COUNT1.FATAL_SLICE = min (s.get ERR_COUNT1.FATAL_SLICE + 1) (2 ^ 32 - 1)) ∧
    (∀ i hw eng c, (c, eng) ∈ [(Instr.matmul i hw, arrEng (s.arrDesc i.idx i.desc)), (.scarfPeer i hw, 1),
        (.arrayReserve i, 1), (.gangOn i, 1), (.gangOff i, 1)] →
      Turn s .cluster i → s.arrBusyAt i.idx eng i.startCc = true → ∃ t, exec c s = .next t ∧ BusyHalt s t .cluster i) ∧
    (∀ i hw u eng c, (u, eng, c) ∈ [(UnitKind.cluster, engFin, Instr.chain i hw), (.cluster, engFin, .tableLoad i hw),
        (.cluster, engFin, .finisherReserve i), (.cluster, engTap, .tap i hw), (.port, engEgress, .send i hw),
        (.port, engEgress, .pass i), (.port, engIngress, .land i), (.port, engMover, .mover i hw),
        (.update, engUpd, .norm i hw), (.update, engUpd, .normSum i hw), (.update, engUpd, .updApply i hw),
        (.row, engCall, .kernelCall i hw), (.root, engRoot, .rootSeg i), (.root, engRoot, .gaugeSeg i),
        (.krylov, engSolve, .solve i)] →
      Turn s u i → s.engineBusy u i.idx eng i.startCc = true → ∃ t, exec c s = .next t ∧ BusyHalt s t u i)

/-! ### Cutting-list entries -/

/-- NOP, PASS and the reservation of a finisher occupy their engine over the declared interval and change nothing else;
MARK also copies TAG and the tick count; the reservation of an array, GANG_ON and GANG_OFF count the cycles for which
the array is held, and the last two split and rejoin it. None touches memory, rows or registers beyond these. NOP,
MARK, PASS, the finisher's and the array's RESERVE, GANG_ON and GANG_OFF each complete: exec answers a next state
whenever it is the entry's turn and its engine is idle (R15, R17, R22, R27; of an array R75, R79, R88). -/
def Obligations.ControlAndReserveEntries : Prop :=
  ∀ (s : State) (u : UnitKind) (i : Issue),
    (Ready s u engControl i → ∃ t, exec (.nop u i) s = .next t ∧ Occupied t u engControl i false ∧
      { t with tick := s.tick } = s) ∧
    (Ready s u engControl i → ∃ t, exec (.mark u i) s = .next t ∧ Occupied t u engControl i false ∧
      t.get TICK_MARK.LAST_TAG = i.tag % 2 ^ 16 ∧ t.get TICK_MARK.AT_TICK = s.get TICK_COUNT.COUNT % 2 ^ 48 ∧
      OnlyFields { s with tick := t.tick } t [TICK_MARK.LAST_TAG, TICK_MARK.AT_TICK]) ∧
    (Ready s .port engEgress i → ∃ t, exec (.pass i) s = .next t ∧ Occupied t .port engEgress i false ∧
      { t with tick := s.tick } = s) ∧
    (Ready s .cluster engFin i → ∃ t, exec (.finisherReserve i) s = .next t ∧ Occupied t .cluster engFin i false ∧
      { t with tick := s.tick } = s) ∧
    (ArrReady s 1 i →
      (∃ t, exec (.arrayReserve i) s = .next t ∧ Occupied t .cluster 1 i false ∧
        t.get (ARR_BUSY.BUSY_CC i.idx) = sat (ARR_BUSY.BUSY_CC i.idx) (s.get (ARR_BUSY.BUSY_CC i.idx) + i.busyCc) ∧
        OnlyFields { s with tick := t.tick } t [ARR_BUSY.BUSY_CC i.idx]) ∧
      (∀ c b, (c = .gangOn i ∧ b = 1) ∨ (c = .gangOff i ∧ b = 0) →
        ∃ t, exec c s = .next t ∧ Occupied t .cluster 1 i false ∧ t.get (ARR_STATUS.GANG i.idx) = b ∧
          t.get (ARR_BUSY.BUSY_CC i.idx) = sat (ARR_BUSY.BUSY_CC i.idx) (s.get (ARR_BUSY.BUSY_CC i.idx) + 8) ∧
          OnlyFields { s with tick := t.tick } t [ARR_STATUS.GANG i.idx, ARR_BUSY.BUSY_CC i.idx]))

/-- An array operation that meets no memory error, the MATMUL of a cluster or quadrant and the odd member's half of a
scarf alike, occupies its engine until it completes; its last block's totals stand in the accumulators (R116); every byte
outside the accumulators of its blocks and what it stores in C keeps its value, and so does every register outside the
clusters' blocks but the record of a nondeterministic rounding. A plain product of whole numbers of magnitude at most 16,
held in 16-bit formats, stores in C the FP32 numbers of the exact matrix product, each at its place. That the whole effect of
an operation stands when it issues is the model's choice (DESIGN CHOICE): notes/assumptions/5.md. MATMUL and SCARF_PEER complete: exec answers a next
state whenever it is the entry's turn and its engine is idle (R15, R17, R22, R27; of an array R75, R79, R88) and no
word of memory is uncorrectable. -/
def Obligations.ArrayOperationsFormTheirTotals : Prop :=
  ∀ (s : State) (i : Issue), s.poison = [] →
    (∀ d o, d = s.arrDesc i.idx i.desc →
      o = s.opOf i.idx i.desc i.tick i.startCc
        (s.preFor (i.idx * 16 + (if d.shape = 1 then d.quad else 0)) i.desc i.tick i.startCc) → ArrReady s (arrEng d) i →
      ∃ t, exec (.matmul i []) s = .next t ∧ Occupied t .cluster (arrEng d) i true ∧ OpDone s t o ∧ t.job = s.job ∧
        t.xr = s.xr ∧ ∀ g : Fld, g.lo < 64 → g.addr < 0x030010000000 ∨ 0x030018800000 ≤ g.addr →
          g.addr ≠ DET_ND_USED.SRE.addr → t.get g = s.get g) ∧
    (∀ o, o = s.peerOp i.idx i.desc i.tick i.startCc (s.preFor (i.idx * 16) i.desc i.tick i.startCc) → ArrReady s 1 i →
      ∃ t, exec (.scarfPeer i []) s = .next t ∧ Occupied t .cluster 1 i true ∧ OpDone s t o ∧ t.job = s.job ∧
        t.xr = s.xr ∧ ∀ g : Fld, g.lo < 64 → g.addr < 0x030010000000 ∨ 0x030018800000 ≤ g.addr →
          g.addr ≠ DET_ND_USED.SRE.addr → t.get g = s.get g) ∧
    (∀ (d : ArrDesc) (v : Nat) (a b : Nat → Nat → Int), d = s.arrDesc i.idx i.desc → v = veneerBase i.idx → d.plain →
      ArrReady s 1 i → s.arr.preloads = [] →
      (∀ m k, m < d.m → k < d.k → (a m k).natAbs ≤ 16 ∧ (s.valAt d.aFmt (v + d.aOff + m * d.lda) k).isWhole (a m k)) →
      (∀ k n, k < d.k → n < d.n → (b k n).natAbs ≤ 16 ∧ (s.valAt d.bFmt (v + d.bOff + k * d.ldb) n).isWhole (b k n)) →
      ∃ t, exec (.matmul i []) s = .next t ∧ ∀ m n, m < d.m → n < d.n →
        (t.valAt fFP32 (v + d.cOff + m * d.ldc) n).isWhole ((List.range d.k).map fun k => a m k * b k n).sum)

/-- An entry that completes frees its engine, counts itself and is recorded in its unit's LAST register; memory does
not change. One clause for each of the nine completions. MATMUL's, CHAIN's, TABLE_LOAD's, TAP's, SEND's, MOVE's,
NORM's, NORM_SUM's and APPLY's completion each answer a next state whenever that entry runs on its engine and has not
completed, and no freeze pauses it (R17, R18, R27). -/
def Obligations.CompletionsFreeTheEngine : Prop :=
  ∀ (s : State) (p cc : Nat), s.tick.freeze = 0 →
    (∀ q eng b, p < nPhys → eng = (if (s.busyRec .cluster p (16 + q)).isSome ∧ q < 4 then 16 + q else 1) →
      s.busyRec .cluster p eng = some b → b.waits = true →
      ∃ t, exec (.matmulComplete p q cc) s = .next t ∧ t.busyRec .cluster p eng = none ∧ t.mem = s.mem ∧
        t.get (ARR_OPS.ENTRIES p) = sat (ARR_OPS.ENTRIES p) (s.get (ARR_OPS.ENTRIES p) + 1) ∧
        t.get (ARR_LAST.DESC p) = b.info.getD 0 0 % 2 ^ (ARR_LAST.DESC p).width ∧
        OnlyFields { s with tick := t.tick, arr := t.arr } t [ARR_OPS.ENTRIES p, ARR_OPS.PASSES p, ARR_MACS.MACS p,
          ARR_LAST.DESC p, ARR_LAST.QUAD p, ARR_LAST.AT_TICK p, ARR_BUSY.BUSY_CC p]) ∧
    (∀ d n, p < nPhys → Waiting s .cluster p engFin [0x200, d, n] →
      ∃ t, exec (.chainComplete p cc) s = .next t ∧ t.busyRec .cluster p engFin = none ∧ t.get (FIN_STATUS.BUSY p) = 0 ∧
        t.get (FIN_OPS.CHAINS p) = sat (FIN_OPS.CHAINS p) (s.get (FIN_OPS.CHAINS p) + 1) ∧
        t.get (FIN_GROUPS.GROUPS p) = sat (FIN_GROUPS.GROUPS p) (s.get (FIN_GROUPS.GROUPS p) + n) ∧
        t.get (FIN_LAST.DESC p) = d % 2 ^ (FIN_LAST.DESC p).width ∧
        OnlyFields { s with tick := t.tick } t
          [FIN_STATUS.BUSY p, FIN_OPS.CHAINS p, FIN_GROUPS.GROUPS p, FIN_LAST.DESC p, FIN_LAST.AT_TICK p]) ∧
    (p < nPhys → Waiting s .cluster p engFin [0x202] →
      ∃ t, exec (.tableLoadComplete p cc) s = .next t ∧ t.busyRec .cluster p engFin = none ∧
        t.get (FIN_STATUS.BUSY p) = 0 ∧
        t.get (FIN_OPS.TABLE_LOADS p) = sat (FIN_OPS.TABLE_LOADS p) (s.get (FIN_OPS.TABLE_LOADS p) + 1) ∧
        OnlyFields { s with tick := t.tick } t [FIN_STATUS.BUSY p, FIN_OPS.TABLE_LOADS p]) ∧
    (∀ d, p < nPhys → Waiting s .cluster p engTap [d] →
      ∃ t, exec (.tapComplete p cc) s = .next t ∧ t.busyRec .cluster p engTap = none ∧ t.get (GAU_STATUS.TAPPING p) = 0 ∧
        t.get (GAU_LAST.DESC p) = d % 2 ^ (GAU_LAST.DESC p).width ∧
        OnlyFields { s with tick := t.tick } t [GAU_STATUS.TAPPING p, GAU_LAST.DESC p, GAU_LAST.AT_TICK p]) ∧
    (∀ l, p < 8 → Waiting s .port p engEgress l →
      ∃ t, exec (.sendComplete p cc) s = .next t ∧ t.busyRec .port p engEgress = none ∧ t.mem = s.mem ∧
        t.job = s.job ∧ (t.link p).due = []) ∧
    (∀ n, p < 8 → Waiting s .port p engMover [n] →
      ∃ t, exec (.moveComplete p cc) s = .next t ∧ t.busyRec .port p engMover = none ∧
        t.get VNR_MOVES.MOVES = sat VNR_MOVES.MOVES (s.get VNR_MOVES.MOVES + 1) ∧
        OnlyFields { s with tick := t.tick, tallies := t.tallies } t [VNR_MOVES.MOVES, VNR_MOVES.KIB]) ∧
    (∀ c n b, (c = .normComplete p cc ∧ n = 1) ∨ (c = .normSumComplete p cc ∧ n = 2) ∨ (c = .applyComplete p cc ∧ n = 3) →
      p < 16 → s.busyRec .update p engUpd = some b → s.get (UPD_STATUS.OP p) = n →
      ∃ t, exec c s = .next t ∧ t.busyRec .update p engUpd = none ∧ t.get (UPD_STATUS.BUSY p) = 0 ∧
        t.get (UPD_LAST.OP p) = n ∧
        OnlyFields { s with tick := t.tick } t [UPD_STATUS.BUSY p, UPD_STATUS.OP p, UPD_LAST.OP p, UPD_LAST.AT_TICK p])

/-- CHAIN occupies the finisher until it completes, unless a group needs too many passes, and writes only through its
own streams' spaces; TABLE_LOAD replaces the table memory by the image, clearing the valid bit of a directory entry
that is refused; a TAP that meets no memory error captures on a gauge step into the operand buffers of its factors'
fold members alone, and is gated on any other step. That the whole effect of an entry stands when it issues is the model's
choice (DESIGN CHOICE): notes/assumptions/5.md. CHAIN, TABLE_LOAD and TAP complete: exec answers a next state
whenever it is the entry's turn and its engine is idle (R15, R17, R22, R27); a TAP that captures, while a sealed copy
is there. -/
def Obligations.FinisherAndTapEntries : Prop :=
  ∀ (s : State) (i : Issue),
    (Ready s .cluster engFin i → ∃ t, exec (.chain i []) s = .next t ∧ t.xr = s.xr ∧
      (s.poison = [] → t.is (FIN_STATUS.PASS_OVER i.idx) = false → Occupied t .cluster engFin i true ∧
        t.get (FIN_STATUS.BUSY i.idx) = 1 ∧ t.job = s.job) ∧
      ∀ x, ¬s.chainSpaces i.idx i.desc x → s.poison = [] → Memory.read t.mem x = Memory.read s.mem x) ∧
    (∀ src, src = veneerBase i.idx + s.bankGet (FIN_TBL_A.OFF i.idx) (FIN_TBL_B.OFF i.idx) * 64 →
      Ready s .cluster engFin i → s.poison = [] → Memory.wf s.mem = true →
      ∃ t, exec (.tableLoad i []) s = .next t ∧ Occupied t .cluster engFin i true ∧
        (∀ k, 128 ≤ k → k < 0x8000 → t.rd1 (ftabBase i.idx + k) = s.rd1 (src + k)) ∧
        (∀ k, k < 128 → t.rd1 (ftabBase i.idx + k) = s.rd1 (src + k) ∨
          (k % 16 = 0 ∧ t.rd1 (ftabBase i.idx + k) = s.rd1 (src + k) / 2 * 2 ∧ t.is (FIN_FLAGS.TBL_REJECT i.idx) = true)) ∧
        BytesKept s t [(ftabBase i.idx, 0x8000)] ∧
        OnlyFields { s with tick := t.tick, mem := t.mem } t [FIN_STATUS.BUSY i.idx, FIN_FLAGS.TBL_REJECT i.idx]) ∧
    (∀ d f, d = s.tapDesc i.idx i.desc → f = s.factor d.factor → Ready s .cluster engTap i → s.copy.isSome = true →
      (f.gaugeStep (s.get TICK_STEP.STEP) = true → s.poison = [] →
        ∃ t, exec (.tap i []) s = .next t ∧ Occupied t .cluster engTap i true ∧ t.get (GAU_STATUS.TAPPING i.idx) = 1 ∧
          t.get (GAU_CAPTURES.CAPTURES i.idx) =
            sat (GAU_CAPTURES.CAPTURES i.idx) (s.get (GAU_CAPTURES.CAPTURES i.idx) + 1) ∧
          t.get (GAU_CAPTURES.ROWS i.idx) = sat (GAU_CAPTURES.ROWS i.idx) (s.get (GAU_CAPTURES.ROWS i.idx) + f.mCap) ∧
          ∀ x, x < opbufBase 0 ∨ accumBase 0 ≤ x → Memory.read t.mem x = Memory.read s.mem x) ∧
      (f.gaugeStep (s.get TICK_STEP.STEP) = false →
        ∃ t, exec (.tap i []) s = .next t ∧ Occupied t .cluster engTap i true ∧ t.get (GAU_STATUS.GATED i.idx) = 1 ∧
          OnlyFields { s with tick := t.tick } t [GAU_STATUS.GATED i.idx]))

/-- SEND occupies the egress and reads memory only; LAND declares the landing of its transfer, with nothing landed;
MOVE copies every row of its source, as the move found it, to the row of its destination, and writes nothing else. That a
MOVE's whole effect stands when it issues, and that a SEND's bytes are those it found then, is the model's choice (DESIGN
CHOICE): notes/assumptions/5.md and notes/assumptions/21.md. SEND, LAND and MOVE complete: exec answers a next state whenever it is the entry's turn and its engine is idle (R15,
R17, R22, R27), and no word of memory is uncorrectable. -/
def Obligations.TransfersSendLandAndMove : Prop :=
  ∀ (s : State) (i : Issue), s.poison = [] →
    (Ready s .port engEgress i →
      ∃ t, exec (.send i []) s = .next t ∧ t.mem = s.mem ∧ t.job = s.job ∧ t.xr = s.xr ∧
        Occupied t .port engEgress i true ∧
        ((t.link i.idx).due.flatMap fun f => f.2.payload) =
          ((xferOf (s.xferWords i.desc)).ranges s.active).flatMap fun r => s.rdBytes r.1 r.2) ∧
    (Ready s .port engIngress i →
      (∀ l ∈ s.lands, ¬(l.port = i.idx ∧ l.entry = i.entry ∧ l.atTick = s.get TICK_COUNT.COUNT)) →
      ∃ t l, exec (.land i) s = .next t ∧ t.lands = s.lands ++ [l] ∧ l.port = i.idx ∧ l.entry = i.entry ∧ l.landed = 0 ∧
        l.tag = i.tag ∧ l.atTick = s.get TICK_COUNT.COUNT ∧ l.bytes = (xferOf (s.xferWords i.desc)).bytes ∧
        l.src = (xferOf (s.xferWords i.desc)).peer ∧ Occupied t .port engIngress i false ∧
        { t with tick := s.tick, lands := s.lands } = s) ∧
    (∀ m src dst, m = s.moveDesc i.desc → src = m.from s.active → dst = m.to s.active → Ready s .port engMover i →
      ∃ t, exec (.mover i []) s = .next t ∧ Occupied t .port engMover i true ∧ t.job = s.job ∧ t.xr = s.xr ∧
        (dst.Pairwise (fun a b => a.1 + a.2 ≤ b.1 ∨ b.1 + b.2 ≤ a.1) →
          ∀ r ∈ src.zip dst, t.rdBytes r.2.1 r.1.2 = s.rdBytes r.1.1 r.1.2) ∧
        BytesKept s t dst)

/-- NORM writes the sum of squares of its shard's gradient into the shard's slot of the norm table, and NORM_SUM the
sum of the slots, by the fixed tree, into the table's total; they write nothing else. An APPLY whose committed working
copy is consistent and which meets no memory error writes the current step's generation, its working copy, the shard's
checksum slot and, on an export step, the export copy, and nothing else, so that the committed generation stays; the
slot holds the CRC of the generation that was written. That the whole effect of an entry stands when it issues is the model's
choice (DESIGN CHOICE): notes/assumptions/5.md. NORM, NORM_SUM and APPLY complete: exec answers a next state
whenever it is the entry's turn and its engine is idle (R15, R17, R22, R27), and no word of memory is uncorrectable. -/
def Obligations.UpdateEntriesWriteTheirShards : Prop :=
  (∀ (s : State) (i : Issue), Ready s .update engUpd i → s.poison = [] →
      (∃ t, exec (.norm i []) s = .next t ∧ Occupied t .update engUpd i true ∧
        (s.dataOk (s.normBase + i.desc * 8) 8 = true →
          t.rd (s.normBase + i.desc * 8) 8 = sumSquares ((List.range (s.shard i.desc).count).map fun k =>
            s.valAt (s.shard i.desc).gradFmt (s.shard i.desc).ngradAddr k) % 2 ^ 64) ∧
        BytesKept s t [(s.normBase + i.desc * 8, 8)] ∧ t.job = s.job ∧ t.get (UPD_STATUS.OP i.idx) = 1 ∧
        t.xr = s.xr) ∧
      (∃ t, exec (.normSum i []) s = .next t ∧ Occupied t .update engUpd i true ∧
        (∀ v, s.dataOk (s.normBase + 0x8000) 8 = true →
          splitK 0 (s.normSlots.map fun a => decodeFp 0 (s.updWord a)) = some v →
          t.rd (s.normBase + 0x8000) 8 = rne 0 v % 2 ^ 64) ∧
        BytesKept s t [(s.normBase + 0x8000, 8)] ∧ t.job = s.job ∧ t.get (UPD_STATUS.OP i.idx) = 2 ∧ t.xr = s.xr)) ∧
  (∀ (s : State) (i : Issue) (sh : Shard) (g : Nat), Ready s .update engUpd i → s.poison = [] → s.copy.isSome = true →
      sh = s.shard i.desc → g = s.get TICK_STEP.STEP % 2 →
      (sh.verify = true → s.wcMismatch sh ((s.get TICK_STEP.STEP + 1) % 2) = none) →
      ∃ t, exec (.updApply i []) s = .next t ∧ Occupied t .update engUpd i true ∧ t.job = s.job ∧
        t.get (UPD_STATUS.OP i.idx) = 3 ∧ t.xr = s.xr ∧
        BytesKept s t ((s.chkBase + i.desc * 16, 16) ::
          (sh.wcGen g, sh.count * fmtBytes (gateFmt sh.wcGate)) ::
          (sh.arrays.filterMap fun a => (arrayOff sh.count sh.arrays a.1).map fun r =>
            (sh.genAddr g + r.1, sh.count * fmtBytes r.2)) ++
          (if s.upd.exporting then (sh.arrays.filterMap fun a => (arrayOff sh.count sh.arrays a.1).map fun r =>
            (sh.expAddr + r.1, sh.count * fmtBytes r.2)) else [])) ∧
        (s.dataOk (s.chkBase + i.desc * 16) 16 = true → (∀ a ∈ sh.arrays, ∀ r, arrayOff sh.count sh.arrays a.1 = some r →
            sh.genAddr g + r.1 + sh.count * fmtBytes a.2 ≤ s.chkBase + i.desc * 16 ∨
            s.chkBase + i.desc * 16 + 16 ≤ sh.genAddr g + r.1) →
          t.rd (s.chkBase + i.desc * 16) 8 = crc64 (t.genBytes sh (sh.genAddr g)) % 2 ^ 64))

/-- ROOT_SEG starts the work of its block's window step: the preparation at step 0, and later steps while a run is in
progress; GAUGE_SEG starts a gauge sequence on a gauge step. Elsewhere they only occupy the engine. SOLVE starts a
solve of its context and direction, which shows in SOL_STATUS. A piece of a sequence that meets no memory error, and
whose user chains need no more passes than they may, takes that sequence on or ends it, leaves the runs of other blocks
or contexts as they are, and writes nothing to LPDDR. ROOT_SEG, GAUGE_SEG and SOLVE complete: exec answers a next state
whenever it is the entry's turn and its engine is idle (R15, R17, R22, R27). A piece completes while a tick of a step
is open and its sequence has that piece next (R157, R203). -/
def Obligations.RootAndSolverSequences : Prop :=
  (∀ (s : State) (i : Issue), Ready s .root engRoot i →
      (∃ t, exec (.rootSeg i) s = .next t ∧ Occupied t .root engRoot i false ∧
        { t with tick := s.tick, root := s.root } = s ∧ { t.root with runs := s.root.runs } = s.root ∧
        t.root.runs = s.root.runs ++ (match (s.factor i.desc).window (s.get TICK_STEP.STEP) with
          | some w => if w = 0 ∨ (w < (s.factor i.desc).sRun ∧ (s.rootRec i.desc).run = true) then
              [⟨i.desc, false, w, (s.rootRec i.desc).set, 0, false, 0, false⟩] else []
          | none => [])) ∧
      (∃ t, exec (.gaugeSeg i) s = .next t ∧ Occupied t .root engRoot i false ∧
        { t with tick := s.tick, root := s.root } = s ∧ { t.root with runs := s.root.runs } = s.root ∧
        t.root.runs = s.root.runs ++ (if (s.factor i.desc).gaugeStep (s.get TICK_STEP.STEP) then
          [⟨i.desc, true, 0, 0, 0, false, 0, false⟩] else []))) ∧
  (∀ s : State,
      (∀ i, Ready s .krylov engSolve i → ∃ t r, exec (.solve i) s = .next t ∧ Occupied t .krylov engSolve i false ∧
        t.sol = { s.sol with runs := s.sol.runs ++ [r] } ∧ r.ctx = i.tag % 16 ∧ r.desc = i.desc ∧
        r.adjoint = (i.arg == 1) ∧ r.phase = 0 ∧ r.iter = 0 ∧ r.pos = 0 ∧ r.status = 0 ∧
        OnlyFields { s with tick := t.tick, sol := t.sol } t [SOL_STATUS.ACTIVE, SOL_STATUS.GATED]) ∧
      (s.running = true → s.tick.inTick = true → s.tick.freeze = 0 → s.poison = [] → ∀ p, p < nPhys →
        (∀ g d r x, s.root.runs.find? (fun r => r.block == d && r.gauge == g) = some r →
          (s.piecesOf (s.factor d) r)[r.piece]? = some x →
          ∃ t, exec (.rootPiece g d p []) s = .next t ∧ t.job = s.job ∧ t.xr = s.xr ∧
            ((s.factor d).bsz ≠ 0 ∨ g = true ∨ x.isArr = true →
              (t.root.runs.filter fun r => !(r.block == d && r.gauge == g)) =
                (s.root.runs.filter fun r => !(r.block == d && r.gauge == g))) ∧
            ((∃ r' ∈ t.root.runs, r'.block = d ∧ r'.gauge = g ∧ r'.piece = r.piece + 1) ∨
              ∀ r' ∈ t.root.runs, ¬(r'.block = d ∧ r'.gauge = g)) ∧
            ∀ y, y < veneerBase 0 → Memory.read t.mem y = Memory.read s.mem y) ∧
        (∀ ctx adj fab r x, s.sol.runs.find? (fun r => r.ctx == ctx && r.adjoint == adj) = some r →
          ((s.solEnv ctx r.desc adj).1.pieces r.phase r.iter)[r.pos]? = some x →
          ∃ t, exec (.solverPiece ctx adj p fab []) s = .next t ∧ t.xr = s.xr ∧
            ((∀ k, x.act ≠ .user k) ∨ (∀ m ∈ (s.solEnv ctx r.desc adj).1.ms, t.is (FIN_STATUS.PASS_OVER m.p) = false) →
              t.job = s.job ∧
              ∃ r', t.sol.runs = (s.sol.runs.filter fun r => !(r.ctx == ctx && r.adjoint == adj)) ++ [r'] ∨
                (t.sol.runs = (s.sol.runs.filter fun r => !(r.ctx == ctx && r.adjoint == adj)) ∧
                  t.sol.ended = s.sol.ended ++ [r'])) ∧
            ∀ y, y < veneerBase 0 → Memory.read t.mem y = Memory.read s.mem y)))

/-! ### The glue-up -/

/-- A child's gather of the action in progress is kept until every child's is in; then the device's own goes to its
parent. The parent's release goes on to the children, and the release of action 2 hands its verdict to the error check.
The error check of action 2 acts on the verdict that its barrier released: without an error the glue-up goes on to
action 3; an error of a fatal class halts the device with memory unchanged; a contained error of a run rolls the step
back, and the first failed attempt starts the replay, with the totals and table memories zeroed, every other byte kept
and TICK_STEP unchanged; an error with the mark of a sealed-copy parity failure halts after the rollback. -/
def Obligations.BarriersAndTheErrorCheck : Prop :=
  (∀ (s : State) (p act : Nat) (v : Verdict), s.running = true →
      (p < 8 → p ∈ s.children → (∀ b ∈ s.tick.barriers, b.1 ≠ p) → v.err = none → act = s.tick.glue → 1 ≤ act → act ≤ 6 →
        act ≠ 2 →
        ((∃ q ∈ s.children, q ≠ p ∧ ∀ b ∈ s.tick.barriers, b.1 ≠ q) → ∃ t, exec (.barrierGather p act v) s = .next t ∧
          t.tick.barriers = s.tick.barriers ++ [(p, v)] ∧ t.out = s.out ∧ { t with tick := s.tick } = s) ∧
        (∀ q, s.inReset = false → (∀ c ∈ s.children, c = p ∨ ∃ b ∈ s.tick.barriers, b.1 = c) → s.tick.actDone = true → s.tick.sent = false →
          s.tick.released = none → s.parent = some q → ∃ t w, exec (.barrierGather p act v) s = .next t ∧
            t.out = s.out ++ [Msg.barrier q act w] ∧ t.tick.sent = true ∧ t.mem = s.mem ∧ t.flds = s.flds)) ∧
      (s.inReset = false → s.parent.isSome = true → s.tick.glue = 2 → s.tick.sent = true → s.tick.released = none →
        v.err = none → ∃ t, exec (.barrierRelease 2 v) s = .next t ∧ t.tick.released = some v ∧
          t.out = s.out ++ s.children.map (fun q => Msg.release q 2 v) ∧ { t with tick := s.tick, out := s.out } = s)) ∧
  (∀ (s : State) (v : Verdict), s.running = true → s.tick.glue = 2 → s.tick.released = some v →
      (v.cls = 0 ∨ (v.cls = 1 ∧ s.is TICK_STATUS.DRY = true) → ∃ t, exec .pendingErrorCheck s = .next t ∧
        t.tick.glue = 3 ∧ t.tick.released = none ∧ { t with tick := s.tick } = s) ∧
      (2 ≤ v.cls → ∃ t, exec .pendingErrorCheck s = .next t ∧ t.job = 3 ∧ t.mem = s.mem ∧
        t.tick.inTick = false ∧ t.get TICK_STEP.STEP = s.get TICK_STEP.STEP) ∧
      (v.cls = 1 → s.is TICK_STATUS.DRY = false → (v.err.map (·.halts)).getD false = false →
        s.get ERR_LADDER.ATTEMPT = 0 → s.allGathered = false → ∃ t, exec .pendingErrorCheck s = .next t ∧ t.job = s.job ∧ t.tick.glue = 8 ∧
          t.get ERR_LADDER.ATTEMPT = 1 ∧ t.get TICK_STEP.STEP = s.get TICK_STEP.STEP ∧ t.tick.busy = [] ∧ t.lands = [] ∧
          t.get ERR_LADDER.REPLAYS = sat ERR_LADDER.REPLAYS (s.get ERR_LADDER.REPLAYS + 1) ∧
          (∀ x, x < nPhys * 0x40000 → Memory.read t.mem (accumBase 0 + x) = 0) ∧
          (∀ x, x < nPhys * 0x10000 → Memory.read t.mem (ftabBase 0 + x) = 0) ∧
          BytesKept s t [(accumBase 0, nPhys * 0x40000), (ftabBase 0, nPhys * 0x10000)]) ∧
      (v.cls = 1 → s.is TICK_STATUS.DRY = false → (v.err.map (·.halts)).getD false = true →
        ∃ t, exec .pendingErrorCheck s = .next t ∧ t.job = 3 ∧ t.get TICK_STEP.STEP = s.get TICK_STEP.STEP ∧
          t.get ERR_LADDER.ATTEMPT = s.get ERR_LADDER.ATTEMPT ∧
          (s.err.parityHere = true → t.is (sealedF (s.get TICK_STATUS.BANK)) = false) ∧
          BytesKept s t [(accumBase 0, nPhys * 0x40000), (ftabBase 0, nPhys * 0x10000)]))

/-- The checksums of the shards with replicas go out to every peer; a peer's frame is kept; the comparison counts what
it compared and what differs, and completes the device's part of action 3 without changing memory. That a second exchange ends
the first one, with the keys still missing unmatched, is the model's choice (DESIGN CHOICE): notes/assumptions/30.md. -/
def Obligations.ChecksumsAreExchangedAndCompared : Prop :=
  ∀ s : State, s.running = true →
    (s.tick.glue = 3 → s.tick.actDone = false → s.tick.mismatch = false → s.upd.sent = false → s.allChks = false →
      ∃ t, exec .checksumExchange s = .next t ∧ t.upd.sent = true ∧ t.mem = s.mem ∧ t.tick = s.tick ∧ t.job = s.job ∧
        t.xr = s.xr ∧ (s.inReset = false → ∀ x ∈ s.chkSlots, ∀ d ∈ s.peersOf x, ∀ o, Routed s d o →
          Msg.checksum o d x.rgroup x.key x.crc ∈ t.out)) ∧
    (∀ d r k c, s.tick.glue = 2 ∨ (s.tick.glue = 3 ∧ s.tick.actDone = false ∧ (s.upd.sent = false ∨ s.tick.mismatch = true)) → ∃ t, exec (.checksumFrame d k c r) s = .next t ∧ t.peerCrc d r k = some c ∧
      (∀ d' r' k', ¬(d' = d ∧ r' = r ∧ k' = k) → t.peerCrc d' r' k' = s.peerCrc d' r' k') ∧
      { t with upd := s.upd } = s) ∧
    (s.tick.glue = 3 → s.tick.actDone = false → s.tick.mismatch = false → s.upd.sent = true →
      (∃ q ∈ s.children, ∀ b ∈ s.tick.barriers, b.1 ≠ q) →
      ∃ t, exec .checksumExchange s = .next t ∧ t.tick.actDone = true ∧ t.mem = s.mem ∧ t.job = s.job ∧
        t.get UPD_CHK_STATUS.COMPARED = (s.chkSlots.filter fun x => !s.missing x).length % 2 ^ UPD_CHK_STATUS.COMPARED.width ∧
        t.get UPD_CHK_STATUS.MISMATCHED = (s.chkSlots.filter s.differs).length % 2 ^ UPD_CHK_STATUS.MISMATCHED.width ∧
        OnlyFields { s with tick := t.tick, upd := t.upd, freeCtr := t.freeCtr } t [UPD_CHK_STATUS.COMPARED,
          UPD_CHK_STATUS.MISMATCHED, UPD_CHK_STATUS.UNMATCHED, UPD_CHK_FIRST.KEY, UPD_CHK_FIRST.RGROUP,
          UPD_CHK_FIRST.VALID, ERR_MISMATCH1.LAST_RGROUP])

/-- The second exchange of a shard that met no contained error: where all replicas agree the mismatch was transient; where a
majority holds another value than this device, the device waits for the repair; where the majority holds this device's, it counts
a repair, and the lowest device of the majority sends its shard to every other; where no value has a majority the device says so
in its gather, and the release that says so halts the slice without committing. A repair transfer replaces the generation that the step wrote, its checksum slot
and working copy, and on an export step the export copy, and nothing else. -/
def Obligations.MismatchesAreResolved : Prop :=
  ∀ s : State, s.running = true → s.tick.glue = 3 → s.tick.mismatch = true → s.err.proc = [] →
    (s.tick.actDone = false → ∀ x, s.affected = [x] → (∀ r ∈ s.upd.repairs, r.1 = x.key) → (∃ q ∈ s.children, ∀ b ∈ s.tick.barriers, b.1 ≠ q) →
      (∀ d ∈ s.peersOf x, s.peerCrc d x.rgroup x.key = some x.crc) →
      ∃ t, exec (.secondExchange []) s = .next t ∧ t.tick.actDone = true ∧ t.upd.repairs = [] ∧ t.mem = s.mem ∧ t.job = s.job ∧
        t.get ERR_MISMATCH0.TRANSIENT = sat ERR_MISMATCH0.TRANSIENT (s.get ERR_MISMATCH0.TRANSIENT + 1)) ∧
    (s.tick.actDone = false → ∀ x, s.affected = [x] → (∀ r ∈ s.upd.repairs, r.1 = x.key) →
      (∃ q ∈ s.children, ∀ b ∈ s.tick.barriers, b.1 ≠ q) → (∃ d ∈ s.peersOf x, s.peerCrc d x.rgroup x.key ≠ some x.crc) →
      ∃ t, exec (.secondExchange []) s = .next t ∧ t.mem = s.mem ∧ t.job = s.job ∧
        (majority (s.replicaCrcs x) ((s.peersOf x).length + 1) = none →
          t.upd.repairs = [] ∧ t.tick.actDone = true ∧ t.unresolved = true) ∧
        (∀ c hs, majority (s.replicaCrcs x) ((s.peersOf x).length + 1) = some (c, hs) →
          (x.crc ≠ c → t.upd.repairs = [(x.key, c)] ∧ t.tick.actDone = false) ∧
          (x.crc = c → t.upd.repairs = [] ∧ t.tick.actDone = true ∧
            t.get ERR_MISMATCH0.REPAIRED = sat ERR_MISMATCH0.REPAIRED (s.get ERR_MISMATCH0.REPAIRED + 1) ∧
            (s.inReset = false → lowest hs = some (s.get FAB_ID.DEV) → ∀ d ∈ s.peersOf x, d ∉ hs → ∀ o, Routed s d o →
              Msg.repair o d x.key (s.rdBytes ((s.shard x.desc).genAddr (s.get TICK_STEP.STEP % 2)) (s.shard x.desc).GB) ∈
                t.out)))) ∧
    (∀ v, v.cls = 0 → v.mismatch = true → v.err = none → s.parent.isSome = true → s.tick.sent = true →
      s.tick.released = none → s.job = 2 → s.err.handling = none → s.is ERR_SWAP.BUSY = false →
      ∃ t, exec (.barrierRelease 3 v) s = .next t ∧ t.job = 3 ∧ t.mem = s.mem ∧
        t.get TICK_STEP.STEP = s.get TICK_STEP.STEP ∧
        (s.upd.noMajority = true → t.get ERR_STATUS.MISMATCH_HALT = 1 ∧
          t.get ERR_MISMATCH1.HALTED = sat ERR_MISMATCH1.HALTED (s.get ERR_MISMATCH1.HALTED + 1))) ∧
    (s.tick.actDone = false → ∀ key data x k want sh g, s.chkSlots.find? (fun x => x.key == key) = some x →
      s.upd.repairs.find? (fun r => r.1 == key) = some (k, want) → sh = s.shard x.desc → g = s.get TICK_STEP.STEP % 2 →
      (∃ q ∈ s.children, ∀ b ∈ s.tick.barriers, b.1 ≠ q) →
      ∃ t, exec (.repairTransferLanded key data) s = .next t ∧ (∀ r ∈ t.upd.repairs, r.1 ≠ key) ∧
        BytesKept s t [(sh.genAddr g, sh.GB), (sh.expAddr, sh.GB), (s.chkBase + x.desc * 16, 16),
          (sh.wcGen g, sh.count * fmtBytes (gateFmt sh.wcGate))] ∧
        ([(sh.genAddr g, sh.GB), (sh.expAddr, sh.GB), (s.chkBase + x.desc * 16, 16),
          (sh.wcGen g, sh.count * fmtBytes (gateFmt sh.wcGate))].Pairwise
            (fun a b => a.1 + a.2 ≤ b.1 ∨ b.1 + b.2 ≤ a.1) → data.length = sh.GB → (∀ b ∈ data, b < 256) →
          t.rdBytes (sh.genAddr g) sh.GB = data))

/-- Action 4, and the host's commit in HALT, where no word of memory is uncorrectable, make the generation written current:
TICK_STEP increments, the replay
ladder and COMMIT_READY return to 0, and of LPDDR only the census slot, the export's checksum table and the provenance
ring change. -/
def Obligations.CommitAdvancesTheStep : Prop :=
  ∀ (s : State) (c : Instr),
    (c = .commit [] ∧ s.job = 2 ∧ s.tick.glue = 4 ∧ s.tick.actDone = false ∧ s.is TICK_STATUS.DRY = false ∧
      (∃ q ∈ s.children, ∀ b ∈ s.tick.barriers, b.1 ≠ q)) ∨
    (c = .errCtrlCommit [] ∧ s.accepts = true ∧ s.job = 3 ∧ s.is ERR_STATUS.COMMIT_READY = true) → s.poison = [] →
    ∃ t, exec c s = .next t ∧ t.get TICK_STEP.STEP = sat TICK_STEP.STEP (s.get TICK_STEP.STEP + 1) ∧
      t.get ERR_LADDER.ATTEMPT = 0 ∧ t.get ERR_STATUS.COMMIT_READY = 0 ∧ t.job = s.job ∧ t.xr = s.xr ∧
      t.root.runs = [] ∧ t.sol.runs = [] ∧ t.upd.exporting = false ∧
      ∀ x, x < veneerBase 0 → (x < s.censusSlot ∨ s.censusSlot + censusBytes ≤ x) →
        (x < s.get UPD_EXPORT_CHK.ADDR * 64 ∨ s.get UPD_EXPORT_CHK.ADDR * 64 + 0x10000 ≤ x) →
        (x < s.provBase ∨ s.provBase + 0x8000 ≤ x) → Memory.read t.mem x = Memory.read s.mem x

/-- A dry fit commits nothing: in place of action 4 it ends, and actions 5 and 6 are skipped; TICK_STEP, the outbox's
pushes and the inbox stay, and memory keeps every byte but those of a census snapshot. -/
def Obligations.DryFitCommitsNothing : Prop :=
  ∀ s : State, s.is TICK_STATUS.DRY = true → s.job = 1 → s.tick.glue = 4 → s.tick.actDone = false →
    ∃ t, exec (.commit []) s = .next t ∧ t.get TICK_STEP.STEP = s.get TICK_STEP.STEP ∧ t.host.pushes = s.host.pushes ∧
      t.host.inbox = s.host.inbox ∧ t.get TICK_STATUS.DRY = 0 ∧ t.tick.glue = 0 ∧ t.job = 1 ∧ t.get TICK_DRY.DONE = 1 ∧
      t.get TICK_DRY.PASS = ofBool (!s.tick.dryFault) ∧
      t.get TICK_STATUS.BANK = s.get TICK_STATUS.BANK ∧ BytesKept s t [(s.censusSlot, censusBytes)]

/-- The permuting collective: where no word of memory is uncorrectable, action 5 sends every entry's bytes in link frames of at
most 256 bytes, by the routing tables, to its device, or lands them where the entry names this one, for any list of entries, local
and remote, whose places are apart; what arrives by ports that carry the slice is stored, any number of arrivals for places that
are apart, and completes the action when it is all there, every entry was sent and no frame waits; a timeout sets FAILED, raises a
fatal-to-slice error and halts a step in RUN with memory unchanged. That the detecting device halts in the same step is the
model's choice (DESIGN CHOICE): notes/assumptions/11.md. -/
def Obligations.PermutationRunsOrFails : Prop :=
  ∀ s : State,
    (∀ E, E = (List.range (s.get FAB_PERM_TBL.COUNT)).map s.permEntry →
      s.tick.glue = 5 → s.is FAB_PERM.RUNNING = false → s.tick.actDone = false → s.poison = [] →
      ∃ t, exec (.reshardPermutation []) s = .next t ∧ t.get FAB_PERM.RUNNING = 1 ∧ t.job = s.job ∧ t.xr = s.xr ∧
        BytesKept s t (s.localDsts E) ∧
        ((s.localDsts E).Pairwise RangesApart →
          (∀ e ∈ E, ∀ a, s.permSrc e = some a → ∀ r ∈ s.localDsts E, RangesApart (a, e.bytes) r) →
          ∀ e ∈ E, ∀ a, s.permSrc e = some a →
            (∀ b, e.dev = s.get FAB_ID.DEV → s.endRange e.dstV e.dst e.bytes = some b →
              t.rdBytes b e.bytes = s.rdBytes a e.bytes) ∧
            (∀ o k, e.dev ≠ s.get FAB_ID.DEV → Routed s e.dev o → s.inReset = false → k * 256 < e.bytes →
              FrameSent t o e.dev k (part (s.rdBytes a e.bytes) (k * 256) 256)))) ∧
    (∀ ins : List PermIn, s.running = true → s.tick.glue = 5 → s.is FAB_PERM.RUNNING = true → s.poison = [] →
      s.arrivesIn ins → (∀ p, p < 8 → (s.link p).held = []) →
      (∀ k, k < s.get FAB_PERM_TBL.COUNT → (s.permSrc (s.permEntry k)).isSome = true) →
      (∀ r ∈ s.inDsts ins, RangesApart r (s.get FAB_PERM_TBL.ADDR * 32, s.get FAB_PERM_TBL.COUNT * 32)) →
      s.get FAB_PERM_IN.IN_BYTES ≤ s.tick.permIn + (ins.map fun x => x.data.length).sum →
      (∃ q ∈ s.children, ∀ b ∈ s.tick.barriers, b.1 ≠ q) →
      ∃ t, exec (.permutationDone ins) s = .next t ∧ t.tick.actDone = true ∧ t.get FAB_PERM.RUNNING = 0 ∧
        t.get FAB_PERM.CONFIRMED = 0 ∧ t.get FAB_PERM.DONE = 1 ∧ t.job = s.job ∧ t.xr = s.xr ∧
        BytesKept s t (s.inDsts ins) ∧
        ((s.inDsts ins).Pairwise RangesApart → ∀ x ∈ ins, ∀ a, s.endRange x.veneer x.addr x.data.length = some a →
          (∀ b ∈ x.data, b < 256) → t.rdBytes a x.data.length = x.data) ∧
        ∀ g : Fld, g.lo < 64 → g.addr < 0x030050000000 ∨ 0x030058000000 ≤ g.addr →
          g.key ∉ [FAB_PERM.RUNNING.key, FAB_PERM.CONFIRMED.key, FAB_PERM.DONE.key, FAB_PERM_LIMIT.LAST_KCC.key] →
          (∀ x ∈ ins, g.key ≠ (LNK_RX_BYTES.BYTES x.port).key) → t.get g = s.get g) ∧
    (s.is FAB_PERM.RUNNING = true → s.job = 2 → s.err.handling = none → s.is ERR_SWAP.BUSY = false →
      ∃ t, exec .permutationTimeout s = .next t ∧ t.get FAB_PERM.FAILED = 1 ∧ t.get FAB_PERM.RUNNING = 0 ∧ t.job = 3 ∧
        t.mem = s.mem ∧ t.get TICK_STATUS.BANK = s.get TICK_STATUS.BANK ∧
        t.get ERR_COUNT1.FATAL_SLICE = sat ERR_COUNT1.FATAL_SLICE (s.get ERR_COUNT1.FATAL_SLICE + 1))

/-- A confirmed phase change swaps the banks where every inactive bank is sealed, and is missed otherwise; either way
ARM falls and memory stays. That a missed one goes on to action 7 without a barrier of its own is the model's reading (log
entry 31). At action 7 a requested halt takes effect with the step committed; a missing input holds
the glue-up and counts once; with the inputs of the next step resident and no push outstanding the device goes on to
the square-up. -/
def Obligations.PhaseChangeAndActionSeven : Prop :=
  ∀ s : State, s.job = 2 →
    (s.tick.glue = 6 → s.tick.actDone = false →
      (s.tick.phaseOk = true → s.tick.sealedAll = true → s.get TICK_STATUS.BANK < 2 →
        (∃ q ∈ s.children, ∀ b ∈ s.tick.barriers, b.1 ≠ q) →
        ∃ t, exec .phaseChange s = .next t ∧ t.get TICK_STATUS.BANK = 1 - s.get TICK_STATUS.BANK ∧ t.get TICK_PHASE.ARM = 0 ∧
          t.tick.actDone = true ∧ t.tick.phaseOk = false ∧ t.mem = s.mem ∧ t.job = s.job ∧
          t.get TICK_STEP.STEP = s.get TICK_STEP.STEP) ∧
      (s.tick.phaseOk = false ∨ s.tick.sealedAll = false →
        ∃ t, exec .phaseChange s = .next t ∧ t.get TICK_STATUS.BANK = s.get TICK_STATUS.BANK ∧ t.get TICK_PHASE.ARM = 0 ∧
          t.get TICK_PHASE.MISSED = 1 ∧ t.tick.glue = 7 ∧ t.mem = s.mem ∧ t.job = s.job)) ∧
    (s.tick.glue = 7 →
      (s.tick.haltPend = true → ∃ t, exec .inputResidencyCheck s = .next t ∧ t.job = 3 ∧ t.mem = s.mem ∧
        t.get TICK_STEP.STEP = s.get TICK_STEP.STEP) ∧
      (s.tick.haltPend = false → s.resident (s.get TICK_STEP.STEP + 1) = false → s.tick.held = false →
        ∃ t, exec .inputResidencyCheck s = .next t ∧ t.tick.glue = 7 ∧ t.tick.held = true ∧ t.job = 2 ∧ t.mem = s.mem ∧
          t.get TICK_GLUE.HOLDS = sat TICK_GLUE.HOLDS (s.get TICK_GLUE.HOLDS + 1)) ∧
      (s.tick.haltPend = false → s.resident (s.get TICK_STEP.STEP + 1) = true → s.pushDue = false → s.allGathered = false →
        ∃ t, exec .inputResidencyCheck s = .next t ∧ t.tick.glue = 8 ∧ { t with tick := s.tick } = s))

/-- The square-up: a child's gather is kept while another is missing; the parent's go frame, when it comes within the
lead, is forwarded to every child with the link's delay and the device's own 192 qc, and sets the cycle of tick 0. -/
def Obligations.SquareUpGathersAndGoes : Prop :=
  ∀ s : State,
    (∀ p k, p < 8 → p ∈ s.children → (∀ g ∈ s.tick.gathers, g.1 ≠ p) →
      (∃ q ∈ s.children, q ≠ p ∧ ∀ g ∈ s.tick.gathers, g.1 ≠ q) →
      ∃ t, exec (.squareUpGather p k) s = .next t ∧ t.tick.gathers = s.tick.gathers ++ [(p, k)] ∧
        { t with tick := s.tick } = s) ∧
    (∀ g : GoFrame, s.parent.isSome = true → s.tick.sent = true → s.squareReady = true → s.job = 2 →
      s.is TICK_STATUS.DRY = false → g.accDelay ≤ 4 * s.get FAB_SQUP.LEAD_CC →
      ∃ t, exec (.squareUpGo g) s = .next t ∧ t.mem = s.mem ∧ t.job = 2 ∧ t.tick.squareUps = s.tick.squareUps + 1 ∧
        t.tick.tickZeroAt = some (s.tick.now + s.get FAB_SQUP.LEAD_CC - (g.accDelay + 2) / 4) ∧
        t.get FAB_SQUP.ACC_DELAY = g.accDelay % 2 ^ FAB_SQUP.ACC_DELAY.width ∧ t.tick.phaseOk = g.phase ∧
        (s.tick.firstSquareUp = true → t.get FAB_ENTROPY.WORD = g.entropy % 2 ^ 64) ∧
        (s.inReset = false → ∀ p ∈ s.children, Msg.go p { g with accDelay := (g.accDelay + s.get (LNK_SHIM.SHIM_QC p) + 192) % 2 ^ 24 } ∈ t.out))

/-- The glue-up watchdog, while no exclusion holds it, records the action and halts the slice; a halt notice goes on
along every other tree port and stops a device at its tick boundary or, in a glue-up, at once; a queued error takes
effect once no handling is in progress. Committed memory stays. That the device that detects a fatal error, or hears of
one in a glue-up, halts in the same step is the model's choice (log entry 11). -/
def Obligations.WatchdogNoticesAndQueuedErrors : Prop :=
  ∀ s : State, s.job = 2 →
    (s.tick.glue ≠ 0 → s.wdogHeld = false → s.err.handling = none → s.is ERR_SWAP.BUSY = false →
      ∃ t, exec .glueUpWatchdog s = .next t ∧ t.job = 3 ∧ t.get ERR_STATUS.WDOG_FIRED = 1 ∧ t.mem = s.mem ∧
        t.get ERR_WDOG.ACTION = s.tick.glue % 2 ^ ERR_WDOG.ACTION.width) ∧
    (∀ p e, p < 8 → ∃ t, exec (.haltNotice p e) s = .next t ∧ t.mem = s.mem ∧
      (s.inReset = false → ∀ q ∈ s.treePorts, q ≠ p → Msg.halt q e ∈ t.out) ∧
      (s.tick.inTick = true → t.tick.haltAtBoundary = true ∧ t.job = 2) ∧
      (s.tick.inTick = false → s.tick.glue ≠ 0 → s.is ERR_SWAP.BUSY = false →
        t.job = 3 ∧ t.get ERR_STATUS.HALT_NOTICE = 1)) ∧
    (∀ x q, s.err.handling = none → s.err.queue = x :: q →
      (x.err.cls = 1 → ∃ t, exec .queuedError s = .next t ∧ t.err.handling = some x.err ∧ t.err.queue = q ∧ t.job = 2 ∧
        t.mem = s.mem ∧ t.get ERR_STATUS.HANDLING = 1 ∧
        t.get ERR_STATUS.QDEPTH = q.length % 2 ^ ERR_STATUS.QDEPTH.width) ∧
      (x.err.cls = 2 → s.is ERR_SWAP.BUSY = false → ∃ t, exec .queuedError s = .next t ∧ t.job = 3 ∧ t.mem = s.mem))

/-! ### Spare swaps and the other requests of the error block -/

/-- ERR_SWAP of an active position in IDLE or HALT starts a swap where the row has a spare, and fails where it has none
or the position is not active; in LOADED and RUN only PCLUSTER is written. When the swap is done the spare is active in
the position's place, the swap is counted, and no byte changes outside the row's regions and list memories. That the
swap of an inactive position ends with FAILED is the model's reading (log entry 31). -/
def Obligations.SpareSwapReplacesACluster : Prop :=
  ∀ (s : State) (c : Nat), c < nPhys →
    (s.accepts = true → s.is ERR_SWAP.BUSY = false → (s.job = 0 ∨ s.job = 3) →
      (s.isActive c = true → ∀ k, spareFor s.active s.good c = some k → ∃ t, exec (.errSwap c) s = .next t ∧
        t.get ERR_SWAP.BUSY = 1 ∧ t.err.swaps = [c] ∧ t.resp = ⟨true, 0⟩ ∧ t.mem = s.mem ∧ t.active = s.active) ∧
      (s.isActive c = true → spareFor s.active s.good c = none → ∃ t, exec (.errSwap c) s = .next t ∧
        t.get ERR_SWAP.BUSY = 0 ∧ t.get ERR_SWAP.FAILED = 1 ∧ t.get ERR_STATUS.SPARE_EXHAUSTED = 1 ∧ t.mem = s.mem ∧
        t.active = s.active) ∧
      (s.isActive c = false → ∃ t, exec (.errSwap c) s = .next t ∧ t.get ERR_SWAP.FAILED = 1 ∧
        OnlyFields s.okay t [ERR_SWAP.PCLUSTER, ERR_SWAP.FAILED])) ∧
    (s.accepts = true → (s.job = 1 ∨ s.job = 2) → ∃ t, exec (.errSwap c) s = .next t ∧
      OnlyFields s.okay t [ERR_SWAP.PCLUSTER]) ∧
    (∀ k, s.is ERR_SWAP.BUSY = true → s.err.swaps = [c] → s.isActive c = true → spareFor s.active s.good c = some k →
      s.err.haltAfter = false → s.allGathered = false →
      ∃ t, exec .spareSwapDone s = .next t ∧ t.get ERR_SWAP.BUSY = 0 ∧ t.get ERR_SWAP.DONE = 1 ∧ t.isActive c = false ∧
        t.isActive k = true ∧ (∀ p, p ≠ c → p ≠ k → t.isActive p = s.isActive p) ∧
        t.get ERR_SPARE.LAST_PCLUSTER = c % 2 ^ ERR_SPARE.LAST_PCLUSTER.width ∧
        t.get ERR_SPARE.SWAPS = sat ERR_SPARE.SWAPS (s.get ERR_SPARE.SWAPS + 1) ∧
        BytesKept s t [(veneerBase (c / 34 * 34), 34 * 0x400000), (listBase .cluster (c / 34 * 34), 34 * 0x20000)])

/-- LOG_CLEAR empties the log and its status, CNT_CLEAR zeroes the thirteen ERR counters, and a write of ERR_INJECT
stores its fields and arms only in RUN; nothing else changes. A synthetic error is raised at the first cycle of the
tick that ERR_INJECT names, in the step after its arming: it is counted in its class, a contained one is taken in hand
with CODE INJECT and the scope and index written, and the request is spent. Elsewhere nothing happens. -/
def Obligations.ErrorBlockRequestsAndInjection : Prop :=
  (∀ s : State, s.accepts = true →
      (∃ t, exec .errLogClear s = .next t ∧ t.err.log = [] ∧ t.get ERR_LOG_STATUS.NEXT = 0 ∧ t.get ERR_LOG_STATUS.TOTAL = 0 ∧
        t.get ERR_LOG_STATUS.WRAPPED = 0 ∧
        OnlyFields { s.okay with err := t.err } t [ERR_LOG_STATUS.NEXT, ERR_LOG_STATUS.WRAPPED, ERR_LOG_STATUS.TOTAL]) ∧
      (∀ l, l = [ERR_COUNT0.CORRECTED, ERR_COUNT0.CONTAINED, ERR_COUNT1.FATAL_SLICE, ERR_COUNT1.FATAL_DEVICE,
          ERR_COUNT2.MERGED, ERR_COUNT2.QUEUED, ERR_COUNT3.PREEMPTED, ERR_COUNT3.ESCALATED, ERR_LADDER.REPLAYS,
          ERR_SPARE.SWAPS, ERR_MISMATCH0.TRANSIENT, ERR_MISMATCH0.REPAIRED, ERR_MISMATCH1.HALTED] →
        ∃ t, exec .errCntClear s = .next t ∧ (∀ f ∈ l, t.get f = 0) ∧ OnlyFields s.okay t l) ∧
      (∀ v, ∃ t, exec (.errInjectArm v) s = .next t ∧ t.get ERR_INJECT.CLASS = bits v 0 0 ∧
        t.get ERR_INJECT.SCOPE = bits v 3 1 ∧ t.get ERR_INJECT.INDEX = bits v 19 4 ∧
        t.get ERR_INJECT.TICK_IN_STEP = bits v 35 20 ∧
        t.get ERR_INJECT.ARM = (if bit v 36 = true ∧ s.job = 2 then 1 else s.get ERR_INJECT.ARM) ∧
        { t.tick with injectStep := s.tick.injectStep } = s.tick ∧
        OnlyFields { s.okay with tick := t.tick } t
          [ERR_INJECT.CLASS, ERR_INJECT.SCOPE, ERR_INJECT.INDEX, ERR_INJECT.TICK_IN_STEP, ERR_INJECT.ARM])) ∧
  (∀ s : State,
      (s.job = 2 → s.tick.injectLive = true → s.tick.inTick = true → s.tick.cc = 0 →
        s.get TICK_STATUS.TICK_IN_STEP = s.get ERR_INJECT.TICK_IN_STEP →
        ∃ t, exec .injectedError s = .next t ∧ t.get ERR_INJECT.ARM = 0 ∧ t.tick.injectLive = false ∧ t.mem = s.mem ∧
          (s.get ERR_INJECT.CLASS = 0 → t.job = 2 ∧
            t.get ERR_COUNT0.CORRECTED = min (s.get ERR_COUNT0.CORRECTED + 1) (2 ^ 32 - 1)) ∧
          (s.get ERR_INJECT.CLASS = 1 → s.err.handling = none → t.job = 2 ∧ t.get ERR_STATUS.HANDLING = 1 ∧
            t.get ERR_COUNT0.CONTAINED = min (s.get ERR_COUNT0.CONTAINED + 1) (2 ^ 32 - 1) ∧
            ∃ e, t.err.handling = some e ∧ e.cls = 1 ∧ e.scope = s.get ERR_INJECT.SCOPE ∧
              e.index = s.get ERR_INJECT.INDEX ∧ e.source = 0x12 ∧ e.code = 9)) ∧
      (s.job ≠ 2 ∨ s.tick.injectLive = false → exec .injectedError s = .next s))

/-! ### Arms and requests of the update units and the fabric -/

/-- REGEN is taken in LOADED only, and its completion rewrites the committed working copies and nothing else;
EXPORT.ARM needs AT_STEP beyond TICK_STEP, and its step is kept, with a corrected-class event, while armed;
FAB_PERM.ARM is refused for a slice of more than 512 devices, and CANCEL clears an arm that is not confirmed. -/
def Obligations.ArmsOfTheUpdateUnitsAndFabric : Prop :=
  ∀ s : State, s.accepts = true →
    (s.job = 1 → ∃ t, exec .updRegen s = .next t ∧ t.upd.regenPend = true ∧ { t with upd := s.upd } = s.okay) ∧
    (s.job ≠ 1 → exec .updRegen s = .next s.okay) ∧
    (s.upd.regenPend = true → s.poison = [] → ∃ t, exec (.regenDone []) s = .next t ∧ t.get UPD_CTRL.REGEN_DONE = 1 ∧
      t.upd.regenPend = false ∧ t.census = s.census ∧
      BytesKept s t (s.shards.map fun p =>
        (p.2.wcGen ((s.get TICK_STEP.STEP + 1) % 2), p.2.count * fmtBytes (gateFmt p.2.wcGate))) ∧
      OnlyFields { s with mem := t.mem, poison := t.poison, upd := t.upd, err := t.err, freeCtr := t.freeCtr } t
        [UPD_CTRL.REGEN_DONE] ∧
      ((∀ p ∈ s.shards, s.dataOk (p.2.genAddr ((s.get TICK_STEP.STEP + 1) % 2)) (p.2.count * fmtBytes p.2.masterFmt) = true ∧
          s.dataOk (p.2.wcGen ((s.get TICK_STEP.STEP + 1) % 2)) (p.2.count * fmtBytes (gateFmt p.2.wcGate)) = true) →
        t.err = s.err)) ∧
    (s.get TICK_STEP.STEP < s.get UPD_EXPORT_STEP.AT_STEP → ∃ t, exec .updExportArm s = .next t ∧
      t.get UPD_EXPORT.ARM = 1 ∧ OnlyFields s.okay t [UPD_EXPORT.ARM]) ∧
    (s.get UPD_EXPORT_STEP.AT_STEP ≤ s.get TICK_STEP.STEP → exec .updExportArm s = .next s.okay) ∧
    (∀ v, s.is UPD_EXPORT.ARM = false → ∃ t, exec (.updExportStepWrite v) s = .next t ∧
      t.get UPD_EXPORT_STEP.AT_STEP = v % 2 ^ 64 ∧ OnlyFields s.okay t [UPD_EXPORT_STEP.AT_STEP]) ∧
    (∀ v, s.is UPD_EXPORT.ARM = true → ∃ t, exec (.updExportStepWrite v) s = .next t ∧ t.mem = s.mem ∧
      t.get UPD_EXPORT_STEP.AT_STEP = s.get UPD_EXPORT_STEP.AT_STEP) ∧
    (s.get FAB_SLICE.SIZE ≤ 512 → ∃ t, exec .fabPermArm s = .next t ∧ t.get FAB_PERM.ARM = 1 ∧
      OnlyFields s.okay t [FAB_PERM.ARM]) ∧
    (512 < s.get FAB_SLICE.SIZE → ∃ t, exec .fabPermArm s = .next t ∧ t.get FAB_PERM.REFUSED = 1 ∧
      OnlyFields s.okay t [FAB_PERM.REFUSED]) ∧
    (s.is FAB_PERM.CONFIRMED = false → ∃ t, exec .fabPermCancel s = .next t ∧ t.get FAB_PERM.ARM = 0 ∧
      OnlyFields s.okay t [FAB_PERM.ARM]) ∧
    (s.is FAB_PERM.CONFIRMED = true → exec .fabPermCancel s = .next s.okay)

/-! ### Links -/

/-- A frame that the link layer cannot use is counted and answered with a NAK, which names the SEQ that is awaited (the
model's reading, log entry 21); one with a reserved header bit set
changes neither memory nor a landing; a good frame of another device goes out, with a new link number and CRC, by the
egress of the routing table or its alternate; a good frame for this device lands: each part of its payload is stored,
or added, at its place in the transfer of the LAND that matches, and no other byte changes. -/
def Obligations.FramesAreCheckedForwardedOrLanded : Prop :=
  ∀ (s : State) (p cc : Nat) (f : Frame), p < 8 → s.get (LNK_STATUS.STATE p) = 2 →
    (f.badCw ≠ 0 ∨ f.crc ≠ frameCrc f → ∃ t, exec (.frameArrive p cc f) s = .next t ∧ t.mem = s.mem ∧
      (f.badCw ≠ 0 → t.get (LNK_FEC.UNCORR_CW p) = sat (LNK_FEC.UNCORR_CW p) (s.get (LNK_FEC.UNCORR_CW p) + f.badCw)) ∧
      (f.badCw = 0 → t.get (LNK_CRC.CRC_ERR p) = sat (LNK_CRC.CRC_ERR p) (s.get (LNK_CRC.CRC_ERR p) + 1)) ∧
      (s.inReset = false → Msg.linkNak p (s.link p).rxSeq ∈ t.out)) ∧
    (f.badCw = 0 → f.crc = frameCrc f → f.seq = (s.link p).rxSeq → f.rsvd % 2 ^ 5 ≠ 0 →
      ∃ t, exec (.frameArrive p cc f) s = .next t ∧ t.mem = s.mem ∧ t.lands = s.lands) ∧
    (f.badCw = 0 → f.crc = frameCrc f → f.seq = (s.link p).rxSeq → f.rsvd % 2 ^ 5 = 0 → s.carries p f.slice = true →
      (∀ q o, s.inReset = false → s.get (LNK_RTBL.OUT p (f.dst / 8) (f.dst % 8)) = q → q < 8 →
        s.egress q (s.get (LNK_RTBL.ALT p (f.dst / 8) (f.dst % 8))) = some o → s.carries o f.slice = true →
        (s.link o).replay.length + (s.link o).due.length < window →
        ∃ t g, exec (.frameArrive p cc f) s = .next t ∧ t.mem = s.mem ∧ Msg.frame o g ∈ t.out ∧
          ((s.link o).due = [] → g.seq = (s.link o).txSeq) ∧ g.crc = frameCrc g ∧
          { g with seq := f.seq, crc := f.crc } = f) ∧
      (∀ q l x n, f.ctrl = false → s.get (LNK_RTBL.OUT p (f.dst / 8) (f.dst % 8)) = 8 → s.poison = [] → s.running = true →
        s.tick.inTick = true → s.tick.glue = 0 → f.epoch = s.tick.squareUps % 4 →
        (∀ m ∈ s.lands, ¬(m.abandoned = true ∧ m.tag = f.tag ∧ m.src = f.src)) →
        s.landEntry (s.get TICK_STATUS.TICK_IN_STEP) f = some q →
        l = (s.lands.find? fun m => m.port == q.1 && m.entry == q.2.index && m.atTick == s.get TICK_COUNT.COUNT).getD
          (mkLand q.1 q.2 (s.get TICK_COUNT.COUNT) (s.xferWords q.2.desc)) →
        x = xferOf l.words → n = (if x.add then fmtBytes x.fmt else 16) → 0 < n →
        f.offset * 256 + f.payload.length ≤ l.bytes → (∀ b ∈ f.payload, b < 256) →
        ∃ t, exec (.frameArrive p cc f) s = .next t ∧ t.job = s.job ∧
          { l with landed := l.landed + f.payload.length } ∈ t.lands ∧
          ((∀ j k a b, j < k → k < f.payload.length / n → x.at s.active (f.offset * 256 + j * n) = some a →
              x.at s.active (f.offset * 256 + k * n) = some b → a + n ≤ b ∨ b + n ≤ a) →
            ∀ k a, k < f.payload.length / n → x.at s.active (f.offset * 256 + k * n) = some a →
              t.rd a n = (if x.add then
                  (if x.order then landAdd x.fmt (decode x.fmt (leNat ((f.payload.drop (k * n)).take n)))
                    (decode x.fmt (s.rd a n))
                  else landAdd x.fmt (decode x.fmt (s.rd a n))
                    (decode x.fmt (leNat ((f.payload.drop (k * n)).take n)))).1
                else leNat ((f.payload.drop (k * n)).take n)) % 2 ^ (8 * n)) ∧
          BytesKept s t ((List.range (f.payload.length / n)).filterMap fun k =>
            (x.at s.active (f.offset * 256 + k * n)).map fun a => (a, n))))

/-- An acknowledgement removes the frames it covers from the replay buffer; a NAK or a timeout begins a replay event
and sends the outstanding frames again, in order; 256 cc after a frame this end acknowledges what it has accepted; an
event that outruns its bound is a link fault. None changes memory. The loss of lane lock or of the partner on a port
that is up is a link fault: outside STRICT the port is rerouted and the step replays, under STRICT the slice halts, in
the same step by the model's choice (log entry 11). The port's replay buffer is discarded. -/
def Obligations.ReplayAndLinkFaults : Prop :=
  (∀ (s : State) (p : Nat), p < 8 →
      (∀ q, (s.link p).event = none → (s.link p).held = [] → ∃ t, exec (.ackReceive p q) s = .next t ∧
        t.link p = { s.link p with replay := ackFrames (s.link p).replay q } ∧ (∀ r, r ≠ p → t.link r = s.link r) ∧
        { t with links := s.links } = s) ∧
      (∀ c q f l, (c = .nakReceive p q ∨ (c = .linkAckTimeout p ∧ q = f.1)) → (s.link p).event = none →
        (s.link p).replay = f :: l → s.inReset = false → ∃ t e, exec c s = .next t ∧ t.get (LNK_STATUS.REPLAYING p) = 1 ∧
          (t.link p).event = some (e, 1, s.tick.now) ∧
          t.out = s.out ++ ((f :: l).dropWhile fun x => x.1 != q).map (fun x => Msg.frame p x.2) ∧
          { t.tick with causes := s.tick.causes } = s.tick ∧
          OnlyFields { s with links := t.links, out := t.out, tick := t.tick } t [LNK_STATUS.REPLAYING p]) ∧
      (0 < (s.link p).rxUnacked → s.inReset = false → ∃ t, exec (.cumulativeAck p) s = .next t ∧ (t.link p).rxUnacked = 0 ∧
        t.out = s.out ++ [Msg.linkAck p (((s.link p).rxSeq + 2 ^ 16 - 1) % 2 ^ 16)] ∧
        { t with links := s.links, out := s.out } = s) ∧
      (∀ e, (s.link p).event = some e → ∃ t, exec (.replayExhausted p) s = .next t ∧
        t.get (LNK_REPLAY.EXHAUSTED p) = sat (LNK_REPLAY.EXHAUSTED p) (s.get (LNK_REPLAY.EXHAUSTED p) + 1) ∧
        t.get (LNK_FLAGS.LINK_FAULT p) = 1 ∧ t.mem = s.mem)) ∧
  (∀ (s : State) (p : Nat) (c : Instr), p < 8 → c = .laneLockLoss p ∨ c = .partnerLoss p →
      s.get (LNK_STATUS.STATE p) = 2 → s.is FAB_PERM.RUNNING = false → s.err.handling = none → s.job = 2 →
      (s.is DET_MODE.STRICT = false → ∃ t, exec c s = .next t ∧ t.get (LNK_STATUS.STATE p) = 3 ∧ t.job = 2 ∧
        t.get (LNK_FLAGS.LINK_FAULT p) = 1 ∧ t.get (LNK_STATUS.REROUTED p) = 1 ∧ t.get FAB_FLAGS.REROUTED = 1 ∧
        t.get DET_ND_USED.REROUTE = 1 ∧ (t.link p).replay = [] ∧ t.mem = s.mem ∧
        t.get ERR_COUNT0.CONTAINED = sat ERR_COUNT0.CONTAINED (s.get ERR_COUNT0.CONTAINED + 1)) ∧
      (s.is DET_MODE.STRICT = true → s.is ERR_SWAP.BUSY = false → ∃ t, exec c s = .next t ∧ t.job = 3 ∧
        t.get (LNK_STATUS.STATE p) = 3 ∧ t.get (LNK_FLAGS.LINK_FAULT p) = 1 ∧ t.mem = s.mem))

/-- A training, asked for by this end in IDLE or HALT or by the partner, takes the port out of service with its link
layer reset; in LOADED and RUN a request does nothing, and a device whose lanes are idle takes no part. When it ends, at most two failed lanes, a common rate and a
delay within the class limit bring the port up with what was found, and anything else fails it. RESTORE ends the
reroute of a port that is up. -/
def Obligations.TrainingBringsAPortUp : Prop :=
  ∀ (s : State) (p : Nat), p < 8 →
    (∀ c o, s.accepts = true → (c = .lnkTrain p ∧ (s.job = 0 ∨ s.job = 3) ∧ o = s.okay) ∨
        (c = .partnerTrainingRequest p ∧ o = s) →
      ∃ t, exec c s = .next t ∧ t.get (LNK_STATUS.STATE p) = 1 ∧ t.get (LNK_STATUS.LANES_UP p) = 0 ∧
        t.link p = { Link.reset with partnerMhz := (s.link p).partnerMhz } ∧ (∀ q, q ≠ p → t.link q = s.link q) ∧
        OnlyFields { o with links := t.links } t
          [LNK_STATUS.STATE p, LNK_STATUS.RATE p, LNK_STATUS.LANES_UP p, LNK_STATUS.REPLAYING p]) ∧
    (s.accepts = true → s.job = 1 ∨ s.job = 2 →
      exec (.lnkTrain p) s = .next s.okay ∧ exec (.lnkRestore p) s = .next s.okay) ∧
    (s.accepts = true → s.job = 0 ∨ s.job = 3 → s.get (LNK_STATUS.STATE p) = 2 → ∃ t, exec (.lnkRestore p) s = .next t ∧
      t.get (LNK_STATUS.REROUTED p) = 0 ∧ OnlyFields s.okay t [LNK_STATUS.REROUTED p]) ∧
    (s.accepts = false → exec (.partnerTrainingRequest p) s = .next s) ∧
    (∀ r : TrainResult, s.accepts = true → s.pwr.wakeSrc = none → s.get (LNK_STATUS.STATE p) = 1 → ∃ t, exec (.linkTrainDone p r) s = .next t ∧
      (r.failedLanes.length ≤ 2 → r.partnerRate ≠ 0 → r.shimQc * 250 ≤ portLimitNs p * s.get CLK_STATUS.CORE_MHZ →
        t.get (LNK_STATUS.STATE p) = 2 ∧ t.get (LNK_STATUS.LANES_UP p) = portLanes p ∧
        t.get (LNK_STATUS.RATE p) = min r.partnerRate 2 ∧
        t.get (LNK_SHIM.SHIM_QC p) = r.shimQc % 2 ^ (LNK_SHIM.SHIM_QC p).width) ∧
      (2 < r.failedLanes.length ∨ r.partnerRate = 0 ∨ portLimitNs p * s.get CLK_STATUS.CORE_MHZ < r.shimQc * 250 →
        t.get (LNK_STATUS.STATE p) = 3) ∧
      OnlyFields { s with links := t.links } t [LNK_STATUS.STATE p, LNK_STATUS.RATE p, LNK_STATUS.LANES_UP p,
        LNK_LANEMAP.SPARE0_FOR p, LNK_LANEMAP.SPARE1_FOR p, LNK_LANEMAP.FAILED p, LNK_SHIM.SHIM_QC p,
        LNK_SHIM.PARTNER p, LNK_SHIM.PARTNER_PORT p])

/-- LNK_FEC counts corrected and uncorrectable codewords. More corrected codewords in a window than LNK_BER.THRESH set
BER_WARN and raise a corrected-class event, and the port keeps its state; otherwise they are only counted. -/
def Obligations.BitErrorsAreCountedAndWarned : Prop :=
  ∀ (s : State) (p : Nat), p < 8 →
    (∀ n, ∃ t, exec (.berWarn p n) s = .next t ∧ t.mem = s.mem ∧ t.job = s.job ∧
      t.get (LNK_FEC.CORR_CW p) = sat (LNK_FEC.CORR_CW p) (s.get (LNK_FEC.CORR_CW p) + n) ∧
      t.get (LNK_STATUS.STATE p) = s.get (LNK_STATUS.STATE p) ∧
      (s.get (LNK_BER.THRESH p) < n → t.get (LNK_FLAGS.BER_WARN p) = 1 ∧
        t.get ERR_COUNT0.CORRECTED = sat ERR_COUNT0.CORRECTED (s.get ERR_COUNT0.CORRECTED + 1)) ∧
      (n ≤ s.get (LNK_BER.THRESH p) → OnlyFields s t [LNK_FEC.CORR_CW p])) ∧
    (∀ cc f, s.get (LNK_STATUS.STATE p) = 2 → f.badCw ≠ 0 → ∃ t, exec (.frameArrive p cc f) s = .next t ∧
      t.get (LNK_FEC.UNCORR_CW p) = sat (LNK_FEC.UNCORR_CW p) (s.get (LNK_FEC.UNCORR_CW p) + f.badCw))

/-! ### Clocks and the frequency source -/

/-- The frequency source changes while no job is loaded only, a write of another value under a loaded job being logged,
and a change loses the lock; its loss switches to an alternate port that is up or holds over, and a holdover of 1 s
halts a step in RUN, in the same step by the model's choice (log entry 11). A core-rate change relocks the PLL and trains every port, and is kept and logged under a loaded
job; a relock locks the PLL and is counted; the loss of a REFCLK in use loses the lock. -/
def Obligations.ClockSourcesSwitchAndRelock : Prop :=
  ∀ s : State,
    (∀ v, s.accepts = true →
      (s.tick.loaded = true → ∃ t, exec (.syntSourceWrite v) s = .next t ∧ t.get FAB_SYNT.SRC = s.get FAB_SYNT.SRC ∧
        t.get FAB_SYNT.ALT_SRC = s.get FAB_SYNT.ALT_SRC ∧ t.mem = s.mem ∧ t.job = s.job ∧
        (bits v 1 0 ≠ s.get FAB_SYNT.SRC ∨ bits v 3 2 ≠ s.get FAB_SYNT.ALT_SRC →
          min (s.get ERR_COUNT0.CORRECTED + 1) (2 ^ 32 - 1) ≤ t.get ERR_COUNT0.CORRECTED) ∧
        (bits v 1 0 = s.get FAB_SYNT.SRC → bits v 3 2 = s.get FAB_SYNT.ALT_SRC → t = s.okay)) ∧
      (s.tick.loaded = false → ∃ t, exec (.syntSourceWrite v) s = .next t ∧ t.get FAB_SYNT.SRC = bits v 1 0 ∧
        t.get FAB_SYNT.ALT_SRC = bits v 3 2 ∧
        (bits v 1 0 ≠ s.get FAB_SYNT.SRC → t.get FAB_SYNT.LOCKED = 0 ∧ t.get CLK_STATUS.PLL_LOCK = 0) ∧
        OnlyFields s.okay t
          [FAB_SYNT.SRC, FAB_SYNT.ALT_SRC, FAB_SYNT.LOCKED, CLK_STATUS.PLL_LOCK, FAB_SYNT.HOLDOVER])) ∧
    (∀ a, s.get FAB_SYNT.SRC ≠ 0 → a = s.get FAB_SYNT.ALT_SRC →
      ((a = 1 ∨ a = 2) → a ≠ s.get FAB_SYNT.SRC → s.get (LNK_STATUS.STATE (syntPort a)) = 2 →
        ∃ t, exec .syntSourceLoss s = .next t ∧ t.get FAB_SYNT.SRC = a ∧ OnlyFields s t [FAB_SYNT.SRC]) ∧
      (a = s.get FAB_SYNT.SRC ∨ (a ≠ 1 ∧ a ≠ 2) ∨ s.get (LNK_STATUS.STATE (syntPort a)) ≠ 2 →
        ∃ t, exec .syntSourceLoss s = .next t ∧ t.get FAB_SYNT.HOLDOVER = 1 ∧ OnlyFields s t [FAB_SYNT.HOLDOVER])) ∧
    (s.is FAB_SYNT.HOLDOVER = true → s.job = 2 → s.err.handling = none → s.is ERR_SWAP.BUSY = false →
      ∃ t, exec .holdoverTimeout s = .next t ∧ t.job = 3 ∧ t.mem = s.mem) ∧
    (∀ v, s.accepts = true → bits v 0 0 ≠ s.get CLK_CFG.RATE →
      (s.tick.loaded = false → ∃ t, exec (.clkRateWrite v) s = .next t ∧ t.resp = ⟨true, 0⟩ ∧
        t.get CLK_CFG.RATE = bits v 0 0 ∧ t.get CLK_STATUS.PLL_LOCK = 0 ∧ t.mem = s.mem ∧
        ∀ p, p < 8 → t.get (LNK_STATUS.STATE p) = 1) ∧
      (s.tick.loaded = true → ∃ t, exec (.clkRateWrite v) s = .next t ∧ t.get CLK_CFG.RATE = s.get CLK_CFG.RATE ∧
        t.mem = s.mem ∧ t.get ERR_COUNT0.CORRECTED = sat ERR_COUNT0.CORRECTED (s.get ERR_COUNT0.CORRECTED + 1))) ∧
    (s.powered = true → s.boot.configuring = false → s.is CLK_STATUS.PLL_LOCK = false → s.pwr.refOk = true →
      ∃ t, exec .pllRelockDone s = .next t ∧ t.get CLK_STATUS.PLL_LOCK = 1 ∧ t.get FAB_SYNT.LOCKED = 1 ∧
        t.get CLK_STATUS.RELOCKS = sat CLK_STATUS.RELOCKS (s.get CLK_STATUS.RELOCKS + 1) ∧
        OnlyFields s t [CLK_STATUS.PLL_LOCK, CLK_STATUS.CORE_MHZ, FAB_SYNT.LOCKED, CLK_STATUS.RELOCKS]) ∧
    (∀ b, s.powered = true → ∃ t, exec (.refclkLoss b) s = .next t ∧ t.pwr.refOk = b ∧
      t.get CLK_STATUS.REF_OK = ofBool b ∧
      (b = false → s.get FAB_SYNT.SRC = 0 → t.get CLK_STATUS.PLL_LOCK = 0 ∧ t.get FAB_SYNT.LOCKED = 0) ∧
      OnlyFields { s with pwr := t.pwr } t [CLK_STATUS.REF_OK, CLK_STATUS.PLL_LOCK, FAB_SYNT.LOCKED])

/-! ### Memory -/

/-- The patrol scrubs, of positions that the map marks good, count what they find and, for an uncorrectable error, mark
the word, whose bytes are then open, and leave every other byte; after a cold reset the two memories read 0 once they
are initialised and trained. -/
def Obligations.ScrubsAndInitialisation : Prop :=
  ∀ s : State,
    (∀ p x, p < nPhys → s.dead = false → bit s.good p = true → s.is VNR_SCRUB.ENABLE = true → s.is VNR_STATUS.INIT_DONE = true →
      (x.ue = false → x.written = false → ∃ t, exec (.veneerScrub p [x] false) s = .next t ∧
        t.get VNR_SCRUB_STAT.SCRUB_CE = sat VNR_SCRUB_STAT.SCRUB_CE (s.get VNR_SCRUB_STAT.SCRUB_CE + 1) ∧
        OnlyFields { s with tallies := t.tallies } t [VNR_SCRUB_STAT.SCRUB_CE]) ∧
      (x.ue = false → x.written = true → exec (.veneerScrub p [x] false) s = .next s) ∧
      (x.ue = true → ∃ t, exec (.veneerScrub p [x] false) s = .next t ∧ t.poisoned (veneerBase p + x.off) = true ∧
        t.get VNR_SCRUB_STAT.SCRUB_UE = sat VNR_SCRUB_STAT.SCRUB_UE (s.get VNR_SCRUB_STAT.SCRUB_UE + 1) ∧
        BytesKept s t [((veneerBase p + x.off) / 8 * 8, 8)])) ∧
    (∀ c a, c < 16 → s.dead = false → a / lpddrWindow = c → s.is (MEM_CFG.SCRUB_EN c) = true → s.get (MEM_STATUS.STATE c) = 1 →
      (∃ t, exec (.lpddrScrub c a (some false) false) s = .next t ∧
        t.get (MEM_SCRUB_STAT.SCRUB_CE c) = sat (MEM_SCRUB_STAT.SCRUB_CE c) (s.get (MEM_SCRUB_STAT.SCRUB_CE c) + 1) ∧
        OnlyFields { s with tallies := t.tallies } t [MEM_SCRUB_STAT.SCRUB_CE c]) ∧
      (∃ t, exec (.lpddrScrub c a (some true) false) s = .next t ∧ t.poisoned a = true ∧
        t.get (MEM_SCRUB_STAT.SCRUB_UE c) = sat (MEM_SCRUB_STAT.SCRUB_UE c) (s.get (MEM_SCRUB_STAT.SCRUB_UE c) + 1) ∧
        BytesKept s t [(a / 64 * 64, 64)])) ∧
    (s.is VNR_STATUS.INIT_DONE = false → ∃ t, exec .veneerInitDone s = .next t ∧ t.get VNR_STATUS.INIT_DONE = 1 ∧
      (∀ x, x < nPhys * 0x400000 → Memory.read t.mem (veneerBase 0 + x) = 0) ∧
      BytesKept s t [(veneerBase 0, nPhys * 0x400000)]) ∧
    (∀ c a b, c < 16 → s.get (MEM_STATUS.STATE c) ≠ 1 → ∃ t, exec (.lpddrReady c a b) s = .next t ∧
      t.get (MEM_STATUS.PKG0_OK c) = ofBool a ∧ t.get (MEM_STATUS.PKG1_OK c) = ofBool b ∧
      t.get (MEM_STATUS.STATE c) = (if (a && b) = true then 1 else 3) ∧
      (a = true → b = true → s.boot.kind ≤ 1 → ∀ x, x < lpddrWindow → Memory.read t.mem (c * lpddrWindow + x) = 0) ∧
      BytesKept s t [(c * lpddrWindow, lpddrWindow)])

/-- A refresh requirement above 2× sets OVER and is an active stretch cause THERMAL, which excuses an engine that runs
past its declared interval, until the requirement ends. -/
def Obligations.RefreshOverrunExcuses : Prop :=
  ∀ (s : State) (c m : Nat), c < 16 → m < 2 ^ (MEM_TEMP.REFRESH_MULT c).width →
    (1 < m → ∃ t, exec (.mr4Over c m) s = .next t ∧ t.get (MEM_TEMP.OVER c) = 1 ∧ t.get (MEM_TEMP.REFRESH_MULT c) = m ∧
      t.mr4Cause = true ∧ OnlyFields s t [MEM_TEMP.OVER c, MEM_TEMP.REFRESH_MULT c]) ∧
    (s.mr4Cause = true → ∀ u i e n, i < u.count → exec (.engineBusyFault u i e n) s = .next s) ∧
    (m ≤ 1 → (∀ d, d < 16 → d ≠ c → s.get (MEM_TEMP.REFRESH_MULT d) ≤ 1) →
      ∃ t, exec (.mr4ConditionEnds c m) s = .next t ∧ t.mr4Cause = false ∧ OnlyFields s t [MEM_TEMP.REFRESH_MULT c])

/-! ### Ethernet and RoCE -/

/-- The Ethernet port, while it is up, counts every frame, drops what it cannot use or what is not for it, answers
address requests for its own addresses and echo requests with their data, to the frame's source, and obeys a pause on
its own priority; it goes down when its link is lost. -/
def Obligations.EthernetPortAnswers : Prop :=
  ∀ s : State,
    (s.ethUp = true →
      (∃ t, exec .ethFrameDropped s = .next t ∧
        t.get ETH_COUNT0.RX_FRAMES = sat ETH_COUNT0.RX_FRAMES (s.get ETH_COUNT0.RX_FRAMES + 1) ∧
        t.get ETH_COUNT1.DROPPED = sat ETH_COUNT1.DROPPED (s.get ETH_COUNT1.DROPPED + 1) ∧
        OnlyFields s t [ETH_COUNT0.RX_FRAMES, ETH_COUNT1.DROPPED]) ∧
      (∀ c e m, (∃ ip, c = .arpRequest e ip (s.get ETH_IPV4.ADDR) ∧ s.headerOk e (· == 2 ^ 48 - 1) = true ∧
            s.is ETH_CFG.IPV4_EN = true ∧ m = EthMsg.arpReply ip) ∨
          (∃ ip, c = .neighbourSolicitation e ip s.ipv6 ∧ s.headerOk e (· == s.solicited) = true ∧
            s.is ETH_CFG.IPV6_EN = true ∧ m = EthMsg.neighbourAdvert ip) ∨
          (∃ ip v6 d, c = .echoRequest e ip v6 d ∧ s.headerOk e (fun _ => false) = true ∧
            s.is (if v6 then ETH_CFG.IPV6_EN else ETH_CFG.IPV4_EN) = true ∧ m = EthMsg.echoReply ip v6 d) →
        ∃ t, exec c s = .next t ∧ t.out = s.out ++ [Msg.eth (s.ethTo e.src) m] ∧
          OnlyFields { s with out := t.out } t [ETH_COUNT0.RX_FRAMES, ETH_COUNT0.TX_FRAMES]) ∧
      (∀ c e ip k, (c = .arpRequest e ip k ∧ s.headerOk e (· == 2 ^ 48 - 1) = false) ∨
          (c = .neighbourSolicitation e ip k ∧ s.headerOk e (· == s.solicited) = false) ∨
          (∃ v6 d, c = .echoRequest e ip v6 d ∧ s.headerOk e (fun _ => false) = false) →
        ∃ t, exec c s = .next t ∧ t.get ETH_COUNT1.DROPPED = sat ETH_COUNT1.DROPPED (s.get ETH_COUNT1.DROPPED + 1) ∧
          OnlyFields s t [ETH_COUNT0.RX_FRAMES, ETH_COUNT1.DROPPED]) ∧
      (∀ q, s.is ETH_CFG.PFC_EN = true → ∃ t, exec (.pfcPause (s.get ETH_CFG.PCP) q) s = .next t ∧
        t.get ETH_STATUS.PAUSED = ofBool (decide (q ≠ 0)) ∧
        OnlyFields s t [ETH_COUNT0.RX_FRAMES, ETH_STATUS.PAUSED])) ∧
    (s.get ETH_STATUS.STATE = 2 → ∃ t, exec .ethLinkDown s = .next t ∧ t.get ETH_STATUS.STATE = 0 ∧
      t.get ETH_FLAGS.LINK_DOWN = 1 ∧
      OnlyFields s t [ETH_FLAGS.LINK_DOWN, ETH_STATUS.STATE, ETH_STATUS.LANES_UP, ETH_STATUS.PAUSED])

/-- A WRITE under the right key, in order, and not refused is stored, byte for byte, acknowledged, and changes no other
byte; an access under another key or beyond usable LPDDR is answered with a NAK and stores nothing; a READ answers what
memory holds and stores nothing; a SEND is answered with a NAK. The acknowledgement of part of a push leaves the rest
waiting; a NAK on a push, or a timeout with the retries used up, puts the queue pair in error; a timeout before that
sends what waits again; a CNP halves the queue pair's rate until it is restored. Memory stays. -/
def Obligations.RdmaAndPushAcknowledgements : Prop :=
  (∀ (s : State) (q : Qp),
      (∀ w : RdmaWrite, Arrives s w.toRoceHdr q → (∀ b ∈ w.data, b < 256) →
        (s.mayAccess w.rkey w.addr w.data.length = true → q.ahead w.psn = 0 →
          s.writeRefusal w.addr w.data.length = none → ∃ t, exec (.rdmaWrite w) s = .next t ∧
            t.rdBytes w.addr w.data.length = w.data ∧ Msg.eth (s.ethTo w.eth.src) (.rdmaAck q.qpn w.psn) ∈ t.out ∧
            BytesKept s t [(w.addr, w.data.length)] ∧ t.job = s.job) ∧
        (s.mayAccess w.rkey w.addr w.data.length = false → ∃ t, exec (.rdmaWrite w) s = .next t ∧ t.mem = s.mem ∧
          Msg.eth (s.ethTo w.eth.src) (.rdmaNak q.qpn w.psn 2) ∈ t.out)) ∧
      (∀ w : RdmaRead, Arrives s w.toRoceHdr q → s.mayAccess w.rkey w.addr w.len = true → q.ahead w.psn = 0 →
        s.poison = [] → ∃ t, exec (.rdmaRead w []) s = .next t ∧ t.mem = s.mem ∧ t.job = s.job ∧
          (0 < w.len → w.len ≤ mtuBytes q.args.mtu →
            Msg.eth (s.ethTo w.eth.src) (.rdmaReadResp q.qpn (w.psn % psnMod) (s.rdBytes w.addr w.len)) ∈ t.out)) ∧
      (∀ h, Arrives s h q → ∃ t, exec (.hostSend h.qpn h.psn h.toRoceFrame) s = .next t ∧ t.mem = s.mem ∧
        Msg.eth (s.ethTo h.eth.src) (.rdmaNak q.qpn h.psn 1) ∈ t.out ∧
        t.get ETH_COUNT1.NAK_SENT = sat ETH_COUNT1.NAK_SENT (s.get ETH_COUNT1.NAK_SENT + 1))) ∧
  (∀ (s : State) (h : RoceHdr) (n : Nat) (q : Qp), n = h.qpn → s.qp n = some q →
      (∀ b x l, Arrives s h q → s.pushOn n = some (b, x) → h.psn ∈ x.waiting → afterPsn h.psn x.waiting = l → l ≠ [] →
        ∃ t y, exec (.roceAck h.qpn h.psn h.toRoceFrame) s = .next t ∧ t.mem = s.mem ∧ t.host.pushes.head? = some y ∧ y.waiting = l ∧
          y.step = x.step ∧ t.host.pushes.drop 1 = s.host.pushes.drop 1) ∧
      (∀ b x c, Arrives s h q → s.pushOn n = some (b, x) → h.psn ∈ x.waiting →
        ∃ t, exec (.roceNak h.qpn h.psn c h.toRoceFrame) s = .next t ∧ t.mem = s.mem ∧ t.get ETH_FLAGS.QP_ERR = 1 ∧
          t.qp n = some { q with error := true }) ∧
      (∀ b x, q.error = false → s.pushOn n = some (b, x) →
        (s.get ETH_RDMA.RETRY ≤ q.retries → ∃ t, exec (.roceAckTimeout n) s = .next t ∧ t.mem = s.mem ∧
          t.qp n = some { q with error := true } ∧ t.get ETH_FLAGS.QP_ERR = 1) ∧
        (q.retries < s.get ETH_RDMA.RETRY → ∃ t, exec (.roceAckTimeout n) s = .next t ∧ t.mem = s.mem ∧
          t.qp n = some { q with retries := q.retries + 1 })) ∧
      (Arrives s h q → ∃ t, exec (.cnpReceive h) s = .next t ∧ t.qp n = some { q with halved := true } ∧
        t.get ETH_FLAGS.CNP_RX = 1 ∧ t.mem = s.mem) ∧
      (∃ t, exec (.pushRateRestore n) s = .next t ∧ t.qp n = some { q with halved := false } ∧
        { t with host := s.host } = s))

/-! ### Requests of the host -/

/-- A datagram that fails a check is counted and dropped; a good HELLO joins the queue. A HELLO that offers a common
version, with a session free, opens a session; BYE and an idle timeout close it. Memory stays. -/
def Obligations.SessionsOpenAndClose : Prop :=
  ∀ s : State,
    (∀ d : Datagram, s.ethUp = true → s.headerOk ⟨d.dst, d.src.mac, d.vlan⟩ (fun _ => false) = true →
      s.is (if isV6 d.src.ip then ETH_CFG.IPV6_EN else ETH_CFG.IPV4_EN) = true →
      (s.datagramBad d = true → ∃ t, exec (.bcpDatagram d) s = .next t ∧
        t.get BCP_DROPS.BAD = sat BCP_DROPS.BAD (s.get BCP_DROPS.BAD + 1) ∧
        OnlyFields s t [ETH_COUNT0.RX_FRAMES, BCP_DROPS.BAD]) ∧
      (s.datagramBad d = false → field d.bytes 4 2 = opHELLO → field d.bytes 2 1 = 0 → field d.bytes 16 8 = 0 →
        (d.bytes.drop 32).length = 2 → field d.bytes 24 2 = 0 → field d.bytes 26 2 = 0 → s.queueFull = false →
        ∃ t, exec (.bcpDatagram d) s = .next t ∧
          t.host = { s.host with queue := s.host.queue ++
            [⟨⟨d.src, 0, field d.bytes 8 8, 0⟩, opHELLO, d.bytes.drop 32⟩] } ∧
          OnlyFields { s with host := t.host } t [ETH_COUNT0.RX_FRAMES])) ∧
    (∀ (h : BcpHdr) (lo hi : Nat) (p : List Nat) (q : List Request), s.host.queue = ⟨h, opHELLO, p⟩ :: q →
      field p 0 1 = lo → field p 1 1 = hi → s.serves opHELLO = true → s.host.sessions.length < 4 →
      max lo (s.get BCP_CFG.VER_MIN) ≤ min hi (s.get BCP_CFG.VER_MAX) → jobPermits opHELLO s.job = true →
      ∃ t w, exec (.hello h lo hi) s = .next t ∧
        t.host.sessions = s.host.sessions ++ [⟨s.host.nextSession, min hi (s.get BCP_CFG.VER_MAX), h.seq, w⟩] ∧
        t.host.nextSession = s.host.nextSession + 1 ∧ LeftQueue s t ∧
        t.get BCP_CFG.SESSIONS = (s.host.sessions.length + 1) % 2 ^ BCP_CFG.SESSIONS.width ∧
        OnlyFields { s with host := t.host, out := t.out } t [BCP_CFG.SESSIONS, ETH_COUNT0.TX_FRAMES]) ∧
    (∀ (h : BcpHdr) (p : List Nat), Served s h opBYE p → ∃ t, exec (.bye h) s = .next t ∧ t.session h.session = none ∧
      CompletionSent s t h opBYE stOK [] ∧ LeftQueue s t ∧
      OnlyFields { s with host := t.host, out := t.out } t [BCP_CFG.SESSIONS, ETH_COUNT0.TX_FRAMES]) ∧
    (∀ n, (s.session n).isSome = true → ∃ t, exec (.sessionIdleTimeout n) s = .next t ∧ t.session n = none ∧
      (∀ m, m ≠ n → t.session m = s.session m) ∧ OnlyFields { s with host := t.host } t [BCP_CFG.SESSIONS])

/-- REG_READ of 1 to 32 registers completes with the words that the window reads and the mask of the accesses that
failed. REG_WRITE of 1 to 32 words, to registers of RW, RO and W1C fields and to addresses that refuse a write, in any
mixture, completes with the mask of those that failed; in each other word RW fields take their bits and a 1 clears a W1C bit,
and no other field but the frame counter and no memory changes. The request leaves the queue, and a read changes no memory. -/
def Obligations.RegisterRequestsComplete : Prop :=
  ∀ (s : State) (h : BcpHdr) (a : Nat) (p : List Nat),
    (∀ n, Served s h opREG_READ p → field p 0 8 = a → field p 8 2 = n → 0 < n → n ≤ 32 →
      ∃ t, exec (.regRead h a n) s = .next t ∧ t.mem = s.mem ∧ LeftQueue s t ∧
        CompletionSent s t h opREG_READ (accessStatus (s.dequeue.readRegs a n).2.1)
          ((s.dequeue.readRegs a n).1.flatMap (leBytes 8) ++ leBytes 4 (s.dequeue.readRegs a n).2.1)) ∧
    (∀ (vs : List Nat) (failed : Nat), Served s h opREG_WRITE p → field p 0 8 = a → p.drop 10 = vs.flatMap (leBytes 8) →
      (∀ v ∈ vs, v < 2 ^ 64) → 0 < vs.length → vs.length ≤ 32 →
      (∀ k, k < vs.length → s.plainWord (a + 8 * k) ∨ s.refusesWord (a + 8 * k) = true) →
      failed = (((List.range vs.length).filter fun k => s.refusesWord (a + 8 * k)).map fun k => 2 ^ k).sum →
      ∃ t, exec (.regWrite h a vs) s = .next t ∧ LeftQueue s t ∧ t.mem = s.mem ∧
        CompletionSent s t h opREG_WRITE (if failed = 0 then stOK else stACCESS) (leBytes 4 failed) ∧
        (∀ k v, vs[k]? = some v → s.plainWord (a + 8 * k) → ∀ f ∈ fieldsAt (a + 8 * k),
          (f.acc = .rw → t.get f = f.of v) ∧
          (f.acc = .w1c → t.get f = s.get f - Nat.land (s.get f) (f.of v))) ∧
        ∀ g : Fld, g.lo < 64 → g.key ≠ ETH_COUNT0.TX_FRAMES.key →
          (∀ k, k < vs.length → s.plainWord (a + 8 * k) → g.key ∉ (plainFields (a + 8 * k)).map Fld.key) →
          t.get g = s.get g)

/-- SETUP_COPY to a permitted destination lands the source's bytes there and nowhere else, and completes when the last
has landed. JOB_LOAD of an accepted configuration begins the seal at its step; JOB_START, JOB_HALT, JOB_UNLOAD and
DRY_FIT make their control request and complete OK; INPUT_READY of a complete buffer makes it READY. -/
def Obligations.SetupAndJobRequests : Prop :=
  ∀ (s : State) (h : BcpHdr) (p : List Nat), s.accepts = true →
    (∀ src dst n, Served s h opSETUP_COPY p → field p 0 8 = src → field p 8 8 = dst → field p 16 8 = n →
      s.copyOk src dst n = true → s.poisonIn src n = [] → ∃ t, exec (.setupCopy h src dst n) s = .next t ∧
        t.rdBytes dst n = s.rdBytes src n ∧ BytesKept s t [(dst, n)] ∧
        t.host.busyWith = some ⟨h, opSETUP_COPY, p⟩) ∧
    (s.host.busyWith = some ⟨h, opSETUP_COPY, p⟩ → ∃ t, exec .setupCopyDone s = .next t ∧ t.host.busyWith = none ∧
      CompletionSent s t h opSETUP_COPY stOK [] ∧
      OnlyFields { s with host := t.host, out := t.out } t [ETH_COUNT0.TX_FRAMES]) ∧
    (∀ n, Served s h opJOB_LOAD p → field p 0 8 = n → s.tick.sealing = none → s.tick.loaded = false →
      (s.set TICK_LOAD_STEP.STEP n).cfgOk = true → ∃ t, exec (.jobLoad h n) s = .next t ∧ t.tick.sealing = some 0 ∧
        t.get TICK_STEP.STEP = n % 2 ^ 64 ∧ t.host.busyWith = some ⟨h, opJOB_LOAD, p⟩ ∧
        ∀ x, x < 2 ^ 48 → Memory.read t.mem x = Memory.read s.mem x) ∧
    (Served s h opJOB_START p → s.startOk = true → s.poison = [] → (s.host.outTbl = [] ∨ s.host.bind.isSome = true) →
      s.allGathered = false → ∃ t, exec (.jobStart h) s = .next t ∧ t.tick.startPend = true ∧ t.job = s.job ∧
        CompletionSent s t h opJOB_START stOK [] ∧ LeftQueue s t) ∧
    (Served s h opJOB_HALT p → ∃ t, exec (.jobHalt h) s = .next t ∧ t.tick.haltPend = true ∧ t.job = 2 ∧
      t.mem = s.mem ∧ CompletionSent s t h opJOB_HALT stOK [] ∧ LeftQueue s t) ∧
    (Served s h opJOB_UNLOAD p → ∃ t, exec (.jobUnload h) s = .next t ∧ t.job = 0 ∧ t.host.inbox = [] ∧
      t.host.pushes = [] ∧ CompletionSent s t h opJOB_UNLOAD stOK [] ∧ LeftQueue s t ∧
      ∀ x, x < 2 ^ 48 → Memory.read t.mem x = Memory.read s.mem x) ∧
    (∀ b, Served s h opDRY_FIT p → field p 0 1 = b → b < 2 → (s.set TICK_DRY.BANK b).dryOk = true →
      s.is (sealedF b) = true → s.allGathered = false → ∃ t, exec (.dryFit h b) s = .next t ∧ t.tick.dryPend = true ∧
        t.get TICK_DRY.BANK = b ∧ t.mem = s.mem ∧ CompletionSent s t h opDRY_FIT stOK [] ∧ LeftQueue s t) ∧
    (∀ n b len, Served s h opINPUT_READY p → field p 0 8 = n → field p 8 2 = b → field p 10 8 = len →
      s.get TICK_STEP.STEP ≤ n → n < s.get TICK_STEP.STEP + s.get BCP_INBOX_TBL.DEPTH → b < s.get BCP_INBOX_TBL.COUNT →
      (s.bufAt n b).ready = false → (s.bufAt n b).received = len → s.tick.held = false → s.tick.heldOut = false →
      ∃ t, exec (.inputReady h n b len) s = .next t ∧ t.bufAt n b = { s.bufAt n b with ready := true, len := len } ∧
        t.mem = s.mem ∧ CompletionSent s t h opINPUT_READY stOK [] ∧ LeftQueue s t ∧
        t.get BCP_INBOX_STAT.READY = sat BCP_INBOX_STAT.READY (s.get BCP_INBOX_STAT.READY + 1))

/-- QP_CREATE opens a queue pair and answers its number, QP_DESTROY closes one, OUTBOX_BIND binds the outbox to one;
SUBSCRIBE replaces the subscription, EVENT_ACK drops the events it covers, and what is left is sent again; STOP in IDLE
completes and then closes sessions, queue pairs and the subscription as stop entry begins. None changes memory. -/
def Obligations.QueuePairsEventsAndStop : Prop :=
  ∀ (s : State) (h : BcpHdr) (p : List Nat),
    (∀ q : QpArgs, Served s h opQP_CREATE p → field p 0 4 = q.rqpn → netField p 4 16 = q.rgid → netField p 20 6 = q.rmac →
      field p 26 4 = q.spsn → field p 30 4 = q.rpsn → field p 34 1 = q.mtu → 3 ≤ q.mtu → q.mtu ≤ 5 →
      s.host.qps.length < 64 → ∃ t x, exec (.qpCreate h q) s = .next t ∧ t.host.qps = s.host.qps ++ [x] ∧
        x.qpn = s.host.nextQpn ∧ x.args = q ∧ x.error = false ∧ t.mem = s.mem ∧
        CompletionSent s t h opQP_CREATE stOK (leBytes 4 s.host.nextQpn) ∧ LeftQueue s t) ∧
    (∀ n, Served s h opQP_DESTROY p → field p 0 4 = n → (s.qp n).isSome = true → ∃ t, exec (.qpDestroy h n) s = .next t ∧
      t.qp n = none ∧ (∀ m, m ≠ n → t.qp m = s.qp m) ∧ t.mem = s.mem ∧ CompletionSent s t h opQP_DESTROY stOK [] ∧
      LeftQueue s t) ∧
    (∀ n a k r, Served s h opOUTBOX_BIND p → field p 0 4 = n → field p 4 8 = a → field p 12 4 = k → field p 16 2 = r →
      (s.qp n).isSome = true → r ≠ 0 → ∃ t, exec (.outboxBind h n a k r) s = .next t ∧
        t.host.bind = some ⟨n, a, k, r⟩ ∧ t.get BCP_OUTBOX_STAT.BOUND = 1 ∧ t.mem = s.mem ∧
        CompletionSent s t h opOUTBOX_BIND stOK []) ∧
    (∀ q : SubArgs, Served s h opSUBSCRIBE p → netField p 0 16 = q.dst → field p 16 2 = q.port → field p 18 2 = q.classes →
      field p 20 1 = q.sampleLog2 → sampleAddrs p = q.addrs → q.addrs.length ≤ 32 →
      ∃ t, exec (.subscribe h q) s = .next t ∧ t.host.sub = some ⟨h.session, h.version, h.src.mac, q⟩ ∧ t.mem = s.mem ∧
        CompletionSent s t h opSUBSCRIBE stOK [] ∧ LeftQueue s t) ∧
    (∀ n, Served s h opEVENT_ACK p → field p 0 8 = n → ∃ t, exec (.eventAck h n) s = .next t ∧
      t.host.events = (s.host.events.filter fun e => decide (n < e.evseq)) ∧ t.mem = s.mem ∧
      t.get BCP_EVT.QUEUED = t.host.events.length % 2 ^ BCP_EVT.QUEUED.width ∧
      CompletionSent s t h opEVENT_ACK stOK [] ∧ LeftQueue s t) ∧
    (∀ b, s.host.sub = some b → s.inReset = false → ∃ t, exec .eventResend s = .next t ∧
      t.out = s.out ++ s.host.events.map (fun e =>
        Msg.eth (s.ethTo b.mac) (.bcp b.args.dst b.args.port
          (bcpBytes b.ver 2 0 e.evseq b.session 0 (eventPayload e)))) ∧
      OnlyFields { s with out := t.out } t [ETH_COUNT0.TX_FRAMES]) ∧
    (Served s h opSTOP p → ∃ t, exec (.stop h) s = .next t ∧ t.pwr.power = .entering ∧ t.host.sessions = [] ∧
      t.host.qps = [] ∧ t.host.sub = none ∧ t.get ETH_STATUS.STATE = 0 ∧ t.mem = s.mem ∧ t.job = 0 ∧
      CompletionSent s t h opSTOP stOK [])

/-- RECORD_WRITE counts itself and either starts its first sector or ends with a result; a sector that is done is
counted and holds its part of the content where the flash takes it, and the last one ends the write, with PWR_FAIL where
PWR_FAIL_N asserted during it. ATTEST of an identity that holds is signed, and its report is then written at the address
given and nowhere else; while a provenance signature is in progress it waits. Neither changes memory before that. MEASURE in LOADED begins a measurement, which
ends with the state digest in its registers and VALID set where no error is met; SNAP is taken where a snapshot is
possible; a provenance signature is written with its length into its record and counted. -/
def Obligations.RecordsAttestationAndMeasurement : Prop :=
  (∀ s : State,
      (∀ h p k a n x, Served s h opRECORD_WRITE p → field p 0 1 = k → field p 8 8 = a → field p 16 8 = n →
        s.boot.aon = some x → ∃ t, exec (.recordWrite h k a n) s = .next t ∧ t.mem = s.mem ∧
          t.get CFG_FLASH.WRITES = sat CFG_FLASH.WRITES (s.get CFG_FLASH.WRITES + 1) ∧
          ((t.boot.write.isSome = true ∧ t.get CFG_FLASH.BUSY = 1 ∧ t.host.busyWith = some ⟨h, opRECORD_WRITE, p⟩) ∨
            (t.boot.write = none ∧ t.get CFG_FLASH.BUSY = 0 ∧ t.host.busyWith = none ∧ LeftQueue s t))) ∧
      (∀ w x, s.boot.write = some w → s.boot.aon = some x → ∃ t, exec .flashSectorDone s = .next t ∧ t.mem = s.mem ∧
        t.get CFG_FLASH.SECTORS = sat CFG_FLASH.SECTORS (s.get CFG_FLASH.SECTORS + 1) ∧
        (s.xspi = .driven → flashBytes t.boot.flash w.sector.1 w.sector.2.length = w.sector.2.map (· % 256)) ∧
        (w.left ≤ 1 ∨ w.powerFailed = true → t.boot.write = none ∧ t.get CFG_FLASH.BUSY = 0 ∧
          (w.powerFailed = true → t.get CFG_FLASH.LAST_RESULT = 2) ∧
          (w.powerFailed = false → t.get CFG_FLASH.LAST_RESULT = 0 ∨ t.get CFG_FLASH.LAST_RESULT = 5))) ∧
      (∀ h p k a x, Served s h opATTEST p → field p 0 32 = k → field p 32 8 = a → s.boot.aon = some x →
        s.is CFG_STATUS.ID_FAIL = false → a % 64 = 0 → inLpddr a 4744 = true → ∃ t b, exec (.attest h k a) s = .next t ∧
          t.boot.attest = some (a, b) ∧ t.host.busyWith = some ⟨h, opATTEST, p⟩ ∧
          { t with boot := s.boot, host := s.host } = s) ∧
      (s.det.signing.isSome = true → exec .attestSignDone s = .next s) ∧
      (∀ a b x r, s.det.signing = none → s.boot.attest = some (a, b) → s.boot.aon = some x → r = b ++ signature x.sec b →
        ∃ t, exec .attestSignDone s = .next t ∧ t.boot.attest = none ∧ BytesKept s t [(a, r.length)] ∧
          t.rdBytes a r.length = r.map (· % 256) ∧
          ∀ q, s.inReset = false → s.host.busyWith = some q → q.op = opATTEST → t.host.busyWith = none ∧
            CompletionSent s t q.hdr opATTEST stOK (leBytes 4 4744 ++ shake256 r))) ∧
  (∀ s : State,
      (s.accepts = true →
        (s.job = 1 → s.is DET_STATE_CTRL.BUSY = false → (∀ e ∈ s.xstate, e.2.2 = true) → ∃ t, exec .detMeasure s = .next t ∧
          t.get DET_STATE_CTRL.BUSY = 1 ∧ t.get DET_STATE_CTRL.VALID = 0 ∧
          OnlyFields s.okay t [DET_STATE_CTRL.BUSY, DET_STATE_CTRL.VALID]) ∧
        (s.job ≠ 1 → exec .detMeasure s = .next s.okay) ∧
        (s.provOk = true → ∃ t, exec .detProvSnap s = .next t ∧ t.det.snapPend = true ∧ { t with det := s.det } = s.okay)) ∧
      (s.is DET_STATE_CTRL.BUSY = true → s.poison = [] → ∃ t, exec (.measureDone []) s = .next t ∧
        t.get DET_STATE_CTRL.BUSY = 0 ∧ t.get DET_STATE_CTRL.VALID = 1 ∧ t.mem = s.mem ∧ t.job = s.job ∧
        ∀ e ∈ stateDigestRegs.zip (List.range 4),
          t.get e.1 = leNat ((s.stateDigest.drop (8 * e.2)).take 8) % 2 ^ 64) ∧
      (∀ k n, s.det.signing = some (k, n) → ∃ t, exec .provenanceSignDone s = .next t ∧ t.det.signing = none ∧
        t.get DET_PROV_STATUS.SIGNING = 0 ∧
        t.get DET_PROV_STATUS.SIGNED = sat DET_PROV_STATUS.SIGNED (s.get DET_PROV_STATUS.SIGNED + 1) ∧
        t.rd (s.provBase + k * 2048 + 224) 2 = 1280 ∧
        BytesKept s t [(s.provBase + k * 2048 + 224, 2), (s.provBase + k * 2048 + 256, 1280)]))

/-! ### Power, reset and pins -/

/-- A power-on and a brown-out leave memory at 0 and no job; a warm reset, asked for in IDLE or HALT, by the management
bus or by a short low pulse, keeps memory, TICK_STEP, the error counters and the working map; a pulse of 10 ms or more
is a cold reset, one beyond 1 s sets RST_STUCK, and one below 1 µs is filtered; while RST_N is low a board programmer may
write the flash; a cold configuration resets the flash. Configuration then succeeds from always-on SRAM whose digest
matches, or from a valid flash once the memories are ready, or fails where the flash holds nothing valid. -/
def Obligations.ResetsKeepWhatTheirKindKeeps : Prop :=
  ∀ s : State, s.stillHot = false →
    (∃ t, exec .powerOn s = .next t ∧ t.mem = [] ∧ t.job = 0 ∧ t.pwr.por = true ∧ t.boot.configuring = true ∧
      t.get PWR_STATUS.LAST_RESET = 0 ∧ t.boot.flash = s.boot.flash ∧ t.pwr.ir = 2 ∧ t.pwr.tapCut = false) ∧
    (∃ t, exec .porRelease s = .next t ∧ t.pwr.por = false ∧ { t with pwr := s.pwr, out := s.out } = s ∧
      t.out = s.out ++ (if s.pwr.por = true ∧ s.pwr.rstLow = false ∧ s.pwr.power = .run then [Msg.xspiReset] else [])) ∧
    (∃ t, exec .brownOut s = .next t ∧ t.mem = [] ∧ t.job = 0 ∧ t.pwr.power = .off ∧ t.get PWR_STATUS.RAIL_OK = 0) ∧
    (∃ t, exec .rstNAssert s = .next t ∧ t.pwr.rstLow = true ∧ { t with pwr := s.pwr } = s) ∧
    (s.pwr.rstLow = true → s.pwr.power ≠ .off → ∃ t, exec .rstNStuck s = .next t ∧ t.get PWR_ASYNC_FLAGS.RST_STUCK = 1 ∧
      t.mem = [] ∧ t.job = 0 ∧ t.boot.configuring = true ∧ t.pwr.rstLow = true ∧ t.get ERR_COUNT0.CORRECTED = 1) ∧
    (∀ w o bs, s.pwr.rstLow = true → s.pwr.power ≠ .off → ∃ t, exec (.rstNRelease w [(o, bs)]) s = .next t ∧
      flashBytes t.boot.flash o bs.length = bs.map (· % 256)) ∧
    (∀ w, s.pwr.rstLow = true → s.pwr.power ≠ .off →
      (w < 1000 → ∃ t, exec (.rstNRelease w) s = .next t ∧ t.pwr.rstLow = false ∧
        t.out = s.out ++ (if s.pwr.fresh = true ∧ s.pwr.por = false then [Msg.xspiReset] else []) ∧
        OnlyFields { s with pwr := t.pwr, out := t.out } t [PWR_ASYNC_COUNT.FILTERED]) ∧
      (10 ^ 7 ≤ w → s.pwr.por = false → s.pwr.fresh = false → ∃ t, exec (.rstNRelease w) s = .next t ∧ t.get PWR_STATUS.LAST_RESET = 1 ∧
        t.mem = [] ∧ t.job = 0 ∧ t.boot.configuring = true ∧ Msg.xspiReset ∈ t.out)) ∧
    (∀ c, (c = .pwrResetWarm ∧ s.awake = true ∧ (s.job = 0 ∨ s.job = 3)) ∨
        (c = .smbWarmReset (crc8 [s.get PWR_SMB.ADDR * 2, 3]) ∧ s.pwr.smbNack = false ∧ s.pwr.power = .run) ∨
        (∃ w, c = .rstNRelease w ∧ s.pwr.rstLow = true ∧ s.pwr.power = .run ∧ 1000 ≤ w ∧ w < 10 ^ 7 ∧
          s.pwr.por = false ∧ s.pwr.fresh = false ∧ s.pwr.lastRelease = none) →
      ∃ t, exec c s = .next t ∧ t.get PWR_STATUS.LAST_RESET = 2 ∧ t.job = 0 ∧ t.mem = s.mem ∧ t.active = s.active ∧
        t.get TICK_STEP.STEP = s.get TICK_STEP.STEP ∧ t.get ERR_COUNT0.CORRECTED = s.get ERR_COUNT0.CORRECTED ∧
        t.host.sessions = [] ∧ t.boot.configuring = true ∧ t.pending = s.pending) ∧
    (s.boot.configuring = true → s.pwr.por = false → s.pwr.rstLow = false → s.pwr.power = .run →
      (∀ x, s.boot.kind = 2 → s.boot.aon = some x → shake256 x.contents = x.digest →
        ∃ t, exec .configurationDone s = .next t ∧ t.get CFG_STATUS.STATE = 1 ∧ t.get ETH_STATUS.STATE = 2 ∧
          t.boot.configuring = false ∧ t.boot.aon = some x ∧ t.active = s.active) ∧
      (s.boot.kind ≠ 2 → ∃ t, exec .configurationDone s = .next t ∧ ∀ x, fromFlash s.boot.flash = some x →
        (s.memoryReady = true → t.get CFG_STATUS.STATE = 1 ∧ t.get ETH_STATUS.STATE = 2 ∧ t.boot.configuring = false ∧
          t.boot.aon = some x ∧ t.active = x.map ∧ t.boot.laneTrim = devLaneTrim x.devBody ∧
          t.boot.regTrim = devRegTrim x.devBody) ∧
        (s.memoryReady = false → t = s)) ∧
      (s.boot.kind ≠ 2 → fromFlash s.boot.flash = none → ∃ t, exec .configurationDone s = .next t ∧
        t.get CFG_STATUS.STATE = 2 ∧ t.boot.configuring = false ∧ t.mem = s.mem))

/-- Stop entry ends in the stop state with the pads clamped; an address match there wakes the device, and the waking
ends with it running, LPDDR as it was, its pads still clamped until they are released. On the management bus a good STOP command from
IDLE begins stop entry, STATUS is answered with its word, and the alert address while ALERT_N is asserted. The test
access port, while the device has power and its pads are not clamped: IDCODE shifts out the device's code, BYPASS,
CLAMP and HIGHZ a 0; SAMPLE_PRELOAD loads the boundary register; the external tests capture the pins where the test may
hold them, loading the boundary register with what is shifted in, and act as BYPASS elsewhere, as every instruction does
once RST_N has cut a test off; TRST_N ends that and selects IDCODE. Nothing of the device's own state changes. -/
def Obligations.StopWakeManagementBusAndTap : Prop :=
  (∀ s : State,
      (s.pwr.power = .entering → ∃ t, exec .stopEntryDone s = .next t ∧ t.mem = s.mem ∧ t.get PAD_HOLD.HELD = 1 ∧
        t.get CLK_STATUS.PLL_LOCK = 0 ∧ t.pwr.power = (if s.pwr.wakePend then .waking else .stop) ∧
        t.get PWR_STOP.STOPS = sat PWR_STOP.STOPS (s.get PWR_STOP.STOPS + 1)) ∧
      (s.pwr.power = .stop → ∃ t, exec (.smbAddressMatch (s.get PWR_SMB.ADDR)) s = .next t ∧ t.pwr.power = .waking ∧
        { t with pwr := s.pwr, out := s.out } = s) ∧
      (s.pwr.power = .waking → s.stillHot = false → ∃ t, exec .wakeDone s = .next t ∧ t.pwr.power = .run ∧
        t.get PAD_HOLD.HELD = 1 ∧ t.get PWR_STATUS.WAKE_CAUSE = 1 ∧
        ∀ x, x < lpddrEnd → Memory.read t.mem x = Memory.read s.mem x) ∧
      (s.accepts = true → ∃ t, exec .padHoldRelease s = .next t ∧ t.get PAD_HOLD.HELD = 0 ∧
        OnlyFields s.okay t [PAD_HOLD.HELD]) ∧
      (s.pwr.power = .run → s.pwr.smbNack = false → ∃ t, exec .smbStatus s = .next t ∧ t.out = s.out ++ [Msg.smbWord s.smbStatus] ∧
        { t with out := s.out } = s) ∧
      (s.accepts = true → s.pwr.smbNack = false → s.job = 0 → s.boot.configuring = false →
        ∃ t, exec (.smbStop (crc8 [s.get PWR_SMB.ADDR * 2, 2])) s = .next t ∧ t.pwr.power = .entering ∧
          Msg.smbAck ∈ t.out ∧ t.host.sessions = [] ∧ t.mem = s.mem) ∧
      (s.pwr.power ≠ .off → s.asleep = false → s.alert = true → ∃ t, exec .smbAlertResponse s = .next t ∧
        t.out = s.out ++ [Msg.smbAlertAddr (s.get PWR_SMB.ADDR)] ∧ { t with out := s.out } = s)) ∧
  (∀ s : State, ∃ t, exec .trstN s = .next t ∧ t.pwr.ir = 2 ∧ t.pwr.tapCut = false ∧ { t with pwr := s.pwr } = s) ∧
  (∀ s : State, s.pwr.power ≠ .off → s.pwr.power ≠ .tripped → s.is PAD_HOLD.HELD = false → s.pwr.tapCut = true → ∀ d c n,
      (c, n) ∈ [(Instr.extest d, 0), (.samplePreload (d.getD 0), 1), (.idcode, 2), (.clamp, 3), (.highZ, 4), (.extestPulse d, 5),
        (.extestTrain d, 6), (.bypass, 0xFF)] → ∃ t, exec c s = .next t ∧ t.out = s.out ++ [Msg.tdo 0] ∧
        t.pwr = { s.pwr with ir := n } ∧ { t with pwr := s.pwr, out := s.out } = s) ∧
  (∀ s : State, s.pwr.power ≠ .off → s.pwr.power ≠ .tripped → s.is PAD_HOLD.HELD = false → s.pwr.tapCut = false →
      (∃ t, exec .idcode s = .next t ∧ t.pwr.ir = 2 ∧ t.out = s.out ++ [Msg.tdo 0x1B21114B] ∧
        { t with pwr := s.pwr, out := s.out } = s) ∧
      (∀ c n, (c, n) ∈ [(Instr.clamp, 3), (.highZ, 4), (.bypass, 0xFF)] → ∃ t, exec c s = .next t ∧ t.pwr.ir = n ∧
        t.out = s.out ++ [Msg.tdo 0] ∧ { t with pwr := s.pwr, out := s.out } = s) ∧
      (∀ d c n, (c, n) ∈ [(Instr.extest d, 0), (.extestPulse d, 5), (.extestTrain d, 6)] → ∃ t v, exec c s = .next t ∧
        t.pwr = { s.pwr with ir := n, boundary := if s.tapHolds = true then d.getD s.pwr.boundary else s.pwr.boundary } ∧
        t.out = s.out ++ [Msg.tdo v] ∧ (s.tapHolds = false → v = 0) ∧
        { t with pwr := s.pwr, out := s.out, freeCtr := s.freeCtr } = s) ∧
      (∀ d, ∃ t v, exec (.samplePreload d) s = .next t ∧ t.pwr.ir = 1 ∧ t.pwr.boundary = d ∧ t.out = s.out ++ [Msg.tdo v] ∧
        { t with pwr := s.pwr, out := s.out, freeCtr := s.freeCtr } = s))

/-- The asynchronous inputs, the rails, the power average and the sensors: while the pins act, an assertion of
PWR_FAIL_N is counted, an input held too long sets its flag and logs a corrected-class event, a short pulse on an input
is filtered, and too fast a management-bus clock is not acknowledged; a release of PWR_FAIL_N is seen; the loss of a rail
that is on, and a power average above 1,600 W, kill the device; readings below the trip point set the level, a hot spell
sets HOT, and at 115 °C the device trips, after which it takes no register access, and trips again at a power-on while it is
as hot. Memory stays. In reset and while the pads are clamped the pins do nothing but show
their level. -/
def Obligations.PinsRailsAndSensors : Prop :=
  (∀ s : State, s.pinsLive = false → ∀ cc w,
    (∃ t, exec .pwrFailAssert s = .next t ∧ t.pwr.pfLow = true ∧ { t with pwr := s.pwr } = s) ∧
      exec (.pwrFailAssert true) s = .next s ∧ exec (.squpInEdge cc w) s = .next s ∧ exec .squpInStuck s = .next s ∧ exec .pwrFailStuck s = .next s) ∧
  ∀ s : State,
    (s.pinsLive = true → ∃ t, exec .pwrFailAssert s = .next t ∧ t.pwr.pfLow = true ∧ t.mem = s.mem ∧ t.job = s.job ∧
      t.get PWR_ASYNC_COUNT.PF_ASSERTS = sat PWR_ASYNC_COUNT.PF_ASSERTS (s.get PWR_ASYNC_COUNT.PF_ASSERTS + 1)) ∧
    (∀ c, (c = .pwrFailAssert true ∧ s.pinsLive = true) ∨ (∃ ns, ns < 50 ∧ s.pwr.power ≠ .off ∧ (c = .sclStuck ns ∨ c = .sdaStuck ns)) →
      ∃ t, exec c s = .next t ∧ OnlyFields s t [PWR_ASYNC_COUNT.FILTERED] ∧
        t.get PWR_ASYNC_COUNT.FILTERED = sat PWR_ASYNC_COUNT.FILTERED (s.get PWR_ASYNC_COUNT.FILTERED + 1)) ∧
    (∀ ns, s.pwr.power ≠ .off → 50 ≤ ns → ns < 350 → ∃ t, exec (.sclStuck ns) s = .next t ∧ t.pwr.smbNack = true ∧
      t.get PWR_ASYNC_FLAGS.SMB_RATE = 1 ∧
      t.get PWR_ASYNC_COUNT.RATE_LIMITED = sat PWR_ASYNC_COUNT.RATE_LIMITED (s.get PWR_ASYNC_COUNT.RATE_LIMITED + 1) ∧
      OnlyFields { s with pwr := t.pwr } t [PWR_ASYNC_FLAGS.SMB_RATE, PWR_ASYNC_COUNT.RATE_LIMITED]) ∧
    (∃ t, exec .pwrFailRelease s = .next t ∧ t.pwr.pfLow = false ∧ { t with pwr := s.pwr } = s) ∧
    (∀ c f, (c = .pwrFailStuck ∧ s.pwr.pfLow = true ∧ s.pinsLive = true ∧ f = PWR_ASYNC_FLAGS.PF_STUCK) ∨
        (∃ ns, smbStuckNs < ns ∧ s.pwr.power ≠ .off ∧ ((c = .sclStuck ns ∧ f = PWR_ASYNC_FLAGS.SCL_STUCK) ∨
          (c = .sdaStuck ns ∧ f = PWR_ASYNC_FLAGS.SDA_STUCK))) ∨
        (c = .squpInStuck ∧ s.pinsLive = true ∧ f = PWR_ASYNC_FLAGS.SQUP_STUCK) →
      ∃ t, exec c s = .next t ∧ t.get f = 1 ∧ t.mem = s.mem ∧ t.job = s.job ∧
        t.get ERR_COUNT0.CORRECTED = sat ERR_COUNT0.CORRECTED (s.get ERR_COUNT0.CORRECTED + 1)) ∧
    (∃ t, exec .squpInFall s = .next t ∧ t.pwr.squpStuck = false ∧ { t with pwr := s.pwr } = s) ∧
    (∀ cc w, s.pinsLive = true → w < 4 → ∃ t, exec (.squpInEdge cc w) s = .next t ∧ OnlyFields s t [PWR_ASYNC_COUNT.FILTERED] ∧
      t.get PWR_ASYNC_COUNT.FILTERED = sat PWR_ASYNC_COUNT.FILTERED (s.get PWR_ASYNC_COUNT.FILTERED + 1)) ∧
    (∀ cc w, s.pinsLive = true → 4 ≤ w → s.pwr.lastSquareEdge = none → s.is FAB_SQUP_CHK.ENABLE = true → s.pwr.squpStuck = false →
      ∃ t, exec (.squpInEdge cc w) s = .next t ∧ t.pwr.lastSquareEdge = some s.tick.now ∧ t.mem = s.mem ∧
        t.get FAB_SQUP_CHK.LAST_OFFSET = (((cc : Int) - s.get FAB_SQUP_CHK.WIRE_CC) % 65536).toNat) ∧
    (∀ k, k < 7 → s.railOn k = true → s.err.handling = none → ∃ t, exec (.railFault k) s = .next t ∧ t.dead = true ∧
      bit (t.get PWR_STATUS.RAIL_OK) k = false ∧ t.mem = s.mem) ∧
    (∀ n, s.powered = true → n ≤ 1600 → ∃ t, exec (.powerAverage n) s = .next t ∧ t.get PWR_STATUS.IN_W = n ∧
      (s.get PWR_LIMIT.WATTS < n → t.tick.opp = s.get PWR_LIMIT.OPP_Q) ∧ (n < s.get PWR_LIMIT.WATTS → t.tick.opp = 0) ∧
      OnlyFields { s with tick := t.tick, freeCtr := t.freeCtr } t
        [PWR_STATUS.IN_W, PWR_STATUS.IN_V_100MV, PWR_LIMIT.OVER_MS]) ∧
    (∀ n, s.powered = true → 1600 < n → s.err.handling = none → ∃ t, exec (.powerAverage n) s = .next t ∧ t.dead = true ∧
      t.mem = s.mem ∧ t.get PWR_STATUS.IN_W = min n 65535 ∧
      t.get ERR_COUNT1.FATAL_DEVICE = sat ERR_COUNT1.FATAL_DEVICE (s.get ERR_COUNT1.FATAL_DEVICE + 1)) ∧
    (∀ ts : List Int, s.powered = true → ts.length = 72 → (hottest ts).1 < 115 → ∃ t, exec (.thermalSample ts) s = .next t ∧
      t.pwr.temps = ts ∧ t.get THERM_STATUS.SENSOR = (hottest ts).2 % 2 ^ THERM_STATUS.SENSOR.width ∧
      t.get THERM_STATUS.LEVEL = (if 105 < (hottest ts).1 ∧ s.get THERM_STATUS.LEVEL = 2 then 2
        else if (s.get THERM_CFG.THROTTLE_C : Int) ≤ (hottest ts).1 then 1 else 0) ∧
      OnlyFields { s with pwr := t.pwr } t
        [THERM_STATUS.TJ_C, THERM_STATUS.SENSOR, THERM_STATUS.LEVEL, THERM_STRETCH.MAX_C]) ∧
    (∀ ts : List Int, s.powered = true → ts.length = 72 → 115 ≤ (hottest ts).1 → s.err.handling = none →
      ∃ t, exec (.thermalSample ts) s = .next t ∧ t.pwr.thermTrip = true ∧ t.pwr.power = .tripped ∧ t.dead = true ∧
        t.mem = s.mem ∧ t.get THERM_STATUS.LEVEL = 3 ∧
        t.get PWR_STATUS.RAIL_OK = Nat.land (s.get PWR_STATUS.RAIL_OK) 0x78) ∧
    (s.pwr.power = .tripped → exec .pwrResetWarm s = .next s.denied ∧
      ∀ a n v, exec (.registerWrite a n v) s = .next s.denied) ∧
    (s.stillHot = true → ∃ t, exec .powerOn s = .next t ∧ t.pwr.thermTrip = true ∧ t.pwr.power = .tripped ∧ t.dead = true) ∧
    (s.powered = true → 105 < (hottest s.pwr.temps).1 → ∃ t, exec .thermHot s = .next t ∧ t.get THERM_STATUS.HOT = 1 ∧
      t.mem = s.mem ∧ t.job = s.job)

/-! ### Row controllers -/

/-- Integer, multiply and divide, floating, conversion and lane-count instructions write the result that their
operation gives to their destination register, and nothing else; jumps go to their target, and taken branches to the
displaced address. What a shift by 64 or more, a division without a quotient, or a conversion that does not fit leaves
is open, but the same for the same operands, and the instruction completes. Operation names and operand places are the
model's: notes/assumptions/8.md. INTEGER_OP, MULTIPLY_DIVIDE, FLOAT_OP, CONVERSION, LANES, FENCE and BRANCH complete:
exec answers a next state whenever the row executes: the device is powered, configured and not dead, a kernel or the
service context runs, and its instruction address lies in its region (R170, R171, R172, R175). -/
def Obligations.ScalarInstructionsWriteTheirResult : Prop :=
  ∀ (s : State) (r x a b c d A B : Nat), RowRuns s r x → d < 32 → A = s.xGet r x kG a → B = s.xGet r x kG b →
    (∀ o imm v, (o, v) ∈ [(IntOp.add, A + B), (.sub, A + 2 ^ 64 - B), (.and, Nat.land A B), (.or, Nat.lor A B),
        (.xor, Nat.xor A B), (.slt, ofBool (decide (toSigned 64 A < toSigned 64 B))), (.sltu, ofBool (decide (A < B))),
        (.seq, ofBool (A == B)), (.addi, A + imm16 imm), (.andi, Nat.land A (imm % 2 ^ 16)),
        (.ori, Nat.lor A (imm % 2 ^ 16)), (.xori, Nat.xor A (imm % 2 ^ 16)),
        (.slti, ofBool (decide (toSigned 64 A < toSigned 64 (imm16 imm)))), (.sltiu, ofBool (decide (A < imm16 imm))),
        (.lui, imm % 2 ^ 32 * 2 ^ 32), (.const, A / 2 ^ 32 * 2 ^ 32 + imm % 2 ^ 32)] →
      ∃ t, exec (.integerOp r o d a b imm []) s = .next t ∧ RegResult s t r x kG d v) ∧
    (∀ o imm n v, n < 64 → (o, n, v) ∈ [(IntOp.sll, B, A * 2 ^ n), (.srl, B, A / 2 ^ n),
        (.sra, B, ofSigned 64 ((toSigned 64 A).fdiv (2 ^ n))), (.slli, imm % 2 ^ 16, A * 2 ^ n),
        (.srli, imm % 2 ^ 16, A / 2 ^ n), (.srai, imm % 2 ^ 16, ofSigned 64 ((toSigned 64 A).fdiv (2 ^ n)))] →
      ∃ t, exec (.integerOp r o d a b imm []) s = .next t ∧ RegResult s t r x kG d (v % 2 ^ 64)) ∧
    (∀ o imm, ∃ t, exec (.integerOp r o d a b imm []) s = .next t ∧ RegResult s t r x kG d (intOp o A B imm)) ∧
    (∀ o v, (o, v) ∈ [(MulOp.mulLo, A * B), (.mulHiU, A * B / 2 ^ 64),
        (.mulHiS, ofSigned 64 ((toSigned 64 A * toSigned 64 B).fdiv (2 ^ 64)))] ∨
        (B ≠ 0 ∧ (o, v) ∈ [(MulOp.divU, A / B), (.remU, A % B)]) ∨
        (B ≠ 0 ∧ ¬(A = 2 ^ 63 ∧ B = 2 ^ 64 - 1) ∧ (o, v) ∈ [(MulOp.divS, ofSigned 64 ((toSigned 64 A).tdiv (toSigned 64 B))),
          (.remS, ofSigned 64 ((toSigned 64 A).tmod (toSigned 64 B)))]) →
      ∃ t, exec (.multiplyDivide r o d a b []) s = .next t ∧ RegResult s t r x kG d v) ∧
    (∀ o, ∃ t, exec (.multiplyDivide r o d a b []) s = .next t ∧ RegResult s t r x kG d (mulOp o A B)) ∧
    (∀ dbl w f, w = (if dbl then 64 else 32) → f = (fun i => fval w (s.xGet r x kF i)) →
      (∀ o v, (o, v) ∈ [(FloatOp.add, (f a).add (f b)), (.sub, (f a).sub (f b)), (.mul, (f a).mul (f b)),
          (.fma, Val.fma (f a) (f b) (f c)), (.div, (f a).div (f b)), (.sqrt, (f a).sqrt), (.min, (f a).minimum (f b)),
          (.max, (f a).maximum (f b))] →
        ∃ t, exec (.floatOp r o dbl d a b c []) s = .next t ∧ RegResult s t r x kF d (fcode w v)) ∧
      (∀ o p, (o, p) ∈ [(FloatOp.eq, fcmp (· == 0) (f a) (f b)), (.lt, fcmp (fun i => decide (i < 0)) (f a) (f b)),
          (.le, fcmp (fun i => decide (i ≤ 0)) (f a) (f b))] →
        ∃ t, exec (.floatOp r o dbl d a b c []) s = .next t ∧ RegResult s t r x kG d (ofBool p))) ∧
    (∀ src rnd md v, rndOf rnd = some md → v = s.convSrc r x a src →
      (∃ t, exec (.conversion r ⟨src, .f64⟩ rnd d a []) s = .next t ∧ RegResult s t r x kF d (convFp fFP64 md true false v).1) ∧
      (∃ t, exec (.conversion r ⟨src, .f32⟩ rnd d a []) s = .next t ∧ RegResult s t r x kF d (convFp fFP32 md true false v).1) ∧
      (∃ t, exec (.conversion r ⟨src, .i32⟩ rnd d a []) s = .next t ∧
        RegResult s t r x kG d (ofSigned 64 (toSigned 32 (convI32 md v).1))) ∧
      (∃ t n, n = convI64 rnd md v ∧ exec (.conversion r ⟨src, .i64⟩ rnd d a []) s = .next t ∧ RegResult s t r x kG d n ∧
        ∀ neg m e i, v = .fin neg m e → i = (if neg then -(roundAt md neg m e 0 : Int) else roundAt md neg m e 0) →
          -(2 ^ 63) ≤ i → i < 2 ^ 63 → n = ofSigned 64 i)) ∧
    (∀ ew ∈ [8, 16, 32, 64], ∃ t, exec (.lanes r ew d []) s = .next t ∧ RegResult s t r x kG d (2048 / ew)) ∧
    (∃ t, exec (.fence r []) s = .next t ∧ t.pc r x = (s.pc r x + 4) % 2 ^ 18 ∧ OnlyRowRegs s t [xKey r x kPC 0]) ∧
    (∀ o off p, (o, p) ∈ [(BranchOp.eq, A == B), (.ne, A != B), (.lt, decide (toSigned 64 A < toSigned 64 B)),
        (.ge, decide (toSigned 64 B ≤ toSigned 64 A)), (.ltu, decide (A < B)), (.geu, decide (B ≤ A)), (.jump, true)] →
      ∃ t, exec (.branch r o d a b off []) s = .next t ∧
        t.pc r x = (if p then s.pc r x + off else s.pc r x + 4) % 2 ^ 18 ∧ OnlyRowRegs s t [xKey r x kPC 0]) ∧
    (∀ off, ∃ t, exec (.branch r .jumpLink d a b off []) s = .next t ∧ t.pc r x = (s.pc r x + off) % 2 ^ 18 ∧
      t.xGet r x kG d = (if d = 0 then 0 else (s.pc r x + 4) % 2 ^ 64) ∧
      OnlyRowRegs s t [xKey r x kG d, xKey r x kPC 0]) ∧
    (∀ off, ∃ t, exec (.branch r .jumpReg d a b off []) s = .next t ∧ t.pc r x = (A + off) % 2 ^ 18 ∧
      OnlyRowRegs s t [xKey r x kPC 0])

/-- Exeno-S: every element of the destination is the operation of the sources' elements, insert and broadcast write the
low bits of a general register to one element or to all, extract copies an element to a general register, and shuffle
takes bytes from the 32 bytes of two sources. Nothing else changes. Scalar and 128-bit loads and stores that are
aligned, permitted and meet no uncorrectable word: a load writes its register, a store writes its bytes, and both go on
with the next instruction. Other row registers, other bytes and every register outside the row keep their values,
traffic counters apart. EXENO_S_ARITH, EXENO_S_LANE, LOAD, STORE and EXENO_S_LOAD_STORE complete: exec answers a next
state whenever the row executes: the device is powered, configured and not dead, a kernel or the service context runs,
and its instruction address lies in its region (R170, R171, R172, R175), at the widths R178 gives. -/
def Obligations.ShortVectorsAndScalarMemory : Prop :=
  (∀ (s : State) (r x ew a b c d : Nat) (w : Nat → Nat → Nat), RowRuns s r x → ew ∈ [8, 16, 32, 64] →
      w = (fun i k => lane (s.xGet r x kSV (i % 16)) ew k) →
      (∀ o : SOp, (sIsF o = true → ew = 32 ∨ ew = 64) →
        ∃ t V, exec (.exenoSArith r o ew d a b c []) s = .next t ∧ RegResult s t r x kSV (d % 16) V ∧
          ∀ k, k < 128 / ew → lane V ew k = sLane o ew (w a k) (w b k) (w c k) % 2 ^ ew) ∧
      (∀ l, l < 128 / ew →
        (∃ t V, exec (.exenoSLane r .lins ew d a b l []) s = .next t ∧ RegResult s t r x kSV (d % 16) V ∧
          ∀ k, k < 128 / ew → lane V ew k = (if k = l then s.xGet r x kG a % 2 ^ ew else w d k)) ∧
        (d < 32 → ∃ t, exec (.exenoSLane r .lext ew d a b l []) s = .next t ∧ RegResult s t r x kG d (w a l))) ∧
      (∀ l, ∃ t V, exec (.exenoSLane r .bcast ew d a b l []) s = .next t ∧ RegResult s t r x kSV (d % 16) V ∧
        ∀ k, k < 128 / ew → lane V ew k = s.xGet r x kG a % 2 ^ ew) ∧
      (∀ l, ∃ t V, exec (.exenoSLane r .shuffle ew d a b l []) s = .next t ∧ RegResult s t r x kSV (d % 16) V ∧
        ∀ k i, k < 16 → i = lane (s.xGet r x kSV (l % 16)) 8 k → i < 32 →
          lane V 8 k = lane (s.xGet r x kSV (a % 16) + s.xGet r x kSV (b % 16) * 2 ^ 128) 8 i)) ∧
  (∀ (s : State) (r x a off m : Nat), RowRuns s r x →
      (∀ n d sext, n ∈ [1, 2, 4, 8] → d < 64 → s.reaches r x (s.baseOff r x a off) n false m →
        ∃ t, exec (.load r n sext d a off []) s = .next t ∧ t.pc r x = (s.pc r x + 4) % 2 ^ 18 ∧ t.mem = s.mem ∧
          t.xGet r x (fileOf d) d = (if d = 0 then 0
            else if sext = true ∧ d < 32 then ofSigned 64 (toSigned (8 * n) (s.rd m n)) else s.rd m n) ∧
          (∀ q, q ∉ [xKey r x (fileOf d) d, xKey r x kPC 0] → Store.get t.xr 0 q = Store.get s.xr 0 q) ∧ RowKept s t r) ∧
      (∀ n b, n ∈ [1, 2, 4, 8] → b < 64 → s.reaches r x (s.baseOff r x a off) n true m →
        ∃ t, exec (.store r n a b off []) s = .next t ∧ t.pc r x = (s.pc r x + 4) % 2 ^ 18 ∧
          t.rd m n = s.xGet r x (fileOf b) b % 2 ^ (8 * n) ∧ BytesKept s t [(m, n)] ∧
          (∀ q, q ≠ xKey r x kPC 0 → Store.get t.xr 0 q = Store.get s.xr 0 q) ∧ RowKept s t r) ∧
      (∀ d, s.reaches r x (s.baseOff r x a off) 16 false m →
        ∃ t, exec (.exenoSLoadStore r false d a off []) s = .next t ∧ t.pc r x = (s.pc r x + 4) % 2 ^ 18 ∧ t.mem = s.mem ∧
          t.xGet r x kSV (d % 16) = s.rd m 16 ∧
          (∀ q, q ∉ [xKey r x kSV (d % 16), xKey r x kPC 0] → Store.get t.xr 0 q = Store.get s.xr 0 q) ∧ RowKept s t r) ∧
      (∀ d, s.reaches r x (s.baseOff r x a off) 16 true m →
        ∃ t, exec (.exenoSLoadStore r true d a off []) s = .next t ∧ t.pc r x = (s.pc r x + 4) % 2 ^ 18 ∧
          t.rd m 16 = s.xGet r x kSV (d % 16) % 2 ^ 128 ∧ BytesKept s t [(m, 16)] ∧
          (∀ q, q ≠ xKey r x kPC 0 → Store.get t.xr 0 q = Store.get s.xr 0 q) ∧ RowKept s t r))

/-- Exeno-L without memory: an element that takes part is the operation of the sources' elements, the others keep their
values; a comparison writes bits of a mask register; an ordered accumulation adds the elements that take part one by
one, ascending, into a scalar register, with one rounding or wrap-around each. Each completes: exec answers a next
state whenever the row executes: the device is powered, configured and not dead, a kernel or the service context runs,
and its instruction address lies in its region (R170, R171, R172, R175), at a width R179 gives, and nothing suspends it
(R182). -/
def Obligations.VectorInstructionsWorkElementByElement : Prop :=
  ∀ (s : State) (r x : Nat) (v : VArgs) (d a b c : Nat) (w : Nat → Nat → Nat) (p : Nat → Bool), VecRuns s r x v →
    w = (fun i k => s.vGet r x i v.ew k) → p = s.partakes r x v (vMax v.ew) →
    (∀ o : VOp, (vIsF o = true → fwidthOk v.ew = true) →
      ∃ t, exec (.vectorElementwise r v o d a b c []) s = .next t ∧ VecDone s t r x v (vMax v.ew) [xKey r x kLV d] ∧
        t.mem = s.mem ∧ ∀ k, k < vMax v.ew →
          (p k = true → t.vGet r x d v.ew k = vLane o v.ew (w a k) (w b k) (w c k) % 2 ^ v.ew) ∧
          (p k = false → t.vGet r x d v.ew k = w d k)) ∧
    (∀ sqrt, fwidthOk v.ew = true →
      ∃ t, exec (.vdivVsqrt r v sqrt d a b []) s = .next t ∧ VecDone s t r x v (vMax v.ew) [xKey r x kLV d] ∧
        t.mem = s.mem ∧ ∀ k, k < vMax v.ew → t.vGet r x d v.ew k =
          (if p k then fcode v.ew (if sqrt then (fval v.ew (w a k)).sqrt else (fval v.ew (w a k)).div (fval v.ew (w b k)))
              % 2 ^ v.ew else w d k)) ∧
    (∀ o : CmpOp, (cmpIsF o = true → fwidthOk v.ew = true) →
      ∃ t, exec (.vcmp r v o d a b []) s = .next t ∧ VecDone s t r x v (vMax v.ew) [xKey r x kLM (d % 8)] ∧ t.mem = s.mem ∧
        ∀ k, k < vMax v.ew → bit (t.xGet r x kLM (d % 8)) k =
          (if p k then vCompare o v.ew (w a k) (w b k) else bit (s.xGet r x kLM (d % 8)) k)) ∧
    (∀ m, ∃ t, exec (.vmerge r v d a b m []) s = .next t ∧ VecDone s t r x v (vMax v.ew) [xKey r x kLV d] ∧ t.mem = s.mem ∧
      ∀ k, k < vMax v.ew → t.vGet r x d v.ew k =
        (if p k then w (if bit (s.xGet r x kLM (m % 8)) k then a else b) k else w d k)) ∧
    (fwidthOk v.ew = true →
      ∃ t, exec (.vacco r v d a []) s = .next t ∧ VecDone s t r x v (vMax v.ew) [xKey r x kF d] ∧ t.mem = s.mem ∧
        t.xGet r x kF d = ((List.range (vMax v.ew)).filter p).foldl (fun g k =>
          fcode v.ew ((fval v.ew g).add (fval v.ew (w a k))) % 2 ^ 64) (s.xGet r x kF d)) ∧
    (∀ o f, (o, f) ∈ [(IAccOp.sum, fun g e : Nat => g + e), (.min, minS 64), (.max, maxS 64)] → 0 < d → d < 32 →
      ∃ t, exec (.viacc r v o d a []) s = .next t ∧ VecDone s t r x v (vMax v.ew) [xKey r x kG d] ∧ t.mem = s.mem ∧
        t.xGet r x kG d = ((List.range (vMax v.ew)).filter p).foldl (fun g k =>
          f g (ofSigned 64 (toSigned v.ew (w a k))) % 2 ^ 64) (s.xGet r x kG d)) ∧
    (∀ o, ∃ t, exec (.viacc r v o 0 a []) s = .next t ∧ VecDone s t r x v (vMax v.ew) [] ∧ t.mem = s.mem)

/-- Exeno-L loads and stores whose elements all reach memory. Loads write the elements that take part and keep the
others; a first-fault load that stops above its first element sets LV_FAULTLEN to the element and raises nothing; of
two stores to one place the higher element remains; ordered scatter-adds to one place are done in ascending order; a store
through a gate adds to the live census counters of the gate's class and format one converted element for each element that
takes part and one for each of the other outcomes, up to 2^48 − 1. VLD,
VLDS, VLX, VLPROBE, VLW, VST, VSTS, VSX, VSXA.O, VSXA.U and VSG complete: exec answers a next state whenever the row
executes: the device is powered, configured and not dead, a kernel or the service context runs, and its instruction
address lies in its region (R170, R171, R172, R175), at a width R179 gives, nothing suspends it, and every element
reaches memory (R182). -/
def Obligations.VectorLoadsAndStores : Prop :=
  ∀ (s : State) (r x : Nat) (v : VArgs) (d a i n : Nat) (place : Nat → Nat), VecRuns s r x v → n = v.ew / 8 →
    (∀ cmd lim addr, (cmd = Instr.vld r v d a [] ∧ lim = vMax v.ew ∧ addr = fun k => s.unitAt r x a k n) ∨
        (cmd = .vlds r v d a i [] ∧ lim = vMax v.ew ∧ addr = s.strideAt r x a i) ∨
        (cmd = .vlprobe r v d a [] ∧ lim = vMax v.ew ∧ addr = fun k => s.unitAt r x a k n) ∨
        (cmd = .vlx r v d a i [] ∧ d % 32 ≠ i % 32 ∧ lim = xMax v.ew ∧ addr = s.indexAt r x a i v.ew) →
      s.allReach r x v lim n false addr place →
      ∃ t, exec cmd s = .next t ∧ VecDone s t r x v lim [xKey r x kLV d] ∧ t.mem = s.mem ∧
        (cmd = .vlprobe r v d a [] → t.get (LV_FAULTLEN.COUNT r x) = t.get (VL.VL r x)) ∧
        ∀ k, k < vMax v.ew → t.vGet r x d v.ew k =
          (if s.partakes r x v lim k then s.rd (place k) n else s.vGet r x d v.ew k)) ∧
    (∀ f, 0 < f → s.partakes r x v (vMax v.ew) f = true →
      (∀ k, k < f → s.partakes r x v (vMax v.ew) k = true → s.reaches r x (s.unitAt r x a k n) n false (place k)) →
      (s.rowFault r x (s.unitAt r x a f n) n n false).isSome = true →
      ∃ t, exec (.vlprobe r v d a []) s = .next t ∧ VecDone s t r x v (vMax v.ew) [xKey r x kLV d] ∧ t.mem = s.mem ∧
        t.get (LV_FAULTLEN.COUNT r x) = f % 2 ^ 16 ∧ ∀ k, k < vMax v.ew → t.vGet r x d v.ew k =
          (if s.partakes r x v (vMax v.ew) k && decide (k < f) then s.rd (place k) n else s.vGet r x d v.ew k)) ∧
    (∀ fmt, fmt ∈ [fFP16, fBF16, fE4M3, fE5M2] → fwidthOk v.ew = true →
      s.allReach r x v (vMax v.ew) (fmtBytes fmt) false (fun k => s.unitAt r x a k (fmtBytes fmt)) place →
      ∃ t, exec (.vlw r v fmt d a []) s = .next t ∧ VecDone s t r x v (vMax v.ew) [xKey r x kLV d] ∧ t.mem = s.mem ∧
        ∀ k, k < vMax v.ew → t.vGet r x d v.ew k = (if s.partakes r x v (vMax v.ew) k
          then fcode v.ew (decode fmt (s.rd (place k) (fmtBytes fmt))) % 2 ^ v.ew else s.vGet r x d v.ew k)) ∧
    (∀ cmd lim addr, (cmd = Instr.vst r v d a [] ∧ lim = vMax v.ew ∧ addr = fun k => s.unitAt r x a k n) ∨
        (cmd = .vsts r v d a i [] ∧ lim = vMax v.ew ∧ addr = s.strideAt r x a i) ∨
        (cmd = .vsx r v d a i [] ∧ lim = xMax v.ew ∧ addr = s.indexAt r x a i v.ew) →
      s.allReach r x v lim n true addr place →
      ∃ t, exec cmd s = .next t ∧ VecDone s t r x v lim [] ∧
        (∀ k, s.partakes r x v lim k = true →
          (∀ j, k < j → s.partakes r x v lim j = true → Apart n (place k) (place j)) →
          t.rd (place k) n = s.vGet r x d v.ew k) ∧
        BytesKept s t (((List.range lim).filter (s.partakes r x v lim)).map fun k => (place k, n))) ∧
    (∀ int cmd, (int = true ∨ fwidthOk v.ew = true) →
      (cmd = .vsxaO r v int d a i [] ∨ (cmd = .vsxaU r v int d a i [] ∧ s.is DET_MODE.STRICT = true)) →
      s.allReach r x v (xMax v.ew) n true (s.indexAt r x a i v.ew) place →
      s.allReach r x v (xMax v.ew) n false (s.indexAt r x a i v.ew) place →
      (∀ j k, s.partakes r x v (xMax v.ew) j = true → s.partakes r x v (xMax v.ew) k = true →
        place j = place k ∨ Apart n (place j) (place k)) →
      ∃ t, exec cmd s = .next t ∧ VecDone s t r x v (xMax v.ew) [] ∧
        t.get (EXN_SCATTER.ORDERED r) = sat (EXN_SCATTER.ORDERED r) (s.get (EXN_SCATTER.ORDERED r) + 1) ∧
        t.get (EXN_SCATTER.SERIALISED r) = (if cmd = .vsxaO r v int d a i [] then s.get (EXN_SCATTER.SERIALISED r)
          else sat (EXN_SCATTER.SERIALISED r) (s.get (EXN_SCATTER.SERIALISED r) + 1)) ∧
        (∀ k, s.partakes r x v (xMax v.ew) k = true → t.rd (place k) n =
          ((List.range (xMax v.ew)).filter fun j => s.partakes r x v (xMax v.ew) j && place j == place k).foldl
            (fun m j => elemAdd int v.ew m (s.vGet r x d v.ew j) % 2 ^ v.ew) (s.rd (place k) n)) ∧
        BytesKept s t (((List.range (xMax v.ew)).filter (s.partakes r x v (xMax v.ew))).map fun k => (place k, n))) ∧
    (∀ int, (int = true ∨ fwidthOk v.ew = true) → s.is DET_MODE.STRICT = false →
      s.allReach r x v (xMax v.ew) n true (s.indexAt r x a i v.ew) place →
      s.allReach r x v (xMax v.ew) n false (s.indexAt r x a i v.ew) place →
      ∃ t, exec (.vsxaU r v int d a i []) s = .next t ∧ VecDone s t r x v (xMax v.ew) [] ∧
        t.get DET_ND_USED.VSXA_U = 1 ∧
        BytesKept s t (((List.range (xMax v.ew)).filter (s.partakes r x v (xMax v.ew))).map fun k => (place k, n))) ∧
    (∀ slot g, slot < 16 → g = gateOf (s.get (EXN_GATE.GATE r slot)) → s.gateSlotOk r slot = true →
      fwidthOk v.ew = true →
      s.allReach r x v (vMax v.ew) (fmtBytes g.fmt) true (fun k => s.unitAt r x a k (fmtBytes g.fmt)) place →
      ∃ t, exec (.vsg r v d a i slot []) s = .next t ∧ VecDone s t r x v (vMax v.ew) [] ∧
        (∀ k, s.partakes r x v (vMax v.ew) k = true →
          (∀ j, k < j → s.partakes r x v (vMax v.ew) j = true → Apart (fmtBytes g.fmt) (place k) (place j)) →
          t.rd (place k) (fmtBytes g.fmt) = (s.gateOne g (s.get (EXN_GATE.TENSOR_ID r slot))
            ((s.xGet r x kG i + k) % 2 ^ 64) (fval v.ew (s.vGet r x d v.ew k))).1 % 2 ^ (8 * fmtBytes g.fmt)) ∧
        BytesKept s t (((List.range (vMax v.ew)).filter (s.partakes r x v (vMax v.ew))).map fun k =>
          (place k, fmtBytes g.fmt)) ∧
        (∀ kind key, kind < 5 → key = (s.get (EXN_GATE.CLASS r slot) * 32 + g.fmt) * 5 + kind →
          (∃ k, s.partakes r x v (vMax v.ew) k = true) → Store.get t.census 0 key = min (Store.get s.census 0 key +
            ((List.range (vMax v.ew)).filter fun k => s.partakes r x v (vMax v.ew) k &&
              (kind == 0 || outcomeKind (s.gateOne g (s.get (EXN_GATE.TENSOR_ID r slot)) ((s.xGet r x kG i + k) % 2 ^ 64)
                (fval v.ew (s.vGet r x d v.ew k))).2 == some kind)).length) (2 ^ 48 - 1)) ∧
        ∀ key, (∀ kind, kind < 5 → key ≠ (s.get (EXN_GATE.CLASS r slot) * 32 + g.fmt) * 5 + kind) →
          Store.get t.census 0 key = Store.get s.census 0 key)

/-- CALL puts its arguments in g1 to g4 and starts the kernel in the list context, suspending a running service
context; after an exception in the step it returns at once. RET within the deadline, or while a stretch cause is active, ends the
entry and counts it, and otherwise does nothing; a deadline that passes raises BUSY and halts a step in RUN, unless a cause
is active. Service events run the
service context, or are latched up to 64, and the service context resumes with them. CALL completes: exec answers a
next state whenever it is the entry's turn and its engine is idle (R15, R17, R22, R27). RET completes whenever the row
executes (R170, R171, R172, R175). -/
def Obligations.CallsAndTheServiceContext : Prop :=
  ∀ s : State,
    (∀ i r, r = i.idx → Ready s .row engCall i → (s.row r).faulted = false →
      ∃ t, exec (.kernelCall i []) s = .next t ∧ Occupied t .row engCall i true ∧ t.mem = s.mem ∧
        t.get (EXN_STATUS.CTX r) = 1 ∧ t.get (EXN_STATUS.LAST_DESC r) = i.desc % 2 ^ (EXN_STATUS.LAST_DESC r).width ∧
        t.xGet r 0 kG 1 = i.tag % 2 ^ 64 ∧ t.xGet r 0 kG 2 = i.arg % 2 ^ 64 ∧ t.xGet r 0 kG 3 = i.tick % 2 ^ 64 ∧
        t.xGet r 0 kG 4 = s.get TICK_STEP.STEP % 2 ^ 64 ∧ t.pc r 0 = s.kernelPc r i.desc % 2 ^ 18 ∧
        (∃ c, (t.row r).call = some c ∧ c.desc = i.desc ∧ c.startCc = i.startCc ∧ c.endCc = i.startCc + i.busyCc) ∧
        (s.get (EXN_STATUS.CTX r) = 2 → t.get (EXN_STATUS.SUSPENDED r) = 1 ∧ t.get (EXC_INFO.CAUSE r 1) = 6 ∧
          t.get (EXC_INFO.EPC r 1) = s.pc r 1 % 2 ^ 18 ∧ t.get (EXC_ADDR.ADDR r 1) = 0) ∧
        ∀ q, q ∉ [xKey r 0 kG 1, xKey r 0 kG 2, xKey r 0 kG 3, xKey r 0 kG 4, xKey r 0 kPC 0] →
          Store.get t.xr 0 q = Store.get s.xr 0 q) ∧
    (∀ i, Ready s .row engCall i → (s.row i.idx).faulted = true →
      ∃ t, exec (.kernelCall i []) s = .next t ∧ t.busyRec .row i.idx engCall = none ∧
        OnlyFields { s with tick := t.tick } t [EXN_STATUS.LAST_DESC i.idx]) ∧
    (∀ r cc c, RowRuns s r 0 → (s.row r).call = some c →
      (cc ≤ c.endCc ∨ s.excused = true → ∃ t, exec (.ret r cc []) s = .next t ∧ (t.row r).call = none ∧ t.busyRec .row r engCall = none ∧
        t.get (EXN_STATUS.CTX r) = (if c.svcWasRunning || !(s.row r).events.isEmpty then 3 else 0) ∧
        t.get (EXN_ENTRIES.CALLS r) = sat (EXN_ENTRIES.CALLS r) (s.get (EXN_ENTRIES.CALLS r) + 1) ∧
        (s.get (EXN_ENTRY_MAX.MAX_CC r) < cc - c.startCc →
          t.get (EXN_ENTRY_MAX.MAX_CC r) = (cc - c.startCc) % 2 ^ (EXN_ENTRY_MAX.MAX_CC r).width ∧
          t.get (EXN_ENTRY_MAX.DESC r) = c.desc % 2 ^ (EXN_ENTRY_MAX.DESC r).width) ∧
        OnlyFields { s with tick := t.tick, rows := t.rows } t [EXN_STATUS.CTX r, EXN_ENTRIES.CALLS r,
          EXN_ENTRY_MAX.MAX_CC r, EXN_ENTRY_MAX.DESC r]) ∧
      (c.endCc < cc → s.excused = false → exec (.ret r cc []) s = .next s)) ∧
    (∀ r cc, RowRuns s r 1 → ∃ t, exec (.ret r cc []) s = .next t ∧ t.pc r 1 = s.get (EXC_INFO.EPC r 1) % 2 ^ 18 ∧
      OnlyRowRegs s t [xKey r 1 kPC 0]) ∧
    (∀ r c b, r < 64 → (s.row r).call = some c → s.busyRec .row r engCall = some b → s.job = 2 →
      s.tick.freeze = 0 → s.excused = false → s.err.handling = none → s.is ERR_SWAP.BUSY = false →
      s.is TICK_FAULT.VALID = false → ∃ t, exec (.callDeadline r) s = .next t ∧ t.job = 3 ∧ t.mem = s.mem ∧ (t.row r).call = none ∧
        t.get TICK_FAULT.CODE = 0x10 ∧ t.get TICK_FAULT.UNIT_INDEX = r ∧
        t.get TICK_FAULT.ENTRY = b.entry % 2 ^ TICK_FAULT.ENTRY.width) ∧
    (∀ r, r < 64 → s.get (EXN_STATUS.CTX r) = 3 →
      ∃ t, exec (.serviceResume r) s = .next t ∧ t.get (EXN_STATUS.CTX r) = 2 ∧ t.get (EXN_STATUS.SUSPENDED r) = 0 ∧
        t.get (EXN_STATUS.PENDING r) = 0 ∧ (t.row r).events = [] ∧ t.mem = s.mem ∧ t.xr = s.xr) ∧
    (∀ r, r < 64 → s.excused = true → exec (.callDeadline r) s = .next s) ∧
    (∀ r ev c, r < 64 → s.accepts = true → s.boot.configuring = false → c = s.get (EXN_STATUS.CTX r) →
      (c = 0 → ∃ t, exec (.serviceEvent r ev) s = .next t ∧ t.get (EXN_STATUS.CTX r) = 2 ∧
        OnlyFields s t [EXN_STATUS.CTX r]) ∧
      (c = 1 ∨ c = 3 → (s.row r).events.length < 64 →
        ∃ t, exec (.serviceEvent r ev) s = .next t ∧ (t.row r).events = (s.row r).events ++ [ev] ∧
          t.get (EXN_STATUS.PENDING r) = (s.row r).events.length + 1 ∧
          OnlyFields { s with rows := t.rows } t [EXN_STATUS.PENDING r]) ∧
      (c = 1 ∨ c = 3 → 64 ≤ (s.row r).events.length →
        ∃ t, exec (.serviceEvent r ev) s = .next t ∧ t.get (EXN_STATUS.SVC_OVF r) = 1 ∧ (t.row r).events = (s.row r).events ∧
          t.get ERR_COUNT0.CORRECTED = min (s.get ERR_COUNT0.CORRECTED + 1) (2 ^ 32 - 1)))

/-- A control register reads as its fields stand and takes the fields that may be written; CYCLE reads the core cycles
in the service context and is ILLEGAL in the list context. An exception sets EXC_INFO and EXC_ADDR. In the list context
it ends the entry and is the first recorded in EXN_FAULT, and memory keeps its bytes; in the service context an
instruction of the firmware region follows. Reads and writes of a CSR that exists complete: exec answers a next state
whenever the row executes: the device is powered, configured and not dead, a kernel or the service context runs, and
its instruction address lies in its region (R170, R171, R172, R175). -/
def Obligations.ControlRegistersAndExceptions : Prop :=
  ∀ (s : State) (r x : Nat), RowRuns s r x →
    (∀ d csr, d < 32 → csr ≠ 0x030 → csrFields r x csr ≠ [] →
      ∃ t, exec (.csrRead r d csr []) s = .next t ∧
        RegResult s t r x kG d ((csrFields r x csr).map fun f => s.get f * 2 ^ f.lo).sum) ∧
    (∀ d, d < 32 → x = 1 → ∃ t, exec (.csrRead r d 0x030 []) s = .next t ∧ RegResult s t r x kG d s.tick.now) ∧
    (∀ a csr, csrFields r x csr ≠ [] →
      ∃ t, exec (.csrWrite r a csr []) s = .next t ∧ t.pc r x = (s.pc r x + 4) % 2 ^ 18 ∧
        (∀ f ∈ csrFields r x csr, f.acc = .rw → t.get f = s.xGet r x kG a / 2 ^ f.lo % 2 ^ f.width) ∧
        (∀ g : Fld, g.key ∉ ((csrFields r x csr).filter fun f => f.acc == .rw).map Fld.key → t.get g = s.get g) ∧
        { t with xr := s.xr, flds := s.flds } = s ∧ ∀ q, q ≠ xKey r x kPC 0 → Store.get t.xr 0 q = Store.get s.xr 0 q) ∧
    (∀ cmd cause addr, (cmd = Instr.brk r [] ∧ cause = 5 ∧ addr = 0) ∨
        (∃ d csr, cmd = .csrRead r d csr [] ∧ (csrFields r x csr = [] ∨ (csr = 0x030 ∧ x = 0)) ∧ cause = 3 ∧ addr = 0) ∨
        (∃ n d sext a off, cmd = .load r n sext d a off [] ∧ n ∈ [1, 2, 4, 8] ∧ addr = s.baseOff r x a off ∧
          ((addr % n ≠ 0 ∧ cause = 1) ∨ (addr % n = 0 ∧ s.view r x addr n false = .none ∧ cause = 2))) ∨
        (∃ n a b off, cmd = .store r n a b off [] ∧ n ∈ [1, 2, 4, 8] ∧ addr = s.baseOff r x a off ∧
          ((addr % n ≠ 0 ∧ cause = 1) ∨ (addr % n = 0 ∧ s.view r x addr n true = .none ∧ cause = 2))) →
      ∃ t, exec cmd s = .next t ∧ t.mem = s.mem ∧ t.get (EXC_INFO.CAUSE r x) = cause ∧
        t.get (EXC_INFO.EPC r x) = s.pc r x % 2 ^ 18 ∧ t.get (EXC_ADDR.ADDR r x) = addr % 2 ^ 64 ∧
        (x = 0 → t.xr = s.xr ∧ (t.row r).call = none ∧ (t.row r).faulted = true ∧ t.busyRec .row r engCall = none ∧
          (∃ e, t.err.atGlue = s.err.atGlue ++ [e] ∧ e.cls = 2 ∧ e.index = r ∧ e.code = cause) ∧
          (s.is (EXN_FAULT.VALID r) = false → t.get (EXN_FAULT.VALID r) = 1 ∧ t.get (EXN_FAULT.CAUSE r) = cause ∧
            t.get (EXN_FAULT.EPC r) = s.pc r x % 2 ^ 18 ∧ t.get (EXN_FAULT_ADDR.ADDR r) = addr % 2 ^ 64)) ∧
        (x = 1 → t.pc r x < 0x20000 ∧ t.pc r x % 4 = 0 ∧ ∀ q, q ≠ xKey r x kPC 0 →
          Store.get t.xr 0 q = Store.get s.xr 0 q)) ∧
    (∀ v o d a b c k, x = 1 → widthOk v.ew = true → (vIsF o = true → fwidthOk v.ew = true) → v.stop = some k →
      s.get (LV_RESUME.INDEX r x) ≤ k → k < s.vCount r x v (vMax v.ew) →
      ∃ t, exec (.vectorElementwise r v o d a b c []) s = .next t ∧ t.get (LV_RESUME.INDEX r x) = k ∧
        t.get (EXC_INFO.CAUSE r x) = 6 ∧ t.get (EXC_INFO.EPC r x) = s.pc r x % 2 ^ 18 ∧ t.pc r x = s.pc r x ∧
        t.get (EXC_ADDR.ADDR r x) = 0 ∧
        t.mem = s.mem ∧ ∀ j, k ≤ j → j < vMax v.ew → t.vGet r x d v.ew j = s.vGet r x d v.ew j)
end

