-- ==== Sys2Proof/Laws/Store.lean ====
section
/-! SUPPORT. Laws of the sparse maps (Machine/Store.lean) and of the memory built on them: reading after writing, and that
every operation keeps the canonical form. -/

namespace Sys2Proof.Machine

namespace Store

variable {α : Type}

/-- A list rises exactly where every entry lies below all that follow it. -/
theorem sorted_iff (m : List (Nat × α)) : sorted m = true ↔ m.Pairwise fun a b => a.1 < b.1 := by
  have : sorted m = true ↔ m.IsChain fun a b => a.1 < b.1 := by fun_induction sorted m <;> simp_all
  rw [this]
  have : Trans (fun a b : Nat × α => a.1 < b.1) (fun a b : Nat × α => a.1 < b.1) fun a b : Nat × α => a.1 < b.1 := ⟨Nat.lt_trans⟩
  exact List.isChain_iff_pairwise

/-- Leaving entries out keeps a list rising. -/
theorem sorted_filter (p : Nat × α → Bool) {m : List (Nat × α)} (h : sorted m = true) : sorted (m.filter p) = true :=
  (sorted_iff _).2 (((sorted_iff m).1 h).filter p)

/-- What an insertion lists. -/
theorem mem_insert {m : List (Nat × α)} {k : Nat} {v : α} {e : Nat × α} (h : e ∈ insert m k v) : e = (k, v) ∨ e ∈ m := by
  fun_induction insert m k v <;> grind

/-- An insertion keeps a list rising. -/
theorem sorted_insert {m : List (Nat × α)} (k : Nat) (v : α) (h : sorted m = true) : sorted (insert m k v) = true := by
  rw [sorted_iff] at h ⊢
  fun_induction insert m k v <;> simp only [List.pairwise_cons] at *
  case case1 => simp
  case case2 => simpa using h
  case case3 => exact ⟨by grind, h⟩
  case case4 ih =>
    refine ⟨fun e he => (mem_insert he).elim (fun h' => ?_) (h.1 e), ih h.2⟩
    subst h'; simp; omega

theorem sorted_erase {m : List (Nat × α)} (k : Nat) (h : sorted m = true) : sorted (erase m k) = true := sorted_filter _ h

theorem sorted_put [DecidableEq α] {m : List (Nat × α)} (d : α) (k : Nat) (v : α) (h : sorted m = true) :
    sorted (put m d k v) = true := by
  by_cases hv : v = d <;> simp [put, hv, sorted_erase k h, sorted_insert k v h]

/-- Reading the key that was inserted. -/
@[simp] theorem find?_insert_same (m : List (Nat × α)) (k : Nat) (v : α) : find? (insert m k v) k = some v := by
  fun_induction insert m k v <;> grind [find?]

/-- Reading another key than the one inserted. -/
theorem find?_insert_other (m : List (Nat × α)) {k j : Nat} (v : α) (h : j ≠ k) : find? (insert m k v) j = find? m j := by
  fun_induction insert m k v <;> grind [find?]

/-- Reading a list of which entries with other keys were left out. -/
theorem find?_filter (m : List (Nat × α)) (p : Nat × α → Bool) (j : Nat) (h : ∀ v, p (j, v) = true) :
    find? (m.filter p) j = find? m j := by
  fun_induction find? m j <;> grind [find?]

/-- Reading a key all of whose entries were left out. -/
theorem find?_filter_none (m : List (Nat × α)) (p : Nat × α → Bool) (j : Nat) (h : ∀ v, p (j, v) = false) :
    find? (m.filter p) j = none := by
  induction m with
  | nil => rfl
  | cons a m ih => cases hp : p a <;> grind [find?, List.filter_cons]

/-- A write is read back. -/
@[simp] theorem get_put_same [DecidableEq α] (m : List (Nat × α)) (d : α) (k : Nat) (v : α) : get (put m d k v) d k = v := by
  unfold get put
  split
  next h => rw [erase, find?_filter_none _ _ _ (by simp), h, Option.getD_none]
  next => simp

/-- A write leaves every other key alone. -/
theorem get_put_other [DecidableEq α] (m : List (Nat × α)) (d d' : α) {k j : Nat} (v : α) (h : j ≠ k) :
    get (put m d k v) d' j = get m d' j := by
  unfold get put
  split
  next => rw [erase, find?_filter _ _ _ (by simp [h])]
  next => rw [find?_insert_other _ _ h]

/-- Erasing a range leaves every key outside it alone. -/
theorem get_eraseRange_other (m : List (Nat × α)) (d : α) {a n j : Nat} (h : j < a ∨ a + n ≤ j) :
    get (eraseRange m a n) d j = get m d j := by
  unfold get eraseRange
  rw [find?_filter]
  intro v
  simpa using h

/-- A key of an erased range has the default value. -/
theorem get_eraseRange_in (m : List (Nat × α)) (d : α) {a n j : Nat} (h1 : a ≤ j) (h2 : j < a + n) :
    get (eraseRange m a n) d j = d := by
  unfold get eraseRange
  rw [find?_filter_none]
  · rfl
  · intro v
    simp only [Bool.or_eq_false_iff, decide_eq_false_iff_not]
    omega

end Store

/-! ### Memory -/

namespace Memory

/-- A memory is canonical: addresses rise, and no byte is listed as 0. -/
theorem wf_iff (m : List Host.Cell) : wf m = true ↔ Store.sorted m = true ∧ ∀ e ∈ m, e.2 ≠ 0 := by
  simp [wf, List.all_eq_true]

theorem wf_filter (p : Host.Cell → Bool) {m : List Host.Cell} (h : wf m = true) : wf (m.filter p) = true := by
  grind [wf_iff, Store.sorted_filter]

theorem wf_insert {m : List Host.Cell} (k : Nat) {v : Byte} (hv : v ≠ 0) (h : wf m = true) :
    wf (Store.insert m k v) = true := by
  simp only [wf_iff] at h ⊢
  exact ⟨Store.sorted_insert k v h.1, fun e he => (Store.mem_insert he).elim (fun h' => h' ▸ hv) (h.2 e)⟩

/-- A byte write keeps the canonical form. -/
theorem wf_write {m : List Host.Cell} (a : Nat) (b : Byte) (h : wf m = true) : wf (write m a b) = true := by
  grind [write, Store.put, Store.erase, wf_filter, wf_insert]

/-- So does a write of several bytes. -/
theorem wf_writeBytes {m : List Host.Cell} (a : Nat) (bs : List Nat) (h : wf m = true) : wf (writeBytes m a bs) = true := by
  induction bs generalizing m a with
  | nil => exact h
  | cons b bs ih => exact ih (a + 1) (wf_write a _ h)

/-- And zeroing a range. -/
theorem wf_eraseRange {m : List Host.Cell} (a n : Nat) (h : wf m = true) : wf (Store.eraseRange m a n) = true :=
  wf_filter _ h

/-- Insertions of listed bytes at other places keep it. -/
theorem wf_foldl_insert {m : List Host.Cell} (l : List Host.Cell) (f : Nat → Nat) (hl : ∀ e ∈ l, e.2 ≠ 0)
    (h : wf m = true) : wf (l.foldl (fun m e => Store.insert m (f e.1) e.2) m) = true := by
  induction l generalizing m with
  | nil => exact h
  | cons e l ih =>
    exact ih (fun x hx => hl x (List.mem_cons_of_mem _ hx)) (wf_insert (f e.1) (hl e List.mem_cons_self) h)

/-- A byte that was written is read back. -/
@[simp] theorem read_write_same (m : List Host.Cell) (a : Nat) (b : Byte) : read (write m a b) a = b :=
  Store.get_put_same m 0 a b

/-- Every other byte is as before. -/
theorem read_write_other (m : List Host.Cell) {a x : Nat} (b : Byte) (h : x ≠ a) : read (write m a b) x = read m x :=
  Store.get_put_other m 0 0 b h

/-- A write of several bytes leaves every byte outside them alone. -/
theorem read_writeBytes_other (m : List Host.Cell) (a : Nat) (bs : List Nat) {x : Nat} (h : x < a ∨ a + bs.length ≤ x) :
    read (writeBytes m a bs) x = read m x := by
  induction bs generalizing m a with
  | nil => rfl
  | cons b bs ih =>
    simp only [writeBytes, List.length_cons] at h ⊢
    rw [ih _ _ (by omega), read_write_other _ _ (by omega)]

/-- The bytes written are read back, each cut to eight bits. -/
theorem read_writeBytes_in (m : List Host.Cell) (a : Nat) (bs : List Nat) {i : Nat} (h : i < bs.length) :
    read (writeBytes m a bs) (a + i) = BitVec.ofNat 8 (bs.getD i 0) := by
  induction bs generalizing m a i with
  | nil => simp at h
  | cons b bs ih =>
    simp only [writeBytes]
    cases i with
    | zero => rw [read_writeBytes_other _ _ _ (by omega)]; simp
    | succ i =>
      have := ih (write m a (BitVec.ofNat 8 b)) (a + 1) (i := i) (by simpa using h)
      rw [show a + (i + 1) = a + 1 + i by omega, this]
      rfl

/-- A range that was zeroed reads as zero. -/
theorem read_eraseRange_in (m : List Host.Cell) {a n x : Nat} (h1 : a ≤ x) (h2 : x < a + n) :
    read (Store.eraseRange m a n) x = 0 := Store.get_eraseRange_in m 0 h1 h2

/-- Zeroing a range leaves every other byte alone. -/
theorem read_eraseRange_other (m : List Host.Cell) {a n x : Nat} (h : x < a ∨ a + n ≤ x) :
    read (Store.eraseRange m a n) x = read m x := Store.get_eraseRange_other m 0 h

end Memory

end Sys2Proof.Machine
end

