-- ==== Sys2Proof/Laws/State.lean ====
section
/-! SUPPORT. What each update of the state leaves alone and what it gives: one lemma for each field of the state under each
update, so that no later proof unfolds a record update, and the reading of register fields after writes. -/

namespace Sys2Proof.Machine

variable (s : State)

/-! ### set -/

@[simp] theorem State.set_pending (f : Fld) (v : Nat) : (s.set f v).pending = s.pending := rfl
@[simp] theorem State.set_mem (f : Fld) (v : Nat) : (s.set f v).mem = s.mem := rfl
@[simp] theorem State.set_poison (f : Fld) (v : Nat) : (s.set f v).poison = s.poison := rfl
@[simp] theorem State.set_xr (f : Fld) (v : Nat) : (s.set f v).xr = s.xr := rfl
@[simp] theorem State.set_rows (f : Fld) (v : Nat) : (s.set f v).rows = s.rows := rfl
@[simp] theorem State.set_tick (f : Fld) (v : Nat) : (s.set f v).tick = s.tick := rfl
@[simp] theorem State.set_sealA (f : Fld) (v : Nat) : (s.set f v).sealA = s.sealA := rfl
@[simp] theorem State.set_sealB (f : Fld) (v : Nat) : (s.set f v).sealB = s.sealB := rfl
@[simp] theorem State.set_err (f : Fld) (v : Nat) : (s.set f v).err = s.err := rfl
@[simp] theorem State.set_lands (f : Fld) (v : Nat) : (s.set f v).lands = s.lands := rfl
@[simp] theorem State.set_links (f : Fld) (v : Nat) : (s.set f v).links = s.links := rfl
@[simp] theorem State.set_host (f : Fld) (v : Nat) : (s.set f v).host = s.host := rfl
@[simp] theorem State.set_det (f : Fld) (v : Nat) : (s.set f v).det = s.det := rfl
@[simp] theorem State.set_boot (f : Fld) (v : Nat) : (s.set f v).boot = s.boot := rfl
@[simp] theorem State.set_pwr (f : Fld) (v : Nat) : (s.set f v).pwr = s.pwr := rfl
@[simp] theorem State.set_arr (f : Fld) (v : Nat) : (s.set f v).arr = s.arr := rfl
@[simp] theorem State.set_root (f : Fld) (v : Nat) : (s.set f v).root = s.root := rfl
@[simp] theorem State.set_sol (f : Fld) (v : Nat) : (s.set f v).sol = s.sol := rfl
@[simp] theorem State.set_upd (f : Fld) (v : Nat) : (s.set f v).upd = s.upd := rfl
@[simp] theorem State.set_active (f : Fld) (v : Nat) : (s.set f v).active = s.active := rfl
@[simp] theorem State.set_good (f : Fld) (v : Nat) : (s.set f v).good = s.good := rfl
@[simp] theorem State.set_census (f : Fld) (v : Nat) : (s.set f v).census = s.census := rfl
@[simp] theorem State.set_tallies (f : Fld) (v : Nat) : (s.set f v).tallies = s.tallies := rfl
@[simp] theorem State.set_resp (f : Fld) (v : Nat) : (s.set f v).resp = s.resp := rfl
@[simp] theorem State.set_out (f : Fld) (v : Nat) : (s.set f v).out = s.out := rfl
@[simp] theorem State.set_freeCtr (f : Fld) (v : Nat) : (s.set f v).freeCtr = s.freeCtr := rfl

/-! ### setB -/

@[simp] theorem State.setB_pending (f : Fld) (b : Bool) : (s.setB f b).pending = s.pending := rfl
@[simp] theorem State.setB_mem (f : Fld) (b : Bool) : (s.setB f b).mem = s.mem := rfl
@[simp] theorem State.setB_poison (f : Fld) (b : Bool) : (s.setB f b).poison = s.poison := rfl
@[simp] theorem State.setB_xr (f : Fld) (b : Bool) : (s.setB f b).xr = s.xr := rfl
@[simp] theorem State.setB_rows (f : Fld) (b : Bool) : (s.setB f b).rows = s.rows := rfl
@[simp] theorem State.setB_tick (f : Fld) (b : Bool) : (s.setB f b).tick = s.tick := rfl
@[simp] theorem State.setB_sealA (f : Fld) (b : Bool) : (s.setB f b).sealA = s.sealA := rfl
@[simp] theorem State.setB_sealB (f : Fld) (b : Bool) : (s.setB f b).sealB = s.sealB := rfl
@[simp] theorem State.setB_err (f : Fld) (b : Bool) : (s.setB f b).err = s.err := rfl
@[simp] theorem State.setB_lands (f : Fld) (b : Bool) : (s.setB f b).lands = s.lands := rfl
@[simp] theorem State.setB_links (f : Fld) (b : Bool) : (s.setB f b).links = s.links := rfl
@[simp] theorem State.setB_host (f : Fld) (b : Bool) : (s.setB f b).host = s.host := rfl
@[simp] theorem State.setB_det (f : Fld) (b : Bool) : (s.setB f b).det = s.det := rfl
@[simp] theorem State.setB_boot (f : Fld) (b : Bool) : (s.setB f b).boot = s.boot := rfl
@[simp] theorem State.setB_pwr (f : Fld) (b : Bool) : (s.setB f b).pwr = s.pwr := rfl
@[simp] theorem State.setB_arr (f : Fld) (b : Bool) : (s.setB f b).arr = s.arr := rfl
@[simp] theorem State.setB_root (f : Fld) (b : Bool) : (s.setB f b).root = s.root := rfl
@[simp] theorem State.setB_sol (f : Fld) (b : Bool) : (s.setB f b).sol = s.sol := rfl
@[simp] theorem State.setB_upd (f : Fld) (b : Bool) : (s.setB f b).upd = s.upd := rfl
@[simp] theorem State.setB_active (f : Fld) (b : Bool) : (s.setB f b).active = s.active := rfl
@[simp] theorem State.setB_good (f : Fld) (b : Bool) : (s.setB f b).good = s.good := rfl
@[simp] theorem State.setB_census (f : Fld) (b : Bool) : (s.setB f b).census = s.census := rfl
@[simp] theorem State.setB_tallies (f : Fld) (b : Bool) : (s.setB f b).tallies = s.tallies := rfl
@[simp] theorem State.setB_resp (f : Fld) (b : Bool) : (s.setB f b).resp = s.resp := rfl
@[simp] theorem State.setB_out (f : Fld) (b : Bool) : (s.setB f b).out = s.out := rfl
@[simp] theorem State.setB_freeCtr (f : Fld) (b : Bool) : (s.setB f b).freeCtr = s.freeCtr := rfl

/-! ### inc -/

@[simp] theorem State.inc_pending (f : Fld) (n : Nat) : (s.inc f n).pending = s.pending := rfl
@[simp] theorem State.inc_mem (f : Fld) (n : Nat) : (s.inc f n).mem = s.mem := rfl
@[simp] theorem State.inc_poison (f : Fld) (n : Nat) : (s.inc f n).poison = s.poison := rfl
@[simp] theorem State.inc_xr (f : Fld) (n : Nat) : (s.inc f n).xr = s.xr := rfl
@[simp] theorem State.inc_rows (f : Fld) (n : Nat) : (s.inc f n).rows = s.rows := rfl
@[simp] theorem State.inc_tick (f : Fld) (n : Nat) : (s.inc f n).tick = s.tick := rfl
@[simp] theorem State.inc_sealA (f : Fld) (n : Nat) : (s.inc f n).sealA = s.sealA := rfl
@[simp] theorem State.inc_sealB (f : Fld) (n : Nat) : (s.inc f n).sealB = s.sealB := rfl
@[simp] theorem State.inc_err (f : Fld) (n : Nat) : (s.inc f n).err = s.err := rfl
@[simp] theorem State.inc_lands (f : Fld) (n : Nat) : (s.inc f n).lands = s.lands := rfl
@[simp] theorem State.inc_links (f : Fld) (n : Nat) : (s.inc f n).links = s.links := rfl
@[simp] theorem State.inc_host (f : Fld) (n : Nat) : (s.inc f n).host = s.host := rfl
@[simp] theorem State.inc_det (f : Fld) (n : Nat) : (s.inc f n).det = s.det := rfl
@[simp] theorem State.inc_boot (f : Fld) (n : Nat) : (s.inc f n).boot = s.boot := rfl
@[simp] theorem State.inc_pwr (f : Fld) (n : Nat) : (s.inc f n).pwr = s.pwr := rfl
@[simp] theorem State.inc_arr (f : Fld) (n : Nat) : (s.inc f n).arr = s.arr := rfl
@[simp] theorem State.inc_root (f : Fld) (n : Nat) : (s.inc f n).root = s.root := rfl
@[simp] theorem State.inc_sol (f : Fld) (n : Nat) : (s.inc f n).sol = s.sol := rfl
@[simp] theorem State.inc_upd (f : Fld) (n : Nat) : (s.inc f n).upd = s.upd := rfl
@[simp] theorem State.inc_active (f : Fld) (n : Nat) : (s.inc f n).active = s.active := rfl
@[simp] theorem State.inc_good (f : Fld) (n : Nat) : (s.inc f n).good = s.good := rfl
@[simp] theorem State.inc_census (f : Fld) (n : Nat) : (s.inc f n).census = s.census := rfl
@[simp] theorem State.inc_tallies (f : Fld) (n : Nat) : (s.inc f n).tallies = s.tallies := rfl
@[simp] theorem State.inc_resp (f : Fld) (n : Nat) : (s.inc f n).resp = s.resp := rfl
@[simp] theorem State.inc_out (f : Fld) (n : Nat) : (s.inc f n).out = s.out := rfl
@[simp] theorem State.inc_freeCtr (f : Fld) (n : Nat) : (s.inc f n).freeCtr = s.freeCtr := rfl

/-! ### incWrap -/

@[simp] theorem State.incWrap_pending (f : Fld) (n : Nat) : (s.incWrap f n).pending = s.pending := rfl
@[simp] theorem State.incWrap_mem (f : Fld) (n : Nat) : (s.incWrap f n).mem = s.mem := rfl
@[simp] theorem State.incWrap_poison (f : Fld) (n : Nat) : (s.incWrap f n).poison = s.poison := rfl
@[simp] theorem State.incWrap_xr (f : Fld) (n : Nat) : (s.incWrap f n).xr = s.xr := rfl
@[simp] theorem State.incWrap_rows (f : Fld) (n : Nat) : (s.incWrap f n).rows = s.rows := rfl
@[simp] theorem State.incWrap_tick (f : Fld) (n : Nat) : (s.incWrap f n).tick = s.tick := rfl
@[simp] theorem State.incWrap_sealA (f : Fld) (n : Nat) : (s.incWrap f n).sealA = s.sealA := rfl
@[simp] theorem State.incWrap_sealB (f : Fld) (n : Nat) : (s.incWrap f n).sealB = s.sealB := rfl
@[simp] theorem State.incWrap_err (f : Fld) (n : Nat) : (s.incWrap f n).err = s.err := rfl
@[simp] theorem State.incWrap_lands (f : Fld) (n : Nat) : (s.incWrap f n).lands = s.lands := rfl
@[simp] theorem State.incWrap_links (f : Fld) (n : Nat) : (s.incWrap f n).links = s.links := rfl
@[simp] theorem State.incWrap_host (f : Fld) (n : Nat) : (s.incWrap f n).host = s.host := rfl
@[simp] theorem State.incWrap_det (f : Fld) (n : Nat) : (s.incWrap f n).det = s.det := rfl
@[simp] theorem State.incWrap_boot (f : Fld) (n : Nat) : (s.incWrap f n).boot = s.boot := rfl
@[simp] theorem State.incWrap_pwr (f : Fld) (n : Nat) : (s.incWrap f n).pwr = s.pwr := rfl
@[simp] theorem State.incWrap_arr (f : Fld) (n : Nat) : (s.incWrap f n).arr = s.arr := rfl
@[simp] theorem State.incWrap_root (f : Fld) (n : Nat) : (s.incWrap f n).root = s.root := rfl
@[simp] theorem State.incWrap_sol (f : Fld) (n : Nat) : (s.incWrap f n).sol = s.sol := rfl
@[simp] theorem State.incWrap_upd (f : Fld) (n : Nat) : (s.incWrap f n).upd = s.upd := rfl
@[simp] theorem State.incWrap_active (f : Fld) (n : Nat) : (s.incWrap f n).active = s.active := rfl
@[simp] theorem State.incWrap_good (f : Fld) (n : Nat) : (s.incWrap f n).good = s.good := rfl
@[simp] theorem State.incWrap_census (f : Fld) (n : Nat) : (s.incWrap f n).census = s.census := rfl
@[simp] theorem State.incWrap_tallies (f : Fld) (n : Nat) : (s.incWrap f n).tallies = s.tallies := rfl
@[simp] theorem State.incWrap_resp (f : Fld) (n : Nat) : (s.incWrap f n).resp = s.resp := rfl
@[simp] theorem State.incWrap_out (f : Fld) (n : Nat) : (s.incWrap f n).out = s.out := rfl
@[simp] theorem State.incWrap_freeCtr (f : Fld) (n : Nat) : (s.incWrap f n).freeCtr = s.freeCtr := rfl

/-! ### clearEach -/

@[simp] theorem State.clearEach_pending (f : Fld) (a n : Nat) : (s.clearEach f a n).pending = s.pending := rfl
@[simp] theorem State.clearEach_mem (f : Fld) (a n : Nat) : (s.clearEach f a n).mem = s.mem := rfl
@[simp] theorem State.clearEach_poison (f : Fld) (a n : Nat) : (s.clearEach f a n).poison = s.poison := rfl
@[simp] theorem State.clearEach_xr (f : Fld) (a n : Nat) : (s.clearEach f a n).xr = s.xr := rfl
@[simp] theorem State.clearEach_rows (f : Fld) (a n : Nat) : (s.clearEach f a n).rows = s.rows := rfl
@[simp] theorem State.clearEach_tick (f : Fld) (a n : Nat) : (s.clearEach f a n).tick = s.tick := rfl
@[simp] theorem State.clearEach_sealA (f : Fld) (a n : Nat) : (s.clearEach f a n).sealA = s.sealA := rfl
@[simp] theorem State.clearEach_sealB (f : Fld) (a n : Nat) : (s.clearEach f a n).sealB = s.sealB := rfl
@[simp] theorem State.clearEach_err (f : Fld) (a n : Nat) : (s.clearEach f a n).err = s.err := rfl
@[simp] theorem State.clearEach_lands (f : Fld) (a n : Nat) : (s.clearEach f a n).lands = s.lands := rfl
@[simp] theorem State.clearEach_links (f : Fld) (a n : Nat) : (s.clearEach f a n).links = s.links := rfl
@[simp] theorem State.clearEach_host (f : Fld) (a n : Nat) : (s.clearEach f a n).host = s.host := rfl
@[simp] theorem State.clearEach_det (f : Fld) (a n : Nat) : (s.clearEach f a n).det = s.det := rfl
@[simp] theorem State.clearEach_boot (f : Fld) (a n : Nat) : (s.clearEach f a n).boot = s.boot := rfl
@[simp] theorem State.clearEach_pwr (f : Fld) (a n : Nat) : (s.clearEach f a n).pwr = s.pwr := rfl
@[simp] theorem State.clearEach_arr (f : Fld) (a n : Nat) : (s.clearEach f a n).arr = s.arr := rfl
@[simp] theorem State.clearEach_root (f : Fld) (a n : Nat) : (s.clearEach f a n).root = s.root := rfl
@[simp] theorem State.clearEach_sol (f : Fld) (a n : Nat) : (s.clearEach f a n).sol = s.sol := rfl
@[simp] theorem State.clearEach_upd (f : Fld) (a n : Nat) : (s.clearEach f a n).upd = s.upd := rfl
@[simp] theorem State.clearEach_active (f : Fld) (a n : Nat) : (s.clearEach f a n).active = s.active := rfl
@[simp] theorem State.clearEach_good (f : Fld) (a n : Nat) : (s.clearEach f a n).good = s.good := rfl
@[simp] theorem State.clearEach_census (f : Fld) (a n : Nat) : (s.clearEach f a n).census = s.census := rfl
@[simp] theorem State.clearEach_tallies (f : Fld) (a n : Nat) : (s.clearEach f a n).tallies = s.tallies := rfl
@[simp] theorem State.clearEach_resp (f : Fld) (a n : Nat) : (s.clearEach f a n).resp = s.resp := rfl
@[simp] theorem State.clearEach_out (f : Fld) (a n : Nat) : (s.clearEach f a n).out = s.out := rfl
@[simp] theorem State.clearEach_freeCtr (f : Fld) (a n : Nat) : (s.clearEach f a n).freeCtr = s.freeCtr := rfl

/-! ### answer -/

@[simp] theorem State.answer_pending (ok : Bool) (v : Nat) : (s.answer ok v).pending = s.pending := rfl
@[simp] theorem State.answer_flds (ok : Bool) (v : Nat) : (s.answer ok v).flds = s.flds := rfl
@[simp] theorem State.answer_mem (ok : Bool) (v : Nat) : (s.answer ok v).mem = s.mem := rfl
@[simp] theorem State.answer_poison (ok : Bool) (v : Nat) : (s.answer ok v).poison = s.poison := rfl
@[simp] theorem State.answer_xr (ok : Bool) (v : Nat) : (s.answer ok v).xr = s.xr := rfl
@[simp] theorem State.answer_rows (ok : Bool) (v : Nat) : (s.answer ok v).rows = s.rows := rfl
@[simp] theorem State.answer_tick (ok : Bool) (v : Nat) : (s.answer ok v).tick = s.tick := rfl
@[simp] theorem State.answer_sealA (ok : Bool) (v : Nat) : (s.answer ok v).sealA = s.sealA := rfl
@[simp] theorem State.answer_sealB (ok : Bool) (v : Nat) : (s.answer ok v).sealB = s.sealB := rfl
@[simp] theorem State.answer_err (ok : Bool) (v : Nat) : (s.answer ok v).err = s.err := rfl
@[simp] theorem State.answer_lands (ok : Bool) (v : Nat) : (s.answer ok v).lands = s.lands := rfl
@[simp] theorem State.answer_links (ok : Bool) (v : Nat) : (s.answer ok v).links = s.links := rfl
@[simp] theorem State.answer_host (ok : Bool) (v : Nat) : (s.answer ok v).host = s.host := rfl
@[simp] theorem State.answer_det (ok : Bool) (v : Nat) : (s.answer ok v).det = s.det := rfl
@[simp] theorem State.answer_boot (ok : Bool) (v : Nat) : (s.answer ok v).boot = s.boot := rfl
@[simp] theorem State.answer_pwr (ok : Bool) (v : Nat) : (s.answer ok v).pwr = s.pwr := rfl
@[simp] theorem State.answer_arr (ok : Bool) (v : Nat) : (s.answer ok v).arr = s.arr := rfl
@[simp] theorem State.answer_root (ok : Bool) (v : Nat) : (s.answer ok v).root = s.root := rfl
@[simp] theorem State.answer_sol (ok : Bool) (v : Nat) : (s.answer ok v).sol = s.sol := rfl
@[simp] theorem State.answer_upd (ok : Bool) (v : Nat) : (s.answer ok v).upd = s.upd := rfl
@[simp] theorem State.answer_active (ok : Bool) (v : Nat) : (s.answer ok v).active = s.active := rfl
@[simp] theorem State.answer_good (ok : Bool) (v : Nat) : (s.answer ok v).good = s.good := rfl
@[simp] theorem State.answer_census (ok : Bool) (v : Nat) : (s.answer ok v).census = s.census := rfl
@[simp] theorem State.answer_tallies (ok : Bool) (v : Nat) : (s.answer ok v).tallies = s.tallies := rfl
@[simp] theorem State.answer_out (ok : Bool) (v : Nat) : (s.answer ok v).out = s.out := rfl
@[simp] theorem State.answer_freeCtr (ok : Bool) (v : Nat) : (s.answer ok v).freeCtr = s.freeCtr := rfl

/-! ### okay -/

@[simp] theorem State.okay_pending : (s.okay).pending = s.pending := rfl
@[simp] theorem State.okay_flds : (s.okay).flds = s.flds := rfl
@[simp] theorem State.okay_mem : (s.okay).mem = s.mem := rfl
@[simp] theorem State.okay_poison : (s.okay).poison = s.poison := rfl
@[simp] theorem State.okay_xr : (s.okay).xr = s.xr := rfl
@[simp] theorem State.okay_rows : (s.okay).rows = s.rows := rfl
@[simp] theorem State.okay_tick : (s.okay).tick = s.tick := rfl
@[simp] theorem State.okay_sealA : (s.okay).sealA = s.sealA := rfl
@[simp] theorem State.okay_sealB : (s.okay).sealB = s.sealB := rfl
@[simp] theorem State.okay_err : (s.okay).err = s.err := rfl
@[simp] theorem State.okay_lands : (s.okay).lands = s.lands := rfl
@[simp] theorem State.okay_links : (s.okay).links = s.links := rfl
@[simp] theorem State.okay_host : (s.okay).host = s.host := rfl
@[simp] theorem State.okay_det : (s.okay).det = s.det := rfl
@[simp] theorem State.okay_boot : (s.okay).boot = s.boot := rfl
@[simp] theorem State.okay_pwr : (s.okay).pwr = s.pwr := rfl
@[simp] theorem State.okay_arr : (s.okay).arr = s.arr := rfl
@[simp] theorem State.okay_root : (s.okay).root = s.root := rfl
@[simp] theorem State.okay_sol : (s.okay).sol = s.sol := rfl
@[simp] theorem State.okay_upd : (s.okay).upd = s.upd := rfl
@[simp] theorem State.okay_active : (s.okay).active = s.active := rfl
@[simp] theorem State.okay_good : (s.okay).good = s.good := rfl
@[simp] theorem State.okay_census : (s.okay).census = s.census := rfl
@[simp] theorem State.okay_tallies : (s.okay).tallies = s.tallies := rfl
@[simp] theorem State.okay_out : (s.okay).out = s.out := rfl
@[simp] theorem State.okay_freeCtr : (s.okay).freeCtr = s.freeCtr := rfl

/-! ### denied -/

@[simp] theorem State.denied_pending : (s.denied).pending = s.pending := rfl
@[simp] theorem State.denied_flds : (s.denied).flds = s.flds := rfl
@[simp] theorem State.denied_mem : (s.denied).mem = s.mem := rfl
@[simp] theorem State.denied_poison : (s.denied).poison = s.poison := rfl
@[simp] theorem State.denied_xr : (s.denied).xr = s.xr := rfl
@[simp] theorem State.denied_rows : (s.denied).rows = s.rows := rfl
@[simp] theorem State.denied_tick : (s.denied).tick = s.tick := rfl
@[simp] theorem State.denied_sealA : (s.denied).sealA = s.sealA := rfl
@[simp] theorem State.denied_sealB : (s.denied).sealB = s.sealB := rfl
@[simp] theorem State.denied_err : (s.denied).err = s.err := rfl
@[simp] theorem State.denied_lands : (s.denied).lands = s.lands := rfl
@[simp] theorem State.denied_links : (s.denied).links = s.links := rfl
@[simp] theorem State.denied_host : (s.denied).host = s.host := rfl
@[simp] theorem State.denied_det : (s.denied).det = s.det := rfl
@[simp] theorem State.denied_boot : (s.denied).boot = s.boot := rfl
@[simp] theorem State.denied_pwr : (s.denied).pwr = s.pwr := rfl
@[simp] theorem State.denied_arr : (s.denied).arr = s.arr := rfl
@[simp] theorem State.denied_root : (s.denied).root = s.root := rfl
@[simp] theorem State.denied_sol : (s.denied).sol = s.sol := rfl
@[simp] theorem State.denied_upd : (s.denied).upd = s.upd := rfl
@[simp] theorem State.denied_active : (s.denied).active = s.active := rfl
@[simp] theorem State.denied_good : (s.denied).good = s.good := rfl
@[simp] theorem State.denied_census : (s.denied).census = s.census := rfl
@[simp] theorem State.denied_tallies : (s.denied).tallies = s.tallies := rfl
@[simp] theorem State.denied_out : (s.denied).out = s.out := rfl
@[simp] theorem State.denied_freeCtr : (s.denied).freeCtr = s.freeCtr := rfl

/-! ### updTick -/

@[simp] theorem State.updTick_pending (f : TickSt → TickSt) : (s.updTick f).pending = s.pending := rfl
@[simp] theorem State.updTick_flds (f : TickSt → TickSt) : (s.updTick f).flds = s.flds := rfl
@[simp] theorem State.updTick_mem (f : TickSt → TickSt) : (s.updTick f).mem = s.mem := rfl
@[simp] theorem State.updTick_poison (f : TickSt → TickSt) : (s.updTick f).poison = s.poison := rfl
@[simp] theorem State.updTick_xr (f : TickSt → TickSt) : (s.updTick f).xr = s.xr := rfl
@[simp] theorem State.updTick_rows (f : TickSt → TickSt) : (s.updTick f).rows = s.rows := rfl
@[simp] theorem State.updTick_tick (f : TickSt → TickSt) : (s.updTick f).tick = f s.tick := rfl
@[simp] theorem State.updTick_sealA (f : TickSt → TickSt) : (s.updTick f).sealA = s.sealA := rfl
@[simp] theorem State.updTick_sealB (f : TickSt → TickSt) : (s.updTick f).sealB = s.sealB := rfl
@[simp] theorem State.updTick_err (f : TickSt → TickSt) : (s.updTick f).err = s.err := rfl
@[simp] theorem State.updTick_lands (f : TickSt → TickSt) : (s.updTick f).lands = s.lands := rfl
@[simp] theorem State.updTick_links (f : TickSt → TickSt) : (s.updTick f).links = s.links := rfl
@[simp] theorem State.updTick_host (f : TickSt → TickSt) : (s.updTick f).host = s.host := rfl
@[simp] theorem State.updTick_det (f : TickSt → TickSt) : (s.updTick f).det = s.det := rfl
@[simp] theorem State.updTick_boot (f : TickSt → TickSt) : (s.updTick f).boot = s.boot := rfl
@[simp] theorem State.updTick_pwr (f : TickSt → TickSt) : (s.updTick f).pwr = s.pwr := rfl
@[simp] theorem State.updTick_arr (f : TickSt → TickSt) : (s.updTick f).arr = s.arr := rfl
@[simp] theorem State.updTick_root (f : TickSt → TickSt) : (s.updTick f).root = s.root := rfl
@[simp] theorem State.updTick_sol (f : TickSt → TickSt) : (s.updTick f).sol = s.sol := rfl
@[simp] theorem State.updTick_upd (f : TickSt → TickSt) : (s.updTick f).upd = s.upd := rfl
@[simp] theorem State.updTick_active (f : TickSt → TickSt) : (s.updTick f).active = s.active := rfl
@[simp] theorem State.updTick_good (f : TickSt → TickSt) : (s.updTick f).good = s.good := rfl
@[simp] theorem State.updTick_census (f : TickSt → TickSt) : (s.updTick f).census = s.census := rfl
@[simp] theorem State.updTick_tallies (f : TickSt → TickSt) : (s.updTick f).tallies = s.tallies := rfl
@[simp] theorem State.updTick_resp (f : TickSt → TickSt) : (s.updTick f).resp = s.resp := rfl
@[simp] theorem State.updTick_out (f : TickSt → TickSt) : (s.updTick f).out = s.out := rfl
@[simp] theorem State.updTick_freeCtr (f : TickSt → TickSt) : (s.updTick f).freeCtr = s.freeCtr := rfl

/-! ### updErr -/

@[simp] theorem State.updErr_pending (f : ErrSt → ErrSt) : (s.updErr f).pending = s.pending := rfl
@[simp] theorem State.updErr_flds (f : ErrSt → ErrSt) : (s.updErr f).flds = s.flds := rfl
@[simp] theorem State.updErr_mem (f : ErrSt → ErrSt) : (s.updErr f).mem = s.mem := rfl
@[simp] theorem State.updErr_poison (f : ErrSt → ErrSt) : (s.updErr f).poison = s.poison := rfl
@[simp] theorem State.updErr_xr (f : ErrSt → ErrSt) : (s.updErr f).xr = s.xr := rfl
@[simp] theorem State.updErr_rows (f : ErrSt → ErrSt) : (s.updErr f).rows = s.rows := rfl
@[simp] theorem State.updErr_tick (f : ErrSt → ErrSt) : (s.updErr f).tick = s.tick := rfl
@[simp] theorem State.updErr_sealA (f : ErrSt → ErrSt) : (s.updErr f).sealA = s.sealA := rfl
@[simp] theorem State.updErr_sealB (f : ErrSt → ErrSt) : (s.updErr f).sealB = s.sealB := rfl
@[simp] theorem State.updErr_err (f : ErrSt → ErrSt) : (s.updErr f).err = f s.err := rfl
@[simp] theorem State.updErr_lands (f : ErrSt → ErrSt) : (s.updErr f).lands = s.lands := rfl
@[simp] theorem State.updErr_links (f : ErrSt → ErrSt) : (s.updErr f).links = s.links := rfl
@[simp] theorem State.updErr_host (f : ErrSt → ErrSt) : (s.updErr f).host = s.host := rfl
@[simp] theorem State.updErr_det (f : ErrSt → ErrSt) : (s.updErr f).det = s.det := rfl
@[simp] theorem State.updErr_boot (f : ErrSt → ErrSt) : (s.updErr f).boot = s.boot := rfl
@[simp] theorem State.updErr_pwr (f : ErrSt → ErrSt) : (s.updErr f).pwr = s.pwr := rfl
@[simp] theorem State.updErr_arr (f : ErrSt → ErrSt) : (s.updErr f).arr = s.arr := rfl
@[simp] theorem State.updErr_root (f : ErrSt → ErrSt) : (s.updErr f).root = s.root := rfl
@[simp] theorem State.updErr_sol (f : ErrSt → ErrSt) : (s.updErr f).sol = s.sol := rfl
@[simp] theorem State.updErr_upd (f : ErrSt → ErrSt) : (s.updErr f).upd = s.upd := rfl
@[simp] theorem State.updErr_active (f : ErrSt → ErrSt) : (s.updErr f).active = s.active := rfl
@[simp] theorem State.updErr_good (f : ErrSt → ErrSt) : (s.updErr f).good = s.good := rfl
@[simp] theorem State.updErr_census (f : ErrSt → ErrSt) : (s.updErr f).census = s.census := rfl
@[simp] theorem State.updErr_tallies (f : ErrSt → ErrSt) : (s.updErr f).tallies = s.tallies := rfl
@[simp] theorem State.updErr_resp (f : ErrSt → ErrSt) : (s.updErr f).resp = s.resp := rfl
@[simp] theorem State.updErr_out (f : ErrSt → ErrSt) : (s.updErr f).out = s.out := rfl
@[simp] theorem State.updErr_freeCtr (f : ErrSt → ErrSt) : (s.updErr f).freeCtr = s.freeCtr := rfl

/-! ### updHost -/

@[simp] theorem State.updHost_pending (f : HostSt → HostSt) : (s.updHost f).pending = s.pending := rfl
@[simp] theorem State.updHost_flds (f : HostSt → HostSt) : (s.updHost f).flds = s.flds := rfl
@[simp] theorem State.updHost_mem (f : HostSt → HostSt) : (s.updHost f).mem = s.mem := rfl
@[simp] theorem State.updHost_poison (f : HostSt → HostSt) : (s.updHost f).poison = s.poison := rfl
@[simp] theorem State.updHost_xr (f : HostSt → HostSt) : (s.updHost f).xr = s.xr := rfl
@[simp] theorem State.updHost_rows (f : HostSt → HostSt) : (s.updHost f).rows = s.rows := rfl
@[simp] theorem State.updHost_tick (f : HostSt → HostSt) : (s.updHost f).tick = s.tick := rfl
@[simp] theorem State.updHost_sealA (f : HostSt → HostSt) : (s.updHost f).sealA = s.sealA := rfl
@[simp] theorem State.updHost_sealB (f : HostSt → HostSt) : (s.updHost f).sealB = s.sealB := rfl
@[simp] theorem State.updHost_err (f : HostSt → HostSt) : (s.updHost f).err = s.err := rfl
@[simp] theorem State.updHost_lands (f : HostSt → HostSt) : (s.updHost f).lands = s.lands := rfl
@[simp] theorem State.updHost_links (f : HostSt → HostSt) : (s.updHost f).links = s.links := rfl
@[simp] theorem State.updHost_host (f : HostSt → HostSt) : (s.updHost f).host = f s.host := rfl
@[simp] theorem State.updHost_det (f : HostSt → HostSt) : (s.updHost f).det = s.det := rfl
@[simp] theorem State.updHost_boot (f : HostSt → HostSt) : (s.updHost f).boot = s.boot := rfl
@[simp] theorem State.updHost_pwr (f : HostSt → HostSt) : (s.updHost f).pwr = s.pwr := rfl
@[simp] theorem State.updHost_arr (f : HostSt → HostSt) : (s.updHost f).arr = s.arr := rfl
@[simp] theorem State.updHost_root (f : HostSt → HostSt) : (s.updHost f).root = s.root := rfl
@[simp] theorem State.updHost_sol (f : HostSt → HostSt) : (s.updHost f).sol = s.sol := rfl
@[simp] theorem State.updHost_upd (f : HostSt → HostSt) : (s.updHost f).upd = s.upd := rfl
@[simp] theorem State.updHost_active (f : HostSt → HostSt) : (s.updHost f).active = s.active := rfl
@[simp] theorem State.updHost_good (f : HostSt → HostSt) : (s.updHost f).good = s.good := rfl
@[simp] theorem State.updHost_census (f : HostSt → HostSt) : (s.updHost f).census = s.census := rfl
@[simp] theorem State.updHost_tallies (f : HostSt → HostSt) : (s.updHost f).tallies = s.tallies := rfl
@[simp] theorem State.updHost_resp (f : HostSt → HostSt) : (s.updHost f).resp = s.resp := rfl
@[simp] theorem State.updHost_out (f : HostSt → HostSt) : (s.updHost f).out = s.out := rfl
@[simp] theorem State.updHost_freeCtr (f : HostSt → HostSt) : (s.updHost f).freeCtr = s.freeCtr := rfl

/-! ### updDet -/

@[simp] theorem State.updDet_pending (f : DetSt → DetSt) : (s.updDet f).pending = s.pending := rfl
@[simp] theorem State.updDet_flds (f : DetSt → DetSt) : (s.updDet f).flds = s.flds := rfl
@[simp] theorem State.updDet_mem (f : DetSt → DetSt) : (s.updDet f).mem = s.mem := rfl
@[simp] theorem State.updDet_poison (f : DetSt → DetSt) : (s.updDet f).poison = s.poison := rfl
@[simp] theorem State.updDet_xr (f : DetSt → DetSt) : (s.updDet f).xr = s.xr := rfl
@[simp] theorem State.updDet_rows (f : DetSt → DetSt) : (s.updDet f).rows = s.rows := rfl
@[simp] theorem State.updDet_tick (f : DetSt → DetSt) : (s.updDet f).tick = s.tick := rfl
@[simp] theorem State.updDet_sealA (f : DetSt → DetSt) : (s.updDet f).sealA = s.sealA := rfl
@[simp] theorem State.updDet_sealB (f : DetSt → DetSt) : (s.updDet f).sealB = s.sealB := rfl
@[simp] theorem State.updDet_err (f : DetSt → DetSt) : (s.updDet f).err = s.err := rfl
@[simp] theorem State.updDet_lands (f : DetSt → DetSt) : (s.updDet f).lands = s.lands := rfl
@[simp] theorem State.updDet_links (f : DetSt → DetSt) : (s.updDet f).links = s.links := rfl
@[simp] theorem State.updDet_host (f : DetSt → DetSt) : (s.updDet f).host = s.host := rfl
@[simp] theorem State.updDet_det (f : DetSt → DetSt) : (s.updDet f).det = f s.det := rfl
@[simp] theorem State.updDet_boot (f : DetSt → DetSt) : (s.updDet f).boot = s.boot := rfl
@[simp] theorem State.updDet_pwr (f : DetSt → DetSt) : (s.updDet f).pwr = s.pwr := rfl
@[simp] theorem State.updDet_arr (f : DetSt → DetSt) : (s.updDet f).arr = s.arr := rfl
@[simp] theorem State.updDet_root (f : DetSt → DetSt) : (s.updDet f).root = s.root := rfl
@[simp] theorem State.updDet_sol (f : DetSt → DetSt) : (s.updDet f).sol = s.sol := rfl
@[simp] theorem State.updDet_upd (f : DetSt → DetSt) : (s.updDet f).upd = s.upd := rfl
@[simp] theorem State.updDet_active (f : DetSt → DetSt) : (s.updDet f).active = s.active := rfl
@[simp] theorem State.updDet_good (f : DetSt → DetSt) : (s.updDet f).good = s.good := rfl
@[simp] theorem State.updDet_census (f : DetSt → DetSt) : (s.updDet f).census = s.census := rfl
@[simp] theorem State.updDet_tallies (f : DetSt → DetSt) : (s.updDet f).tallies = s.tallies := rfl
@[simp] theorem State.updDet_resp (f : DetSt → DetSt) : (s.updDet f).resp = s.resp := rfl
@[simp] theorem State.updDet_out (f : DetSt → DetSt) : (s.updDet f).out = s.out := rfl
@[simp] theorem State.updDet_freeCtr (f : DetSt → DetSt) : (s.updDet f).freeCtr = s.freeCtr := rfl

/-! ### updBoot -/

@[simp] theorem State.updBoot_pending (f : BootSt → BootSt) : (s.updBoot f).pending = s.pending := rfl
@[simp] theorem State.updBoot_flds (f : BootSt → BootSt) : (s.updBoot f).flds = s.flds := rfl
@[simp] theorem State.updBoot_mem (f : BootSt → BootSt) : (s.updBoot f).mem = s.mem := rfl
@[simp] theorem State.updBoot_poison (f : BootSt → BootSt) : (s.updBoot f).poison = s.poison := rfl
@[simp] theorem State.updBoot_xr (f : BootSt → BootSt) : (s.updBoot f).xr = s.xr := rfl
@[simp] theorem State.updBoot_rows (f : BootSt → BootSt) : (s.updBoot f).rows = s.rows := rfl
@[simp] theorem State.updBoot_tick (f : BootSt → BootSt) : (s.updBoot f).tick = s.tick := rfl
@[simp] theorem State.updBoot_sealA (f : BootSt → BootSt) : (s.updBoot f).sealA = s.sealA := rfl
@[simp] theorem State.updBoot_sealB (f : BootSt → BootSt) : (s.updBoot f).sealB = s.sealB := rfl
@[simp] theorem State.updBoot_err (f : BootSt → BootSt) : (s.updBoot f).err = s.err := rfl
@[simp] theorem State.updBoot_lands (f : BootSt → BootSt) : (s.updBoot f).lands = s.lands := rfl
@[simp] theorem State.updBoot_links (f : BootSt → BootSt) : (s.updBoot f).links = s.links := rfl
@[simp] theorem State.updBoot_host (f : BootSt → BootSt) : (s.updBoot f).host = s.host := rfl
@[simp] theorem State.updBoot_det (f : BootSt → BootSt) : (s.updBoot f).det = s.det := rfl
@[simp] theorem State.updBoot_boot (f : BootSt → BootSt) : (s.updBoot f).boot = f s.boot := rfl
@[simp] theorem State.updBoot_pwr (f : BootSt → BootSt) : (s.updBoot f).pwr = s.pwr := rfl
@[simp] theorem State.updBoot_arr (f : BootSt → BootSt) : (s.updBoot f).arr = s.arr := rfl
@[simp] theorem State.updBoot_root (f : BootSt → BootSt) : (s.updBoot f).root = s.root := rfl
@[simp] theorem State.updBoot_sol (f : BootSt → BootSt) : (s.updBoot f).sol = s.sol := rfl
@[simp] theorem State.updBoot_upd (f : BootSt → BootSt) : (s.updBoot f).upd = s.upd := rfl
@[simp] theorem State.updBoot_active (f : BootSt → BootSt) : (s.updBoot f).active = s.active := rfl
@[simp] theorem State.updBoot_good (f : BootSt → BootSt) : (s.updBoot f).good = s.good := rfl
@[simp] theorem State.updBoot_census (f : BootSt → BootSt) : (s.updBoot f).census = s.census := rfl
@[simp] theorem State.updBoot_tallies (f : BootSt → BootSt) : (s.updBoot f).tallies = s.tallies := rfl
@[simp] theorem State.updBoot_resp (f : BootSt → BootSt) : (s.updBoot f).resp = s.resp := rfl
@[simp] theorem State.updBoot_out (f : BootSt → BootSt) : (s.updBoot f).out = s.out := rfl
@[simp] theorem State.updBoot_freeCtr (f : BootSt → BootSt) : (s.updBoot f).freeCtr = s.freeCtr := rfl

/-! ### updPwr -/

@[simp] theorem State.updPwr_pending (f : PwrSt → PwrSt) : (s.updPwr f).pending = s.pending := rfl
@[simp] theorem State.updPwr_flds (f : PwrSt → PwrSt) : (s.updPwr f).flds = s.flds := rfl
@[simp] theorem State.updPwr_mem (f : PwrSt → PwrSt) : (s.updPwr f).mem = s.mem := rfl
@[simp] theorem State.updPwr_poison (f : PwrSt → PwrSt) : (s.updPwr f).poison = s.poison := rfl
@[simp] theorem State.updPwr_xr (f : PwrSt → PwrSt) : (s.updPwr f).xr = s.xr := rfl
@[simp] theorem State.updPwr_rows (f : PwrSt → PwrSt) : (s.updPwr f).rows = s.rows := rfl
@[simp] theorem State.updPwr_tick (f : PwrSt → PwrSt) : (s.updPwr f).tick = s.tick := rfl
@[simp] theorem State.updPwr_sealA (f : PwrSt → PwrSt) : (s.updPwr f).sealA = s.sealA := rfl
@[simp] theorem State.updPwr_sealB (f : PwrSt → PwrSt) : (s.updPwr f).sealB = s.sealB := rfl
@[simp] theorem State.updPwr_err (f : PwrSt → PwrSt) : (s.updPwr f).err = s.err := rfl
@[simp] theorem State.updPwr_lands (f : PwrSt → PwrSt) : (s.updPwr f).lands = s.lands := rfl
@[simp] theorem State.updPwr_links (f : PwrSt → PwrSt) : (s.updPwr f).links = s.links := rfl
@[simp] theorem State.updPwr_host (f : PwrSt → PwrSt) : (s.updPwr f).host = s.host := rfl
@[simp] theorem State.updPwr_det (f : PwrSt → PwrSt) : (s.updPwr f).det = s.det := rfl
@[simp] theorem State.updPwr_boot (f : PwrSt → PwrSt) : (s.updPwr f).boot = s.boot := rfl
@[simp] theorem State.updPwr_pwr (f : PwrSt → PwrSt) : (s.updPwr f).pwr = f s.pwr := rfl
@[simp] theorem State.updPwr_arr (f : PwrSt → PwrSt) : (s.updPwr f).arr = s.arr := rfl
@[simp] theorem State.updPwr_root (f : PwrSt → PwrSt) : (s.updPwr f).root = s.root := rfl
@[simp] theorem State.updPwr_sol (f : PwrSt → PwrSt) : (s.updPwr f).sol = s.sol := rfl
@[simp] theorem State.updPwr_upd (f : PwrSt → PwrSt) : (s.updPwr f).upd = s.upd := rfl
@[simp] theorem State.updPwr_active (f : PwrSt → PwrSt) : (s.updPwr f).active = s.active := rfl
@[simp] theorem State.updPwr_good (f : PwrSt → PwrSt) : (s.updPwr f).good = s.good := rfl
@[simp] theorem State.updPwr_census (f : PwrSt → PwrSt) : (s.updPwr f).census = s.census := rfl
@[simp] theorem State.updPwr_tallies (f : PwrSt → PwrSt) : (s.updPwr f).tallies = s.tallies := rfl
@[simp] theorem State.updPwr_resp (f : PwrSt → PwrSt) : (s.updPwr f).resp = s.resp := rfl
@[simp] theorem State.updPwr_out (f : PwrSt → PwrSt) : (s.updPwr f).out = s.out := rfl
@[simp] theorem State.updPwr_freeCtr (f : PwrSt → PwrSt) : (s.updPwr f).freeCtr = s.freeCtr := rfl

/-! ### updUpd -/

@[simp] theorem State.updUpd_pending (f : UpdSt → UpdSt) : (s.updUpd f).pending = s.pending := rfl
@[simp] theorem State.updUpd_flds (f : UpdSt → UpdSt) : (s.updUpd f).flds = s.flds := rfl
@[simp] theorem State.updUpd_mem (f : UpdSt → UpdSt) : (s.updUpd f).mem = s.mem := rfl
@[simp] theorem State.updUpd_poison (f : UpdSt → UpdSt) : (s.updUpd f).poison = s.poison := rfl
@[simp] theorem State.updUpd_xr (f : UpdSt → UpdSt) : (s.updUpd f).xr = s.xr := rfl
@[simp] theorem State.updUpd_rows (f : UpdSt → UpdSt) : (s.updUpd f).rows = s.rows := rfl
@[simp] theorem State.updUpd_tick (f : UpdSt → UpdSt) : (s.updUpd f).tick = s.tick := rfl
@[simp] theorem State.updUpd_sealA (f : UpdSt → UpdSt) : (s.updUpd f).sealA = s.sealA := rfl
@[simp] theorem State.updUpd_sealB (f : UpdSt → UpdSt) : (s.updUpd f).sealB = s.sealB := rfl
@[simp] theorem State.updUpd_err (f : UpdSt → UpdSt) : (s.updUpd f).err = s.err := rfl
@[simp] theorem State.updUpd_lands (f : UpdSt → UpdSt) : (s.updUpd f).lands = s.lands := rfl
@[simp] theorem State.updUpd_links (f : UpdSt → UpdSt) : (s.updUpd f).links = s.links := rfl
@[simp] theorem State.updUpd_host (f : UpdSt → UpdSt) : (s.updUpd f).host = s.host := rfl
@[simp] theorem State.updUpd_det (f : UpdSt → UpdSt) : (s.updUpd f).det = s.det := rfl
@[simp] theorem State.updUpd_boot (f : UpdSt → UpdSt) : (s.updUpd f).boot = s.boot := rfl
@[simp] theorem State.updUpd_pwr (f : UpdSt → UpdSt) : (s.updUpd f).pwr = s.pwr := rfl
@[simp] theorem State.updUpd_arr (f : UpdSt → UpdSt) : (s.updUpd f).arr = s.arr := rfl
@[simp] theorem State.updUpd_root (f : UpdSt → UpdSt) : (s.updUpd f).root = s.root := rfl
@[simp] theorem State.updUpd_sol (f : UpdSt → UpdSt) : (s.updUpd f).sol = s.sol := rfl
@[simp] theorem State.updUpd_upd (f : UpdSt → UpdSt) : (s.updUpd f).upd = f s.upd := rfl
@[simp] theorem State.updUpd_active (f : UpdSt → UpdSt) : (s.updUpd f).active = s.active := rfl
@[simp] theorem State.updUpd_good (f : UpdSt → UpdSt) : (s.updUpd f).good = s.good := rfl
@[simp] theorem State.updUpd_census (f : UpdSt → UpdSt) : (s.updUpd f).census = s.census := rfl
@[simp] theorem State.updUpd_tallies (f : UpdSt → UpdSt) : (s.updUpd f).tallies = s.tallies := rfl
@[simp] theorem State.updUpd_resp (f : UpdSt → UpdSt) : (s.updUpd f).resp = s.resp := rfl
@[simp] theorem State.updUpd_out (f : UpdSt → UpdSt) : (s.updUpd f).out = s.out := rfl
@[simp] theorem State.updUpd_freeCtr (f : UpdSt → UpdSt) : (s.updUpd f).freeCtr = s.freeCtr := rfl

/-! ### wrBytes -/

@[simp] theorem State.wrBytes_pending (a : Nat) (bs : List Nat) : (s.wrBytes a bs).pending = s.pending := rfl
@[simp] theorem State.wrBytes_flds (a : Nat) (bs : List Nat) : (s.wrBytes a bs).flds = s.flds := rfl
@[simp] theorem State.wrBytes_xr (a : Nat) (bs : List Nat) : (s.wrBytes a bs).xr = s.xr := rfl
@[simp] theorem State.wrBytes_rows (a : Nat) (bs : List Nat) : (s.wrBytes a bs).rows = s.rows := rfl
@[simp] theorem State.wrBytes_tick (a : Nat) (bs : List Nat) : (s.wrBytes a bs).tick = s.tick := rfl
@[simp] theorem State.wrBytes_sealA (a : Nat) (bs : List Nat) : (s.wrBytes a bs).sealA = s.sealA := rfl
@[simp] theorem State.wrBytes_sealB (a : Nat) (bs : List Nat) : (s.wrBytes a bs).sealB = s.sealB := rfl
@[simp] theorem State.wrBytes_err (a : Nat) (bs : List Nat) : (s.wrBytes a bs).err = s.err := rfl
@[simp] theorem State.wrBytes_lands (a : Nat) (bs : List Nat) : (s.wrBytes a bs).lands = s.lands := rfl
@[simp] theorem State.wrBytes_links (a : Nat) (bs : List Nat) : (s.wrBytes a bs).links = s.links := rfl
@[simp] theorem State.wrBytes_host (a : Nat) (bs : List Nat) : (s.wrBytes a bs).host = s.host := rfl
@[simp] theorem State.wrBytes_det (a : Nat) (bs : List Nat) : (s.wrBytes a bs).det = s.det := rfl
@[simp] theorem State.wrBytes_boot (a : Nat) (bs : List Nat) : (s.wrBytes a bs).boot = s.boot := rfl
@[simp] theorem State.wrBytes_pwr (a : Nat) (bs : List Nat) : (s.wrBytes a bs).pwr = s.pwr := rfl
@[simp] theorem State.wrBytes_arr (a : Nat) (bs : List Nat) : (s.wrBytes a bs).arr = s.arr := rfl
@[simp] theorem State.wrBytes_root (a : Nat) (bs : List Nat) : (s.wrBytes a bs).root = s.root := rfl
@[simp] theorem State.wrBytes_sol (a : Nat) (bs : List Nat) : (s.wrBytes a bs).sol = s.sol := rfl
@[simp] theorem State.wrBytes_upd (a : Nat) (bs : List Nat) : (s.wrBytes a bs).upd = s.upd := rfl
@[simp] theorem State.wrBytes_active (a : Nat) (bs : List Nat) : (s.wrBytes a bs).active = s.active := rfl
@[simp] theorem State.wrBytes_good (a : Nat) (bs : List Nat) : (s.wrBytes a bs).good = s.good := rfl
@[simp] theorem State.wrBytes_census (a : Nat) (bs : List Nat) : (s.wrBytes a bs).census = s.census := rfl
@[simp] theorem State.wrBytes_tallies (a : Nat) (bs : List Nat) : (s.wrBytes a bs).tallies = s.tallies := rfl
@[simp] theorem State.wrBytes_resp (a : Nat) (bs : List Nat) : (s.wrBytes a bs).resp = s.resp := rfl
@[simp] theorem State.wrBytes_out (a : Nat) (bs : List Nat) : (s.wrBytes a bs).out = s.out := rfl
@[simp] theorem State.wrBytes_freeCtr (a : Nat) (bs : List Nat) : (s.wrBytes a bs).freeCtr = s.freeCtr := rfl

/-! ### wr -/

@[simp] theorem State.wr_pending (a n v : Nat) : (s.wr a n v).pending = s.pending := rfl
@[simp] theorem State.wr_flds (a n v : Nat) : (s.wr a n v).flds = s.flds := rfl
@[simp] theorem State.wr_xr (a n v : Nat) : (s.wr a n v).xr = s.xr := rfl
@[simp] theorem State.wr_rows (a n v : Nat) : (s.wr a n v).rows = s.rows := rfl
@[simp] theorem State.wr_tick (a n v : Nat) : (s.wr a n v).tick = s.tick := rfl
@[simp] theorem State.wr_sealA (a n v : Nat) : (s.wr a n v).sealA = s.sealA := rfl
@[simp] theorem State.wr_sealB (a n v : Nat) : (s.wr a n v).sealB = s.sealB := rfl
@[simp] theorem State.wr_err (a n v : Nat) : (s.wr a n v).err = s.err := rfl
@[simp] theorem State.wr_lands (a n v : Nat) : (s.wr a n v).lands = s.lands := rfl
@[simp] theorem State.wr_links (a n v : Nat) : (s.wr a n v).links = s.links := rfl
@[simp] theorem State.wr_host (a n v : Nat) : (s.wr a n v).host = s.host := rfl
@[simp] theorem State.wr_det (a n v : Nat) : (s.wr a n v).det = s.det := rfl
@[simp] theorem State.wr_boot (a n v : Nat) : (s.wr a n v).boot = s.boot := rfl
@[simp] theorem State.wr_pwr (a n v : Nat) : (s.wr a n v).pwr = s.pwr := rfl
@[simp] theorem State.wr_arr (a n v : Nat) : (s.wr a n v).arr = s.arr := rfl
@[simp] theorem State.wr_root (a n v : Nat) : (s.wr a n v).root = s.root := rfl
@[simp] theorem State.wr_sol (a n v : Nat) : (s.wr a n v).sol = s.sol := rfl
@[simp] theorem State.wr_upd (a n v : Nat) : (s.wr a n v).upd = s.upd := rfl
@[simp] theorem State.wr_active (a n v : Nat) : (s.wr a n v).active = s.active := rfl
@[simp] theorem State.wr_good (a n v : Nat) : (s.wr a n v).good = s.good := rfl
@[simp] theorem State.wr_census (a n v : Nat) : (s.wr a n v).census = s.census := rfl
@[simp] theorem State.wr_tallies (a n v : Nat) : (s.wr a n v).tallies = s.tallies := rfl
@[simp] theorem State.wr_resp (a n v : Nat) : (s.wr a n v).resp = s.resp := rfl
@[simp] theorem State.wr_out (a n v : Nat) : (s.wr a n v).out = s.out := rfl
@[simp] theorem State.wr_freeCtr (a n v : Nat) : (s.wr a n v).freeCtr = s.freeCtr := rfl

/-! ### zeroRange -/

@[simp] theorem State.zeroRange_pending (a n : Nat) : (s.zeroRange a n).pending = s.pending := rfl
@[simp] theorem State.zeroRange_flds (a n : Nat) : (s.zeroRange a n).flds = s.flds := rfl
@[simp] theorem State.zeroRange_xr (a n : Nat) : (s.zeroRange a n).xr = s.xr := rfl
@[simp] theorem State.zeroRange_rows (a n : Nat) : (s.zeroRange a n).rows = s.rows := rfl
@[simp] theorem State.zeroRange_tick (a n : Nat) : (s.zeroRange a n).tick = s.tick := rfl
@[simp] theorem State.zeroRange_sealA (a n : Nat) : (s.zeroRange a n).sealA = s.sealA := rfl
@[simp] theorem State.zeroRange_sealB (a n : Nat) : (s.zeroRange a n).sealB = s.sealB := rfl
@[simp] theorem State.zeroRange_err (a n : Nat) : (s.zeroRange a n).err = s.err := rfl
@[simp] theorem State.zeroRange_lands (a n : Nat) : (s.zeroRange a n).lands = s.lands := rfl
@[simp] theorem State.zeroRange_links (a n : Nat) : (s.zeroRange a n).links = s.links := rfl
@[simp] theorem State.zeroRange_host (a n : Nat) : (s.zeroRange a n).host = s.host := rfl
@[simp] theorem State.zeroRange_det (a n : Nat) : (s.zeroRange a n).det = s.det := rfl
@[simp] theorem State.zeroRange_boot (a n : Nat) : (s.zeroRange a n).boot = s.boot := rfl
@[simp] theorem State.zeroRange_pwr (a n : Nat) : (s.zeroRange a n).pwr = s.pwr := rfl
@[simp] theorem State.zeroRange_arr (a n : Nat) : (s.zeroRange a n).arr = s.arr := rfl
@[simp] theorem State.zeroRange_root (a n : Nat) : (s.zeroRange a n).root = s.root := rfl
@[simp] theorem State.zeroRange_sol (a n : Nat) : (s.zeroRange a n).sol = s.sol := rfl
@[simp] theorem State.zeroRange_upd (a n : Nat) : (s.zeroRange a n).upd = s.upd := rfl
@[simp] theorem State.zeroRange_active (a n : Nat) : (s.zeroRange a n).active = s.active := rfl
@[simp] theorem State.zeroRange_good (a n : Nat) : (s.zeroRange a n).good = s.good := rfl
@[simp] theorem State.zeroRange_census (a n : Nat) : (s.zeroRange a n).census = s.census := rfl
@[simp] theorem State.zeroRange_tallies (a n : Nat) : (s.zeroRange a n).tallies = s.tallies := rfl
@[simp] theorem State.zeroRange_resp (a n : Nat) : (s.zeroRange a n).resp = s.resp := rfl
@[simp] theorem State.zeroRange_out (a n : Nat) : (s.zeroRange a n).out = s.out := rfl
@[simp] theorem State.zeroRange_freeCtr (a n : Nat) : (s.zeroRange a n).freeCtr = s.freeCtr := rfl

/-! ### Reading register fields -/

/-- A field that was written holds the value, cut to its width. -/
@[simp] theorem State.get_set_same (f : Fld) (v : Nat) : (s.set f v).get f = v % 2 ^ f.width := Store.get_put_same _ _ _ _

/-- Writing one field leaves every other field alone. -/
theorem State.get_set_other {f g : Fld} (v : Nat) (h : g.key ≠ f.key) : (s.set f v).get g = s.get g :=
  Store.get_put_other _ _ _ _ h

@[simp] theorem State.setAll_nil : s.setAll [] = s := rfl
@[simp] theorem State.setAll_cons (e : Fld × Nat) (l : List (Fld × Nat)) :
    s.setAll (e :: l) = (s.set e.1 e.2).setAll l := rfl

/-- Writing several fields leaves every other field alone. -/
theorem State.get_setAll_other (l : List (Fld × Nat)) {g : Fld} (h : g.key ∉ l.map fun e => e.1.key) :
    (s.setAll l).get g = s.get g := by
  induction l generalizing s with
  | nil => rfl
  | cons e l ih =>
    simp only [List.map_cons, List.mem_cons, not_or] at h
    rw [State.setAll_cons, ih _ h.2, State.get_set_other _ _ h.1]

@[simp] theorem State.setAll_pending (l : List (Fld × Nat)) : (s.setAll l).pending = s.pending := by
  induction l generalizing s with
  | nil => rfl
  | cons e l ih => simp [ih]
@[simp] theorem State.setAll_mem (l : List (Fld × Nat)) : (s.setAll l).mem = s.mem := by
  induction l generalizing s with
  | nil => rfl
  | cons e l ih => simp [ih]
@[simp] theorem State.setAll_poison (l : List (Fld × Nat)) : (s.setAll l).poison = s.poison := by
  induction l generalizing s with
  | nil => rfl
  | cons e l ih => simp [ih]
@[simp] theorem State.setAll_xr (l : List (Fld × Nat)) : (s.setAll l).xr = s.xr := by
  induction l generalizing s with
  | nil => rfl
  | cons e l ih => simp [ih]
@[simp] theorem State.setAll_rows (l : List (Fld × Nat)) : (s.setAll l).rows = s.rows := by
  induction l generalizing s with
  | nil => rfl
  | cons e l ih => simp [ih]
@[simp] theorem State.setAll_tick (l : List (Fld × Nat)) : (s.setAll l).tick = s.tick := by
  induction l generalizing s with
  | nil => rfl
  | cons e l ih => simp [ih]
@[simp] theorem State.setAll_sealA (l : List (Fld × Nat)) : (s.setAll l).sealA = s.sealA := by
  induction l generalizing s with
  | nil => rfl
  | cons e l ih => simp [ih]
@[simp] theorem State.setAll_sealB (l : List (Fld × Nat)) : (s.setAll l).sealB = s.sealB := by
  induction l generalizing s with
  | nil => rfl
  | cons e l ih => simp [ih]
@[simp] theorem State.setAll_err (l : List (Fld × Nat)) : (s.setAll l).err = s.err := by
  induction l generalizing s with
  | nil => rfl
  | cons e l ih => simp [ih]
@[simp] theorem State.setAll_lands (l : List (Fld × Nat)) : (s.setAll l).lands = s.lands := by
  induction l generalizing s with
  | nil => rfl
  | cons e l ih => simp [ih]
@[simp] theorem State.setAll_links (l : List (Fld × Nat)) : (s.setAll l).links = s.links := by
  induction l generalizing s with
  | nil => rfl
  | cons e l ih => simp [ih]
@[simp] theorem State.setAll_host (l : List (Fld × Nat)) : (s.setAll l).host = s.host := by
  induction l generalizing s with
  | nil => rfl
  | cons e l ih => simp [ih]
@[simp] theorem State.setAll_det (l : List (Fld × Nat)) : (s.setAll l).det = s.det := by
  induction l generalizing s with
  | nil => rfl
  | cons e l ih => simp [ih]
@[simp] theorem State.setAll_boot (l : List (Fld × Nat)) : (s.setAll l).boot = s.boot := by
  induction l generalizing s with
  | nil => rfl
  | cons e l ih => simp [ih]
@[simp] theorem State.setAll_pwr (l : List (Fld × Nat)) : (s.setAll l).pwr = s.pwr := by
  induction l generalizing s with
  | nil => rfl
  | cons e l ih => simp [ih]
@[simp] theorem State.setAll_arr (l : List (Fld × Nat)) : (s.setAll l).arr = s.arr := by
  induction l generalizing s with
  | nil => rfl
  | cons e l ih => simp [ih]
@[simp] theorem State.setAll_root (l : List (Fld × Nat)) : (s.setAll l).root = s.root := by
  induction l generalizing s with
  | nil => rfl
  | cons e l ih => simp [ih]
@[simp] theorem State.setAll_sol (l : List (Fld × Nat)) : (s.setAll l).sol = s.sol := by
  induction l generalizing s with
  | nil => rfl
  | cons e l ih => simp [ih]
@[simp] theorem State.setAll_upd (l : List (Fld × Nat)) : (s.setAll l).upd = s.upd := by
  induction l generalizing s with
  | nil => rfl
  | cons e l ih => simp [ih]
@[simp] theorem State.setAll_active (l : List (Fld × Nat)) : (s.setAll l).active = s.active := by
  induction l generalizing s with
  | nil => rfl
  | cons e l ih => simp [ih]
@[simp] theorem State.setAll_good (l : List (Fld × Nat)) : (s.setAll l).good = s.good := by
  induction l generalizing s with
  | nil => rfl
  | cons e l ih => simp [ih]
@[simp] theorem State.setAll_census (l : List (Fld × Nat)) : (s.setAll l).census = s.census := by
  induction l generalizing s with
  | nil => rfl
  | cons e l ih => simp [ih]
@[simp] theorem State.setAll_tallies (l : List (Fld × Nat)) : (s.setAll l).tallies = s.tallies := by
  induction l generalizing s with
  | nil => rfl
  | cons e l ih => simp [ih]
@[simp] theorem State.setAll_resp (l : List (Fld × Nat)) : (s.setAll l).resp = s.resp := by
  induction l generalizing s with
  | nil => rfl
  | cons e l ih => simp [ih]
@[simp] theorem State.setAll_out (l : List (Fld × Nat)) : (s.setAll l).out = s.out := by
  induction l generalizing s with
  | nil => rfl
  | cons e l ih => simp [ih]
@[simp] theorem State.setAll_freeCtr (l : List (Fld × Nat)) : (s.setAll l).freeCtr = s.freeCtr := by
  induction l generalizing s with
  | nil => rfl
  | cons e l ih => simp [ih]

/-! Fields are read from the register fields alone. -/

@[simp] theorem State.get_answer (ok : Bool) (v : Nat) (g : Fld) : (s.answer ok v).get g = s.get g := rfl
@[simp] theorem State.is_answer (ok : Bool) (v : Nat) (g : Fld) : (s.answer ok v).is g = s.is g := rfl
@[simp] theorem State.get_okay (g : Fld) : (s.okay).get g = s.get g := rfl
@[simp] theorem State.is_okay (g : Fld) : (s.okay).is g = s.is g := rfl
@[simp] theorem State.get_denied (g : Fld) : (s.denied).get g = s.get g := rfl
@[simp] theorem State.is_denied (g : Fld) : (s.denied).is g = s.is g := rfl
@[simp] theorem State.get_updTick (u : TickSt → TickSt) (g : Fld) : (s.updTick u).get g = s.get g := rfl
@[simp] theorem State.is_updTick (u : TickSt → TickSt) (g : Fld) : (s.updTick u).is g = s.is g := rfl
@[simp] theorem State.get_updErr (u : ErrSt → ErrSt) (g : Fld) : (s.updErr u).get g = s.get g := rfl
@[simp] theorem State.is_updErr (u : ErrSt → ErrSt) (g : Fld) : (s.updErr u).is g = s.is g := rfl
@[simp] theorem State.get_updHost (u : HostSt → HostSt) (g : Fld) : (s.updHost u).get g = s.get g := rfl
@[simp] theorem State.is_updHost (u : HostSt → HostSt) (g : Fld) : (s.updHost u).is g = s.is g := rfl
@[simp] theorem State.get_updDet (u : DetSt → DetSt) (g : Fld) : (s.updDet u).get g = s.get g := rfl
@[simp] theorem State.is_updDet (u : DetSt → DetSt) (g : Fld) : (s.updDet u).is g = s.is g := rfl
@[simp] theorem State.get_updBoot (u : BootSt → BootSt) (g : Fld) : (s.updBoot u).get g = s.get g := rfl
@[simp] theorem State.is_updBoot (u : BootSt → BootSt) (g : Fld) : (s.updBoot u).is g = s.is g := rfl
@[simp] theorem State.get_updPwr (u : PwrSt → PwrSt) (g : Fld) : (s.updPwr u).get g = s.get g := rfl
@[simp] theorem State.is_updPwr (u : PwrSt → PwrSt) (g : Fld) : (s.updPwr u).is g = s.is g := rfl
@[simp] theorem State.get_updUpd (u : UpdSt → UpdSt) (g : Fld) : (s.updUpd u).get g = s.get g := rfl
@[simp] theorem State.is_updUpd (u : UpdSt → UpdSt) (g : Fld) : (s.updUpd u).is g = s.is g := rfl
@[simp] theorem State.get_wrBytes (a : Nat) (bs : List Nat) (g : Fld) : (s.wrBytes a bs).get g = s.get g := rfl
@[simp] theorem State.is_wrBytes (a : Nat) (bs : List Nat) (g : Fld) : (s.wrBytes a bs).is g = s.is g := rfl
@[simp] theorem State.get_wr (a n v : Nat) (g : Fld) : (s.wr a n v).get g = s.get g := rfl
@[simp] theorem State.is_wr (a n v : Nat) (g : Fld) : (s.wr a n v).is g = s.is g := rfl
@[simp] theorem State.get_zeroRange (a n : Nat) (g : Fld) : (s.zeroRange a n).get g = s.get g := rfl
@[simp] theorem State.is_zeroRange (a n : Nat) (g : Fld) : (s.zeroRange a n).is g = s.is g := rfl

/-- A counter that saturates (R12). -/
theorem State.get_inc_same (f : Fld) (n : Nat) : (s.inc f n).get f = min (s.get f + n) (2 ^ f.width - 1) := by
  have h : 0 < 2 ^ f.width := Nat.two_pow_pos _
  unfold State.inc
  rw [State.get_set_same, Nat.mod_eq_of_lt (by omega)]

/-- Counting leaves every other field alone. -/
theorem State.get_inc_other {f g : Fld} (n : Nat) (h : g.key ≠ f.key) : (s.inc f n).get g = s.get g :=
  State.get_set_other _ _ h

end Sys2Proof.Machine
end

