-- ==== Sys2Proof/Laws/Canon.lean ====
section
/-! SUPPORT. The operations over memory, register fields and row registers keep their canonical form, and so do the shared
operations of the error handling: one simp lemma for each, so that a proof about a command unfolds the command alone. -/

namespace Sys2Proof.Machine

open Reg

/-- The form looks at memory, register fields and row registers alone. -/
theorem State.Inv.of_eq {s t : State} (h : s.Inv) (hm : t.mem = s.mem) (hf : t.flds = s.flds) (hx : t.xr = s.xr) : t.Inv := by
  simpa only [State.Inv, hm, hf, hx] using h

/-- What one pass of a loop keeps, the loop keeps. -/
theorem State.Inv.foldl {α : Type} (f : State → α → State) (hf : ∀ t a, t.Inv → (f t a).Inv) (l : List α) {s : State} :
    s.Inv → (l.foldl f s).Inv := by
  induction l generalizing s <;> simp_all

section

variable {s : State} (h : s.Inv)
include h

/-! ### Register fields -/

@[simp] theorem State.Inv.set (f : Fld) (v : Nat) : (s.set f v).Inv := ⟨h.1, Store.sorted_put _ _ _ h.2.1, h.2.2⟩
@[simp] theorem State.Inv.setB (f : Fld) (b : Bool) : (s.setB f b).Inv := h.set f _
@[simp] theorem State.Inv.inc (f : Fld) (n : Nat) : (s.inc f n).Inv := h.set f _
@[simp] theorem State.Inv.incWrap (f : Fld) (n : Nat) : (s.incWrap f n).Inv := h.set f _
@[simp] theorem State.Inv.setAll (l : List (Fld × Nat)) : (s.setAll l).Inv :=
  State.Inv.foldl _ (by simp +contextual) l h
@[simp] theorem State.Inv.clearEach (f : Fld) (stride n : Nat) : (s.clearEach f stride n).Inv :=
  ⟨h.1, Store.sorted_filter _ h.2.1, h.2.2⟩

/-! ### What the form does not look at -/

@[simp] theorem State.Inv.updTick (f : TickSt → TickSt) : (s.updTick f).Inv := h
@[simp] theorem State.Inv.setRow (r : Nat) (v : RowSt) : (s.setRow r v).Inv := h
@[simp] theorem State.Inv.updErr (f : ErrSt → ErrSt) : (s.updErr f).Inv := h
@[simp] theorem State.Inv.answer (ok : Bool) (v : Nat) : (s.answer ok v).Inv := h
@[simp] theorem State.Inv.updHost (f : HostSt → HostSt) : (s.updHost f).Inv := h
@[simp] theorem State.Inv.denied : s.denied.Inv := h
@[simp] theorem State.Inv.updDet (f : DetSt → DetSt) : (s.updDet f).Inv := h
@[simp] theorem State.Inv.setLink (p : Nat) (l : Link) : (s.setLink p l).Inv := h
@[simp] theorem State.Inv.updBoot (f : BootSt → BootSt) : (s.updBoot f).Inv := h
@[simp] theorem State.Inv.okay : s.okay.Inv := h
@[simp] theorem State.Inv.updPwr (f : PwrSt → PwrSt) : (s.updPwr f).Inv := h
@[simp] theorem State.Inv.draw : s.draw.2.Inv := h
@[simp] theorem State.Inv.updUpd (f : UpdSt → UpdSt) : (s.updUpd f).Inv := h
@[simp] theorem State.Inv.atCc (cc : Nat) : (s.atCc cc).Inv := h
@[simp] theorem State.Inv.occupy (u : UnitKind) (e : Nat) (i : Issue) (w : Bool) : (s.occupy u e i w).Inv := h
@[simp] theorem State.Inv.noteDst (u : UnitKind) (i e : Nat) (d : List (Nat × Nat)) : (s.noteDst u i e d).Inv := h
@[simp] theorem State.Inv.engineDone (u : UnitKind) (i e c : Nat) : (s.engineDone u i e c).Inv := h
@[simp] theorem State.Inv.noteInfo (u : UnitKind) (i e : Nat) (l : List Nat) : (s.noteInfo u i e l).Inv := h
@[simp] theorem State.Inv.takeInHand (e : Err) : (s.takeInHand e).Inv := h
@[simp] theorem State.Inv.dropDue : s.dropDue.Inv := State.Inv.foldl _ (by simp +contextual) _ h
@[simp] theorem State.Inv.entered (u : UnitKind) (e : Nat) (i : Issue) (w : Bool) : (s.entered u e i w).Inv := h
@[simp] theorem State.Inv.emit (m : Msg) : (s.emit m).Inv := by unfold State.emit; split <;> exact h
@[simp] theorem State.Inv.emitTree (x : Option Nat) (m : Nat → Msg) : (s.emitTree x m).Inv := State.Inv.foldl _ (by simp +contextual) _ h

/-! ### Memory and row registers -/

@[simp] theorem State.Inv.wrBytes (a : Nat) (bs : List Nat) : (s.wrBytes a bs).Inv := ⟨Memory.wf_writeBytes a bs h.1, h.2⟩
@[simp] theorem State.Inv.wr (a n v : Nat) : (s.wr a n v).Inv := h.wrBytes a _
@[simp] theorem State.Inv.zeroRange (a n : Nat) : (s.zeroRange a n).Inv := ⟨Memory.wf_eraseRange a n h.1, h.2⟩
@[simp] theorem State.Inv.poisonWord (a : Nat) : (s.poisonWord a).Inv := by
  unfold State.poisonWord; dsimp only; split
  · exact h
  · exact ⟨Memory.wf_writeBytes _ _ h.1, h.2⟩
@[simp] theorem State.Inv.xSet (r x k i v : Nat) : (s.xSet r x k i v).Inv := by
  unfold State.xSet; split
  · exact h
  · obtain ⟨hm, hf, hx⟩ := h
    simp only [Bool.and_eq_true, List.all_eq_true, bne_iff_ne] at hx
    refine ⟨hm, hf, Bool.and_eq_true_iff.2 ⟨Store.sorted_put _ _ _ hx.1, List.all_eq_true.2 fun e he => bne_iff_ne.2 ?_⟩⟩
    dsimp only [Store.put] at he; split at he
    · exact hx.2 e (List.mem_of_mem_filter he)
    · exact (Store.mem_insert he).elim (fun q => q ▸ ‹_›) (hx.2 e)
@[simp] theorem State.Inv.setPc (r x v : Nat) : (s.setPc r x v).Inv := h.xSet _ _ _ _ _

/-! ### Events, the log and errors (R327 to R342, R352, R370) -/

@[simp] theorem State.Inv.emitEth (dst : Nat) (m : EthMsg) : (s.emitEth dst m).Inv := by
  unfold State.emitEth; dsimp only; split <;> simp (maxDischargeDepth := 12) [h]
@[simp] theorem State.Inv.pushEvent (b : Sub) (code : Nat) (body : List Nat) : (s.pushEvent b code body).Inv := by
  simp (maxDischargeDepth := 12) [State.pushEvent, State.sendEvent, h]
@[simp] theorem State.Inv.event (code : Nat) (body : List Nat) : (s.event code body).Inv := by
  unfold State.event; dsimp only; repeat' split
  all_goals first | (simp (maxDischargeDepth := 12) [h]; done) | exact h
@[simp] theorem State.Inv.log (e : Err) (a b c : Bool) : (s.log e a b c).Inv := by
  unfold State.log; dsimp only; repeat' split
  all_goals first | (simp (maxDischargeDepth := 12) [h]; done) | exact h
@[simp] theorem State.Inv.countErr (c : Nat) : (s.countErr c).Inv := by
  unfold State.countErr; split <;> simp (maxDischargeDepth := 12) [h]
@[simp] theorem State.Inv.setJob (j c : Nat) : (s.setJob j c).Inv := by
  unfold State.setJob; split <;> simp (maxDischargeDepth := 12) [h]

end

/-- Replacing parts that the form does not look at keeps it: a goal about such a record is one about the state itself. -/
theorem State.Inv.arrSingle {s : State} (h : s.Inv) : s.arrSingle.Inv :=
  State.Inv.clearEach (State.Inv.clearEach (h.of_eq rfl rfl rfl) _ _ _) _ _ _

theorem State.Inv.dropOutcomes {s : State} (h : s.Inv) : s.dropOutcomes.Inv := by
  unfold State.dropOutcomes; apply State.Inv.setAll; exact h

theorem State.Inv.stopTicks {s : State} (h : s.Inv) : s.stopTicks.Inv := by
  have key : ∀ t : State, t.Inv → ({ t.arrSingle.dropDue with lands := [] } : State).Inv :=
    fun _ ht => ht.arrSingle.dropDue.of_eq rfl rfl rfl
  unfold State.stopTicks
  split <;> simp (maxDischargeDepth := 12) [key, h, h.dropOutcomes]

section

variable {s : State} (h : s.Inv)
include h

@[simp] theorem State.Inv.endHandling : s.endHandling.Inv := by simp (maxDischargeDepth := 12) [State.endHandling, h]
@[simp] theorem State.Inv.endCall (r : Nat) : (s.endCall r).Inv := by
  unfold State.endCall; dsimp only; split
  · exact h
  · exact State.Inv.set (h.of_eq rfl rfl rfl) _ _
@[simp] theorem State.Inv.stopRows : s.stopRows.Inv := State.Inv.foldl _ (by simp +contextual (maxDischargeDepth := 12)) _ h
@[simp] theorem State.Inv.enterHalt (c : Nat) : (s.enterHalt c).Inv := by
  unfold State.enterHalt; split <;> simp (maxDischargeDepth := 12) [h, h.stopTicks]
@[simp] theorem State.Inv.haltNotice (e : Err) : (s.haltNotice e).Inv := h.emitTree _ _
@[simp] theorem State.Inv.fatalSlice (e : Err) (c : Nat) : (s.fatalSlice e c).Inv := by
  unfold State.fatalSlice; split <;> simp (maxDischargeDepth := 12) [h]
@[simp] theorem State.Inv.stopEngines : s.stopEngines.Inv := by
  unfold State.stopEngines; apply State.Inv.setAll; exact h
@[simp] theorem State.Inv.fatalDevice (e : Err) (c : Nat) : (s.fatalDevice e c).Inv := by
  have key : ∀ t : State, t.Inv → ((List.range 8).foldl (fun s p =>
      (s.set (LNK_STATUS.STATE p) 0).set (LNK_STATUS.LANES_UP p) 0) t).Inv := fun t => State.Inv.foldl _ (by simp +contextual (maxDischargeDepth := 12)) _
  unfold State.fatalDevice; dsimp only; split <;> simp (maxDischargeDepth := 12) [h, key]
@[simp] theorem State.Inv.noteProc (e : Err) : (s.noteProc e).Inv := by unfold State.noteProc; split <;> simp (maxDischargeDepth := 12) [h]
@[simp] theorem State.Inv.contained (e : Err) : (s.contained e).Inv := by
  unfold State.contained; repeat' split
  all_goals first | (simp (maxDischargeDepth := 12) [h]; done) | exact h
@[simp] theorem State.Inv.consequence (e : Err) (c : Nat) (g : Bool) : (s.consequence e c g).Inv := by
  unfold State.consequence; repeat' split
  all_goals first | (simp (maxDischargeDepth := 12) [h]; done) | exact h
@[simp] theorem State.Inv.noteFirst (e : Err) : (s.noteFirst e).Inv := by unfold State.noteFirst; split <;> simp (maxDischargeDepth := 12) [h]
@[simp] theorem State.Inv.nested (a e : Err) (g : Bool) : (s.nested a e g).Inv := by
  unfold State.nested; dsimp only; repeat' split
  all_goals first | (simp (maxDischargeDepth := 12) [h]; done) | exact h
@[simp] theorem State.Inv.raise (e : Err) (g : Bool) : (s.raise e g).Inv := by
  unfold State.raise; dsimp only; repeat' split
  all_goals first | (simp (maxDischargeDepth := 12) [h]; done) | exact h
@[simp] theorem State.Inv.noteParity : s.noteParity.Inv := by
  unfold State.noteParity; repeat' split
  all_goals first | (simp (maxDischargeDepth := 12) [h]; done) | exact h
@[simp] theorem State.Inv.logRemote (n : Bool) (c : CarriedErr) : (s.logRemote n c).Inv := by
  unfold State.logRemote; split <;> simp (maxDischargeDepth := 12) [h]
@[simp] theorem State.Inv.raiseOpen (a b c d e : Nat) : (s.raiseOpen a b c d e).Inv := State.Inv.raise h.draw _ _
@[simp] theorem State.Inv.corrected (a b c : Nat) : (s.corrected a b c).Inv := State.Inv.raiseOpen h.draw _ _ _ _ _
@[simp] theorem State.Inv.setLocked (f : Fld) (v : Nat) : (s.setLocked f v).Inv := by
  unfold State.setLocked; repeat' split
  all_goals first | (simp (maxDischargeDepth := 12) [h]; done) | exact h
@[simp] theorem State.Inv.fatalAtGlue (a b c d : Nat) : (s.fatalAtGlue a b c d).Inv := State.Inv.updErr h.draw _
@[simp] theorem State.Inv.raiseFree (a b c : Nat) : (s.raiseFree a b c).Inv := State.Inv.raiseOpen h.draw.draw _ _ _ _ _
@[simp] theorem State.Inv.recordFault (a b c d e f : Nat) : (s.recordFault a b c d e f).Inv := by
  unfold State.recordFault; split <;> simp (maxDischargeDepth := 12) [h]
@[simp] theorem State.Inv.schedFault (a b : Nat) (u : UnitKind) (c d : Nat) : (s.schedFault a b u c d).Inv := by
  simp (maxDischargeDepth := 12) [State.schedFault, h]
@[simp] theorem State.Inv.memRecord (a b c d : Nat) : (s.memRecord a b c d).Inv := by
  unfold State.memRecord; dsimp only; repeat' split
  all_goals first | (simp (maxDischargeDepth := 12) [h]; done) | exact h
@[simp] theorem State.Inv.memCorrected (a b c : Nat) : (s.memCorrected a b c).Inv := by
  unfold State.memCorrected; dsimp only; split <;> simp (maxDischargeDepth := 12) [h]
@[simp] theorem State.Inv.memUncorrectableAs (f : Err → Err) (a b c : Nat) : (s.memUncorrectableAs f a b c).Inv := by
  unfold State.memUncorrectableAs; dsimp only; split <;> simp (maxDischargeDepth := 12) [h]
@[simp] theorem State.Inv.memUncorrectable (a b c : Nat) : (s.memUncorrectable a b c).Inv := h.memUncorrectableAs _ _ _ _
@[simp] theorem State.Inv.readPoison (rs : List (Nat × Nat)) (a b : Nat) : (s.readPoison rs a b).Inv :=
  State.Inv.foldl _ (by simp +contextual (maxDischargeDepth := 12)) _ h
@[simp] theorem State.Inv.noteWrite (f : Err → Err) (rs : List (Nat × Nat)) (v : Nat) : (s.noteWrite f rs v).Inv := by
  have key : ∀ l : List Nat, (l.foldl (fun s w => s.memUncorrectableAs f w v 4) s).Inv :=
    fun l => State.Inv.foldl _ (by simp +contextual (maxDischargeDepth := 12)) l h
  exact (key _).of_eq rfl rfl rfl

/-! ### Commands -/

/-- A register write keeps the form if what it does keeps it. -/
theorem State.Inv.write {f : State → State} (hf : (f s).Inv) : (s.write f).Inv := by
  unfold State.write; split <;> simp (maxDischargeDepth := 12) [h, hf]

/-- An entry keeps the form if its body does. -/
theorem State.Inv.issueWhen {busy : Bool} {u : UnitKind} {eng : Nat} {i : Issue} {w : Bool} {body : State → State}
    (hb : (body (s.entered u eng i w)).Inv) {t : State} (ht : s.issueWhen busy u eng i w body = .next t) : t.Inv := by
  by_cases hu : i.idx < u.count
  · simp only [State.issueWhen, hu, if_true, Host.Outcome.next.injEq] at ht
    subst ht
    cases s.canIssue u i <;> cases busy <;> simp_all (maxDischargeDepth := 12) [State.entered]
  · simp (maxDischargeDepth := 12) [State.issueWhen, hu] at ht

end

end Sys2Proof.Machine
end

