-- ==== Sys2Proof/Laws/Ops.lean ====
section
/-! SUPPORT. What the shared operations can do, once for each: a command that names a unit, a register write, an entry that
issues, an instruction of a row controller, a request of the host and a frame on the Ethernet port. A proof about a command
cites these and unfolds only the command's own body. -/

namespace Sys2Proof.Machine

open Reg

variable (s : State)

/-! ### A command that names a unit -/

theorem State.forUnit_eq_next {n i : Nat} (h : i < n) : State.forUnit n i s = .next s := by simp [State.forUnit, h]

theorem State.forUnit_eq_fault {n i : Nat} (h : n ≤ i) : State.forUnit n i s = .fault .noSuchUnit := by
  simp [State.forUnit, Nat.not_lt.2 h]

/-- A next state is the one that the body gives, and the unit exists. -/
theorem State.forUnit_inv {n i : Nat} {t : State} (h : State.forUnit n i s = .next t) : i < n ∧ t = s := by
  unfold State.forUnit at h
  split at h
  · exact ⟨‹_›, by cases h; rfl⟩
  · cases h

/-! ### A register write (R342, R377, R412) -/

theorem State.write_accepts (f : State → State) (h : s.accepts = true) : s.write f = f s := if_pos h

theorem State.write_denied (f : State → State) (h : s.accepts = false) : s.write f = s.denied := by simp [State.write, h]

/-! ### An entry that issues (R15, R17, R27) -/

theorem Turn.canIssue {u : UnitKind} {i : Issue} (h : Turn s u i) : s.canIssue u i = true := by
  obtain ⟨-, h2, h3, h4, h5, h6, h7, h8⟩ := h
  have hl : s.hasList u i.idx = true := by
    cases u <;> simp [State.hasList] at h2 ⊢
    exact h2
  simp [State.canIssue, hl, h3, h4, h5, h6, h7, h8]

theorem Idle.engineBusy {u : UnitKind} {idx eng cc : Nat} (h : Idle s u idx eng cc) : s.engineBusy u idx eng cc = false := by
  unfold State.engineBusy
  split
  · rename_i b hb
    obtain ⟨h1, h2⟩ := h b hb
    simp [h1, Nat.not_lt.2 h2]
  · rfl

theorem ArrReady.arrBusyAt {eng : Nat} {i : Issue} (h : ArrReady s eng i) : s.arrBusyAt i.idx eng i.startCc = false := by
  obtain ⟨-, h1, h2, h3⟩ := h
  simp only [State.arrBusyAt, h1.engineBusy, h2.engineBusy, Bool.false_or, Bool.and_eq_false_iff]
  by_cases he : eng = 1
  · right
    rw [List.any_eq_false]
    intro q hq
    simp [(h3 he q (List.mem_range.1 hq)).engineBusy]
  · left
    simpa using he

/-- On an engine that is not busy the entry does its work in the state that it has entered. -/
theorem State.issueWhen_ready {u : UnitKind} {eng : Nat} {i : Issue} (waits : Bool) (body : State → State)
    (hu : i.idx < u.count) (hc : s.canIssue u i = true) :
    s.issueWhen false u eng i waits body = .next (body (s.entered u eng i waits)) := by
  simp [State.issueWhen, hu, hc, State.entered]

/-- On a busy engine it raises BUSY. -/
theorem State.issueWhen_busy {u : UnitKind} {eng : Nat} {i : Issue} (waits : Bool) (body : State → State)
    (hu : i.idx < u.count) (hc : s.canIssue u i = true) :
    s.issueWhen true u eng i waits body = .next ((s.atCc i.startCc).schedFault 2 fBUSY u i.idx i.entry) := by
  simp [State.issueWhen, hu, hc]

/-- Outside its tick it has no effect. -/
theorem State.issueWhen_early (busy : Bool) {u : UnitKind} {eng : Nat} {i : Issue} (waits : Bool) (body : State → State)
    (hu : i.idx < u.count) (hc : s.canIssue u i = false) : s.issueWhen busy u eng i waits body = .next s := by
  simp [State.issueWhen, hu, hc]

/-- Everything that an entry can do. -/
theorem State.issueWhen_cases {busy : Bool} {u : UnitKind} {eng : Nat} {i : Issue} {waits : Bool} {body : State → State}
    {t : State} (h : s.issueWhen busy u eng i waits body = .next t) :
    (s.canIssue u i = false ∧ t = s) ∨
      (s.canIssue u i = true ∧ busy = true ∧ t = (s.atCc i.startCc).schedFault 2 fBUSY u i.idx i.entry) ∨
      (s.canIssue u i = true ∧ busy = false ∧ t = body (s.entered u eng i waits)) := by
  unfold State.issueWhen at h
  split at h
  · injection h with h
    subst h
    cases hc : s.canIssue u i <;> cases busy <;> simp [State.entered]
  · cases h

theorem State.issue_ready {u : UnitKind} {eng : Nat} {i : Issue} (waits : Bool) (body : State → State) (h : Ready s u eng i) :
    s.issue u eng i waits body = .next (body (s.entered u eng i waits)) := by
  unfold State.issue
  rw [h.2.engineBusy]
  exact s.issueWhen_ready waits body h.1.1 h.1.canIssue

/-- The engine that an entry has entered is occupied by it. -/
theorem State.entered_occupied (u : UnitKind) (eng : Nat) (i : Issue) (waits : Bool) :
    Occupied (s.entered u eng i waits) u eng i waits := by
  refine ⟨⟨u, i.idx, eng, i.entry, i.startCc + i.busyCc, waits, [], []⟩, ?_, rfl, rfl, rfl⟩
  simp only [State.busyRec, State.entered, State.occupy, State.updTick]
  rw [List.find?_append]
  have : List.find? (fun b : Busy => b.unit == u && b.idx == i.idx && b.eng == eng)
      (List.filter (fun b : Busy => !(b.unit == u && b.idx == i.idx && b.eng == eng)) (s.atCc i.startCc).tick.busy) = none := by
    rw [List.find?_eq_none]
    intro b hb
    have := (List.mem_filter.1 hb).2
    rw [Bool.not_eq_true'] at this
    simp [this]
  rw [this]
  simp

/-- Entering changes nothing but the tick controller's own state. -/
theorem State.entered_frame (u : UnitKind) (eng : Nat) (i : Issue) (waits : Bool) :
    { s.entered u eng i waits with tick := s.tick } = s := rfl

@[simp] theorem State.entered_flds (u : UnitKind) (eng : Nat) (i : Issue) (waits : Bool) :
    (s.entered u eng i waits).flds = s.flds := rfl
@[simp] theorem State.entered_mem (u : UnitKind) (eng : Nat) (i : Issue) (waits : Bool) :
    (s.entered u eng i waits).mem = s.mem := rfl
@[simp] theorem State.entered_get (u : UnitKind) (eng : Nat) (i : Issue) (waits : Bool) (f : Fld) :
    (s.entered u eng i waits).get f = s.get f := rfl

/-- An engine that completes is idle. -/
theorem State.engineDone_idle (u : UnitKind) (idx eng cc : Nat) : (s.engineDone u idx eng cc).busyRec u idx eng = none := by
  simp only [State.busyRec, State.engineDone, State.updTick]
  rw [List.find?_eq_none]
  intro b hb
  have := (List.mem_filter.1 hb).2
  rw [Bool.not_eq_true'] at this
  simp [this]

/-! ### An instruction of a row controller (R172, R188) -/

theorem RowIn.context {r x : Nat} (h : RowIn s r x) : s.context r = some x := by
  obtain ⟨-, h1, h2, h3, hz, h4⟩ := h
  rcases h4 with ⟨rfl, hc, hk⟩ | ⟨rfl, hc⟩ <;> simp [State.context, h1, h2, h3, hz, hc]
  exact Option.isSome_iff_ne_none.1 hk

theorem RowRuns.fetchFault {r x : Nat} (h : RowRuns s r x) : s.fetchFault r x = none := by
  obtain ⟨hi, hp, h0, h1⟩ := h
  unfold State.fetchFault
  rcases hi.2.2.2.2.2 with ⟨rfl, -, -⟩ | ⟨rfl, -⟩
  · have := h0 rfl
    simp [hp]
    omega
  · have := h1 rfl
    simp [hp]
    omega

/-- Without a hardware error the body runs as it stands. -/
theorem State.instrHw_runs {r x : Nat} (addr : Nat → State → Nat) (body : Nat → State → State × XEnd) (h : RowRuns s r x) :
    s.instrHw r [] addr body = .next ((body x s).1.finish r x (body x s).2) := by
  simp [State.instrHw, State.forUnit, h.1.1, h.1.context, h.fetchFault, State.rowHw]

/-- A row that runs nothing has no effect. -/
theorem State.instrHw_idle {r : Nat} {hw : List HwFault} (addr : Nat → State → Nat) (body : Nat → State → State × XEnd)
    (hr : r < 64) (h : s.context r = none) : s.instrHw r hw addr body = .next s := by
  simp [State.instrHw, State.forUnit, hr, h]

/-- A fetch that fails raises its exception. -/
theorem State.instrHw_fetch {r x c : Nat} {hw : List HwFault} (addr : Nat → State → Nat)
    (body : Nat → State → State × XEnd) (hr : r < 64) (h : s.context r = some x) (hf : s.fetchFault r x = some c) :
    s.instrHw r hw addr body = .next (s.exception r x c 0 false) := by
  simp [State.instrHw, State.forUnit, hr, h, hf]

/-- A row that runs executes an instruction that accesses no memory in its context. -/
theorem State.instr_runs {r x : Nat} (body : Nat → State → State × XEnd) (h : RowRuns s r x) :
    s.instr r [] body = .next ((body x s).1.finish r x (body x s).2) := s.instrHw_runs _ body h

/-! ### Row registers (R175) -/

/-- What a register reads after a write of another place. -/
theorem State.xGet_xSet_other {r x k i r' x' k' i' v : Nat} (h : xKey r x k i ≠ xKey r' x' k' i') :
    (s.xSet r' x' k' i' v).xGet r x k i = s.xGet r x k i := by
  unfold State.xGet State.xSet
  split
  · rfl
  · split
    · rfl
    · exact Store.get_put_other _ _ _ _ h

/-- What a register reads after it is written. -/
theorem State.xGet_xSet_same (r x k i v : Nat) :
    (s.xSet r x k i v).xGet r x k i = if k = kG ∧ i = 0 then 0 else v % 2 ^ xBits k := by
  unfold State.xGet State.xSet
  split
  · rfl
  · exact Store.get_put_same _ _ _ _

/-! ### A request of the host (R359, R360, R362) -/

/-- A request at the front that nothing refuses is executed. -/
theorem State.serve_runs {h : BcpHdr} {op : Nat} {carries : List Nat → Bool} {r : Request} (body : Request → State → State)
    (hf : s.front h op carries = some r) (hs : s.serves op = true) (hx : op = opHELLO ∨ (s.sessionOf h).isSome = true)
    (hj : jobPermits op s.job = true) :
    s.serve h op carries body = .next (body r s.dequeue) := by
  have hj' : jobPermits op s.dequeue.job = true := hj
  have hs' : ∀ v, s.sessionOf h = some v → s.dequeue.sessionOf h = some v := fun _ hv => hv
  unfold State.serve
  rw [hf]
  rcases hx with hx | hx
  · subst hx
    simp [hs, hj']
  · obtain ⟨v, hv⟩ := Option.isSome_iff_exists.1 hx
    simp [hs, hj', hs' v hv]

/-- A request that is not at the front has no effect yet. -/
theorem State.serve_waits {h : BcpHdr} {op : Nat} {carries : List Nat → Bool} (body : Request → State → State)
    (hf : s.front h op carries = none) : s.serve h op carries body = .next s := by
  simp [State.serve, hf]

/-! ### A frame on the Ethernet port (R355, R356) -/

theorem State.arrives_up (body : State → State) (h : s.ethUp = true) :
    s.arrives body = .next (body (s.inc ETH_COUNT0.RX_FRAMES)) := by simp [State.arrives, h]

theorem State.arrives_down (body : State → State) (h : s.ethUp = false) : s.arrives body = .next s := by
  simp [State.arrives, h]

/-- Counting a frame does not change which headers the port accepts. -/
theorem State.headerOk_inc (e : EthHdr) (p : Nat → Bool) :
    (s.inc ETH_COUNT0.RX_FRAMES).headerOk e p = s.headerOk e p := by
  simp [State.headerOk, State.inc, State.is, State.get_set_other s _ (show ETH_MAC.MAC.key ≠ ETH_COUNT0.RX_FRAMES.key by decide),
    State.get_set_other s _ (show ETH_CFG.VLAN_EN.key ≠ ETH_COUNT0.RX_FRAMES.key by decide),
    State.get_set_other s _ (show ETH_CFG.VLAN_ID.key ≠ ETH_COUNT0.RX_FRAMES.key by decide)]

/-- A frame whose header the port accepts reaches its handler. -/
theorem State.frameIn_accepts {e : EthHdr} {p : Nat → Bool} (body : State → State) (h : s.ethUp = true)
    (he : s.headerOk e p = true) : s.frameIn e p body = .next (body (s.inc ETH_COUNT0.RX_FRAMES)) := by
  unfold State.frameIn
  rw [State.arrives_up _ _ h, State.headerOk_inc, he]
  rfl

/-- A packet of a queue pair that is not in error reaches its handler. -/
theorem State.roceIn_arrives {h : RoceHdr} {q : Qp} (body : Qp → State → State) (ha : Arrives s h q) :
    s.roceIn h body = .next (body q (s.inc ETH_COUNT0.RX_FRAMES)) := by
  obtain ⟨hu, hh, hq, hv, he, hc⟩ := ha
  have hq' : (s.inc ETH_COUNT0.RX_FRAMES).qp h.qpn = some q := hq
  have hn : (s.inc ETH_COUNT0.RX_FRAMES).qpNow q = q := by
    have hk : q.qpn = h.qpn := by
      have := List.find?_some hq
      simpa using this
    unfold State.qpNow
    rw [hk, hq']
    rfl
  have hv' : (s.inc ETH_COUNT0.RX_FRAMES).is (if isV6 q.args.rgid then ETH_CFG.IPV6_EN else ETH_CFG.IPV4_EN) = true :=
    (congrArg (· == 1) (State.get_set_other s _ (by split <;> decide))).trans hv
  unfold State.roceIn
  rw [State.frameIn_accepts _ _ hu hh]
  simp only [hq', State.ipIn, hv', if_true, he, Bool.false_eq_true, if_false]
  simp [State.congestion, hc, hn]

end Sys2Proof.Machine
end

