-- ==== Sys2Proof/Tests/Slice0.lean ====
section
/-! SUPPORT. Tests: ill-formed commands that each check refuses, worked examples of the spec,
  and for every statement with
hypotheses a witness (`witness_<statement>`): small states and operands that meet the hypotheses, clause by clause. -/

namespace Sys2Proof.Machine

open Reg

set_option Elab.async false

/-! ### Small states -/

/-- The state after reset with register fields set. -/
def w (l : List (Fld × Nat)) : State := State.reset.setAll l

/-- One busy engine. -/
def busy1 (u : UnitKind) (idx eng e endCc : Nat) (waits : Bool) (info : List Nat) : Busy :=
  ⟨u, idx, eng, e, endCc, waits, [], info⟩

/-- A step in RUN, with a tick length. -/
def run4 : List (Fld × Nat) :=
  [(TICK_STATUS.STATE, 2), (TICK_CFG.TICK_LOG2, 16), (TICK_CFG.KERF_Q, 4), (TICK_ABI.STEP_TICKS, 4)]

/-- A tick of that step is open. -/
def inTick (l : List (Fld × Nat)) : State := (w (run4 ++ l)).updTick fun t => { t with inTick := true }

/-- That step, with the tick controller changed. -/
def tickSt (l : List (Fld × Nat)) (f : TickSt → TickSt) : State := (inTick l).updTick f

/-- An entry of the open tick. -/
def issue0 (idx tag : Nat) : Issue := ⟨idx, 3, 0, 100, 50, 0, tag, 0⟩

/-- Every position is active, and bank A is sealed over a memory. -/
def sealedRun (l : List (Fld × Nat)) (m : List Host.Cell) : State :=
  { inTick l with mem := m, active := 2 ^ nPhys - 1, sealA := some ⟨m, (inTick l).flds, 2 ^ nPhys - 1⟩ }

/-- An engine that waits for its completion. -/
def waiting (u : UnitKind) (idx eng : Nat) (info : List Nat) (l : List (Fld × Nat)) : State :=
  tickSt l fun t => { t with busy := [busy1 u idx eng 7 99 true info] }

/-- An action of the glue-up. -/
def glue (n : Nat) (t : TickSt) : TickSt := { t with inTick := false, glue := n }

def gl (n : Nat) (l : List (Fld × Nat)) : State := tickSt l (glue n)

/-- A device that a load would not refuse. -/
def loadable : State :=
  { w ([(TICK_CFG.TICK_LOG2, 16), (TICK_CFG.KERF_Q, 4), (FAB_SLICE.SIZE, 16), (FAB_SLICE.ID, 1), (FAB_SYNT.LOCKED, 1),
        (CLK_STATUS.PLL_LOCK, 1), (CFG_STATUS.SITE_DEFAULT, 0), (PAD_HOLD.HELD, 0), (BCP_INBOX_TBL.DEPTH, 3),
        (TICK_LOAD_STEP.STEP, 7)] ++
      (List.range 16).map (fun c => (MEM_STATUS.STATE c, 1)) ++
      [0, 1, 2, 3].flatMap fun p => [(LNK_SLICE.FENCE p, 0), (LNK_STATUS.STATE p, 2), (LNK_STATUS.RATE p, 2)]) with
    links := [0, 1, 2, 3].map fun p => (p, { Link.reset with partnerMhz := State.reset.get CLK_STATUS.CORE_MHZ }) }

/-! ### One shard with a replica -/

def shardWords : List Nat := [2, 0x10000, 0x20000, 0x30000, 0x40000, 0, 0, 0, 0, 77 * 2 ^ 32, 1, 0, 0, 0, 0, 0]

def shardMem : List Host.Cell :=
  Memory.writeBytes (Memory.writeBytes [] 128 (shardWords.flatMap (leBytes 8))) 0x1000
    (leBytes 16 (1 + 2 ^ 16 + 5 * 2 ^ 20))

def repl (l : List (Fld × Nat)) (f : TickSt → TickSt) (u : UpdSt) : State :=
  let s := tickSt ([(UPD_TBL_A.ADDR, 1), (UPD_TBL_A.COUNT, 1), (FAB_RGRP.ADDR, 0x100), (FAB_RGRP.COUNT, 1),
    (FAB_TREE.CHILDREN, 2), (UPD_CHK_BASE.ADDR, 0x8000)] ++ l) f
  { s with mem := shardMem, upd := u, active := 2 ^ nPhys - 1, sealA := some ⟨shardMem, s.flds, 2 ^ nPhys - 1⟩ }

/-! ### Verdicts and errors -/

def v0 : Verdict := ⟨0, none, true, false⟩
def ce (cls : Nat) (h : Bool) : CarriedErr := ⟨cls, 1, 2, 3, 4, h⟩
def vErr (cls : Nat) (h : Bool) : Verdict := ⟨cls, some (ce cls h), true, false⟩
def released (v : Verdict) (l : List (Fld × Nat)) : State := (gl 2 l).updTick fun t => { t with released := some v }
def qe (c : Nat) : Err := ⟨c, 1, 1, 1, 1, 1⟩
def queued (c : Nat) : State :=
  { inTick [(FAB_TREE.CHILDREN, 6)] with err := { ErrSt.reset with queue := [⟨qe c, false, some 0⟩] } }
def tk : Token := ⟨1, true, true, true, true, true, 0, true, true, true, 0, true, true, 0, true, true⟩
def gf : GoFrame := ⟨0, true, false, false, 0, false, true, false, false, false, 100, 77⟩
def sp (l : List (Fld × Nat)) : State := { w l with active := 2 ^ 32 - 1, good := 2 ^ 34 - 1, mem := [(veneerBase 3 + 8, 9)] }

/-! ### Ports and frames -/

def upl (l : List (Fld × Nat)) : State :=
  inTick ([(LNK_STATUS.STATE 2, 2), (LNK_SLICE.FENCE 2, 0), (LNK_SLICE.SLICE 2, 3), (FAB_SLICE.ID, 3),
    (LNK_STATUS.STATE 1, 2), (LNK_SLICE.FENCE 1, 0), (LNK_SLICE.SLICE 1, 3)] ++ l)
def f0 : Frame := ⟨3, 9, 7, 9, false, 0, 0, 0, 0, 0, List.range 32, 0⟩
def fBad : Frame := { f0 with badCw := 2 }
def fRsvd : Frame := { f0 with rsvd := 1, crc := frameCrc { f0 with rsvd := 1 } }
def fg : Frame := { f0 with crc := frameCrc f0 }
def landMem : List Host.Cell :=
  let m := Memory.writeBytes [] (bankBase .port 2 0) (leBytes 8 (2 ^ 20) ++ leBytes 8 (1 + 2 ^ 16 + 2 ^ 32))
  let m := Memory.writeBytes m (bankBase .port 2 0 + 16) (leBytes 8 (0x501 * 2 ^ 20 + 10 * 2 ^ 32) ++ leBytes 8 (9
    * 2 ^ 32))
  Memory.writeBytes m 0x8000 (leBytes 8 0x40 ++ leBytes 8 (16 + 2 * 2 ^ 24) ++ leBytes 8 (16 + 7 * 2 ^ 24) ++
    leBytes 8 0)
def landS : State :=
  let s := upl [(LNK_RTBL.OUT 2 1 1, 8), (FAB_XFER_A.ADDR, 0x8000 / 32), (FAB_XFER_A.COUNT, 1)]
  { s with mem := landMem, sealA := some ⟨landMem, s.flds, 0⟩ }
/-- The LAND entry that f0's transfer meets, and its record when no frame has landed. -/
def landEntry0 : Entry := ⟨1, 0, 0x501, 10, 0, 0, 0, 9, 0, 0⟩
def landL0 : Land := mkLand 2 landEntry0 (landS.get TICK_COUNT.COUNT) (landS.xferWords landEntry0.desc)
def lk (l : Link) (fl : List (Fld × Nat)) : State := { upl fl with links := [(2, l)] }
def lk3 : Link := { Link.reset with replay := [(0, f0), (1, f0), (2, f0)] }

/-! ### The host -/

def up (l : List (Fld × Nat)) : State :=
  { w ([(ETH_STATUS.STATE, 2), (CFG_STATUS.STATE, 1), (ETH_CFG.IPV4_EN, 1), (ETH_CFG.IPV6_EN, 1), (ETH_RDMA.RKEY, 5)] ++ l) with
    boot := { BootSt.reset with configuring := false, allow := [(0xFFFF0A000000, 120)] } }
def eth0 : EthHdr := ⟨0, 0x1234, none⟩
def rh (psn : Nat) : RoceHdr := ⟨⟨eth0, false⟩, 2, psn⟩
def rw (psn rkey : Nat) (data : List Nat) : RdmaWrite := ⟨rh psn, rkey, 0x1000, data⟩
def org : Origin := ⟨0xFFFF0A000001, 4000, 0x1234⟩
def hdr1 : BcpHdr := ⟨org, 1, 9, 1⟩
def srv (l : List (Fld × Nat)) (op : Nat) (p : List Nat) : State :=
  { up l with host := { HostSt.reset with sessions := [⟨1, 1, 8, []⟩], nextSession := 2, queue := [⟨hdr1, op, p⟩] } }
def qp1 : Qp := ⟨2, ⟨7, 8, 9, 0, 0, 3⟩, 10, 20, 0, false, false, none⟩
def srvQp (l : List (Fld × Nat)) (op : Nat) (p : List Nat) : State :=
  { srv l op p with host := { (srv l op p).host with qps := [qp1] } }
def bind0 : OutBind := ⟨2, 0x100, 3, 4⟩
def push0 : Push := ⟨4, 0, some bind0, [10, 11, 12]⟩
def upQp (l : List (Fld × Nat)) : State :=
  { up l with host := { HostSt.reset with qps := [qp1], nextQpn := 3, pushes := [push0] } }
def qa : QpArgs := ⟨7, 8, 9, 1, 2, 3⟩
def sa : SubArgs := ⟨0xFFFF0A000002, 5000, 3, 2, [tickBase]⟩
def ev (n : Nat) : Event := ⟨n, 1, 0, 0, [1, 2]⟩
def ir : List Nat := leBytes 8 0 ++ leBytes 2 0 ++ leBytes 8 0
def cpy : List Nat := leBytes 8 0x1000 ++ leBytes 8 0x040020000000 ++ leBytes 8 64
def qap : List Nat :=
  leBytes 4 7 ++ (leBytes 16 8).reverse ++ (leBytes 6 9).reverse ++ leBytes 4 1 ++ leBytes 4 2 ++ [3]
def ob : List Nat := leBytes 4 2 ++ leBytes 8 0x100 ++ leBytes 4 5 ++ leBytes 2 3
def sap : List Nat :=
  (leBytes 16 0xFFFF0A000002).reverse ++ leBytes 2 5000 ++ leBytes 2 3 ++ [2, 1] ++ leBytes 8 tickBase
def recp : List Nat := leBytes 8 0 ++ leBytes 8 0x1000 ++ leBytes 8 64
def attp : List Nat := leBytes 32 99 ++ leBytes 8 0x1000

/-! ### Certificates and records -/

/-- What a configuration has left in always-on SRAM, with its digest. -/
def aon0 : Aon :=
  ({ image := [], otherValid := false, slot := 0, dev := [], devCopy := 0, site := none, siteCopy := 0, map := 5, pub := [7],
     sec := [9], digest := [] } : Aon).sealed
theorem sealed_digest (x : Aon) : shake256 x.sealed.contents = x.sealed.digest := rfl
/-- The stored contents carry their own digest. -/
theorem aon0_digest : shake256 aon0.contents = aon0.digest := by
  rw [aon0]
  exact sealed_digest _
def withAon (s : State) : State := { s with boot := { s.boot with aon := some aon0 } }
/-- A write of `n` sectors, none of them done. -/
def wr0 (n : Nat) (failed : Bool) : FlashWrite := ⟨0, 0x1000000, List.replicate (n * 4096) 3, 0, failed⟩
def helloHead : List Nat :=
  leBytes 2 0x5142 ++ [0, 0] ++ leBytes 2 opHELLO ++ leBytes 2 2 ++ leBytes 8 9 ++ leBytes 8 0 ++ leBytes 4 0
def helloBytes : List Nat := helloHead ++ leBytes 4 (crc32c (helloHead ++ leBytes 4 0 ++ [1, 1])) ++ [1, 1]
def helloGram : Datagram := ⟨org, 0, none, helloBytes.length, helloBytes⟩
def badGram : Datagram := { helloGram with udpLen := 3 }

/-! ### Power -/

def pw (l : List (Fld × Nat)) (f : PwrSt → PwrSt) : State := { up l with pwr := f PwrSt.reset }

/-! ### Row 5 -/

def xrs (x : Nat) (l : List (Nat × Nat × Nat)) : List (Nat × Nat) :=
  l.foldl (fun m e => Store.put m 0 (xKey 5 x e.1 e.2.1) e.2.2) []
/-- Row 5 executes in a context, with row registers set. -/
def rs (x : Nat) (l : List (Nat × Nat × Nat)) (f : List (Fld × Nat)) : State :=
  { up ([(EXN_STATUS.CTX 5, x + 1), (TICK_STATUS.STATE, 2)] ++ f) with
    rows := if x = 0 then [(5, ⟨some ⟨3, 10, 500, false⟩, false, []⟩)] else [],
    xr := xrs x ([(kPC, 0, if x = 0 then 0x20100 else 0x200)] ++ l), active := 2 ^ nPhys - 1,
    mem := Memory.writeBytes [] 0x1000 ((List.range 64).map fun i => i * 7 % 200 + 3),
    tick := { TickSt.reset with busy := if x = 0 then [⟨.row, 5, engCall, 9, 500, true, [], []⟩] else [] } }
def vregs : List (Nat × Nat × Nat) :=
  [(kG, 1, 0xFFFFFFFFFFFFFFF0), (kG, 2, 2), (kG, 3, 0x1000), (kG, 4, 8), (kG, 6, 0x12345), (kG, 7, 63),
    (kG, 12, 0x050000180000 - 4), (kF, 1, 0x3FF8000000000000), (kF, 2, 0xC004000000000000),
    (kLV, 9, 4 * 2 ^ 32), (kLV, 10, 0x3F8000003FC00000), (kLM, 1, 0x5A5A)]
def V0 : State := rs 0 vregs []
def V1 : State := rs 1 vregs []
/-- V0 while an LPDDR refresh requirement is above 2×. -/
def hotRow : State := rs 0 vregs [(MEM_TEMP.REFRESH_MULT 2, 4)]
def two : VArgs := ⟨32, 2, none, none⟩
def cal (l : List (Fld × Nat)) (f : RowSt → RowSt) : State :=
  { rs 0 vregs ([(EXN_STATUS.CTX 5, 0)] ++ l) with
    rows := [(5, f RowSt.reset)], tick := { TickSt.reset with inTick := true, cc := 50 } }
def is5 : Issue := ⟨5, 3, 0, 100, 50, 77, 78, 79⟩
def ld : State :=
  { loadable.setAll [(CFG_STATUS.STATE, 1), (ETH_STATUS.STATE, 2)] with
    boot := { BootSt.reset with configuring := false }, host := (srv [] opJOB_LOAD (leBytes 8 7)).host }
def se : State :=
  { srvQp [] opEVENT_ACK (leBytes 8 2) with
    host := { (srvQp [] opEVENT_ACK (leBytes 8 2)).host with events := [ev 1, ev 2, ev 3], sub := some ⟨1, 1, 5, sa⟩ } }
def signing1 : State :=
  { up [] with
    host := { HostSt.reset with busyWith := some ⟨hdr1, opATTEST, attp⟩ },
    boot := { BootSt.reset with configuring := false, aon := some aon0, attest := some (0x1000, [1, 2]) } }
def running : State :=
  { up [(TICK_STATUS.STATE, 3), (TICK_STEP.STEP, 55), (ERR_COUNT0.CORRECTED, 7), (PWR_SMB.ADDR, 0x5A)] with
    mem := [(0x1000, 5)] }
/-- RST_N is low from power-on. -/
def lowFresh (por : Bool) : State := { running with pwr := { PwrSt.reset with rstLow := true, fresh := true, por := por } }
def low : State := { running with pwr := { PwrSt.reset with rstLow := true } }
def cfgW (k : Nat) (x : Option Aon) : State := { running with boot := { BootSt.reset with kind := k, aon := x } }
def gs : State := rs 0 vregs [(EXN_GATE.GATE 5 2, 3), (EXN_GATE.CLASS 5 2, 4), (EXN_GATE.TENSOR_ID 5 2, 6)]
def rootSeq (g : Bool) : State := { sealedRun [] [] with root := { RootSt.reset with runs := [⟨0, g, 0, 0, 0, false, 0, false⟩] } }
def solRun : SolveRun := ⟨2, 0, false, 0, 0, 0, 0, 0, 0, 0, false, false, false, false, 0, 0, [], []⟩
def solSeq : State := { sealedRun [] [] with sol := ⟨[solRun], []⟩ }

/-! ### Lists with no entry -/

/-- The bases of the lists of bank A, with no position active. -/
def listBases : List Nat :=
  (List.range 64).map (bankBase .row · 0) ++ (List.range 8).map (bankBase .port · 0) ++
    (List.range 16).map (bankBase .update · 0) ++ [bankBase .root 0 0, bankBase .krylov 0 0]

/-- A header of no entry for a step of one tick (R24), its nonzero bytes. -/
def headerAt (a : Nat) : List Host.Cell := [(a + 2, 0x10), (a + 8, 1), (a + 12, 1), (a + 15, 203)]

/-- Every list of bank A empty, sealing under way. -/
def sealing : State :=
  { (w [(TICK_STATUS.SEALING, 1)]).updTick fun t => { t with sealing := some 0, sealLoad := true, loaded := true } with
    mem := listBases.flatMap headerAt }

/-! ### The states of the witnesses, named for the statement that first uses them -/

def sStepRunsTheFrontCommandOrIdles1 : State := {w [] with pending := [.idcode]}
def sStepRunsTheFrontCommandOrIdles2 : State := w []
def sRefusedRegisterWritesHaveNoEffect2 : State := w [(ERR_STATUS.DEVICE_DEAD,1)]
def sFieldsObeyTheirAccessCodes5 : State := tickSt [] fun t => {t with loaded := true}
def sSealDoneSealsOrFaults2 : State := (w [(TICK_STATUS.SEALING,1)]).updTick fun t => {t with sealing := some 0, sealLoad := true, loaded := true}
def sTickControlRequestsTakeEffect1 : State := w [(TICK_STATUS.STATE,3)]
def sTickControlRequestsTakeEffect2 : State := w [(TICK_STATUS.STATE,2)]
def sTickControlRequestsTakeEffect4 : State := w [(TICK_STATUS.STATE,2), (TICK_STATUS.SEALED_B,1),
  (TICK_PHASE_STEP.AT_STEP,9)]
def sTickControlRequestsTakeEffect5 : State := w [(TICK_STATUS.STATE,2), (TICK_STATUS.SEALED_B,1),
  (TICK_PHASE_STEP.AT_STEP,1)]
def sTickControlRequestsTakeEffect7 : State := w [(TICK_STATUS.STATE,2), (TICK_PHASE.ARM,1)]
def sTickControlRequestsTakeEffect8 : State := (w [(TICK_STATUS.STATE,3),(TICK_STATUS.SEALED_A,1)]).updTick fun t => {t with loaded:= true, startPend := true}
def sStartAndDryFitWaitForTheSquareUp1 : State := w [(TICK_STATUS.STATE,1), (FAB_TREE.CHILDREN,2)]
def sStartAndDryFitWaitForTheSquareUp2 : State := w [(TICK_STATUS.STATE,1), (TICK_STATUS.SEALED_B,1),
  (FAB_TREE.CHILDREN,2)]
def sBankWritesUnsealOrAreLogged1 : State := w [(TICK_STATUS.STATE,1), (TICK_STATUS.SEALED_B,1),(TICK_PHASE.ARM,1)]
def sBankWritesUnsealOrAreLogged2 : State := (w [(TICK_STATUS.STATE,1)]).updTick fun t => {t with loaded:=true}
def sDebugReadAndRootRecordWrite1 : State := w [(TICK_STATUS.STATE,3), (ACC_DEBUG.ENABLE 1, 1)]
def sDebugReadAndRootRecordWrite3 : State := w [(TICK_STATUS.STATE,1)]
def sDebugReadAndRootRecordWrite4 : State := w [(TICK_STATUS.STATE,1),(ROOT_REC_INDEX.WORD,1),(ROOT_REC_INDEX.DESC,5)]
def sTicksBegin1 : State := w run4
def sTicksBegin2 : State := (w run4).updTick fun t => {t with tickZeroAt := some 99}
def sTickCloses1 : State := inTick []
def sTickCloses2 : State := inTick [(THERM_STRETCH.Q,1)]
def sTickCloses3 : State := (inTick []).updTick fun t => {t with recovery := [(.row, 3, 1)], busy := [busy1 .row 3 1 7 99 true []]}
def sTickCloses4 : State := (inTick []).updTick fun t => {t with busy := [busy1 .row 3 1 7 99 true []]}
def sStretchedTicksClose1 : State := inTick [(TICK_STATUS.STRETCHING,1)]
def sStretchedTicksClose2 : State := (inTick [(TICK_STATUS.STRETCHING,1)]).updTick fun t => {t with busy := [busy1 .cluster 3 2 7 99 true []]}
def sStretchNoticesLengthenOrFreeze1 : State := inTick [(FAB_TREE.CHILDREN,6),(TICK_COUNT.COUNT,5)]
def sStretchNoticesLengthenOrFreeze3 : State := (inTick []).updTick fun t => {t with freeze := 7}
/-- The engines that entries occupy, the quadrants of an array apart. -/
def engines : List (UnitKind × Nat) :=
  [(.cluster, 1), (.cluster, engFin), (.cluster, engTap), (.port, engEgress), (.port, engIngress), (.port, engMover),
    (.update, engUpd), (.row, engCall), (.root, engRoot), (.krylov, engSolve)]
/-- Unit 0 of every kind has all its engines busy. -/
def allBusy : State := (sealedRun [] []).updTick fun t => { t with busy := engines.map fun e => busy1 e.1 0 e.2 7 999 true [] }
/-- Quadrant 2 of cluster 3 is busy. -/
def quadBusy : State := (sealedRun [] []).updTick fun t => { t with busy := [busy1 .cluster 3 18 7 999 true []] }
def sCompletionsFreeTheEngine1 : State := waiting .cluster 3 1 [5,6,7,8] []
def sCompletionsFreeTheEngine2 : State := waiting .cluster 3 18 [5,6,7,8] []
def sCompletionsFreeTheEngine3 : State := waiting .cluster 3 engFin [0x200,4,9] [(FIN_STATUS.BUSY 3,1)]
def sCompletionsFreeTheEngine4 : State := waiting .cluster 3 engFin [0x202] [(FIN_STATUS.BUSY 3,1)]
def sCompletionsFreeTheEngine5 : State := waiting .cluster 3 engTap [4] [(GAU_STATUS.TAPPING 3,1)]
def sCompletionsFreeTheEngine6 : State := waiting .port 3 engEgress [4] []
def sCompletionsFreeTheEngine7 : State := waiting .port 3 engMover [4096] []
def sCompletionsFreeTheEngine8 : State := waiting .update 3 engUpd [4] [(UPD_STATUS.OP 3,1),(UPD_STATUS.BUSY 3,1)]
def sCompletionsFreeTheEngine9 : State := waiting .update 3 engUpd [4] [(UPD_STATUS.OP 3,2),(UPD_STATUS.BUSY 3,1)]
def sCompletionsFreeTheEngine10 : State := waiting .update 3 engUpd [4] [(UPD_STATUS.OP 3,3),(UPD_STATUS.BUSY 3,1)]
def sFinisherAndTapEntries1 : State := sealedRun [] []
def sFinisherAndTapEntries2 : State := sealedRun [] [(veneerBase 3 + 200, 5)]
/-- The bytes of a bank-A array descriptor 0 of cluster 3 that asks for quadrant 2. -/
def quadMem : List Host.Cell := Memory.writeBytes [] (veneerBase 3 + 24) (leBytes 8 (2 ^ 15 + 2 ^ 19))
def sArrayOperationsFormTheirTotals2 : State := sealedRun [] quadMem
/-- The bytes of a bank-A array descriptor 0 of cluster 3 for a plain product of FP16 matrices, 1 by 2 and 2 by 1, and
the matrices (3, 2) and (1, −1). -/
def plainMem : List Host.Cell :=
  let v := veneerBase 3
  [(v + 4096, leBytes 2 0x4200 ++ leBytes 2 0x4000), (v + 8192, leBytes 2 0x3C00), (v + 8256, leBytes 2 0xBC00)].foldl
    (fun m e => Memory.writeBytes m e.1 e.2) (Memory.writeBytes [] v ([4096 + 8192 * 2 ^ 32, 12288,
      1 + 2 * 2 ^ 20 + 2 ^ 40, 2 + 2 * 2 ^ 5 + 2 ^ 32 + 2 ^ 48, 0, 64 + 64 * 2 ^ 24 + 2 ^ 48, 64, 0].flatMap (leBytes 8)))
def sArrayOperationsFormTheirTotals3 : State := sealedRun [] plainMem
def sFinisherAndTapEntries3 : State := sealedRun [(TICK_STEP.STEP, 1)] []
/-- One shard, which takes part in the norm. -/
def normMem : List Host.Cell := Memory.writeBytes [] 128 (((2 + 2 ^ 37) :: shardWords.drop 1).flatMap (leBytes 8))
def sUpdateEntriesWriteTheirShards2 : State :=
  sealedRun [(UPD_TBL_A.ADDR, 1), (UPD_TBL_A.COUNT, 1), (UPD_NORM_BASE.ADDR, 0x4000), (UPD_CHK_BASE.ADDR, 0x8000)] normMem
def slot0 : ChkSlot := ⟨0, 77, 1, 0⟩
def sBarriersAndTheErrorCheck8 : State := released (vErr 1 false) [(TICK_STATUS.DRY,1)]
def sBarriersAndTheErrorCheck1 : State := gl 3 [(FAB_TREE.CHILDREN,6)]
def sBarriersAndTheErrorCheck2 : State := ((gl 3 [(FAB_TREE.CHILDREN,2),(FAB_TREE.PARENT,0)])).updTick fun t => {t with actDone := true}
def sBarriersAndTheErrorCheck3 : State := ((gl 2 [(FAB_TREE.CHILDREN,2),(FAB_TREE.PARENT,0)])).updTick fun t => {t with sent := true}
def sBarriersAndTheErrorCheck4 : State := released v0 []
def sBarriersAndTheErrorCheck5 : State := released (vErr 2 false) []
def sBarriersAndTheErrorCheck6 : State := released (vErr 1 false) [(FAB_TREE.CHILDREN,2)]
def sBarriersAndTheErrorCheck7 : State := {released (vErr 1 true) [(FAB_TREE.CHILDREN,2),(TICK_STATUS.SEALED_A,1)] with err := {ErrSt.reset with parityHere := true}}
def sChecksumsAreExchangedAndCompared1 : State := repl [] (glue 3) UpdSt.reset
def sChecksumsAreExchangedAndCompared2 : State := repl [] (glue 2) UpdSt.reset
def sChecksumsAreExchangedAndCompared3 : State := repl [] (glue 3) {UpdSt.reset with sent := true, peerCrcs := [(5,1,77,9)]}
def sMismatchesAreResolved1 : State := repl [] (fun t => {glue 3 t with mismatch := true}) {UpdSt.reset with sent := true, peerCrcs := [(5,1,77,0)], repairs := [(77,0)]}
def sMismatchesAreResolved2 : State := repl [] (fun t => {glue 3 t with mismatch := true}) {UpdSt.reset with sent := true, peerCrcs := [(5,1,77,4)], repairs := [(77,0)]}
/-- Devices 5 and 6 hold replicas of the shard too. -/
def repl3 (u : UpdSt) : State :=
  let m := Memory.writeBytes shardMem 0x1000 (leBytes 16 (1 + 2 * 2 ^ 16 + 5 * 2 ^ 20 + 6 * 2 ^ 32))
  { repl [] (fun t => { glue 3 t with mismatch := true }) { u with sent := true, repairs := [(77, 0)] } with mem := m }
/-- Both hold 4: they are the majority. -/
def sMismatchesAreResolved4 : State := repl3 { UpdSt.reset with peerCrcs := [(5, 1, 77, 4), (6, 1, 77, 4)] }
/-- This device and device 5 hold 0: they are. -/
def sMismatchesAreResolved5 : State := repl3 { UpdSt.reset with peerCrcs := [(5, 1, 77, 0), (6, 1, 77, 4)] }
/-- The device's gather has gone to its parent, with no majority found here or elsewhere. -/
def released3 (n : Bool) : State :=
  repl [(FAB_TREE.PARENT, 0)] (fun t => { glue 3 t with mismatch := true, sent := true }) { UpdSt.reset with noMajority := n }
def vMismatch : Verdict := { v0 with mismatch := true }
def sMismatchesAreResolved3 : State := {repl [] (fun t => {glue 3 t with mismatch := true}) {UpdSt.reset with sent := true, peerCrcs := [(5,1,77,4)], repairs := [(77,0)]} with poison := []}
def sCommitAdvancesTheStep1 : State := repl [(ERR_LADDER.ATTEMPT,2)] (glue 4) UpdSt.reset
def sCommitAdvancesTheStep2 : State := repl [(TICK_STATUS.STATE,3),(ERR_STATUS.COMMIT_READY,1)] (glue 0) UpdSt.reset
def sDryFitCommitsNothing1 : State := repl [(TICK_STATUS.STATE,1),(TICK_STATUS.DRY,1)] (glue 4) UpdSt.reset
/-- A permutation table of four entries: two to this device, 64 bytes to LPDDR and 128 to the veneer of cluster 1, and two to
device 5, of 64 and of 320 bytes. -/
def permMem : List Host.Cell :=
  Memory.writeBytes (Memory.writeBytes [] 0x8000 ([0x1000, 0x2000, 64 * 2 ^ 12, 0, 0x1040, 2 ^ 48 + 2 ^ 24, 128 * 2 ^ 12, 0,
    0x1100, 0x2000, 5 + 64 * 2 ^ 12, 0, 0x1140, 0x2040, 5 + 320 * 2 ^ 12, 0].flatMap (leBytes 8))) 0x1000 (List.range 200)
def sPermutationRunsOrFails1 : State :=
  let s := gl 5 ([(FAB_PERM_TBL.COUNT, 4), (FAB_PERM_TBL.ADDR, 0x400), (FAB_SLICE.ID, 3), (LNK_STATUS.STATE 1, 2),
    (LNK_SLICE.FENCE 1, 0), (LNK_SLICE.SLICE 1, 3)] ++ (List.range 8).map fun k => (LNK_RTBL.OUT k 0 5, 1))
  { s with mem := permMem, active := 2 ^ nPhys - 1 }
/-- Two arrivals of one port, which complete the 67 bytes that are expected. -/
def permIns : List PermIn := [⟨0x3000, false, [1, 2, 3], 2⟩, ⟨2 * 2 ^ 24, true, List.range 64, 2⟩]
def sPermutationRunsOrFails2 : State :=
  { upl [(FAB_PERM.RUNNING, 1), (FAB_TREE.CHILDREN, 2), (FAB_PERM_IN.IN_BYTES, 67), (FAB_PERM_TBL.COUNT, 4),
    (FAB_PERM_TBL.ADDR, 0x400)] with mem := permMem, active := 2 ^ nPhys - 1, tick := glue 5 (inTick []).tick }
def sPhaseChangeAndActionSeven1 : State := (gl 6 [(FAB_TREE.CHILDREN,2)]).updTick fun t => {t with phaseOk := true, sealedAll := true}
def sPhaseChangeAndActionSeven2 : State := (gl 6 [(FAB_TREE.CHILDREN,2)]).updTick fun t => {t with phaseOk := true, sealedAll := false}
def sPhaseChangeAndActionSeven3 : State := (gl 7 [(FAB_TREE.CHILDREN,2)]).updTick fun t => {t with haltPend := true}
def sPhaseChangeAndActionSeven4 : State := gl 7 [(FAB_TREE.CHILDREN,2),(BCP_INBOX_TBL.COUNT,1)]
def sPhaseChangeAndActionSeven5 : State := gl 7 [(FAB_TREE.CHILDREN,2)]
def sSquareUpGathersAndGoes1 : State := gl 8 [(FAB_TREE.CHILDREN,6)]
def sSquareUpGathersAndGoes2 : State := (gl 8 [(FAB_TREE.CHILDREN,6),(FAB_TREE.PARENT,0),(FAB_SQUP.LEAD_CC,400)]).updTick fun t => {t with sent:= true, firstSquareUp := true}
def sWatchdogNoticesAndQueuedErrors3 : State := inTick [(FAB_TREE.CHILDREN,6)]
def sWatchdogNoticesAndQueuedErrors4 : State := queued 1
def sWatchdogNoticesAndQueuedErrors5 : State := queued 2
def sSpareSwapReplacesACluster1 : State := sp []
def sSpareSwapReplacesACluster2 : State := { sp [] with good := 2 ^ 32 - 1 }
def sSpareSwapReplacesACluster3 : State := sp [(TICK_STATUS.STATE,2)]
def sSpareSwapReplacesACluster4 : State := {sp [(TICK_STATUS.STATE,0),(ERR_SWAP.BUSY,1),(FAB_TREE.CHILDREN,2)] with err := {ErrSt.reset with swaps := [3]}}
def sErrorBlockRequestsAndInjection1 : State := inTick [(ERR_LOG_STATUS.TOTAL,4),(ERR_COUNT0.CORRECTED,5)]
def sErrorBlockRequestsAndInjection4 : State := (inTick [(ERR_INJECT.ARM,1)]).updTick fun t => {t with injectLive := true}
def sErrorBlockRequestsAndInjection5 : State := (inTick [(ERR_INJECT.ARM,1),(ERR_INJECT.CLASS,1),(ERR_INJECT.SCOPE,2)]).updTick fun t => {t with injectLive := true}
def sErrorBlockRequestsAndInjection6 : State := inTick [(ERR_INJECT.ARM,1)]
def sArmsOfTheUpdateUnitsAndFabric3 : State := repl [(TICK_STATUS.STATE,1)] (fun t => t) {UpdSt.reset with regenPend := true}
def sArmsOfTheUpdateUnitsAndFabric4 : State := w [(UPD_EXPORT_STEP.AT_STEP,5)]
def sArmsOfTheUpdateUnitsAndFabric5 : State := w [(UPD_EXPORT_STEP.AT_STEP,0)]
def sArmsOfTheUpdateUnitsAndFabric7 : State := w [(UPD_EXPORT.ARM,1)]
def sArmsOfTheUpdateUnitsAndFabric9 : State := w [(FAB_SLICE.SIZE,600)]
def sArmsOfTheUpdateUnitsAndFabric10 : State := w [(FAB_PERM.ARM,1)]
def sArmsOfTheUpdateUnitsAndFabric11 : State := w [(FAB_PERM.CONFIRMED,1)]
def sFramesAreCheckedForwardedOrLanded1 : State := upl []
def sFramesAreCheckedForwardedOrLanded3 : State := upl [(LNK_RTBL.OUT 2 1 1, 1)]
def sReplayAndLinkFaults1 : State := lk lk3 []
def sReplayAndLinkFaults2 : State := lk {Link.reset with rxUnacked := 2, rxSeq := 5} []
def sReplayAndLinkFaults3 : State := lk {Link.reset with event := some (3,4,5)} []
def sReplayAndLinkFaults6 : State := upl [(DET_MODE.STRICT,1)]
def sTrainingBringsAPortUp1 : State := upl [(TICK_STATUS.STATE,0)]
def sTrainingBringsAPortUp4 : State := upl [(TICK_STATUS.STATE,0),(LNK_STATUS.REROUTED 2,1)]
def sTrainingBringsAPortUp5 : State := upl [(LNK_STATUS.STATE 2,1)]
def sBitErrorsAreCountedAndWarned2 : State := upl [(LNK_BER.THRESH 2, 2)]
def sClockSourcesSwitchAndRelock2 : State := w [(FAB_SYNT.LOCKED,1)]
def sClockSourcesSwitchAndRelock3 : State := w [(FAB_SYNT.SRC,1),(FAB_SYNT.ALT_SRC,2),(LNK_STATUS.STATE (syntPort
  2),2)]
def sClockSourcesSwitchAndRelock4 : State := w [(FAB_SYNT.SRC,1),(FAB_SYNT.ALT_SRC,2)]
def sClockSourcesSwitchAndRelock5 : State := inTick [(FAB_SYNT.HOLDOVER,1)]
def sClockSourcesSwitchAndRelock7 : State := (inTick []).updTick fun t => {t with loaded := true}
def sClockSourcesSwitchAndRelock8 : State := {inTick [] with boot := {BootSt.reset with configuring := false}}
def sClockSourcesSwitchAndRelock9 : State := w [(CLK_STATUS.PLL_LOCK,1)]
def sScrubsAndInitialisation1 : State := {w [(VNR_SCRUB.ENABLE,1),(VNR_STATUS.INIT_DONE,1)] with good := 8}
def sScrubsAndInitialisation4 : State := w [(MEM_CFG.SCRUB_EN 2,1),(MEM_STATUS.STATE 2,1)]
def sScrubsAndInitialisation6 : State := {(w []) with mem := [(5,5),(veneerBase 0 + 7, 7)]}
def sScrubsAndInitialisation7 : State := {(w []) with mem := [(5,5),(lpddrWindow * 2 + 7, 7)]}
def sRefreshOverrunExcuses2 : State := w [(MEM_TEMP.REFRESH_MULT 2,4)]
def sEthernetPortAnswers1 : State := up []
def sEthernetPortAnswers2 : State := up [(ETH_IPV4.ADDR,77)]
def sEthernetPortAnswers5 : State := up [(ETH_CFG.PFC_EN,1)]
def sRdmaAndPushAcknowledgements1 : State := upQp []
def sRdmaAndPushAcknowledgements3 : State := {upQp [] with mem := [(0x1001,7)]}
def sRdmaAndPushAcknowledgements6 : State := upQp [(ETH_RDMA.RETRY,0)]
def sRdmaAndPushAcknowledgements7 : State := upQp [(ETH_RDMA.RETRY,3)]
def sSessionsOpenAndClose2 : State := {srv [] opHELLO [1,1] with host := {HostSt.reset with queue := [⟨hdr1, opHELLO, [1,1]⟩]}}
def sSessionsOpenAndClose3 : State := srv [] opBYE []
def readp : List Nat := leBytes 8 tickBase ++ leBytes 2 3
/-- Three words: two to the last registers of the sensors' block, and one past it. -/
def writea : Nat := pwrBase + 0x310
def writep : List Nat := leBytes 8 writea ++ leBytes 2 3 ++ [7, 8, 9].flatMap (leBytes 8)
def sRegisterRequestsComplete1 : State := srv [] opREG_READ readp
def sRegisterRequestsComplete2 : State := srv [] opREG_WRITE writep
def sSetupAndJobRequests1 : State := {srv [] opSETUP_COPY cpy with mem := [(0x1003,9)]}
def sSetupAndJobRequests2 : State := {srv [] opSETUP_COPY cpy with host := {HostSt.reset with sessions := [⟨1,1,8,[]⟩], busyWith := some ⟨hdr1, opSETUP_COPY, cpy⟩}}
def sSetupAndJobRequests4 : State := srv [(TICK_STATUS.STATE,1),(FAB_TREE.CHILDREN,2)] opJOB_START []
def sSetupAndJobRequests5 : State := srv [(TICK_STATUS.STATE,2),(FAB_TREE.CHILDREN,2)] opJOB_HALT []
def sSetupAndJobRequests6 : State := srv [(TICK_STATUS.STATE,1),(FAB_TREE.CHILDREN,2)] opJOB_UNLOAD []
def sSetupAndJobRequests7 : State := srv [(TICK_STATUS.STATE,1),(TICK_STATUS.SEALED_B,1),(FAB_TREE.CHILDREN,2)]
  opDRY_FIT [1]
def sSetupAndJobRequests8 : State := srv [(TICK_STATUS.STATE,2),(BCP_INBOX_TBL.COUNT,1),(BCP_INBOX_TBL.DEPTH,3)]
  opINPUT_READY ir
def sQueuePairsEventsAndStop1 : State := srvQp [] opQP_DESTROY (leBytes 4 2)
def sQueuePairsEventsAndStop2 : State := srvQp [] opOUTBOX_BIND ob
def sQueuePairsEventsAndStop3 : State := srvQp [] opSUBSCRIBE sap
def sQueuePairsEventsAndStop6 : State := srvQp [] opSTOP []
def sRecordsAttestationAndMeasurement1 : State := withAon (srv [] opRECORD_WRITE recp)
/-- A record write is at its first sector of `n`; `failed` says that PWR_FAIL_N asserted. -/
def writing (n : Nat) (failed : Bool) : State :=
  { withAon (srv [] opRECORD_WRITE recp) with boot := { BootSt.reset with aon := some aon0, write := some (wr0 n failed) } }
def sRecordsAttestationAndMeasurement4 : State := withAon (srv [] opATTEST attp)
def sRecordsAttestationAndMeasurement8 : State := w [(DET_PROV_BASE.ADDR,2)]
def sRecordsAttestationAndMeasurement9 : State := w [(DET_STATE_CTRL.BUSY,1)]
def sRecordsAttestationAndMeasurement10 : State := { w [(DET_PROV_BASE.ADDR,2), (DET_PROV_STATUS.SIGNING, 1)] with det := { DetSt.reset with signing := some (3, 3) }}
def sResetsKeepWhatTheirKindKeeps11 : State := cfgW 2 (some aon0)
def sResetsKeepWhatTheirKindKeeps12 : State := cfgW 1 none
def sStopWakeManagementBusAndTap1 : State := pw [] fun p => { p with power := .entering }
def sStopWakeManagementBusAndTap2 : State := pw [] fun p => { p with power := .entering, wakePend := true }
def sStopWakeManagementBusAndTap3 : State := pw [(PWR_SMB.ADDR, 0x5A)] fun p => { p with power := .stop }
def sStopWakeManagementBusAndTap4 : State := pw [(PWR_SMB.ADDR, 0x5A)] fun p => { p with power := .waking }
def sStopWakeManagementBusAndTap5 : State := pw [(PAD_HOLD.HELD, 1)] id
def sStopWakeManagementBusAndTap6 : State := pw [(PWR_SMB.ADDR, 0x5A)] id
def sStopWakeManagementBusAndTap8 : State := pw [(PWR_SMB.ADDR, 0x5A), (CFG_STATUS.STATE, 2)] id
def sStopWakeManagementBusAndTap9 : State := pw [] id
/-- A test has been cut off, one may hold the pins, and one may not. -/
def sTap1 : State := pw [] fun p => { p with tapCut := true }
def sTap2 : State := pw [(CFG_STATUS.STATE, 2)] id
def sTap3 : State := pw [] id
def sPinsRailsAndSensors0 : State := pw [] fun p => { p with rstLow := true }
def sPinsRailsAndSensors3 : State := pw [] fun p => { p with pfLow := true }
def sPinsRailsAndSensors9 : State := pw [(FAB_SQUP_CHK.ENABLE, 1), (FAB_SQUP_CHK.WIRE_CC, 9)] id
def sPinsRailsAndSensors11 : State := pw run4 id
def sPinsRailsAndSensors12 : State := pw [(PWR_LIMIT.WATTS, 900), (PWR_LIMIT.OPP_Q, 3)] id
def sPinsRailsAndSensors13 : State := pw [(PWR_LIMIT.WATTS, 900)] id
/-- Sensor 71 reads a temperature, the others 50 °C. -/
def at71 (n : Int) : List Int := List.replicate 71 50 ++ [n]
def sTripped : State := pw [] fun p => { p with power := .tripped, temps := at71 115 }
def sPinsRailsAndSensors14 : State := pw [(THERM_STATUS.LEVEL, 2)] id
def sPinsRailsAndSensors15 : State := pw [] fun p => { p with temps := List.replicate 72 110 }
def sPinsRailsAndSensors16 : State := pw run4 fun p => { p with temps := List.replicate 72 110 }
def sCallsAndTheServiceContext1 : State := cal run4 id
def sCallsAndTheServiceContext2 : State := cal (run4 ++ [(EXN_STATUS.CTX 5, 2)]) id
def sCallsAndTheServiceContext3 : State := cal run4 fun r => {r with faulted := true}
def sCallsAndTheServiceContext8 : State := cal (run4 ++ [(EXN_STATUS.CTX 5, 3), (EXN_STATUS.SUSPENDED 5,1)]) fun r => {r with events := [1,2]}
def sCallsAndTheServiceContext11 : State := {V0 with rows := [(5, ⟨some ⟨3, 10, 500, false⟩, false, List.replicate 64 2⟩)] }
def sQueuePairsEventsAndStop7 : State := srvQp [] opQP_CREATE qap
def sRootAndSolverSequences4 : State := rootSeq true

/-! ### Well-formedness -/

def okIssue : Issue := ⟨3, 8191, 65535, 1048575, 1048575, 65535, 65535, 255⟩

/-- Each check of an entry refuses a field beyond its width. -/
theorem test_entry_fields :
    okIssue.wf .row = true ∧
      [Issue.wf .row { okIssue with idx := 64 }, Issue.wf .row { okIssue with entry := 8192 },
        Issue.wf .row { okIssue with tick := 65536 }, Issue.wf .row { okIssue with startCc := 1048576 },
        Issue.wf .row { okIssue with busyCc := 1048576 }, Issue.wf .row { okIssue with desc := 65536 },
        Issue.wf .row { okIssue with tag := 65536 }, Issue.wf .row { okIssue with arg := 256 },
        Issue.wf .cluster { okIssue with idx := 2176 }, Issue.wf .port { okIssue with idx := 8 },
        Issue.wf .update { okIssue with idx := 16 }, Issue.wf .root { okIssue with idx := 1 },
        Issue.wf .krylov { okIssue with idx := 1 }].all (!·) = true := by decide +kernel

/-- Each check of what an instruction of a row carries refuses an operand beyond its field. -/
theorem test_instruction_fields :
    [Instr.integerOp 63 .add 31 31 31 0 [], .vld 63 ⟨64, 31, some 7, none⟩ 31 31 [], .load 0 8 false 63 31 0xFFFF [],
      .csrRead 0 31 0xFFF []].all Instr.wf = true ∧
    [Instr.integerOp 64 .add 1 2 3 0 [], .integerOp 0 .add 32 2 3 0 [], .integerOp 0 .add 1 32 3 0 [],
      .integerOp 0 .add 1 2 32 0 [],
      .integerOp 0 .add 1 2 3 (2 ^ 32) [], .multiplyDivide 0 .mulLo 32 0 0 [], .branch 0 .eq 0 0 0 (2 ^ 18) [],
        .load 0 3 false 0 0 0 [],
      .load 0 8 false 64 0 0 [], .store 0 8 0 64 0 [], .store 0 16 0 0 0 [], .floatOp 0 .add true 0 0 0 32 [],
        .conversion 0 ⟨.f64, .i32⟩ 4 0 0 [],
      .csrRead 0 0 4096 [], .csrWrite 0 32 0 [], .lanes 0 24 1 [], .exenoSArith 0 .add 12 0 0 0 0 [],
        .exenoSLane 0 .lins 32 0 0 0 16 [],
      .vld 0 ⟨24, 0, none, none⟩ 0 0 [], .vld 0 ⟨32, 32, none, none⟩ 0 0 [], .vld 0 ⟨32, 0, some 8, none⟩ 0 0 [],
      .vmerge 0 ⟨32, 0, none, none⟩ 0 0 0 8 [], .vlw 0 ⟨32, 0, none, none⟩ 11 0 0 [], .vsg 0 ⟨32, 0, none,
        none⟩ 0 0 0 16 [],
      .vlx 0 ⟨32, 0, none, none⟩ 0 0 32 []].all (!·.wf) = true := by decide +kernel

/-- Each check of what comes from outside refuses a number or a length beyond its field. -/
theorem test_outside_fields :
    [Instr.bcpDatagram ⟨org, 0, some (4095, 7), 1, [255]⟩, .hello hdr1 255 255, .frameArrive 7 0 fg,
      .rdmaWrite (rw 20 5 [1])].all Instr.wf = true ∧
    [Instr.bcpDatagram ⟨org, 0, none, 2, [255]⟩, .bcpDatagram ⟨org, 0, none, 1, [256]⟩,
      .bcpDatagram ⟨org, 2 ^ 48, none, 0, []⟩, .bcpDatagram ⟨org, 0, some (4096, 0), 0, []⟩,
      .bcpDatagram ⟨org, 0, some (0, 8), 0, []⟩, .bcpDatagram ⟨{ org with ip := 2 ^ 128 }, 0, none, 0, []⟩,
      .bcpDatagram ⟨{ org with port := 65536 }, 0, none, 0, []⟩, .bcpDatagram ⟨{ org with mac := 2 ^ 48 }, 0, none, 0, []⟩,
      .hello { hdr1 with version := 256 } 1 1, .hello { hdr1 with seq := 2 ^ 64 } 1 1, .hello { hdr1 with session := 2 ^ 64 } 1 1,
      .hello hdr1 256 1, .hello hdr1 1 256, .frameArrive 8 0 fg, .frameArrive 0 0 { fg with seq := 2 ^ 24 },
      .frameArrive 0 0 { fg with rsvd := 32 }, .frameArrive 0 0 { fg with payload := [256] }, .rdmaWrite (rw (2 ^ 24) 5 []),
      .rdmaWrite (rw 0 (2 ^ 32) []), .rdmaWrite (rw 0 5 [256]), .rdmaRead ⟨rh (2 ^ 24), 5, 0, 0⟩ [],
      .rdmaRead ⟨{ rh 0 with eth := { eth0 with src := 2 ^ 48 } }, 5, 0, 0⟩ [], .hostSend (2 ^ 32) 0,
      .qpCreate hdr1 { qa with mtu := 256 }, .qpCreate hdr1 { qa with rgid := 2 ^ 128 },
      .subscribe hdr1 { sa with port := 65536 }, .subscribe hdr1 { sa with addrs := [2 ^ 64] },
      .registerWrite (2 ^ 48) 8 0, .registerWrite 0 8 (2 ^ 64),
      .tickDryStart 256, .accDebugRead 2176, .ret 64 0 [], .sendComplete 8 0, .normComplete 16 0, .lpddrScrub 16 0 none false,
      .lnkTrain 8, .mr4Over 0 8, .railFault 7, .smbAddressMatch 128, .smbStop 256, .pfcPause 8 0, .errSwap 2176,
      .roceAck 2 (2 ^ 24), .echoRequest eth0 0 false [256], .checksumFrame 4096 0 0, .checksumFrame 0 0 0 65536,
      .barrierGather 0 9 v0].all (!·.wf) = true := by decide +kernel

/-- The table gives its rows no bits, so no word spells a command. -/
theorem test_no_word_spells_a_command : decodeTableWord 32 0 = none ∧ State.reset.withFetchWord 32 0 =
  State.reset := ⟨rfl, rfl⟩

/-! ### Worked examples of the spec -/

/-- R49: the block 15.2, −5.2, 1.1, 0.3 in MX-E2M1, without headroom: scale 0x80; 6, −3, 0.5,
  0 with 15.2 overflowed, 1.1
subnormal and 0.3 flushed. -/
theorem test_mx_block :
    (fun r : Nat × List (Nat × Outcome5) => (r.1, r.2.take 4)) (convBlock fE2M1 (List.replicate 32 .rne) false false
      ([.fin false 152 0, .fin true 52 0, .fin false 11 0,
        .fin false 3 0].map fun v => Val.div v (.fin false 10 0))) =
    (0x80, [(0x7, .overflowed), (0xD, .plain), (0x1, .subnormal), (0x0, .flushed)]) := by decide +kernel

/-- The same block with headroom: scale 0x81; 4, −1.5, 0.5, 0. -/
theorem test_mx_block_headroom :
    (fun r : Nat × List (Nat × Outcome5) => (r.1, r.2.map (·.1))) (convBlock fE2M1 (List.replicate 4 .rne) true false
      ([.fin false 152 0, .fin true 52 0, .fin false 11 0,
        .fin false 3 0].map fun v => Val.div v (.fin false 10 0))) =
    (0x81, [0x6, 0xB, 0x1, 0x0]) := by decide +kernel

/-- R52: 0x3F805000 goes to BF16 as 0x3F80 below the draw 0xB0000000 and as 0x3F81 from it on. -/
theorem test_stochastic_rounding :
    conv fBF16 (.sr 0xAFFFFFFF) true false (decode fFP32 0x3F805000) = (0x3F80, .plain) ∧
      conv fBF16 (.sr 0xB0000000) true false (decode fFP32 0x3F805000) = (0x3F81, .plain) := by decide +kernel

/-- R110: 2^64 times 2^64 saturates an FP32 total at 0x7F7FFFFF. -/
theorem test_total_saturates :
    (fun r : Total × Bool × Bool => (rne fFP32 r.1.val, r.2.1)) (promote fFP32 Total.init (.fin false 1 128) false) =
      (0x7F7FFFFF, true) := by decide +kernel

/-- R75: the MX-E2M1 product of 64 by 512 by 256 takes 2,288 cc, and 368 cc with K = 32. -/
theorem test_array_duration :
    (State.reset.arrTime 0 { arrDescOf [] with m := 64, k := 512, n := 256, aFmt := 8, bFmt := 8, mBlk := 64, batch := 1 } none true).duration = 2288 ∧
      (State.reset.arrTime 0 { arrDescOf [] with m := 64, k := 32, n := 256, aFmt := 8, bFmt := 8, mBlk := 64, batch := 1 } none true).duration = 368 :=
  by decide +kernel

/-- R264: a move of 991,232 bytes between LPDDR and veneer takes 17,052 cc. -/
theorem test_move_duration : (MoveDesc.mk 0 0 991232 1 0 0 false true).cc = 17052 := by decide +kernel

/-- R248: the region of the cluster at row 5, pcol 17. -/
theorem test_region_base : veneerBase (5 * 34 + 17) = 0x01002EC00000 := by decide +kernel

/-- The check value of CRC-32C, 0xE3069283 over the digits 1 to 9 (R358 names the polynomial). -/
theorem test_crc32c : crc32c [0x31, 0x32, 0x33, 0x34, 0x35, 0x36, 0x37, 0x38, 0x39] = 0xE3069283 := by decide +kernel

/-! ### The seal passes lists with no entry -/

theorem read_header {a x : Nat} {m : List Host.Cell} (h : x < a ∨ a + 16 ≤ x) :
    Memory.read (headerAt a ++ m) x = Memory.read m x := by
  have h1 : a + 2 ≠ x := by omega
  have h2 : a + 8 ≠ x := by omega
  have h3 : a + 12 ≠ x := by omega
  have h4 : a + 15 ≠ x := by omega
  simp [headerAt, Memory.read, Store.get, Store.find?, h1, h2, h3, h4]

theorem read_no_header {x : Nat} (l : List Nat) (h : ∀ b ∈ l, x < b) : Memory.read (l.flatMap headerAt) x = 0 := by
  induction l with
  | nil => rfl
  | cons b l ih => rw [List.flatMap_cons, read_header (.inl (h b (by simp))), ih fun c hc => h c (by simp [hc])]

/-- The bytes of one list's header among others. -/
theorem read_headers (l : List Nat) (a o : Nat) (ho : o < 16) (ha : a ∈ l)
    (hs : l.Pairwise fun b c => b + 16 ≤ c) : Memory.read (l.flatMap headerAt) (a + o) =
      Memory.read (headerAt a) (a + o) := by
  induction l with
  | nil => simp at ha
  | cons b l ih =>
    rw [List.pairwise_cons] at hs
    rw [List.flatMap_cons]
    by_cases hb : a = b
    · subst hb
      have h0 := read_no_header (x := a + o) l fun c hc => by have := hs.1 c hc; omega
      simp only [Memory.read, Store.get, headerAt, List.cons_append, List.nil_append, Store.find?] at h0 ⊢
      repeat' split
      all_goals first | rfl | exact h0
    · rcases List.mem_cons.1 ha with h | h
      · exact absurd h hb
      · rw [read_header (.inr (by have := hs.1 a h; omega)), ih h hs.2]

theorem header_words {a : Nat} (h : a ∈ listBases) (hs : listBases.Pairwise fun b c => b + 16 ≤ c) :
    Memory.rd (listBases.flatMap headerAt) a 8 = 0x100000 ∧
      Memory.rd (listBases.flatMap headerAt) (a + 8) 8 = 1 + 2 ^ 32 + 203 * 2 ^ 56 ∧
      checkOk (listBases.flatMap headerAt) a = true := by
  have r := fun o ho => read_headers listBases a o ho h hs
  have r0 := r 0 (by omega)
  simp only [Nat.add_zero] at r0
  refine ⟨?_, ?_, ?_⟩
  · simp only [Memory.rd, Memory.readBytes, Nat.add_assoc, Nat.reduceAdd, r0, r _ (by decide : 1 < 16),
    r _ (by decide : 2 < 16),
      r _ (by decide : 3 < 16), r _ (by decide : 4 < 16), r _ (by decide : 5 < 16), r _ (by decide : 6 < 16),
        r _ (by decide : 7 < 16)]
    simp [headerAt, Memory.read, Store.get, Store.find?, leNat]
  · simp only [Memory.rd, Memory.readBytes, Nat.add_assoc, Nat.reduceAdd, r _ (by decide : 8 < 16),
    r _ (by decide : 9 < 16),
      r _ (by decide : 10 < 16), r _ (by decide : 11 < 16), r _ (by decide : 12 < 16), r _ (by decide : 13 < 16),
      r _ (by decide : 14 < 16), r _ (by decide : 15 < 16)]
    simp [headerAt, Memory.read, Store.get, Store.find?, leNat]
  · have hr : (List.range 15).map (fun i => (Memory.read (listBases.flatMap headerAt) (a + i)).toNat) =
        [0, 0, 16, 0, 0, 0, 0, 0, 1, 0, 0, 0, 1, 0, 0] := by
      rw [List.map_congr_left (g := fun i => (Memory.read (headerAt a) (a + i)).toNat) fun i hi => by
        rw [r i (by have := List.mem_range.1 hi; omega)]]
      simp [List.range, List.range.loop, headerAt, Memory.read, Store.get, Store.find?]
    rw [checkOk, hr, r 15 (by decide)]
    simp [headerAt, Memory.read, Store.get, Store.find?]
    decide +kernel

/-- The scan at an empty list. -/
def noEntry : Scan := { Scan.start.newList with ticks := some 1 }

theorem listBases_rise : listBases.Pairwise fun b c => b + 16 ≤ c := by decide +kernel

theorem empty_list (u : UnitKind) (i : Nat) (last : Bool) (x : Scan) (hx : x = Scan.start ∨ x = noEntry)
    (hb : bankBase u i 0 ∈ listBases) (hu : (sealing.sealView 0).listEnd 0 u i last noEntry = none) :
    (sealing.sealView 0).sealList 0 u i last x = (none, noEntry) := by
  obtain ⟨h0, h1, h2⟩ := header_words hb listBases_rise
  have hm : (sealing.sealView 0).mem = listBases.flatMap headerAt := rfl
  have hz : 15 ≤ bankSize u / 16 := by cases u <;> decide
  have hh : (sealing.sealView 0).headerCode 0 u i x = none := by
    have hmaj : (sealing.sealView 0).get DEV_ABI.MAJOR = 1 := by decide +kernel
    simp only [State.headerCode, hm, h0, h1, h2, hmaj]
    simp only [bits, Nat.reduceAdd, Nat.reduceMul, Nat.reducePow, Nat.reduceDiv, Nat.reduceMod, Nat.reduceSub]
    rcases hx with rfl | rfl <;> simp [codes, lowestCode, Scan.start, noEntry]
  have he : entries (sealing.sealView 0).mem u i 0 = [] := by
    simp only [entries, entryCount, hm, h1]
    rfl
  have hn : { x.newList with ticks := some 1 } = noEntry := by rcases hx with rfl | rfl <;> rfl
  have ht : bits (Memory.rd (sealing.sealView 0).mem (bankBase u i 0 + 8) 8) 47 32 = 1 := by rw [hm, h1]; rfl
  rw [State.sealList, hh]
  simp only [he, ht, hn, State.sealEntries, hu]

theorem empty_bank (l : List (UnitKind × Nat × Bool)) (x : Scan) (hx : x = Scan.start ∨ x = noEntry)
    (hl : ∀ e ∈ l, bankBase e.1 e.2.1 0 ∈ listBases ∧ e.1 ≠ .cluster) :
    (sealing.sealView 0).sealAll 0 l x = none := by
  induction l generalizing x with
  | nil => rfl
  | cons e l ih =>
    obtain ⟨h1, h2⟩ := hl e (by simp)
    have he : (sealing.sealView 0).listEnd 0 e.1 e.2.1 e.2.2 noEntry = none := by
      unfold State.listEnd
      split
      · contradiction
      · split
        · have hz : (sealing.sealView 0).normSumFaults 0 = [] := by
            have hn : ((List.range 16).flatMap fun u =>
                (entries (sealing.sealView 0).sealedMem .update u 0).map fun e => (u, e)) = [] := by
              rw [List.flatMap_eq_nil_iff]
              intro u hu
              rw [List.map_eq_nil_iff]
              obtain ⟨-, h, -⟩ := header_words (a := bankBase .update u 0) (by
                simp only [listBases, List.mem_append, List.mem_map]
                exact .inl (.inr ⟨u, hu, rfl⟩)) listBases_rise
              have hm : (sealing.sealView 0).sealedMem = listBases.flatMap headerAt := rfl
              simp only [entries, entryCount, hm, h]
              rfl
            simp [State.normSumFaults, hn]
          simp [hz]
        · rfl
      · rfl
    rw [State.sealAll, empty_list e.1 e.2.1 e.2.2 x hx h1 he]
    exact ih noEntry (.inr rfl) fun f hf => hl f (by simp [hf])

theorem sealing_passes : sealing.sealFault 0 = none := by
  refine empty_bank _ _ (.inl rfl) ?_
  decide +kernel

/-- Elements below the count reach their places; it is enough to look at these. -/
theorem allReach_of {s : State} {r x : Nat} {v : VArgs} {lim n : Nat} {w : Bool} {off place : Nat → Nat}
    (h : ∀ k, k < s.vCount r x v lim → off k % n = 0 ∧ s.view r x (off k) n w = .mem (place k) ∧
      s.poisonIn (place k) n = []) : s.allReach r x v lim n w off place := by
  intro k hk
  simp only [State.partakes, Bool.and_eq_true, decide_eq_true_eq] at hk
  exact ⟨(h k hk.1.2).1, (h k hk.1.2).2.1, by simp [(h k hk.1.2).2.2]⟩

/-- What it takes for an entry to issue, as one check. -/
def turnB (s : State) (u : UnitKind) (i : Issue) : Bool :=
  decide (i.idx < u.count) && (u != .cluster || s.isActive i.idx) && s.running && s.tick.inTick && s.tick.freeze == 0 &&
    i.tick == s.get TICK_STATUS.TICK_IN_STEP && decide (s.tick.cc ≤ i.startCc) && decide (i.startCc < s.tickLen - s.kerf)

theorem turn_of {s : State} {u : UnitKind} {i : Issue} (h : turnB s u i = true) : Turn s u i := by
  simp only [turnB, Bool.and_eq_true, Bool.or_eq_true, bne_iff_ne, ne_eq, beq_iff_eq, decide_eq_true_eq] at h
  obtain ⟨⟨⟨⟨⟨⟨⟨h1, h2⟩, h3⟩, h4⟩, h5⟩, h6⟩, h7⟩, h8⟩ := h
  exact ⟨h1, fun e => h2.resolve_left (absurd e), h3, h4, h5, h6, h7, h8⟩

theorem idle_of {s : State} {u : UnitKind} {idx eng cc : Nat} (h : s.busyRec u idx eng = none) : Idle s u idx eng cc := by
  intro b hb
  simp [h] at hb

theorem ready_of {s : State} {u : UnitKind} {eng : Nat} {i : Issue}
    (h : (turnB s u i && (s.busyRec u i.idx eng).isNone) = true) : Ready s u eng i := by
  rw [Bool.and_eq_true, Option.isNone_iff_eq_none] at h
  exact ⟨turn_of h.1, idle_of h.2⟩

theorem arrReady_of {s : State} {eng : Nat} {i : Issue}
    (h : (turnB s .cluster i && s.tick.busy.isEmpty) = true) : ArrReady s eng i := by
  rw [Bool.and_eq_true, List.isEmpty_iff] at h
  have hb : ∀ u idx eng, s.busyRec u idx eng = none := by simp [State.busyRec, h.2]
  exact ⟨turn_of h.1, idle_of (hb ..), idle_of (hb ..), fun _ _ _ => idle_of (hb ..)⟩

/-- What it takes for a request to be served, as one check. -/
theorem served_of {s : State} {h : BcpHdr} {op : Nat} {p : List Nat} {q : List Request} (hq : s.host.queue = ⟨h, op, p⟩ :: q)
    (hb : (s.serves op && (s.sessionOf h).isSome && jobPermits op s.job) = true) : Served s h op p := by
  simp only [Bool.and_eq_true] at hb
  exact ⟨⟨q, hq⟩, hb.1.1, hb.1.2, hb.2⟩

/-- What it takes for a row to execute, as one check. -/
def rowB (s : State) (r x : Nat) : Bool :=
  decide (r < 64) && !s.dead && s.awake && !s.boot.configuring && s.tick.freeze == 0 &&
    ((x == 0 && s.get (EXN_STATUS.CTX r) == 1 && (s.row r).call.isSome) || (x == 1 && s.get (EXN_STATUS.CTX r) == 2))

theorem rowIn_of {s : State} {r x : Nat} (h : rowB s r x = true) : RowIn s r x := by
  simp only [rowB, Bool.and_eq_true, Bool.or_eq_true, Bool.not_eq_true', beq_iff_eq, decide_eq_true_eq] at h
  obtain ⟨⟨⟨⟨⟨h1, h2⟩, h3⟩, h4⟩, h5⟩, h6⟩ := h
  exact ⟨h1, h2, h3, h4, h5, h6.imp (fun h => ⟨h.1.1, h.1.2, h.2⟩) id⟩

theorem rowRuns_of {s : State} {r x : Nat} (h : (rowB s r x && s.pc r x % 4 == 0 &&
    (if x == 0 then decide (0x20000 + s.runBank * 0x10000 ≤ s.pc r x) && decide (s.pc r x < 0x30000 + s.runBank * 0x10000)
      else decide (s.pc r x < 0x20000))) = true) : RowRuns s r x := by
  simp only [Bool.and_eq_true, beq_iff_eq] at h
  refine ⟨rowIn_of h.1.1, h.1.2, fun e => ?_, fun e => ?_⟩ <;> subst e <;> simpa using h.2

/-- An erased flash reads 0xFF throughout. -/
theorem erased_bytes (off n : Nat) : flashBytes [] off n = List.replicate n 255 := by
  simp [flashBytes, Store.get, Store.find?, List.map_const']

theorem erased_field (n : Nat) (h : 8 ≤ n) : field (List.replicate n 255) 4 4 = 2 ^ 32 - 1 := by
  rw [field, List.drop_replicate, List.take_replicate, show min 4 (n - 4) = 4 by omega]
  decide

theorem erased_long (k : Nat) : 8 ≤ min slotSize (imageLen (flashBytes [] (slotOff k) 32)) :=
  Nat.le_min.2 ⟨by decide, Nat.le_add_right_of_le (Nat.le_add_right_of_le (Nat.le_add_right_of_le (by decide)))⟩

theorem erased_kind (k : Nat) : (field (imageAt [] k) 4 4 == 0) = false := by
  rw [imageAt, erased_bytes (slotOff k) (min _ _), erased_field _ (erased_long k)]
  decide

theorem erased_invalid (k : Nat) : imageValid (imageAt [] k) = false := by
  rw [imageValid, imageFormat]
  simp only [erased_kind, Bool.false_and]

/-- A flash without a valid image is not accepted. -/
theorem fromFlash_none {fl : List Host.Cell} (h : ∀ k, imageValid (imageAt fl k) = false) : fromFlash fl = none := by
  have hi : flashImage fl = none := by simp [flashImage, select, h]
  unfold fromFlash
  simp only [hi]

theorem erased_fails : fromFlash [] = none := fromFlash_none erased_invalid
/-- What it takes for the device to reach another, whichever table it uses for what it sends itself. -/
theorem routed_of {s : State} {dev o : Nat} (h : ∀ k < 8, s.get (LNK_RTBL.OUT k (dev / 8) (dev % 8)) < 8 ∧
    s.egress (s.get (LNK_RTBL.OUT k (dev / 8) (dev % 8))) (s.get (LNK_RTBL.ALT k (dev / 8) (dev % 8))) = some o ∧
    s.carries o (s.get FAB_SLICE.ID) = true) : Routed s dev o := h _ (Nat.mod_lt _ (by decide))

theorem V0_runs : RowRuns V0 5 0 := rowRuns_of (by decide +kernel)
theorem V1_runs : RowRuns V1 5 1 := rowRuns_of (by decide +kernel)
theorem gs_runs : RowRuns gs 5 0 := rowRuns_of (by decide +kernel)
/-- `s` with STRICT set. -/
def strict (s : State) : State := s.setAll [(DET_MODE.STRICT, 1)]

/-! ### Witnesses -/

/-- The hypotheses of `Obligations.StepRunsTheFrontCommandOrIdles`, clause by clause. -/
theorem witness_StepRunsTheFrontCommandOrIdles :
    (sStepRunsTheFrontCommandOrIdles1.pending = [Instr.idcode]) ∧
    (sStepRunsTheFrontCommandOrIdles2.pending = []) :=
  by and_intros <;> decide +kernel

/-- The hypotheses of `Obligations.EveryStepKeepsTheCanonicalForm`: a register write at the front of the queue. -/
theorem witness_EveryStepKeepsTheCanonicalForm :
    ({ w [] with pending := [.registerWrite TICK_DRY.BANK.addr 8 1] } : State).Inv ∧
    ∃ t, step { w [] with pending := [.registerWrite TICK_DRY.BANK.addr 8 1] } = .next t :=
  ⟨by unfold State.Inv Canon; decide +kernel, _, rfl⟩

/-- The hypothesis of `Obligations.CommandsLeaveTheQueueAlone`. -/
theorem witness_CommandsLeaveTheQueueAlone :
    ∃ t, exec .idcode { w [] with pending := [.idcode] } = .next t := ⟨_, rfl⟩

/-- The hypotheses of `Obligations.RegisterWriteStoresEveryField`, clause by clause. -/
theorem witness_RegisterWriteStoresEveryField :
    (sStepRunsTheFrontCommandOrIdles2.accepts = true ∧ (ACC_DBG_INDEX.WORD 3).addr % 8 = 0 ∧
      fieldsAt (ACC_DBG_INDEX.WORD 3).addr ≠ [] ∧
      sStepRunsTheFrontCommandOrIdles2.ownRule (ACC_DBG_INDEX.WORD 3).addr 5 = none ∧
      (∀ f ∈ fieldsAt (ACC_DBG_INDEX.WORD 3).addr, f.acc = Access.rw) ∧
      (List.map Fld.key (fieldsAt (ACC_DBG_INDEX.WORD 3).addr)).Nodup) :=
  by and_intros <;> decide +kernel

/-- The hypotheses of `Obligations.RefusedRegisterWritesHaveNoEffect`, clause by clause. -/
theorem witness_RefusedRegisterWritesHaveNoEffect :
    (sStepRunsTheFrontCommandOrIdles2.accepts = true ∧ (8 ≠ 8 ∨ 4 % 8 ≠ 0 ∨ fieldsAt 4 = [])) ∧
    (sRefusedRegisterWritesHaveNoEffect2.accepts = false ∧ 7 < 8) :=
  by and_intros <;> decide +kernel

/-- The hypotheses of `Obligations.FieldsObeyTheirAccessCodes`, clause by clause. -/
theorem witness_FieldsObeyTheirAccessCodes :
    (TICK_STATUS.STATE.acc = Access.ro) ∧
    ((ACC_DBG_INDEX.WORD 3).acc = Access.rw) ∧
    (TICK_FAULT.VALID.acc = Access.w1c) ∧
    (FAB_CFG.RATE.acc = Access.rwl ∧ sStepRunsTheFrontCommandOrIdles2.tick.loaded = false) ∧
    (FAB_CFG.RATE.acc = Access.rwl ∧ sFieldsObeyTheirAccessCodes5.tick.loaded = true ∧ FAB_CFG.RATE.of 2 =
      sFieldsObeyTheirAccessCodes5.get FAB_CFG.RATE) ∧
    (FAB_CFG.RATE.acc = Access.rwl ∧ sFieldsObeyTheirAccessCodes5.tick.loaded = true ∧
      FAB_CFG.RATE.of 18446744073709551615 ≠ sFieldsObeyTheirAccessCodes5.get FAB_CFG.RATE) ∧
    -- RW-L fields before and after the error block
    (∀ f ∈ [FAB_CFG.RATE, ERR_WDOG.GLUE_TIMEOUT, ETH_CFG.PCP, CLK_CFG.RATE, THERM_CFG.QMAX], f.acc = Access.rwl ∧ f.key ∉
      [ERR_COUNT0.CORRECTED.key, ERR_LOG_STATUS.TOTAL.key, ERR_LOG_STATUS.NEXT.key, ERR_LOG_STATUS.WRAPPED.key]) ∧
    ((TICK_CTRL.LOAD.acc = Access.wo ∨ TICK_CTRL.LOAD.acc = Access.w1s) ∧ TICK_CTRL.LOAD.of 0 = 0) :=
  by and_intros <;> decide +kernel

/-- The hypotheses of `Obligations.LoadBeginsTheSealOrIsRefused`, clause by clause. -/
theorem witness_LoadBeginsTheSealOrIsRefused :
    (loadable.accepts = true ∧ loadable.job = 0 ∧ loadable.tick.sealing = none ∧ loadable.cfgOk = true) ∧
    (sStepRunsTheFrontCommandOrIdles2.accepts = true ∧ sStepRunsTheFrontCommandOrIdles2.job = 0 ∧
      sStepRunsTheFrontCommandOrIdles2.tick.sealing = none ∧ sStepRunsTheFrontCommandOrIdles2.cfgOk = false) :=
  by and_intros <;> decide +kernel

/-- The hypotheses of `Obligations.SealDoneSealsOrFaults`, clause by clause. -/
theorem witness_SealDoneSealsOrFaults :
    (sealing.tick.sealing = some 0 ∧ 0 < 2 ∧ sealing.sealFault 0 = none) ∧
    (sSealDoneSealsOrFaults2.tick.sealing = some 0 ∧ 0 < 2 ∧ sSealDoneSealsOrFaults2.sealFault 0 = some { u := UnitKind.row, idx := 0, entry := 0, code := 8 : SealFault }) :=
  ⟨⟨by decide +kernel, by decide +kernel, sealing_passes⟩,
    by and_intros <;> decide +kernel⟩

/-- The hypotheses of `Obligations.TickControlRequestsTakeEffect`, clause by clause. -/
theorem witness_TickControlRequestsTakeEffect :
    (sTickControlRequestsTakeEffect1.accepts = true ∧ sTickControlRequestsTakeEffect1.job ≠ 0 ∧
      sTickControlRequestsTakeEffect1.tick.sealing = none ∧ (0 = if sTickControlRequestsTakeEffect1.job = 3 ∧
      sTickControlRequestsTakeEffect1.is (sealedF (sTickControlRequestsTakeEffect1.get TICK_STATUS.BANK)) =
      false then sTickControlRequestsTakeEffect1.get TICK_STATUS.BANK else 1 - sTickControlRequestsTakeEffect1.get
      TICK_STATUS.BANK)) ∧
    (sTickControlRequestsTakeEffect2.accepts = true ∧ sTickControlRequestsTakeEffect2.job ≠ 0 ∧
      sTickControlRequestsTakeEffect2.tick.sealing = none ∧ (1 = if sTickControlRequestsTakeEffect2.job = 3 ∧
      sTickControlRequestsTakeEffect2.is (sealedF (sTickControlRequestsTakeEffect2.get TICK_STATUS.BANK)) =
      false then sTickControlRequestsTakeEffect2.get TICK_STATUS.BANK else 1 - sTickControlRequestsTakeEffect2.get
      TICK_STATUS.BANK)) ∧
    (sTickControlRequestsTakeEffect2.accepts = true ∧ sTickControlRequestsTakeEffect2.job = 2) ∧
    (sTickControlRequestsTakeEffect4.accepts = true ∧
      sTickControlRequestsTakeEffect4.is (sealedF sTickControlRequestsTakeEffect4.inactive) = true ∧
      sTickControlRequestsTakeEffect4.get TICK_STEP.STEP + 1 < sTickControlRequestsTakeEffect4.get
      TICK_PHASE_STEP.AT_STEP) ∧
    (sTickControlRequestsTakeEffect5.accepts = true ∧
      (sTickControlRequestsTakeEffect5.is (sealedF sTickControlRequestsTakeEffect5.inactive) = false ∨
      sTickControlRequestsTakeEffect5.get TICK_PHASE_STEP.AT_STEP ≤ sTickControlRequestsTakeEffect5.get
      TICK_STEP.STEP + 1)) ∧
    (sTickControlRequestsTakeEffect2.accepts = true ∧ sTickControlRequestsTakeEffect2.is TICK_PHASE.ARM = false) ∧
    (sTickControlRequestsTakeEffect7.accepts = true ∧ sTickControlRequestsTakeEffect7.is TICK_PHASE.ARM = true) ∧
    (sTickControlRequestsTakeEffect8.accepts = true ∧ (sTickControlRequestsTakeEffect8.job = 1 ∨
      sTickControlRequestsTakeEffect8.job = 3)) :=
  by and_intros <;> decide +kernel

/-- The hypotheses of `Obligations.StartAndDryFitWaitForTheSquareUp`, clause by clause. -/
theorem witness_StartAndDryFitWaitForTheSquareUp :
    (sStartAndDryFitWaitForTheSquareUp1.accepts = true ∧ sStartAndDryFitWaitForTheSquareUp1.allGathered = false ∧
      sStartAndDryFitWaitForTheSquareUp1.startOk = true ∧ sStartAndDryFitWaitForTheSquareUp1.poison = []) ∧
    (sStartAndDryFitWaitForTheSquareUp2.accepts = true ∧ sStartAndDryFitWaitForTheSquareUp2.allGathered = false ∧
      1 < 2 ∧ (sStartAndDryFitWaitForTheSquareUp2.set TICK_DRY.BANK 1).dryOk = true ∧
      sStartAndDryFitWaitForTheSquareUp2.is (sealedF 1) = true) :=
  by and_intros <;> decide +kernel

/-- The hypotheses of `Obligations.BankWritesUnsealOrAreLogged`, clause by clause. -/
theorem witness_BankWritesUnsealOrAreLogged :
    (sBankWritesUnsealOrAreLogged1.accepts = true ∧ (4398583382016 + 32768) % 8 = 0 ∧ 1 < 2 ∧
      ((Instr.listMemoryWrite (4398583382016 + 32768) 291 = Instr.listMemoryWrite (4398583382016 + 32768) 291 ∧
      ∃ u i o, regionOf sBankWritesUnsealOrAreLogged1.active (4398583382016 + 32768) = Region.list u i o ∧ 1 =
      o / bankSize u) ∨ Instr.listMemoryWrite (4398583382016 + 32768) 291 =
      Instr.kernelRegionWrite (4398583382016 + 32768) 291 ∧ ∃ r o,
      regionOf sBankWritesUnsealOrAreLogged1.active (4398583382016 + 32768) = Region.rowSetup r o ∧ 131072 ≤ o ∧
      o < 262144 ∧ 1 = (o - 131072) / 65536) ∧ sBankWritesUnsealOrAreLogged1.activeBank 1 = false) ∧
    (sBankWritesUnsealOrAreLogged2.accepts = true ∧ 4398583382016 % 8 = 0 ∧ 0 < 2 ∧
      ((Instr.listMemoryWrite 4398583382016 291 = Instr.listMemoryWrite 4398583382016 291 ∧ ∃ u i o,
      regionOf sBankWritesUnsealOrAreLogged2.active 4398583382016 = Region.list u i o ∧ 0 = o / bankSize u) ∨
      Instr.listMemoryWrite 4398583382016 291 = Instr.kernelRegionWrite 4398583382016 291 ∧ ∃ r o,
      regionOf sBankWritesUnsealOrAreLogged2.active 4398583382016 = Region.rowSetup r o ∧ 131072 ≤ o ∧ o < 262144 ∧
      0 = (o - 131072) / 65536) ∧ sBankWritesUnsealOrAreLogged2.activeBank 0 = true) ∧
    (sBankWritesUnsealOrAreLogged1.accepts = true ∧ (rowPriv 2 + 196608) % 8 = 0 ∧ 1 < 2 ∧
      ((Instr.kernelRegionWrite (rowPriv 2 + 196608) 291 = Instr.listMemoryWrite (rowPriv 2 + 196608) 291 ∧
      ∃ u i o, regionOf sBankWritesUnsealOrAreLogged1.active (rowPriv 2 + 196608) = Region.list u i o ∧ 1 =
      o / bankSize u) ∨ Instr.kernelRegionWrite (rowPriv 2 + 196608) 291 =
      Instr.kernelRegionWrite (rowPriv 2 + 196608) 291 ∧ ∃ r o,
      regionOf sBankWritesUnsealOrAreLogged1.active (rowPriv 2 + 196608) = Region.rowSetup r o ∧ 131072 ≤ o ∧
      o < 262144 ∧ 1 = (o - 131072) / 65536) ∧ sBankWritesUnsealOrAreLogged1.activeBank 1 = false) ∧
    (sBankWritesUnsealOrAreLogged1.accepts = true ∧ ROOT_TBL_B.ADDR.addr % 8 = 0 ∧ 1 < 2 ∧
      sBankWritesUnsealOrAreLogged1.activeBank 1 = false) ∧
    (sBankWritesUnsealOrAreLogged2.accepts = true ∧ ROOT_TBL_A.ADDR.addr % 8 = 0 ∧ 0 < 2 ∧
      sBankWritesUnsealOrAreLogged2.activeBank 0 = true) :=
  ⟨⟨by decide +kernel, by decide +kernel, by decide +kernel, .inl ⟨rfl, .row, 0, 0x8000, (by decide +kernel),
    (by decide +kernel)⟩, by decide +kernel⟩,
    ⟨by decide +kernel, by decide +kernel, by decide +kernel, .inl ⟨rfl, .row, 0, 0, (by decide +kernel),
      (by decide +kernel)⟩, by decide +kernel⟩,
    ⟨by decide +kernel, by decide +kernel, by decide +kernel, .inr ⟨rfl, 2, 0x30000, (by decide +kernel),
      (by decide +kernel), (by decide +kernel), (by decide +kernel)⟩, by decide +kernel⟩,
    by and_intros <;> decide +kernel⟩

/-- The hypotheses of `Obligations.DebugReadAndRootRecordWrite`, clause by clause. -/
theorem witness_DebugReadAndRootRecordWrite :
    (1 < nPhys ∧ sDebugReadAndRootRecordWrite1.is (ACC_DEBUG.ENABLE 1) = true ∧ sDebugReadAndRootRecordWrite1.job =
      3) ∧
    (1 < nPhys ∧ (sTickControlRequestsTakeEffect1.is (ACC_DEBUG.ENABLE 1) = false ∨
      sTickControlRequestsTakeEffect1.job ≠ 3)) ∧
    (sDebugReadAndRootRecordWrite3.accepts = true ∧ (sDebugReadAndRootRecordWrite3.job = 0 ∨
      sDebugReadAndRootRecordWrite3.job = 1)) ∧
    (sDebugReadAndRootRecordWrite4.accepts = true ∧ (sDebugReadAndRootRecordWrite4.job = 0 ∨
      sDebugReadAndRootRecordWrite4.job = 1)) ∧
    (sTickControlRequestsTakeEffect2.accepts = true ∧ (sTickControlRequestsTakeEffect2.job = 2 ∨
      sTickControlRequestsTakeEffect2.job = 3)) :=
  by and_intros <;> decide +kernel

/-- The hypotheses of `Obligations.TicksBegin`, clause by clause. -/
theorem witness_TicksBegin :
    (sTicksBegin1.running = true ∧ sTicksBegin1.tick.haltAtBoundary = false ∧ sTicksBegin1.tick.inTick = false ∧
      sTicksBegin1.tick.freeze = 0 ∧ sTicksBegin1.tick.glue = 0 ∧ sTicksBegin1.tick.tickZeroAt = none) ∧
    (sTicksBegin2.running = true ∧ sTicksBegin2.tick.tickZeroAt = some 99) :=
  by and_intros <;> decide +kernel

/-- The hypotheses of `Obligations.TickCloses`, clause by clause. -/
theorem witness_TickCloses :
    (sTickCloses1.running = true ∧ sTickCloses1.tick.inTick = true ∧ sTickCloses1.tick.freeze = 0 ∧
      sTickCloses1.is TICK_STATUS.STRETCHING = false ∧ sTickCloses1.tick.haltAtBoundary = false ∧
      sTickCloses1.tick.glue = 0 ∧ sTickCloses1.outstanding sTickCloses1.tickLen = false ∧ sTickCloses1.hold = 0 ∧
      sTickCloses1.get TICK_STATUS.TICK_IN_STEP + 1 < sTickCloses1.stepTicks) ∧
    (sTickCloses2.running = true ∧ sTickCloses2.tick.inTick = true ∧ sTickCloses2.tick.freeze = 0 ∧
      sTickCloses2.is TICK_STATUS.STRETCHING = false ∧ sTickCloses2.tick.haltAtBoundary = false ∧
      sTickCloses2.tick.glue = 0 ∧ (0 < sTickCloses2.hold ∨ sTickCloses2.outstanding sTickCloses2.tickLen = true ∧
      sTickCloses2.excused = true)) ∧
    (sTickCloses3.running = true ∧ sTickCloses3.tick.inTick = true ∧ sTickCloses3.tick.freeze = 0 ∧
      sTickCloses3.is TICK_STATUS.STRETCHING = false ∧ sTickCloses3.tick.haltAtBoundary = false ∧
      sTickCloses3.tick.glue = 0 ∧ (0 < sTickCloses3.hold ∨ sTickCloses3.outstanding sTickCloses3.tickLen = true ∧
      sTickCloses3.excused = true)) ∧
    (sTickCloses4.running = true ∧ sTickCloses4.tick.inTick = true ∧ sTickCloses4.tick.freeze = 0 ∧
      sTickCloses4.is TICK_STATUS.STRETCHING = false ∧ sTickCloses4.tick.haltAtBoundary = false ∧
      sTickCloses4.tick.glue = 0 ∧ sTickCloses4.outstanding sTickCloses4.tickLen = true ∧ sTickCloses4.excused =
      false ∧ sTickCloses4.hold = 0 ∧ sTickCloses4.err.handling = none ∧ sTickCloses4.job = 2 ∧
      sTickCloses4.is ERR_SWAP.BUSY = false ∧ sTickCloses4.is TICK_FAULT.VALID = false ∧
      firstCand (sTickCloses4.overrunCandidates sTickCloses4.tickLen) = some (UnitKind.row, 3, 7)) :=
  by and_intros <;> decide +kernel

/-- The hypotheses of `Obligations.StretchedTicksClose`, clause by clause. -/
theorem witness_StretchedTicksClose :
    (sStretchedTicksClose1.running = true ∧ sStretchedTicksClose1.tick.inTick = true ∧
      sStretchedTicksClose1.tick.freeze = 0 ∧ sStretchedTicksClose1.is TICK_STATUS.STRETCHING = true ∧
      sStretchedTicksClose1.tick.haltAtBoundary = false ∧ sStretchedTicksClose1.tick.glue = 0 ∧
      sStretchedTicksClose1.get TICK_STATUS.TICK_IN_STEP + 1 < sStretchedTicksClose1.stepTicks ∧ 0 < 2 ∧
      2 * 256 ≤ sStretchedTicksClose1.get TICK_STRETCH_LIMIT.LIMIT_KCC * 1024 ∧
      sStretchedTicksClose1.hold ≤ 2 * 256 ∧
      sStretchedTicksClose1.outstanding (sStretchedTicksClose1.tickLen + 2 * 256) = false) ∧
    (sStretchedTicksClose2.running = true ∧ sStretchedTicksClose2.tick.inTick = true ∧
      sStretchedTicksClose2.tick.freeze = 0 ∧ sStretchedTicksClose2.is TICK_STATUS.STRETCHING = true ∧
      sStretchedTicksClose2.tick.haltAtBoundary = false ∧ sStretchedTicksClose2.tick.glue = 0 ∧
      sStretchedTicksClose2.get TICK_STATUS.TICK_IN_STEP + 1 < sStretchedTicksClose2.stepTicks ∧
      sStretchedTicksClose2.outstanding (sStretchedTicksClose2.tickLen + sStretchedTicksClose2.get
        TICK_STRETCH_LIMIT.LIMIT_KCC * 1024) = true ∧ sStretchedTicksClose2.err.handling = none) :=
  by and_intros <;> decide +kernel

/-- The hypotheses of `Obligations.StretchNoticesLengthenOrFreeze`, clause by clause. -/
theorem witness_StretchNoticesLengthenOrFreeze :
    (1 < 8 ∧ sStretchNoticesLengthenOrFreeze1.inReset = false ∧ sStretchNoticesLengthenOrFreeze1.running = true ∧
      sStretchNoticesLengthenOrFreeze1.tick.inTick = true ∧ 5 = sStretchNoticesLengthenOrFreeze1.get TICK_COUNT.COUNT) ∧
    (1 < 8 ∧ sStretchNoticesLengthenOrFreeze1.running = true ∧ sStretchNoticesLengthenOrFreeze1.tick.inTick = true ∧
      4 < sStretchNoticesLengthenOrFreeze1.get TICK_COUNT.COUNT ∧
      (∀ e ∈ sStretchNoticesLengthenOrFreeze1.tick.applied, e.1 ≠ 4) ∧ 0 < 256) ∧
    (0 < sStretchNoticesLengthenOrFreeze3.tick.freeze) :=
  by and_intros <;> decide +kernel

/-- The hypotheses of `Obligations.BusyEngineHaltsTheSlice`, clause by clause. -/
theorem witness_BusyEngineHaltsTheSlice :
    -- nothing changes: no step runs, the engine runs nothing, a freeze, a cause
    ((w []).running = false ∧ sTickCloses1.busyRec .row 3 1 = none ∧ sStretchNoticesLengthenOrFreeze3.tick.freeze ≠ 0 ∧
      sTickCloses3.excused = true) ∧
    (sTickCloses4.job = 2 ∧ sTickCloses4.err.handling = none ∧ sTickCloses4.is ERR_SWAP.BUSY = false ∧
      sTickCloses4.is TICK_FAULT.VALID = false ∧ 3 < UnitKind.row.count ∧
      (sTickCloses4.busyRec UnitKind.row 3 1).isSome = true ∧ sTickCloses4.tick.freeze = 0 ∧ sTickCloses4.excused = false) ∧
    (∀ s ∈ [allBusy, quadBusy], s.job = 2 ∧ s.err.handling = none ∧ s.is ERR_SWAP.BUSY = false ∧
      s.is TICK_FAULT.VALID = false) ∧
    -- the whole array while it or a quadrant is busy, and that quadrant
    (allBusy.arrBusyAt 0 1 50 = true ∧ quadBusy.arrBusyAt 3 1 50 = true ∧ quadBusy.arrBusyAt 3 18 50 = true ∧
      Turn quadBusy .cluster (issue0 3 5)) ∧
    (∀ e ∈ engines, Turn allBusy e.1 (issue0 0 5) ∧ allBusy.engineBusy e.1 0 e.2 50 = true) :=
  ⟨by decide +kernel, by decide +kernel, by decide +kernel,
    ⟨by decide +kernel, by decide +kernel, by decide +kernel, turn_of (by decide +kernel)⟩, fun e he => ⟨turn_of (by
      revert e
      decide +kernel), by
      revert e
      decide +kernel⟩⟩

/-- The hypotheses of `Obligations.ControlAndReserveEntries`, clause by clause. -/
theorem witness_ControlAndReserveEntries :
    Ready sTickCloses1 .row engControl (issue0 3 5) ∧ Ready sTickCloses1 .port engEgress (issue0 3 5) ∧
      Ready sFinisherAndTapEntries1 .cluster engFin (issue0 3 5) ∧ ArrReady sFinisherAndTapEntries1 1 (issue0 3 5) :=
  ⟨ready_of (by decide +kernel), ready_of (by decide +kernel), ready_of (by decide +kernel), arrReady_of (by decide +kernel)⟩

/-- The hypotheses of `Obligations.ArrayOperationsFormTheirTotals`, clause by clause. -/
theorem witness_ArrayOperationsFormTheirTotals :
    sFinisherAndTapEntries1.poison = [] ∧
      ArrReady sFinisherAndTapEntries1 (arrEng (sFinisherAndTapEntries1.arrDesc 3 0)) (issue0 3 5) ∧
      ArrReady sFinisherAndTapEntries1 1 (issue0 3 5) ∧
      ArrReady sArrayOperationsFormTheirTotals2 (arrEng (sArrayOperationsFormTheirTotals2.arrDesc 3 0)) (issue0 3 5) ∧
      arrEng (sArrayOperationsFormTheirTotals2.arrDesc 3 0) = 18 ∧
    -- the plain product of (3, 2) and (1, −1)
    ∀ s d, s = sArrayOperationsFormTheirTotals3 → d = s.arrDesc 3 0 → d.plain ∧ ArrReady s 1 (issue0 3 5) ∧ s.poison = [] ∧
      s.arr.preloads = [] ∧ (d.m = 1 ∧ d.k = 2 ∧ d.n = 1) ∧
      (s.valAt d.aFmt (veneerBase 3 + d.aOff + 0 * d.lda) 0).isWhole 3 ∧
      (s.valAt d.aFmt (veneerBase 3 + d.aOff + 0 * d.lda) 1).isWhole 2 ∧
      (s.valAt d.bFmt (veneerBase 3 + d.bOff + 0 * d.ldb) 0).isWhole 1 ∧
      (s.valAt d.bFmt (veneerBase 3 + d.bOff + 1 * d.ldb) 0).isWhole (-1) :=
  ⟨by decide +kernel, arrReady_of (by decide +kernel), arrReady_of (by decide +kernel), arrReady_of (by decide +kernel),
    by decide +kernel, by
      rintro _ _ rfl rfl
      exact ⟨by unfold ArrDesc.plain; decide +kernel, arrReady_of (by decide +kernel), by decide +kernel, by decide +kernel,
        by decide +kernel, ⟨false, 1536, -9, by and_intros <;> decide +kernel⟩,
        ⟨false, 1024, -9, by and_intros <;> decide +kernel⟩, ⟨false, 1024, -10, by and_intros <;> decide +kernel⟩,
        ⟨true, 1024, -10, by and_intros <;> decide +kernel⟩⟩⟩

/-- The hypotheses of `Obligations.CompletionsFreeTheEngine`, clause by clause. -/
theorem witness_CompletionsFreeTheEngine :
    (∀ s ∈ [sCompletionsFreeTheEngine1, sCompletionsFreeTheEngine2, sCompletionsFreeTheEngine3, sCompletionsFreeTheEngine4,
      sCompletionsFreeTheEngine5, sCompletionsFreeTheEngine6, sCompletionsFreeTheEngine7, sCompletionsFreeTheEngine8,
      sCompletionsFreeTheEngine9, sCompletionsFreeTheEngine10], s.tick.freeze = 0) ∧
    (3 < nPhys ∧ (1 = if (sCompletionsFreeTheEngine1.busyRec UnitKind.cluster 3 (16 + 9)).isSome = true ∧
      9 < 4 then 16 + 9 else 1) ∧ sCompletionsFreeTheEngine1.busyRec UnitKind.cluster 3 1 =
      some (busy1 UnitKind.cluster 3 1 7 99 true [5, 6, 7, 8]) ∧ (busy1 UnitKind.cluster 3 1 7 99 true [5, 6, 7,
      8]).waits = true) ∧
    (3 < nPhys ∧ (18 = if (sCompletionsFreeTheEngine2.busyRec UnitKind.cluster 3 (16 + 2)).isSome = true ∧
      2 < 4 then 16 + 2 else 1) ∧ sCompletionsFreeTheEngine2.busyRec UnitKind.cluster 3 18 =
      some (busy1 UnitKind.cluster 3 18 7 99 true [5, 6, 7, 8]) ∧ (busy1 UnitKind.cluster 3 18 7 99 true [5, 6, 7,
      8]).waits = true) ∧
    (3 < nPhys ∧ (∃ b, sCompletionsFreeTheEngine3.busyRec UnitKind.cluster 3 engFin = some b ∧ b.waits = true ∧
      b.info = [512, 4, 9])) ∧
    (3 < nPhys ∧ (∃ b, sCompletionsFreeTheEngine4.busyRec UnitKind.cluster 3 engFin = some b ∧ b.waits = true ∧
      b.info = [514])) ∧
    (3 < nPhys ∧ (∃ b, sCompletionsFreeTheEngine5.busyRec UnitKind.cluster 3 engTap = some b ∧ b.waits = true ∧
      b.info = [4])) ∧
    (3 < 8 ∧ (∃ b, sCompletionsFreeTheEngine6.busyRec UnitKind.port 3 engEgress = some b ∧ b.waits = true ∧
      b.info = [4])) ∧
    (3 < 8 ∧ (∃ b, sCompletionsFreeTheEngine7.busyRec UnitKind.port 3 engMover = some b ∧ b.waits = true ∧ b.info =
      [4096])) ∧
    ((Instr.normComplete 3 90 = Instr.normComplete 3 90 ∧ 1 = 1 ∨ Instr.normComplete 3 90 =
      Instr.normSumComplete 3 90 ∧ 1 = 2 ∨ Instr.normComplete 3 90 = Instr.applyComplete 3 90 ∧ 1 = 3) ∧ 3 < 16 ∧
      sCompletionsFreeTheEngine8.busyRec UnitKind.update 3 engUpd =
      some (busy1 UnitKind.update 3 engUpd 7 99 true [4]) ∧ sCompletionsFreeTheEngine8.get (UPD_STATUS.OP 3) = 1) ∧
    ((Instr.normSumComplete 3 90 = Instr.normComplete 3 90 ∧ 2 = 1 ∨ Instr.normSumComplete 3 90 =
      Instr.normSumComplete 3 90 ∧ 2 = 2 ∨ Instr.normSumComplete 3 90 = Instr.applyComplete 3 90 ∧ 2 = 3) ∧
      3 < 16 ∧ sCompletionsFreeTheEngine9.busyRec UnitKind.update 3 engUpd =
      some (busy1 UnitKind.update 3 engUpd 7 99 true [4]) ∧ sCompletionsFreeTheEngine9.get (UPD_STATUS.OP 3) = 2) ∧
    ((Instr.applyComplete 3 90 = Instr.normComplete 3 90 ∧ 3 = 1 ∨ Instr.applyComplete 3 90 =
      Instr.normSumComplete 3 90 ∧ 3 = 2 ∨ Instr.applyComplete 3 90 = Instr.applyComplete 3 90 ∧ 3 = 3) ∧ 3 < 16 ∧
      sCompletionsFreeTheEngine10.busyRec UnitKind.update 3 engUpd =
      some (busy1 UnitKind.update 3 engUpd 7 99 true [4]) ∧ sCompletionsFreeTheEngine10.get (UPD_STATUS.OP 3) = 3) :=
  ⟨by decide +kernel, by and_intros <;> decide +kernel,
    by and_intros <;> decide +kernel,
    ⟨by decide +kernel, ⟨busy1 .cluster 3 engFin 7 99 true [0x200,4,9], (by decide +kernel), rfl, rfl⟩⟩,
    ⟨by decide +kernel, ⟨busy1 .cluster 3 engFin 7 99 true [0x202], (by decide +kernel), rfl, rfl⟩⟩,
    ⟨by decide +kernel, ⟨busy1 .cluster 3 engTap 7 99 true [4], (by decide +kernel), rfl, rfl⟩⟩,
    ⟨by decide +kernel, ⟨busy1 .port 3 engEgress 7 99 true [4], (by decide +kernel), rfl, rfl⟩⟩,
    ⟨by decide +kernel, ⟨busy1 .port 3 engMover 7 99 true [4096], (by decide +kernel), rfl, rfl⟩⟩,
    by and_intros <;> decide +kernel⟩

/-- The hypotheses of `Obligations.FinisherAndTapEntries`, clause by clause. -/
theorem witness_FinisherAndTapEntries :
    (Ready sFinisherAndTapEntries1 .cluster engFin (issue0 3 5) ∧ sFinisherAndTapEntries1.poison = []) ∧
    (Ready sFinisherAndTapEntries2 .cluster engFin (issue0 3 5) ∧ sFinisherAndTapEntries2.poison = [] ∧
      Memory.wf sFinisherAndTapEntries2.mem = true) ∧
    (Ready sFinisherAndTapEntries1 .cluster engTap (issue0 3 5) ∧ sFinisherAndTapEntries1.copy.isSome = true ∧
      (sFinisherAndTapEntries1.factor (sFinisherAndTapEntries1.tapDesc 3 0).factor).gaugeStep
        (sFinisherAndTapEntries1.get TICK_STEP.STEP) = true ∧ sFinisherAndTapEntries1.poison = []) ∧
    (Ready sFinisherAndTapEntries3 .cluster engTap (issue0 3 5) ∧ sFinisherAndTapEntries3.copy.isSome = true ∧
      (sFinisherAndTapEntries3.factor (sFinisherAndTapEntries3.tapDesc 3 0).factor).gaugeStep
        (sFinisherAndTapEntries3.get TICK_STEP.STEP) = false) :=
  ⟨⟨ready_of (by decide +kernel), by decide +kernel⟩, ⟨ready_of (by decide +kernel), by decide +kernel⟩,
    ⟨ready_of (by decide +kernel), by decide +kernel⟩, ⟨ready_of (by decide +kernel), by decide +kernel⟩⟩

/-- The hypotheses of `Obligations.TransfersSendLandAndMove`, clause by clause. -/
theorem witness_TransfersSendLandAndMove :
    sFinisherAndTapEntries1.poison = [] ∧ Ready sFinisherAndTapEntries1 .port engEgress (issue0 3 5) ∧
    (Ready sFinisherAndTapEntries1 .port engIngress (issue0 3 5) ∧
      ∀ l ∈ sFinisherAndTapEntries1.lands, ¬(l.port = (issue0 3 5).idx ∧ l.entry = (issue0 3 5).entry ∧
        l.atTick = sFinisherAndTapEntries1.get TICK_COUNT.COUNT)) ∧
    Ready sFinisherAndTapEntries1 .port engMover (issue0 3 5) :=
  ⟨by decide +kernel, ready_of (by decide +kernel), ⟨ready_of (by decide +kernel), by decide +kernel⟩,
    ready_of (by decide +kernel)⟩

/-- The hypotheses of `Obligations.UpdateEntriesWriteTheirShards`, clause by clause. -/
theorem witness_UpdateEntriesWriteTheirShards :
    (Ready sFinisherAndTapEntries1 .update engUpd (issue0 3 5) ∧ sFinisherAndTapEntries1.poison = [] ∧
      sFinisherAndTapEntries1.dataOk (sFinisherAndTapEntries1.normBase + 0 * 8) 8 = true) ∧
    (sUpdateEntriesWriteTheirShards2.dataOk (sUpdateEntriesWriteTheirShards2.normBase + 0x8000) 8 = true ∧
      Ready sUpdateEntriesWriteTheirShards2 .update engUpd (issue0 3 5) ∧ sUpdateEntriesWriteTheirShards2.poison = [] ∧
      sUpdateEntriesWriteTheirShards2.normSlots ≠ [] ∧ (splitK 0 (sUpdateEntriesWriteTheirShards2.normSlots.map fun a =>
        decodeFp 0 (sUpdateEntriesWriteTheirShards2.updWord a))).isSome = true) ∧
    (Ready sUpdateEntriesWriteTheirShards2 .update engUpd (issue0 3 5) ∧ sUpdateEntriesWriteTheirShards2.copy.isSome = true ∧
      ((sUpdateEntriesWriteTheirShards2.shard 0).verify = true →
        sUpdateEntriesWriteTheirShards2.wcMismatch (sUpdateEntriesWriteTheirShards2.shard 0)
          ((sUpdateEntriesWriteTheirShards2.get TICK_STEP.STEP + 1) % 2) = none) ∧
      sUpdateEntriesWriteTheirShards2.dataOk (sUpdateEntriesWriteTheirShards2.chkBase + 0 * 16) 16 = true) :=
  ⟨⟨ready_of (by decide +kernel), by decide +kernel⟩,
    ⟨by decide +kernel, ready_of (by decide +kernel), by and_intros <;> decide +kernel⟩,
    ⟨ready_of (by decide +kernel), by decide +kernel⟩⟩

/-- The hypotheses of `Obligations.RootAndSolverSequences`, clause by clause. -/
theorem witness_RootAndSolverSequences :
    Ready sFinisherAndTapEntries1 .root engRoot (issue0 0 5) ∧ Ready solSeq .krylov engSolve (issue0 0 5) ∧
    (sRootAndSolverSequences4.running = true ∧ sRootAndSolverSequences4.tick.inTick = true ∧
      sRootAndSolverSequences4.tick.freeze = 0 ∧ sRootAndSolverSequences4.poison = [] ∧ 3 < nPhys ∧
      ((sRootAndSolverSequences4.root.runs.find? fun r => r.block == 0 && r.gauge == true).bind fun r =>
        (sRootAndSolverSequences4.piecesOf (sRootAndSolverSequences4.factor 0) r)[r.piece]?).isSome = true) ∧
    (solSeq.running = true ∧ solSeq.tick.inTick = true ∧ solSeq.tick.freeze = 0 ∧ solSeq.poison = [] ∧ 3 < nPhys ∧
      ((solSeq.sol.runs.find? fun r => r.ctx == 2 && r.adjoint == false).bind fun r =>
        ((solSeq.solEnv r.ctx r.desc false).1.pieces r.phase r.iter)[r.pos]?).map (fun x => match x.act with
          | .user _ => false
          | _ => true) = some true) :=
  ⟨ready_of (by decide +kernel), ready_of (by decide +kernel), by and_intros <;> decide +kernel⟩

/-- The hypotheses of `Obligations.BarriersAndTheErrorCheck`, clause by clause. -/
theorem witness_BarriersAndTheErrorCheck :
    (sBarriersAndTheErrorCheck1.running = true ∧ 1 < 8 ∧ 1 ∈ sBarriersAndTheErrorCheck1.children ∧
      (∀ b ∈ sBarriersAndTheErrorCheck1.tick.barriers, b.1 ≠ 1) ∧ v0.err = none ∧ 3 =
      sBarriersAndTheErrorCheck1.tick.glue ∧ 1 ≤ 3 ∧ 3 ≤ 6 ∧ 3 ≠ 2 ∧ (∃ q ∈ sBarriersAndTheErrorCheck1.children,
      q ≠ 1 ∧ ∀ b ∈ sBarriersAndTheErrorCheck1.tick.barriers, b.1 ≠ q)) ∧
    (sBarriersAndTheErrorCheck2.running = true ∧ 1 < 8 ∧ 1 ∈ sBarriersAndTheErrorCheck2.children ∧
      (∀ b ∈ sBarriersAndTheErrorCheck2.tick.barriers, b.1 ≠ 1) ∧ v0.err = none ∧ 3 =
      sBarriersAndTheErrorCheck2.tick.glue ∧ 1 ≤ 3 ∧ 3 ≤ 6 ∧ 3 ≠ 2 ∧ (∀ c ∈ sBarriersAndTheErrorCheck2.children,
      c = 1 ∨ ∃ b ∈ sBarriersAndTheErrorCheck2.tick.barriers, b.1 = c) ∧ sBarriersAndTheErrorCheck2.tick.actDone =
      true ∧ sBarriersAndTheErrorCheck2.tick.sent = false ∧ sBarriersAndTheErrorCheck2.tick.released = none ∧
      sBarriersAndTheErrorCheck2.parent = some 0 ∧ sBarriersAndTheErrorCheck2.inReset = false) ∧
    (sBarriersAndTheErrorCheck3.running = true ∧ sBarriersAndTheErrorCheck3.parent.isSome = true ∧
      sBarriersAndTheErrorCheck3.tick.glue = 2 ∧ sBarriersAndTheErrorCheck3.tick.sent = true ∧
      sBarriersAndTheErrorCheck3.tick.released = none ∧ v0.err = none ∧ sBarriersAndTheErrorCheck3.inReset = false) ∧
    (sBarriersAndTheErrorCheck4.running = true ∧ sBarriersAndTheErrorCheck4.tick.glue = 2 ∧
      sBarriersAndTheErrorCheck4.tick.released = some v0 ∧ v0.cls = 0) ∧
    (sBarriersAndTheErrorCheck8.running = true ∧ sBarriersAndTheErrorCheck8.tick.glue = 2 ∧
      sBarriersAndTheErrorCheck8.tick.released = some (vErr 1 false) ∧ (vErr 1 false).cls = 1 ∧
      sBarriersAndTheErrorCheck8.is TICK_STATUS.DRY = true) ∧
    (sBarriersAndTheErrorCheck5.running = true ∧ sBarriersAndTheErrorCheck5.tick.glue = 2 ∧
      sBarriersAndTheErrorCheck5.tick.released = some (vErr 2 false) ∧ 2 ≤ (vErr 2 false).cls) ∧
    (sBarriersAndTheErrorCheck6.running = true ∧ sBarriersAndTheErrorCheck6.tick.glue = 2 ∧
      sBarriersAndTheErrorCheck6.tick.released = some (vErr 1 false) ∧ (vErr 1 false).cls = 1 ∧
      sBarriersAndTheErrorCheck6.is TICK_STATUS.DRY = false ∧ ((vErr 1 false).err.map (·.halts)).getD false = false ∧
      sBarriersAndTheErrorCheck6.get ERR_LADDER.ATTEMPT = 0 ∧ sBarriersAndTheErrorCheck6.allGathered = false) ∧
    (sBarriersAndTheErrorCheck7.running = true ∧ sBarriersAndTheErrorCheck7.tick.glue = 2 ∧
      sBarriersAndTheErrorCheck7.tick.released = some (vErr 1 true) ∧ (vErr 1 true).cls = 1 ∧
      sBarriersAndTheErrorCheck7.is TICK_STATUS.DRY = false ∧ ((vErr 1 true).err.map (·.halts)).getD false = true) :=
  by and_intros <;> decide +kernel

/-- The hypotheses of `Obligations.ChecksumsAreExchangedAndCompared`, clause by clause. -/
theorem witness_ChecksumsAreExchangedAndCompared :
    (sChecksumsAreExchangedAndCompared1.running = true ∧ sChecksumsAreExchangedAndCompared1.tick.glue = 3 ∧
      sChecksumsAreExchangedAndCompared1.tick.actDone = false ∧ sChecksumsAreExchangedAndCompared1.tick.mismatch =
      false ∧ sChecksumsAreExchangedAndCompared1.upd.sent = false ∧ sChecksumsAreExchangedAndCompared1.allChks =
      false) ∧
    (sChecksumsAreExchangedAndCompared2.running = true ∧ sChecksumsAreExchangedAndCompared2.tick.glue = 2) ∧
    (sChecksumsAreExchangedAndCompared3.running = true ∧ sChecksumsAreExchangedAndCompared3.tick.glue = 3 ∧
      sChecksumsAreExchangedAndCompared3.tick.actDone = false ∧ sChecksumsAreExchangedAndCompared3.tick.mismatch =
      false ∧ sChecksumsAreExchangedAndCompared3.upd.sent = true ∧
      (∃ q ∈ sChecksumsAreExchangedAndCompared3.children, ∀ b ∈ sChecksumsAreExchangedAndCompared3.tick.barriers,
      b.1 ≠ q)) :=
  by and_intros <;> decide +kernel

/-- The hypotheses of `Obligations.MismatchesAreResolved`, clause by clause. -/
theorem witness_MismatchesAreResolved :
    (∀ s ∈ [sMismatchesAreResolved1, sMismatchesAreResolved2, sMismatchesAreResolved3, sMismatchesAreResolved4,
      sMismatchesAreResolved5], s.running = true ∧
      s.tick.glue = 3 ∧ s.tick.mismatch = true ∧ s.tick.actDone = false ∧ s.err.proc = [] ∧ s.affected = [slot0] ∧
      (∀ r ∈ s.upd.repairs, r.1 = slot0.key) ∧ (∃ q ∈ s.children, ∀ b ∈ s.tick.barriers, b.1 ≠ q)) ∧
    (∀ d ∈ sMismatchesAreResolved1.peersOf slot0,
      sMismatchesAreResolved1.peerCrc d slot0.rgroup slot0.key = some slot0.crc) ∧
    (∀ s ∈ [sMismatchesAreResolved2, sMismatchesAreResolved4, sMismatchesAreResolved5], ∃ d ∈ s.peersOf slot0,
      s.peerCrc d slot0.rgroup slot0.key ≠ some slot0.crc) ∧
    -- no majority, one against this device, and one with it that it leads
    (majority (sMismatchesAreResolved2.replicaCrcs slot0) ((sMismatchesAreResolved2.peersOf slot0).length + 1) = none ∧
      (majority (sMismatchesAreResolved4.replicaCrcs slot0) ((sMismatchesAreResolved4.peersOf slot0).length + 1) =
        some (4, [5, 6]) ∧ slot0.crc ≠ 4) ∧
      majority (sMismatchesAreResolved5.replicaCrcs slot0) ((sMismatchesAreResolved5.peersOf slot0).length + 1) =
        some (slot0.crc, [0, 5]) ∧ sMismatchesAreResolved5.inReset = false ∧
      lowest [0, 5] = some (sMismatchesAreResolved5.get FAB_ID.DEV) ∧ 6 ∈ sMismatchesAreResolved5.peersOf slot0 ∧ 6 ∉ [0, 5]) ∧
    (∀ n ∈ [true, false], (released3 n).running = true ∧ (released3 n).tick.glue = 3 ∧ (released3 n).tick.mismatch = true ∧
      (released3 n).err.proc = [] ∧ vMismatch.cls = 0 ∧ vMismatch.mismatch = true ∧ vMismatch.err = none ∧
      (released3 n).parent.isSome = true ∧ (released3 n).tick.sent = true ∧ (released3 n).tick.released = none ∧
      (released3 n).job = 2 ∧ (released3 n).err.handling = none ∧ (released3 n).is ERR_SWAP.BUSY = false ∧
      (released3 n).upd.noMajority = n) ∧
    (sMismatchesAreResolved3.chkSlots.find? (fun x => x.key == 77) = some slot0 ∧
      sMismatchesAreResolved3.upd.repairs.find? (fun r => r.1 == 77) = some (77, 0)) :=
  by and_intros <;> decide +kernel

/-- The hypotheses of `Obligations.CommitAdvancesTheStep`, clause by clause. -/
theorem witness_CommitAdvancesTheStep :
    (((Instr.commit [] = Instr.commit [] ∧ sCommitAdvancesTheStep1.job = 2 ∧ sCommitAdvancesTheStep1.tick.glue =
      4 ∧ sCommitAdvancesTheStep1.tick.actDone = false ∧ sCommitAdvancesTheStep1.is TICK_STATUS.DRY = false ∧
      ∃ q ∈ sCommitAdvancesTheStep1.children, ∀ b ∈ sCommitAdvancesTheStep1.tick.barriers, b.1 ≠ q) ∨
      Instr.commit [] = Instr.errCtrlCommit [] ∧ sCommitAdvancesTheStep1.accepts = true ∧
      sCommitAdvancesTheStep1.job = 3 ∧ sCommitAdvancesTheStep1.is ERR_STATUS.COMMIT_READY = true)) ∧
    (sCommitAdvancesTheStep1.poison = [] ∧ sCommitAdvancesTheStep2.poison = []) ∧
    (((Instr.errCtrlCommit [] = Instr.commit [] ∧ sCommitAdvancesTheStep2.job = 2 ∧
      sCommitAdvancesTheStep2.tick.glue = 4 ∧ sCommitAdvancesTheStep2.tick.actDone = false ∧
      sCommitAdvancesTheStep2.is TICK_STATUS.DRY = false ∧ ∃ q ∈ sCommitAdvancesTheStep2.children,
      ∀ b ∈ sCommitAdvancesTheStep2.tick.barriers, b.1 ≠ q) ∨ Instr.errCtrlCommit [] = Instr.errCtrlCommit [] ∧
      sCommitAdvancesTheStep2.accepts = true ∧ sCommitAdvancesTheStep2.job = 3 ∧
      sCommitAdvancesTheStep2.is ERR_STATUS.COMMIT_READY = true)) :=
  ⟨.inl ⟨rfl, (by decide +kernel), (by decide +kernel), (by decide +kernel), (by decide +kernel),
    (by decide +kernel)⟩, by decide +kernel,
    .inr ⟨rfl, (by decide +kernel), (by decide +kernel), (by decide +kernel)⟩⟩

/-- The hypotheses of `Obligations.DryFitCommitsNothing`, clause by clause. -/
theorem witness_DryFitCommitsNothing :
    (sDryFitCommitsNothing1.is TICK_STATUS.DRY = true ∧ sDryFitCommitsNothing1.job = 1 ∧
      sDryFitCommitsNothing1.tick.glue = 4 ∧ sDryFitCommitsNothing1.tick.actDone = false) :=
  by and_intros <;> decide +kernel

/-- The hypotheses of `Obligations.PermutationRunsOrFails`, clause by clause. -/
theorem witness_PermutationRunsOrFails :
    (∀ s E, s = sPermutationRunsOrFails1 → E = (List.range (s.get FAB_PERM_TBL.COUNT)).map s.permEntry →
      s.tick.glue = 5 ∧ s.is FAB_PERM.RUNNING = false ∧ s.tick.actDone = false ∧ s.poison = [] ∧ s.inReset = false ∧
      -- both local places exist and are apart from each other and from every source
      (s.localDsts E = [(0x2000, 64), (veneerBase 1, 128)] ∧ (s.localDsts E).Pairwise RangesApart) ∧
      (∀ e ∈ E, ∃ a, s.permSrc e = some a ∧ ∀ r ∈ s.localDsts E, RangesApart (a, e.bytes) r) ∧
      (∃ e ∈ E, e.dev ≠ s.get FAB_ID.DEV ∧ e.dev = 5 ∧ 1 * 256 < e.bytes) ∧ Routed s 5 1) ∧
    (∀ s, s = sPermutationRunsOrFails2 → s.running = true ∧ s.tick.glue = 5 ∧ s.is FAB_PERM.RUNNING = true ∧ s.poison = [] ∧
      s.arrivesIn permIns ∧ (∀ p < 8, (s.link p).held = []) ∧
      (∀ k < s.get FAB_PERM_TBL.COUNT, (s.permSrc (s.permEntry k)).isSome = true) ∧
      (∀ r ∈ s.inDsts permIns, RangesApart r (s.get FAB_PERM_TBL.ADDR * 32, s.get FAB_PERM_TBL.COUNT * 32)) ∧
      s.get FAB_PERM_IN.IN_BYTES ≤ s.tick.permIn + (permIns.map fun x => x.data.length).sum ∧
      (∃ q ∈ s.children, ∀ b ∈ s.tick.barriers, b.1 ≠ q) ∧ (s.inDsts permIns).Pairwise RangesApart ∧
      (∀ x ∈ permIns, (s.endRange x.veneer x.addr x.data.length).isSome = true ∧ ∀ b ∈ x.data, b < 256)) ∧
    (sPermutationRunsOrFails2.is FAB_PERM.RUNNING = true ∧ sPermutationRunsOrFails2.job = 2 ∧
      sPermutationRunsOrFails2.err.handling = none ∧ sPermutationRunsOrFails2.is ERR_SWAP.BUSY = false) := by
  refine ⟨?_, ?_, by decide +kernel⟩
  · rintro _ _ rfl rfl
    have h : sPermutationRunsOrFails1.localDsts ((List.range (sPermutationRunsOrFails1.get FAB_PERM_TBL.COUNT)).map
        sPermutationRunsOrFails1.permEntry) = [(0x2000, 64), (veneerBase 1, 128)] := by decide +kernel
    rw [h]
    refine ⟨by decide +kernel, by decide +kernel, by decide +kernel, by decide +kernel, by decide +kernel,
      ⟨rfl, by unfold RangesApart; decide +kernel⟩, fun e he => ?_, by decide +kernel, routed_of (by decide +kernel)⟩
    have ha : ∀ e ∈ (List.range (sPermutationRunsOrFails1.get FAB_PERM_TBL.COUNT)).map sPermutationRunsOrFails1.permEntry,
        sPermutationRunsOrFails1.permSrc e = some e.src ∧ e.src + e.bytes ≤ 0x2000 := by decide +kernel
    refine ⟨e.src, (ha e he).1, fun r hr => .inl ?_⟩
    have hb : 0x2000 ≤ r.1 := by
      revert r
      decide +kernel
    exact Nat.le_trans (ha e he).2 hb
  · rintro _ rfl
    exact ⟨by decide +kernel, by decide +kernel, by decide +kernel, by decide +kernel, by unfold State.arrivesIn; decide +kernel,
      by decide +kernel, by decide +kernel, by unfold RangesApart; decide +kernel, by decide +kernel, by decide +kernel,
      by unfold RangesApart; decide +kernel, by decide +kernel⟩

/-- The hypotheses of `Obligations.PhaseChangeAndActionSeven`, clause by clause. -/
theorem witness_PhaseChangeAndActionSeven :
    (sPhaseChangeAndActionSeven1.job = 2 ∧ sPhaseChangeAndActionSeven1.tick.glue = 6 ∧
      sPhaseChangeAndActionSeven1.tick.actDone = false ∧ sPhaseChangeAndActionSeven1.tick.phaseOk = true ∧
      sPhaseChangeAndActionSeven1.tick.sealedAll = true ∧ sPhaseChangeAndActionSeven1.get TICK_STATUS.BANK < 2 ∧
      (∃ q ∈ sPhaseChangeAndActionSeven1.children, ∀ b ∈ sPhaseChangeAndActionSeven1.tick.barriers, b.1 ≠ q)) ∧
    (sPhaseChangeAndActionSeven2.job = 2 ∧ sPhaseChangeAndActionSeven2.tick.glue = 6 ∧
      sPhaseChangeAndActionSeven2.tick.actDone = false ∧ (sPhaseChangeAndActionSeven2.tick.phaseOk = false ∨
      sPhaseChangeAndActionSeven2.tick.sealedAll = false)) ∧
    (sPhaseChangeAndActionSeven3.job = 2 ∧ sPhaseChangeAndActionSeven3.tick.glue = 7 ∧
      sPhaseChangeAndActionSeven3.tick.haltPend = true) ∧
    (sPhaseChangeAndActionSeven4.job = 2 ∧ sPhaseChangeAndActionSeven4.tick.glue = 7 ∧
      sPhaseChangeAndActionSeven4.tick.haltPend = false ∧
      sPhaseChangeAndActionSeven4.resident (sPhaseChangeAndActionSeven4.get TICK_STEP.STEP + 1) = false ∧
      sPhaseChangeAndActionSeven4.tick.held = false) ∧
    (sPhaseChangeAndActionSeven5.job = 2 ∧ sPhaseChangeAndActionSeven5.tick.glue = 7 ∧
      sPhaseChangeAndActionSeven5.tick.haltPend = false ∧
      sPhaseChangeAndActionSeven5.resident (sPhaseChangeAndActionSeven5.get TICK_STEP.STEP + 1) = true ∧
      sPhaseChangeAndActionSeven5.pushDue = false ∧ sPhaseChangeAndActionSeven5.allGathered = false) :=
  by and_intros <;> decide +kernel

/-- The hypotheses of `Obligations.SquareUpGathersAndGoes`, clause by clause. -/
theorem witness_SquareUpGathersAndGoes :
    (1 < 8 ∧ 1 ∈ sSquareUpGathersAndGoes1.children ∧ (∀ g ∈ sSquareUpGathersAndGoes1.tick.gathers, g.1 ≠ 1) ∧
      (∃ q ∈ sSquareUpGathersAndGoes1.children, q ≠ 1 ∧ ∀ g ∈ sSquareUpGathersAndGoes1.tick.gathers, g.1 ≠ q)) ∧
    (sSquareUpGathersAndGoes2.parent.isSome = true ∧ sSquareUpGathersAndGoes2.tick.sent = true ∧
      sSquareUpGathersAndGoes2.squareReady = true ∧ sSquareUpGathersAndGoes2.job = 2 ∧
      sSquareUpGathersAndGoes2.is TICK_STATUS.DRY = false ∧
      gf.accDelay ≤ 4 * sSquareUpGathersAndGoes2.get FAB_SQUP.LEAD_CC ∧ sSquareUpGathersAndGoes2.inReset = false ∧
      sSquareUpGathersAndGoes2.tick.firstSquareUp = true) :=
  by and_intros <;> decide +kernel

/-- The hypotheses of `Obligations.WatchdogNoticesAndQueuedErrors`, clause by clause. -/
theorem witness_WatchdogNoticesAndQueuedErrors :
    (sSquareUpGathersAndGoes1.job = 2 ∧ sSquareUpGathersAndGoes1.tick.glue ≠ 0 ∧
      sSquareUpGathersAndGoes1.wdogHeld = false ∧ sSquareUpGathersAndGoes1.err.handling = none ∧
      sSquareUpGathersAndGoes1.is ERR_SWAP.BUSY = false) ∧
    (sSquareUpGathersAndGoes1.job = 2 ∧ 1 < 8 ∧ sSquareUpGathersAndGoes1.tick.inTick = false ∧
      sSquareUpGathersAndGoes1.tick.glue ≠ 0 ∧ sSquareUpGathersAndGoes1.is ERR_SWAP.BUSY = false ∧
      sSquareUpGathersAndGoes1.inReset = false) ∧
    (sWatchdogNoticesAndQueuedErrors3.job = 2 ∧ 1 < 8 ∧ sWatchdogNoticesAndQueuedErrors3.tick.inTick = true) ∧
    (sWatchdogNoticesAndQueuedErrors4.job = 2 ∧ sWatchdogNoticesAndQueuedErrors4.err.handling = none ∧
      sWatchdogNoticesAndQueuedErrors4.err.queue = [⟨qe 1, false, some 0⟩] ∧ (qe 1).cls = 1) ∧
    (sWatchdogNoticesAndQueuedErrors5.job = 2 ∧ sWatchdogNoticesAndQueuedErrors5.err.handling = none ∧
      sWatchdogNoticesAndQueuedErrors5.err.queue = [⟨qe 2, false, some 0⟩] ∧ (qe 2).cls = 2 ∧
      sWatchdogNoticesAndQueuedErrors5.is ERR_SWAP.BUSY = false) :=
  by and_intros <;> decide +kernel

/-- The hypotheses of `Obligations.SpareSwapReplacesACluster`, clause by clause. -/
theorem witness_SpareSwapReplacesACluster :
    (3 < nPhys ∧ sSpareSwapReplacesACluster1.accepts = true ∧ sSpareSwapReplacesACluster1.is ERR_SWAP.BUSY = false ∧
      (sSpareSwapReplacesACluster1.job = 0 ∨ sSpareSwapReplacesACluster1.job = 3) ∧
      sSpareSwapReplacesACluster1.isActive 3 = true ∧
      spareFor sSpareSwapReplacesACluster1.active sSpareSwapReplacesACluster1.good 3 = some 32) ∧
    (3 < nPhys ∧ sSpareSwapReplacesACluster2.accepts = true ∧ sSpareSwapReplacesACluster2.is ERR_SWAP.BUSY = false ∧
      (sSpareSwapReplacesACluster2.job = 0 ∨ sSpareSwapReplacesACluster2.job = 3) ∧
      sSpareSwapReplacesACluster2.isActive 3 = true ∧
      spareFor sSpareSwapReplacesACluster2.active sSpareSwapReplacesACluster2.good 3 = none) ∧
    (33 < nPhys ∧ sSpareSwapReplacesACluster1.accepts = true ∧ sSpareSwapReplacesACluster1.is ERR_SWAP.BUSY = false ∧
      (sSpareSwapReplacesACluster1.job = 0 ∨ sSpareSwapReplacesACluster1.job = 3) ∧
      sSpareSwapReplacesACluster1.isActive 33 = false) ∧
    (33 < nPhys ∧ sSpareSwapReplacesACluster3.accepts = true ∧ (sSpareSwapReplacesACluster3.job = 1 ∨
      sSpareSwapReplacesACluster3.job = 2)) ∧
    (3 < nPhys ∧ sSpareSwapReplacesACluster4.is ERR_SWAP.BUSY = true ∧ sSpareSwapReplacesACluster4.err.swaps =
      [3] ∧ sSpareSwapReplacesACluster4.isActive 3 = true ∧
      spareFor sSpareSwapReplacesACluster4.active sSpareSwapReplacesACluster4.good 3 = some 32 ∧
      sSpareSwapReplacesACluster4.err.haltAfter = false ∧ sSpareSwapReplacesACluster4.allGathered = false) :=
  by and_intros <;> decide +kernel

/-- The hypotheses of `Obligations.ErrorBlockRequestsAndInjection`, clause by clause. -/
theorem witness_ErrorBlockRequestsAndInjection :
    (sErrorBlockRequestsAndInjection1.accepts = true) ∧
    (sTickCloses1.accepts = true) ∧
    (sErrorBlockRequestsAndInjection4.job = 2 ∧ sErrorBlockRequestsAndInjection4.tick.injectLive = true ∧
      sErrorBlockRequestsAndInjection4.tick.inTick = true ∧ sErrorBlockRequestsAndInjection4.tick.cc = 0 ∧
      sErrorBlockRequestsAndInjection4.get TICK_STATUS.TICK_IN_STEP =
      sErrorBlockRequestsAndInjection4.get ERR_INJECT.TICK_IN_STEP) ∧
    (sErrorBlockRequestsAndInjection5.job = 2 ∧ sErrorBlockRequestsAndInjection5.tick.injectLive = true ∧
      sErrorBlockRequestsAndInjection5.tick.inTick = true ∧ sErrorBlockRequestsAndInjection5.tick.cc = 0 ∧
      sErrorBlockRequestsAndInjection5.get TICK_STATUS.TICK_IN_STEP =
      sErrorBlockRequestsAndInjection5.get ERR_INJECT.TICK_IN_STEP) ∧
    ((sErrorBlockRequestsAndInjection6.job ≠ 2 ∨ sErrorBlockRequestsAndInjection6.tick.injectLive = false)) :=
  by and_intros <;> decide +kernel

/-- The hypotheses of `Obligations.ArmsOfTheUpdateUnitsAndFabric`, clause by clause. -/
theorem witness_ArmsOfTheUpdateUnitsAndFabric :
    (sDebugReadAndRootRecordWrite3.accepts = true ∧ sDebugReadAndRootRecordWrite3.job = 1) ∧
    (sTickControlRequestsTakeEffect2.accepts = true ∧ sTickControlRequestsTakeEffect2.job ≠ 1) ∧
    (sArmsOfTheUpdateUnitsAndFabric3.accepts = true ∧ sArmsOfTheUpdateUnitsAndFabric3.upd.regenPend = true ∧
      sArmsOfTheUpdateUnitsAndFabric3.poison = [] ∧ sArmsOfTheUpdateUnitsAndFabric3.shards ≠ [] ∧
      ∀ p ∈ sArmsOfTheUpdateUnitsAndFabric3.shards, sArmsOfTheUpdateUnitsAndFabric3.dataOk
        (p.2.genAddr ((sArmsOfTheUpdateUnitsAndFabric3.get TICK_STEP.STEP + 1) % 2)) (p.2.count * fmtBytes p.2.masterFmt) = true ∧
        sArmsOfTheUpdateUnitsAndFabric3.dataOk (p.2.wcGen ((sArmsOfTheUpdateUnitsAndFabric3.get TICK_STEP.STEP + 1) % 2))
          (p.2.count * fmtBytes (gateFmt p.2.wcGate)) = true) ∧
    (sArmsOfTheUpdateUnitsAndFabric4.accepts = true ∧ sArmsOfTheUpdateUnitsAndFabric4.get TICK_STEP.STEP <
      sArmsOfTheUpdateUnitsAndFabric4.get UPD_EXPORT_STEP.AT_STEP) ∧
    (sArmsOfTheUpdateUnitsAndFabric5.accepts = true ∧ sArmsOfTheUpdateUnitsAndFabric5.get UPD_EXPORT_STEP.AT_STEP ≤
      sArmsOfTheUpdateUnitsAndFabric5.get TICK_STEP.STEP) ∧
    (sStepRunsTheFrontCommandOrIdles2.accepts = true ∧ sStepRunsTheFrontCommandOrIdles2.is UPD_EXPORT.ARM = false) ∧
    (sArmsOfTheUpdateUnitsAndFabric7.accepts = true ∧ sArmsOfTheUpdateUnitsAndFabric7.is UPD_EXPORT.ARM = true) ∧
    (sStepRunsTheFrontCommandOrIdles2.accepts = true ∧ sStepRunsTheFrontCommandOrIdles2.get FAB_SLICE.SIZE ≤ 512) ∧
    (sArmsOfTheUpdateUnitsAndFabric9.accepts = true ∧ 512 < sArmsOfTheUpdateUnitsAndFabric9.get FAB_SLICE.SIZE) ∧
    (sArmsOfTheUpdateUnitsAndFabric10.accepts = true ∧ sArmsOfTheUpdateUnitsAndFabric10.is FAB_PERM.CONFIRMED = false) ∧
    (sArmsOfTheUpdateUnitsAndFabric11.accepts = true ∧ sArmsOfTheUpdateUnitsAndFabric11.is FAB_PERM.CONFIRMED = true) :=
  by decide +kernel

/-- The hypotheses of `Obligations.FramesAreCheckedForwardedOrLanded`, clause by clause. -/
theorem witness_FramesAreCheckedForwardedOrLanded :
    (sFramesAreCheckedForwardedOrLanded1.inReset = false ∧ sFramesAreCheckedForwardedOrLanded3.inReset = false) ∧
    (∀ f ∈ [fBad, f0], 2 < 8 ∧ sFramesAreCheckedForwardedOrLanded1.get (LNK_STATUS.STATE 2) = 2 ∧
      (f.badCw ≠ 0 ∨ f.crc ≠ frameCrc f)) ∧
    (2 < 8 ∧ sFramesAreCheckedForwardedOrLanded1.get (LNK_STATUS.STATE 2) = 2 ∧ fRsvd.badCw = 0 ∧
      fRsvd.crc = frameCrc fRsvd ∧ fRsvd.seq = (sFramesAreCheckedForwardedOrLanded1.link 2).rxSeq ∧ fRsvd.rsvd % 2 ^ 5 ≠ 0) ∧
    (2 < 8 ∧ sFramesAreCheckedForwardedOrLanded3.get (LNK_STATUS.STATE 2) = 2 ∧ fg.badCw = 0 ∧ fg.crc = frameCrc fg ∧
      fg.seq = (sFramesAreCheckedForwardedOrLanded3.link 2).rxSeq ∧ fg.rsvd % 2 ^ 5 = 0 ∧
      sFramesAreCheckedForwardedOrLanded3.carries 2 fg.slice = true ∧
      sFramesAreCheckedForwardedOrLanded3.get (LNK_RTBL.OUT 2 (fg.dst / 8) (fg.dst % 8)) = 1 ∧ 1 < 8 ∧
      sFramesAreCheckedForwardedOrLanded3.egress 1 (sFramesAreCheckedForwardedOrLanded3.get
        (LNK_RTBL.ALT 2 (fg.dst / 8) (fg.dst % 8))) = some 1 ∧
      sFramesAreCheckedForwardedOrLanded3.carries 1 fg.slice = true ∧
      (sFramesAreCheckedForwardedOrLanded3.link 1).replay.length +
        (sFramesAreCheckedForwardedOrLanded3.link 1).due.length < window) ∧
    (2 < 8 ∧ landS.get (LNK_STATUS.STATE 2) = 2 ∧ fg.badCw = 0 ∧ fg.crc = frameCrc fg ∧ fg.seq = (landS.link 2).rxSeq ∧
      fg.rsvd % 2 ^ 5 = 0 ∧ landS.carries 2 fg.slice = true ∧ fg.ctrl = false ∧
      landS.get (LNK_RTBL.OUT 2 (fg.dst / 8) (fg.dst % 8)) = 8 ∧ landS.poison = [] ∧ landS.running = true ∧
      landS.tick.inTick = true ∧ landS.tick.glue = 0 ∧ fg.epoch = landS.tick.squareUps % 4 ∧
      (∀ m ∈ landS.lands, ¬(m.abandoned = true ∧ m.tag = fg.tag ∧ m.src = fg.src)) ∧
      landS.landEntry (landS.get TICK_STATUS.TICK_IN_STEP) fg = some (2, landEntry0) ∧
      landL0 = (landS.lands.find? fun m => m.port == 2 && m.entry == landEntry0.index &&
        m.atTick == landS.get TICK_COUNT.COUNT).getD landL0 ∧
      0 < (if (xferOf landL0.words).add then fmtBytes (xferOf landL0.words).fmt else 16) ∧
      fg.offset * 256 + fg.payload.length ≤ landL0.bytes ∧ (∀ b ∈ fg.payload, b < 256)) :=
  by and_intros <;> decide +kernel

/-- The hypotheses of `Obligations.ReplayAndLinkFaults`, clause by clause. -/
theorem witness_ReplayAndLinkFaults :
    (2 < 8 ∧ (sReplayAndLinkFaults1.link 2).event = none ∧ (sReplayAndLinkFaults1.link 2).held = []) ∧
    -- a NAK of the second frame, or a timeout of the first
    (2 < 8 ∧ (sReplayAndLinkFaults1.link 2).event = none ∧
      (sReplayAndLinkFaults1.link 2).replay = (0, f0) :: [(1, f0), (2, f0)] ∧ sReplayAndLinkFaults1.inReset = false) ∧
    (2 < 8 ∧ 0 < (sReplayAndLinkFaults2.link 2).rxUnacked ∧ sReplayAndLinkFaults2.inReset = false) ∧
    (2 < 8 ∧ (sReplayAndLinkFaults3.link 2).event = some (3, 4, 5)) ∧
    -- either loss, outside STRICT and under it
    (2 < 8 ∧ sFramesAreCheckedForwardedOrLanded1.get (LNK_STATUS.STATE 2) = 2 ∧
      sFramesAreCheckedForwardedOrLanded1.is FAB_PERM.RUNNING = false ∧
      sFramesAreCheckedForwardedOrLanded1.err.handling = none ∧ sFramesAreCheckedForwardedOrLanded1.job = 2 ∧
      sFramesAreCheckedForwardedOrLanded1.is DET_MODE.STRICT = false) ∧
    (2 < 8 ∧ sReplayAndLinkFaults6.get (LNK_STATUS.STATE 2) = 2 ∧ sReplayAndLinkFaults6.is FAB_PERM.RUNNING = false ∧
      sReplayAndLinkFaults6.err.handling = none ∧ sReplayAndLinkFaults6.job = 2 ∧
      sReplayAndLinkFaults6.is DET_MODE.STRICT = true ∧ sReplayAndLinkFaults6.is ERR_SWAP.BUSY = false) :=
  by and_intros <;> decide +kernel

/-- The hypotheses of `Obligations.TrainingBringsAPortUp`, clause by clause. -/
theorem witness_TrainingBringsAPortUp :
    -- this end's training and the partner's
    (2 < 8 ∧ sTrainingBringsAPortUp1.accepts = true ∧ (sTrainingBringsAPortUp1.job = 0 ∨ sTrainingBringsAPortUp1.job = 3)) ∧
    (2 < 8 ∧ sFramesAreCheckedForwardedOrLanded1.accepts = true ∧ (sFramesAreCheckedForwardedOrLanded1.job = 1 ∨
      sFramesAreCheckedForwardedOrLanded1.job = 2)) ∧
    (2 < 8 ∧ sTrainingBringsAPortUp4.accepts = true ∧ (sTrainingBringsAPortUp4.job = 0 ∨
      sTrainingBringsAPortUp4.job = 3) ∧ sTrainingBringsAPortUp4.get (LNK_STATUS.STATE 2) = 2) ∧
    sRefusedRegisterWritesHaveNoEffect2.accepts = false ∧
    (2 < 8 ∧ sTrainingBringsAPortUp5.accepts = true ∧ sTrainingBringsAPortUp5.pwr.wakeSrc = none ∧
      sTrainingBringsAPortUp5.get (LNK_STATUS.STATE 2) = 1) ∧
    -- the delay limit of port 2 at its bound
    (2 ≤ 2 ∧ 2 ≠ 0 ∧ (portLimitNs 2 * sTrainingBringsAPortUp5.get CLK_STATUS.CORE_MHZ / 250) * 250 ≤
      portLimitNs 2 * sTrainingBringsAPortUp5.get CLK_STATUS.CORE_MHZ) :=
  by and_intros <;> decide +kernel

/-- The hypotheses of `Obligations.BitErrorsAreCountedAndWarned`, clause by clause. -/
theorem witness_BitErrorsAreCountedAndWarned :
    (2 < 8 ∧ sBitErrorsAreCountedAndWarned2.get (LNK_BER.THRESH 2) < 3 ∧
      2 ≤ sBitErrorsAreCountedAndWarned2.get (LNK_BER.THRESH 2)) ∧
    (2 < 8 ∧ sFramesAreCheckedForwardedOrLanded1.get (LNK_STATUS.STATE 2) = 2 ∧ fBad.badCw ≠ 0) :=
  by decide +kernel

/-- The hypotheses of `Obligations.ClockSourcesSwitchAndRelock`, clause by clause. -/
theorem witness_ClockSourcesSwitchAndRelock :
    (sClockSourcesSwitchAndRelock7.accepts = true ∧ sClockSourcesSwitchAndRelock7.tick.loaded = true ∧
      bits 1 1 0 ≠ sClockSourcesSwitchAndRelock7.get FAB_SYNT.SRC ∧
      bits 0 1 0 = sClockSourcesSwitchAndRelock7.get FAB_SYNT.SRC ∧
      bits 0 3 2 = sClockSourcesSwitchAndRelock7.get FAB_SYNT.ALT_SRC) ∧
    (sClockSourcesSwitchAndRelock2.accepts = true ∧ sClockSourcesSwitchAndRelock2.tick.loaded = false ∧
      bits 1 1 0 ≠ sClockSourcesSwitchAndRelock2.get FAB_SYNT.SRC) ∧
    (sClockSourcesSwitchAndRelock3.get FAB_SYNT.SRC ≠ 0 ∧ 2 = sClockSourcesSwitchAndRelock3.get FAB_SYNT.ALT_SRC ∧
      2 ≠ sClockSourcesSwitchAndRelock3.get FAB_SYNT.SRC ∧
      sClockSourcesSwitchAndRelock3.get (LNK_STATUS.STATE (syntPort 2)) = 2) ∧
    (sClockSourcesSwitchAndRelock4.get FAB_SYNT.SRC ≠ 0 ∧ 2 = sClockSourcesSwitchAndRelock4.get FAB_SYNT.ALT_SRC ∧
      sClockSourcesSwitchAndRelock4.get (LNK_STATUS.STATE (syntPort 2)) ≠ 2) ∧
    (sClockSourcesSwitchAndRelock5.is FAB_SYNT.HOLDOVER = true ∧ sClockSourcesSwitchAndRelock5.job = 2 ∧
      sClockSourcesSwitchAndRelock5.err.handling = none ∧ sClockSourcesSwitchAndRelock5.is ERR_SWAP.BUSY = false) ∧
    (sStepRunsTheFrontCommandOrIdles2.accepts = true ∧
      bits (1 - State.reset.get CLK_CFG.RATE) 0 0 ≠ sStepRunsTheFrontCommandOrIdles2.get CLK_CFG.RATE ∧
      sStepRunsTheFrontCommandOrIdles2.tick.loaded = false) ∧
    (sClockSourcesSwitchAndRelock7.accepts = true ∧
      bits (1 - State.reset.get CLK_CFG.RATE) 0 0 ≠ sClockSourcesSwitchAndRelock7.get CLK_CFG.RATE ∧
      sClockSourcesSwitchAndRelock7.tick.loaded = true) ∧
    (sClockSourcesSwitchAndRelock8.powered = true ∧ sClockSourcesSwitchAndRelock8.boot.configuring = false ∧
      sClockSourcesSwitchAndRelock8.is CLK_STATUS.PLL_LOCK = false ∧ sClockSourcesSwitchAndRelock8.pwr.refOk = true) ∧
    (sClockSourcesSwitchAndRelock9.powered = true ∧ sClockSourcesSwitchAndRelock9.get FAB_SYNT.SRC = 0) :=
  by and_intros <;> decide +kernel

/-- The hypotheses of `Obligations.ScrubsAndInitialisation`, clause by clause. -/
theorem witness_ScrubsAndInitialisation :
    (sScrubsAndInitialisation1.dead = false ∧ sScrubsAndInitialisation4.dead = false) ∧
    (3 < nPhys ∧ bit sScrubsAndInitialisation1.good 3 = true ∧ sScrubsAndInitialisation1.is VNR_SCRUB.ENABLE = true ∧ sScrubsAndInitialisation1.is VNR_STATUS.INIT_DONE = true ∧ { off := 24, ue := false, written := false : ScrubFinding }.ue = false ∧ { off := 24, ue := false, written := false : ScrubFinding }.written = false) ∧
    (3 < nPhys ∧ bit sScrubsAndInitialisation1.good 3 = true ∧ sScrubsAndInitialisation1.is VNR_SCRUB.ENABLE = true ∧ sScrubsAndInitialisation1.is VNR_STATUS.INIT_DONE = true ∧ { off := 24, ue := false, written := true : ScrubFinding }.ue = false ∧ { off := 24, ue := false, written := true : ScrubFinding }.written = true) ∧
    (3 < nPhys ∧ bit sScrubsAndInitialisation1.good 3 = true ∧ sScrubsAndInitialisation1.is VNR_SCRUB.ENABLE = true ∧ sScrubsAndInitialisation1.is VNR_STATUS.INIT_DONE = true ∧ { off := 24, ue := true, written := false : ScrubFinding }.ue = true) ∧
    (2 < 16 ∧ (2 * lpddrWindow + 100) / lpddrWindow = 2 ∧ sScrubsAndInitialisation4.is (MEM_CFG.SCRUB_EN 2) =
      true ∧ sScrubsAndInitialisation4.get (MEM_STATUS.STATE 2) = 1) ∧
    (sScrubsAndInitialisation6.is VNR_STATUS.INIT_DONE = false) ∧
    (2 < 16 ∧ sScrubsAndInitialisation7.get (MEM_STATUS.STATE 2) ≠ 1) :=
  by and_intros <;> decide +kernel

/-- The hypotheses of `Obligations.RefreshOverrunExcuses`, clause by clause. -/
theorem witness_RefreshOverrunExcuses :
    (2 < 16 ∧ 4 < 2 ^ (MEM_TEMP.REFRESH_MULT 2).width ∧ 1 < 4) ∧
    (2 < 16 ∧ 1 < 2 ^ (MEM_TEMP.REFRESH_MULT 2).width ∧ sRefreshOverrunExcuses2.mr4Cause = true ∧
      3 < UnitKind.row.count) ∧
    (2 < 16 ∧ 1 < 2 ^ (MEM_TEMP.REFRESH_MULT 2).width ∧ 1 ≤ 1 ∧ (∀ d < 16,
      d ≠ 2 → sRefreshOverrunExcuses2.get (MEM_TEMP.REFRESH_MULT d) ≤ 1)) :=
  by and_intros <;> decide +kernel

/-- The hypotheses of `Obligations.EthernetPortAnswers`, clause by clause. -/
theorem witness_EthernetPortAnswers :
    (sEthernetPortAnswers1.ethUp = true ∧ sEthernetPortAnswers1.headerOk eth0 (fun _ => false) = true) ∧
    -- an ARP request for this device, at the broadcast address
    (sEthernetPortAnswers2.ethUp = true ∧ 77 = sEthernetPortAnswers2.get ETH_IPV4.ADDR ∧
      sEthernetPortAnswers2.headerOk { eth0 with dst := 2 ^ 48 - 1 } (· == 2 ^ 48 - 1) = true ∧
      sEthernetPortAnswers2.is ETH_CFG.IPV4_EN = true) ∧
    -- a solicitation at the solicited-node address, and an echo request of either version
    (sEthernetPortAnswers1.headerOk { eth0 with dst := sEthernetPortAnswers1.solicited } (· ==
        sEthernetPortAnswers1.solicited) = true ∧ sEthernetPortAnswers1.is ETH_CFG.IPV6_EN = true ∧
      sEthernetPortAnswers1.is ETH_CFG.IPV4_EN = true) ∧
    -- a frame for another device, and one with a tag that is not asked for
    (sEthernetPortAnswers1.headerOk { eth0 with dst := 5 } (· == 2 ^ 48 - 1) = false ∧
      sEthernetPortAnswers1.headerOk { eth0 with dst := 5 } (· == sEthernetPortAnswers1.solicited) = false ∧
      sEthernetPortAnswers1.headerOk { eth0 with vlan := some (5, 0) } (fun _ => false) = false) ∧
    (sEthernetPortAnswers5.ethUp = true ∧ sEthernetPortAnswers5.is ETH_CFG.PFC_EN = true) ∧
    (sEthernetPortAnswers1.get ETH_STATUS.STATE = 2) :=
  by and_intros <;> decide +kernel

/-- The hypotheses of `Obligations.RdmaAndPushAcknowledgements`, clause by clause. -/
theorem witness_RdmaAndPushAcknowledgements :
    (Arrives sRdmaAndPushAcknowledgements1 (rw 20 5 [1, 2, 3, 4, 5]).toRoceHdr qp1 ∧
      (∀ b ∈ (rw 20 5 [1, 2, 3, 4, 5]).data, b < 256) ∧ sRdmaAndPushAcknowledgements1.mayAccess 5 0x1000 5 = true ∧
      qp1.ahead 20 = 0 ∧ sRdmaAndPushAcknowledgements1.writeRefusal 0x1000 5 = none ∧
      sRdmaAndPushAcknowledgements1.mayAccess 6 0x1000 5 = false) ∧
    (Arrives sRdmaAndPushAcknowledgements3 (rh 20) qp1 ∧ sRdmaAndPushAcknowledgements3.mayAccess 5 0x1000 100 = true ∧
      qp1.ahead 20 = 0 ∧ sRdmaAndPushAcknowledgements3.poison = [] ∧ 0 < 100 ∧ 100 ≤ mtuBytes qp1.args.mtu) ∧
    (sRdmaAndPushAcknowledgements1.qp 2 = some qp1 ∧ Arrives sRdmaAndPushAcknowledgements1 (rh 11) qp1 ∧
      sRdmaAndPushAcknowledgements1.pushOn 2 = some (bind0, push0) ∧ 11 ∈ push0.waiting ∧
      afterPsn 11 push0.waiting = [12] ∧ [12] ≠ []) ∧
    (sRdmaAndPushAcknowledgements6.qp 2 = some qp1 ∧ qp1.error = false ∧
      sRdmaAndPushAcknowledgements6.pushOn 2 = some (bind0, push0) ∧
      sRdmaAndPushAcknowledgements6.get ETH_RDMA.RETRY ≤ qp1.retries) ∧
    (sRdmaAndPushAcknowledgements7.qp 2 = some qp1 ∧ qp1.error = false ∧
      sRdmaAndPushAcknowledgements7.pushOn 2 = some (bind0, push0) ∧
      qp1.retries < sRdmaAndPushAcknowledgements7.get ETH_RDMA.RETRY) :=
  by and_intros <;> decide +kernel

/-- The hypotheses of `Obligations.SessionsOpenAndClose`, clause by clause. -/
theorem witness_SessionsOpenAndClose :
    (∀ d ∈ [badGram, ⟨org, 0, none, 3, [1, 2, 3]⟩], sEthernetPortAnswers1.ethUp = true ∧
      sEthernetPortAnswers1.headerOk ⟨d.dst, d.src.mac, d.vlan⟩ (fun _ => false) = true ∧
      sEthernetPortAnswers1.is (if isV6 d.src.ip then ETH_CFG.IPV6_EN else ETH_CFG.IPV4_EN) = true ∧
      sEthernetPortAnswers1.datagramBad d = true) ∧
    (sEthernetPortAnswers1.ethUp = true ∧
      sEthernetPortAnswers1.headerOk ⟨helloGram.dst, helloGram.src.mac, helloGram.vlan⟩ (fun _ => false) = true ∧
      sEthernetPortAnswers1.is (if isV6 helloGram.src.ip then ETH_CFG.IPV6_EN else ETH_CFG.IPV4_EN) = true ∧
      sEthernetPortAnswers1.datagramBad helloGram = false ∧ field helloGram.bytes 4 2 = opHELLO ∧
      field helloGram.bytes 2 1 = 0 ∧ field helloGram.bytes 16 8 = 0 ∧ (helloGram.bytes.drop 32).length = 2 ∧
      field helloGram.bytes 24 2 = 0 ∧ field helloGram.bytes 26 2 = 0 ∧ sEthernetPortAnswers1.queueFull = false) ∧
    (sSessionsOpenAndClose2.host.queue = [⟨hdr1, opHELLO, [1, 1]⟩] ∧ field [1, 1] 0 1 = 1 ∧ field [1, 1] 1 1 = 1 ∧
      sSessionsOpenAndClose2.serves opHELLO = true ∧ sSessionsOpenAndClose2.host.sessions.length < 4 ∧
      max 1 (sSessionsOpenAndClose2.get BCP_CFG.VER_MIN) ≤ min 1 (sSessionsOpenAndClose2.get BCP_CFG.VER_MAX) ∧
      jobPermits opHELLO sSessionsOpenAndClose2.job = true) ∧
    Served sSessionsOpenAndClose3 hdr1 opBYE [] ∧ (sSessionsOpenAndClose3.session 1).isSome = true :=
  ⟨by decide +kernel, by decide +kernel, by decide +kernel, served_of rfl (by decide +kernel), by decide +kernel⟩

/-- The hypotheses of `Obligations.RegisterRequestsComplete`, clause by clause. -/
theorem witness_RegisterRequestsComplete :
    (Served sRegisterRequestsComplete1 hdr1 opREG_READ readp ∧ field readp 0 8 = tickBase ∧ field readp 8 2 = 3 ∧ 0 < 3 ∧
      3 ≤ 32) ∧
    -- two words that are stored, with RW and RO fields, and one that fails
    (Served sRegisterRequestsComplete2 hdr1 opREG_WRITE writep ∧ field writep 0 8 = writea ∧
      writep.drop 10 = [7, 8, 9].flatMap (leBytes 8) ∧ (∀ v ∈ [7, 8, 9], v < 2 ^ 64) ∧
      sRegisterRequestsComplete2.plainWord (writea + 8 * 0) ∧ sRegisterRequestsComplete2.plainWord (writea + 8 * 1) ∧
      sRegisterRequestsComplete2.refusesWord (writea + 8 * 2) = true ∧
      4 = (((List.range 3).filter fun k => sRegisterRequestsComplete2.refusesWord (writea + 8 * k)).map fun k => 2 ^ k).sum) :=
  ⟨⟨served_of rfl (by decide +kernel), by decide +kernel⟩, served_of rfl (by decide +kernel), by decide +kernel,
    by decide +kernel, by decide +kernel, ⟨by decide +kernel, by decide +kernel, by decide +kernel, by decide +kernel,
      fun _ => rfl, by and_intros <;> decide +kernel⟩, ⟨by decide +kernel, by decide +kernel, by decide +kernel,
      by decide +kernel, fun _ => rfl, by and_intros <;> decide +kernel⟩, by and_intros <;> decide +kernel⟩

/-- The hypotheses of `Obligations.SetupAndJobRequests`, clause by clause. -/
theorem witness_SetupAndJobRequests :
    (Served sSetupAndJobRequests1 hdr1 opSETUP_COPY cpy ∧ sSetupAndJobRequests1.accepts = true ∧ field cpy 0 8 = 0x1000 ∧
      field cpy 8 8 = 0x040020000000 ∧ field cpy 16 8 = 64 ∧ sSetupAndJobRequests1.copyOk 0x1000 0x040020000000 64 = true ∧
      sSetupAndJobRequests1.poisonIn 0x1000 64 = []) ∧
    (sSetupAndJobRequests2.accepts = true ∧ sSetupAndJobRequests2.host.busyWith = some ⟨hdr1, opSETUP_COPY, cpy⟩) ∧
    (Served ld hdr1 opJOB_LOAD (leBytes 8 7) ∧ ld.accepts = true ∧ field (leBytes 8 7) 0 8 = 7 ∧ ld.tick.sealing = none ∧
      ld.tick.loaded = false ∧ (ld.set TICK_LOAD_STEP.STEP 7).cfgOk = true) ∧
    (Served sSetupAndJobRequests4 hdr1 opJOB_START [] ∧ sSetupAndJobRequests4.accepts = true ∧
      sSetupAndJobRequests4.startOk = true ∧
      (sSetupAndJobRequests4.host.outTbl = [] ∨ sSetupAndJobRequests4.host.bind.isSome = true) ∧
      sSetupAndJobRequests4.allGathered = false ∧ sSetupAndJobRequests4.poison = []) ∧
    (Served sSetupAndJobRequests5 hdr1 opJOB_HALT [] ∧ sSetupAndJobRequests5.accepts = true) ∧
    (Served sSetupAndJobRequests6 hdr1 opJOB_UNLOAD [] ∧ sSetupAndJobRequests6.accepts = true) ∧
    (Served sSetupAndJobRequests7 hdr1 opDRY_FIT [1] ∧ sSetupAndJobRequests7.accepts = true ∧ field [1] 0 1 = 1 ∧ 1 < 2 ∧
      (sSetupAndJobRequests7.set TICK_DRY.BANK 1).dryOk = true ∧ sSetupAndJobRequests7.is (sealedF 1) = true ∧
      sSetupAndJobRequests7.allGathered = false) ∧
    (Served sSetupAndJobRequests8 hdr1 opINPUT_READY ir ∧ sSetupAndJobRequests8.accepts = true ∧ field ir 0 8 = 0 ∧
      field ir 8 2 = 0 ∧ field ir 10 8 = 0 ∧ sSetupAndJobRequests8.get TICK_STEP.STEP ≤ 0 ∧
      0 < sSetupAndJobRequests8.get TICK_STEP.STEP + sSetupAndJobRequests8.get BCP_INBOX_TBL.DEPTH ∧
      0 < sSetupAndJobRequests8.get BCP_INBOX_TBL.COUNT ∧ (sSetupAndJobRequests8.bufAt 0 0).ready = false ∧
      (sSetupAndJobRequests8.bufAt 0 0).received = 0 ∧ sSetupAndJobRequests8.tick.held = false ∧
      sSetupAndJobRequests8.tick.heldOut = false) := by
  and_intros <;> first | exact ⟨_, rfl⟩ | decide +kernel

/-- The hypotheses of `Obligations.QueuePairsEventsAndStop`, clause by clause. -/
theorem witness_QueuePairsEventsAndStop :
    (Served sQueuePairsEventsAndStop7 hdr1 opQP_CREATE qap ∧ field qap 0 4 = qa.rqpn ∧ netField qap 4 16 = qa.rgid ∧
      netField qap 20 6 = qa.rmac ∧ field qap 26 4 = qa.spsn ∧ field qap 30 4 = qa.rpsn ∧ field qap 34 1 = qa.mtu ∧
      3 ≤ qa.mtu ∧ qa.mtu ≤ 5 ∧ sQueuePairsEventsAndStop7.host.qps.length < 64) ∧
    (Served sQueuePairsEventsAndStop1 hdr1 opQP_DESTROY (leBytes 4 2) ∧ field (leBytes 4 2) 0 4 = 2 ∧
      (sQueuePairsEventsAndStop1.qp 2).isSome = true) ∧
    (Served sQueuePairsEventsAndStop2 hdr1 opOUTBOX_BIND ob ∧ field ob 0 4 = 2 ∧ field ob 4 8 = 256 ∧ field ob 12 4 = 5 ∧
      field ob 16 2 = 3 ∧ (sQueuePairsEventsAndStop2.qp 2).isSome = true ∧ 3 ≠ 0) ∧
    (Served sQueuePairsEventsAndStop3 hdr1 opSUBSCRIBE sap ∧ netField sap 0 16 = sa.dst ∧ field sap 16 2 = sa.port ∧
      field sap 18 2 = sa.classes ∧ field sap 20 1 = sa.sampleLog2 ∧ sampleAddrs sap = sa.addrs ∧ sa.addrs.length ≤ 32) ∧
    (Served se hdr1 opEVENT_ACK (leBytes 8 2) ∧ field (leBytes 8 2) 0 8 = 2) ∧
    (se.host.sub = some ⟨1, 1, 5, sa⟩ ∧ se.inReset = false) ∧
    Served sQueuePairsEventsAndStop6 hdr1 opSTOP [] := by
  and_intros <;> first | exact ⟨_, rfl⟩ | decide +kernel

/-- The hypotheses of `Obligations.RecordsAttestationAndMeasurement`, clause by clause. -/
theorem witness_RecordsAttestationAndMeasurement :
    (Served sRecordsAttestationAndMeasurement1 hdr1 opRECORD_WRITE recp ∧ field recp 0 1 = 0 ∧ field recp 8 8 = 0x1000 ∧
      field recp 16 8 = 64 ∧ sRecordsAttestationAndMeasurement1.boot.aon = some aon0) ∧
    -- the last sector, one of three, and one of three in which power failed
    (∀ e ∈ [(1, false), (3, false), (3, true)], (writing e.1 e.2).boot.write = some (wr0 e.1 e.2) ∧
      (writing e.1 e.2).boot.aon = some aon0 ∧ (writing e.1 e.2).xspi = .driven) ∧
    ((wr0 1 false).left ≤ 1 ∧ ¬(wr0 3 false).left ≤ 1 ∧ (wr0 3 true).powerFailed = true) ∧
    (Served sRecordsAttestationAndMeasurement4 hdr1 opATTEST attp ∧ field attp 0 32 = 99 ∧ field attp 32 8 = 0x1000 ∧
      sRecordsAttestationAndMeasurement4.boot.aon = some aon0 ∧
      sRecordsAttestationAndMeasurement4.is CFG_STATUS.ID_FAIL = false ∧ 0x1000 % 64 = 0 ∧ inLpddr 0x1000 4744 = true) ∧
    sRecordsAttestationAndMeasurement10.det.signing.isSome = true ∧
    (signing1.det.signing = none ∧ signing1.inReset = false ∧ signing1.boot.attest = some (0x1000, [1, 2]) ∧ signing1.boot.aon = some aon0 ∧
      signing1.host.busyWith = some ⟨hdr1, opATTEST, attp⟩) ∧
    (sDebugReadAndRootRecordWrite3.accepts = true ∧ sDebugReadAndRootRecordWrite3.job = 1 ∧
      sDebugReadAndRootRecordWrite3.is DET_STATE_CTRL.BUSY = false ∧
      (∀ e ∈ sDebugReadAndRootRecordWrite3.xstate, e.2.2 = true)) ∧
    (sTickControlRequestsTakeEffect2.accepts = true ∧ sTickControlRequestsTakeEffect2.job ≠ 1) ∧
    (sRecordsAttestationAndMeasurement8.accepts = true ∧ sRecordsAttestationAndMeasurement8.provOk = true) ∧
    (sRecordsAttestationAndMeasurement9.is DET_STATE_CTRL.BUSY = true ∧ sRecordsAttestationAndMeasurement9.poison = []) ∧
    sRecordsAttestationAndMeasurement10.det.signing = some (3, 3) :=
  ⟨⟨served_of rfl (by decide +kernel), by decide +kernel, by decide +kernel, by decide +kernel, rfl⟩, fun e he => ⟨rfl, rfl, by
      revert e
      decide +kernel⟩, by decide +kernel,
    ⟨served_of rfl (by decide +kernel), by decide +kernel, by decide +kernel, rfl, by decide +kernel⟩, by decide +kernel,
    ⟨by decide +kernel, by decide +kernel, by decide +kernel, rfl, by decide +kernel⟩, by and_intros <;> decide +kernel⟩

/-- The hypotheses of `Obligations.ResetsKeepWhatTheirKindKeeps`, clause by clause. -/
theorem witness_ResetsKeepWhatTheirKindKeeps :
    (∀ s ∈ [running, low, lowFresh true, lowFresh false, (w [])], s.stillHot = false) ∧
    (low.pwr.rstLow = true ∧ low.pwr.power ≠ .off ∧ low.pwr.por = false ∧ low.pwr.fresh = false) ∧
    -- the power-on reset ends with RST_N low and high; a pulse below 1 µs before the first configuration
    (lowFresh true).pwr.por = true ∧ ((lowFresh false).pwr.fresh = true ∧ (lowFresh false).pwr.por = false ∧ 999 < 1000) ∧
    10 ^ 7 ≤ 10000000 ∧
    -- a warm reset by register, by the management bus, and by a pulse of 1 µs
    ((running.job = 0 ∨ running.job = 3) ∧ running.awake = true ∧ running.pwr.power = .run ∧ running.pwr.smbNack = false ∧
      low.pwr.power = .run ∧ 1000 ≤ 1000 ∧ 1000 < 10 ^ 7 ∧ low.pwr.lastRelease = none) ∧
    (sResetsKeepWhatTheirKindKeeps11.boot.configuring = true ∧ sResetsKeepWhatTheirKindKeeps11.pwr.por = false ∧
      sResetsKeepWhatTheirKindKeeps11.pwr.rstLow = false ∧ sResetsKeepWhatTheirKindKeeps11.pwr.power = .run ∧
      sResetsKeepWhatTheirKindKeeps11.boot.kind = 2 ∧ sResetsKeepWhatTheirKindKeeps11.boot.aon = some aon0 ∧
      shake256 aon0.contents = aon0.digest) ∧
    (sResetsKeepWhatTheirKindKeeps12.boot.configuring = true ∧ sResetsKeepWhatTheirKindKeeps12.pwr.por = false ∧
      sResetsKeepWhatTheirKindKeeps12.pwr.rstLow = false ∧ sResetsKeepWhatTheirKindKeeps12.pwr.power = .run ∧
      sResetsKeepWhatTheirKindKeeps12.boot.kind ≠ 2 ∧ fromFlash sResetsKeepWhatTheirKindKeeps12.boot.flash = none) :=
  ⟨by decide +kernel, by decide +kernel, by decide +kernel, by decide +kernel, by decide +kernel, by decide +kernel,
    ⟨by decide +kernel, by decide +kernel, by decide +kernel, by decide +kernel, by decide +kernel, rfl, aon0_digest⟩,
    by decide +kernel, by decide +kernel, by decide +kernel, by decide +kernel, by decide +kernel, erased_fails⟩

/-- The hypotheses of `Obligations.StopWakeManagementBusAndTap`, clause by clause. -/
theorem witness_StopWakeManagementBusAndTap :
    sStopWakeManagementBusAndTap1.pwr.power = .entering ∧ sStopWakeManagementBusAndTap2.pwr.power = .entering ∧
    sStopWakeManagementBusAndTap3.pwr.power = .stop ∧
    (sStopWakeManagementBusAndTap4.pwr.power = .waking ∧ sStopWakeManagementBusAndTap4.stillHot = false) ∧
    sStopWakeManagementBusAndTap5.accepts = true ∧
    (sStopWakeManagementBusAndTap6.pwr.power = .run ∧ sStopWakeManagementBusAndTap6.pwr.smbNack = false ∧
      sStopWakeManagementBusAndTap6.job = 0 ∧ sStopWakeManagementBusAndTap6.boot.configuring = false ∧
      sStopWakeManagementBusAndTap6.accepts = true) ∧
    (sStopWakeManagementBusAndTap8.pwr.power ≠ .off ∧ sStopWakeManagementBusAndTap8.asleep = false ∧
      sStopWakeManagementBusAndTap8.alert = true) ∧
    (∀ s ∈ [sTap1, sTap2, sTap3], s.pwr.power ≠ .off ∧ s.pwr.power ≠ .tripped ∧ s.is PAD_HOLD.HELD = false) ∧
    (sTap1.pwr.tapCut = true ∧ sTap2.pwr.tapCut = false ∧ sTap3.pwr.tapCut = false ∧ sTap2.tapHolds = true ∧
      sTap3.tapHolds = false) :=
  by and_intros <;> decide +kernel

/-- The hypotheses of `Obligations.PinsRailsAndSensors`, clause by clause. -/
theorem witness_PinsRailsAndSensors :
    sPinsRailsAndSensors0.pinsLive = false ∧ sStopWakeManagementBusAndTap5.pinsLive = false ∧
    (sStopWakeManagementBusAndTap9.pinsLive = true ∧ sStopWakeManagementBusAndTap9.pwr.power ≠ .off) ∧
    (sPinsRailsAndSensors3.pwr.pfLow = true ∧ sPinsRailsAndSensors3.pinsLive = true) ∧
    -- pulses on the management bus: filtered, too fast, and stuck
    (49 < 50 ∧ 50 ≤ 50 ∧ 349 < 350 ∧ smbStuckNs < smbStuckNs + 1) ∧
    (3 < 4 ∧ 4 ≤ 4 ∧ sPinsRailsAndSensors9.pinsLive = true ∧ sPinsRailsAndSensors9.pwr.lastSquareEdge = none ∧
      sPinsRailsAndSensors9.is FAB_SQUP_CHK.ENABLE = true ∧ sPinsRailsAndSensors9.pwr.squpStuck = false) ∧
    -- a rail in RUN, and one that stays on in stop
    (6 < 7 ∧ sPinsRailsAndSensors11.railOn 6 = true ∧ sPinsRailsAndSensors11.err.handling = none ∧ 3 < 7 ∧
      sStopWakeManagementBusAndTap3.railOn 3 = true ∧ sStopWakeManagementBusAndTap3.err.handling = none) ∧
    (sPinsRailsAndSensors12.powered = true ∧ 1600 ≤ 1600 ∧ sPinsRailsAndSensors12.get PWR_LIMIT.WATTS < 1600 ∧
      1600 < 1601 ∧ sPinsRailsAndSensors12.err.handling = none) ∧
    (sPinsRailsAndSensors13.powered = true ∧ 200 ≤ 1600 ∧ 200 < sPinsRailsAndSensors13.get PWR_LIMIT.WATTS) ∧
    -- readings below the throttling point, of 106 and 114 °C in a hot spell, and of 115 °C
    (sPinsRailsAndSensors14.powered = true ∧ sPinsRailsAndSensors14.get THERM_STATUS.LEVEL = 2 ∧
      sPinsRailsAndSensors14.err.handling = none ∧ ∀ n ∈ [(99 : Int), 106, 114, 115], (at71 n).length = 72 ∧
        (hottest (at71 n)).1 = n) ∧
    (sTripped.pwr.power = .tripped ∧ sTripped.stillHot = true) ∧
    (sPinsRailsAndSensors15.powered = true ∧ 105 < (hottest sPinsRailsAndSensors15.pwr.temps).1) ∧
    (sPinsRailsAndSensors16.powered = true ∧ 105 < (hottest sPinsRailsAndSensors16.pwr.temps).1) :=
  by and_intros <;> decide +kernel

/-- The hypotheses of `Obligations.ControlRegistersAndExceptions`, clause by clause. -/
theorem witness_ControlRegistersAndExceptions :
    (RowRuns V0 5 0 ∧ RowRuns V1 5 1) ∧
    -- CSR read: every CSR but the clock in either context; the clock in the service context; CSR write
    (9 < 32 ∧ 16 ≠ 48 ∧ csrFields 5 0 16 ≠ [] ∧ 36 ≠ 48 ∧ csrFields 5 1 36 ≠ []) ∧
    (csrFields 5 0 34 ≠ [] ∧ csrFields 5 1 17 ≠ []) ∧
    -- the exceptions: BREAK; the clock in the list context; no such CSR; a misaligned and a denied address
    (Instr.brk 5 [] = .brk 5 [] ∧ 5 = 5 ∧ 0 = 0) ∧
    (Instr.csrRead 5 3 48 [] = .csrRead 5 3 48 [] ∧ 48 = 0x030 ∧ 0 = 0) ∧
    (Instr.csrRead 5 3 85 [] = .csrRead 5 3 85 [] ∧ csrFields 5 1 85 = []) ∧
    (4 ∈ [1, 2, 4, 8] ∧ V0.baseOff 5 0 6 0 % 4 ≠ 0) ∧
    (4 ∈ [1, 2, 4, 8] ∧ V1.baseOff 5 1 1 0 % 4 = 0 ∧ V1.view 5 1 (V1.baseOff 5 1 1 0) 4 false = .none) ∧
    (8 ∈ [1, 2, 4, 8] ∧ V0.baseOff 5 0 6 0 % 8 ≠ 0) ∧
    (8 ∈ [1, 2, 4, 8] ∧ V0.baseOff 5 0 1 0 % 8 = 0 ∧ V0.view 5 0 (V0.baseOff 5 0 1 0) 8 true = .none) ∧
    -- a suspended vector
    (widthOk 32 = true ∧ (vIsF .add = true → fwidthOk 32 = true) ∧ V1.get (LV_RESUME.INDEX 5 1) ≤ 5 ∧
      5 < V1.vCount 5 1 { ew := 32, gc := 0, mask := some 1, stop := some 5 } (vMax 32)) :=
  ⟨⟨V0_runs, V1_runs⟩, by decide +kernel, by decide +kernel, by decide +kernel, by decide +kernel,
    ⟨rfl, by decide +kernel⟩, by and_intros <;> decide +kernel⟩

/-- The hypotheses of `Obligations.CallsAndTheServiceContext`, clause by clause. -/
theorem witness_CallsAndTheServiceContext :
    (Ready sCallsAndTheServiceContext1 .row engCall is5 ∧ (sCallsAndTheServiceContext1.row 5).faulted = false) ∧
    (Ready sCallsAndTheServiceContext2 .row engCall is5 ∧ (sCallsAndTheServiceContext2.row 5).faulted = false ∧
      sCallsAndTheServiceContext2.get (EXN_STATUS.CTX 5) = 2) ∧
    (Ready sCallsAndTheServiceContext3 .row engCall is5 ∧ (sCallsAndTheServiceContext3.row 5).faulted = true) ∧
    -- RET at 400, in time, with a new maximum; RET at 501, after END_CC; RET of the service context
    (RowRuns V0 5 0 ∧ (V0.row 5).call = some ⟨3, 10, 500, false⟩ ∧ 400 ≤ 500 ∧ 500 < 501 ∧ V0.excused = false ∧
      V0.get (EXN_ENTRY_MAX.MAX_CC 5) < 400 - 10) ∧
    RowRuns V1 5 1 ∧
    -- RET and the deadline while a cause is active
    (RowRuns hotRow 5 0 ∧ (hotRow.row 5).call = some ⟨3, 10, 500, false⟩ ∧ hotRow.excused = true) ∧
    (V0.tick.freeze = 0 ∧ V0.excused = false) ∧
    (5 < 64 ∧ (V0.row 5).call = some ⟨3, 10, 500, false⟩ ∧ V0.busyRec .row 5 engCall = V0.tick.busy.head? ∧
      V0.tick.busy ≠ [] ∧ V0.job = 2 ∧ V0.err.handling = none ∧ V0.is ERR_SWAP.BUSY = false ∧
      V0.is TICK_FAULT.VALID = false) ∧
    (5 < 64 ∧ sCallsAndTheServiceContext8.get (EXN_STATUS.CTX 5) = 3) ∧
    (5 < 64 ∧ sCallsAndTheServiceContext1.accepts = true ∧ sCallsAndTheServiceContext1.powered = true ∧
      sCallsAndTheServiceContext1.boot.configuring = false ∧ sCallsAndTheServiceContext1.get (EXN_STATUS.CTX 5) = 0) ∧
    (5 < 64 ∧ V0.accepts = true ∧ V0.powered = true ∧ V0.boot.configuring = false ∧ V0.get (EXN_STATUS.CTX 5) = 1 ∧
      (V0.row 5).events.length < 64) ∧
    (5 < 64 ∧ sCallsAndTheServiceContext11.accepts = true ∧ sCallsAndTheServiceContext11.powered = true ∧
      sCallsAndTheServiceContext11.boot.configuring = false ∧ (sCallsAndTheServiceContext11.get (EXN_STATUS.CTX 5) = 1 ∨
        sCallsAndTheServiceContext11.get (EXN_STATUS.CTX 5) = 3) ∧
      64 ≤ (sCallsAndTheServiceContext11.row 5).events.length) :=
  ⟨⟨ready_of (by decide +kernel), by decide +kernel⟩, ⟨ready_of (by decide +kernel), by decide +kernel⟩,
    ⟨ready_of (by decide +kernel), by decide +kernel⟩, ⟨V0_runs, by decide +kernel⟩, V1_runs,
    ⟨rowRuns_of (by decide +kernel), by decide +kernel⟩, by and_intros <;> decide +kernel⟩

/-- The hypotheses of `Obligations.ScalarInstructionsWriteTheirResult`, clause by clause. -/
theorem witness_ScalarInstructionsWriteTheirResult :
    (RowRuns V0 5 0 ∧ 9 < 32 ∧ 0 < 32) ∧
    -- a sum; shifts of registers by 2 and of an immediate by 63
    ((IntOp.addi, V0.xGet 5 0 kG 1 + imm16 65528) ∈ [(IntOp.addi, V0.xGet 5 0 kG 1 + imm16 65528)]) ∧
    (2 < 64 ∧ V0.xGet 5 0 kG 2 = 2 ∧ 63 < 64 ∧ 63 % 2 ^ 16 = 63 ∧ V0.xGet 5 0 kG 7 = 63) ∧
    -- quotients of a negative and of an unsigned number
    (V0.xGet 5 0 kG 2 ≠ 0 ∧ ¬(V0.xGet 5 0 kG 1 = 2 ^ 63 ∧ V0.xGet 5 0 kG 2 = 2 ^ 64 - 1)) ∧
    -- both widths of the float operations; every conversion source in a legal rounding mode
    (64 = (if true then 64 else 32) ∧ 32 = (if false then 64 else 32)) ∧
    (rndOf 0 = some .rne ∧ rndOf 3 ≠ none ∧ V0.convSrc 5 0 1 .f64 = .fin false (3 * 2 ^ 51) (-52)) ∧
    -- the range of a conversion to i64, at its ends
    (-(2 ^ 63) ≤ (-(2 ^ 63) : Int) ∧ (2 ^ 63 - 1 : Int) < 2 ^ 63) ∧
    (8 ∈ [8, 16, 32, 64] ∧ 64 ∈ [8, 16, 32, 64]) :=
  ⟨⟨V0_runs, by decide +kernel⟩, by and_intros <;> decide +kernel⟩

/-- The hypotheses of `Obligations.ShortVectorsAndScalarMemory`, clause by clause. -/
theorem witness_ShortVectorsAndScalarMemory :
    (RowRuns V0 5 0 ∧ RowRuns V1 5 1 ∧ 32 ∈ [8, 16, 32, 64] ∧ 8 ∈ [8, 16, 32, 64] ∧
      (sIsF SOp.fadd = true → 32 = 32 ∨ 32 = 64) ∧ (sIsF SOp.add = true → 8 = 32 ∨ 8 = 64)) ∧
    (1 < 128 / 64 ∧ 6 < 32 ∧ 15 < 16 ∧ lane (V0.xGet 5 0 kSV 3) 8 15 < 32) ∧
    (4 ∈ [1, 2, 4, 8] ∧ 9 < 64 ∧ V0.reaches 5 0 (V0.baseOff 5 0 3 16) 4 false 4112) ∧
    (8 ∈ [1, 2, 4, 8] ∧ 63 < 64 ∧ V0.reaches 5 0 (V0.baseOff 5 0 3 16) 8 true 4112) ∧
    V0.reaches 5 0 (V0.baseOff 5 0 3 16) 16 false 4112 ∧
    V0.reaches 5 0 (V0.baseOff 5 0 3 16) 16 true 4112 :=
  ⟨⟨V0_runs, V1_runs, by decide +kernel⟩, by and_intros <;> decide +kernel⟩

/-- The hypotheses of `Obligations.VectorInstructionsWorkElementByElement`, clause by clause. -/
theorem witness_VectorInstructionsWorkElementByElement :
    (VecRuns V0 5 0 two ∧ VecRuns V1 5 1 two) ∧
    ((vIsF VOp.fadd = true → fwidthOk two.ew = true) ∧ (cmpIsF CmpOp.ltS = true → fwidthOk two.ew = true) ∧
      fwidthOk two.ew = true) ∧
    (0 < 31 ∧ 31 < 32) ∧
    (V0.partakes 5 0 two (vMax 32) 0 = true ∧ V0.partakes 5 0 two (vMax 32) 2 = false) :=
  ⟨⟨⟨V0_runs, by decide, .inl rfl⟩, ⟨V1_runs, by decide, .inr rfl⟩⟩, by decide +kernel, by decide, by decide +kernel⟩

/-- The hypotheses of `Obligations.VectorLoadsAndStores`, clause by clause. -/
theorem witness_VectorLoadsAndStores :
    VecRuns V0 5 0 two ∧ 4 = two.ew / 8 ∧
    -- VLD, VLDS, VLPROBE and VLX
    V0.allReach 5 0 two (vMax 32) 4 false (fun k => V0.unitAt 5 0 3 k 4) (fun k => 4096 + 4 * k) ∧
    V0.allReach 5 0 two (vMax 32) 4 false (V0.strideAt 5 0 3 4) (fun k => 4096 + 8 * k) ∧
    (10 % 32 ≠ 9 % 32 ∧ V0.allReach 5 0 two (xMax 32) 4 false (V0.indexAt 5 0 3 9 two.ew) (fun k => 4096 + 16 * k)) ∧
    -- VLPROBE that element 1 ends
    (0 < 1 ∧ V0.partakes 5 0 two (vMax two.ew) 1 = true ∧ (∀ k < 1, V0.partakes 5 0 two (vMax two.ew) k = true →
        V0.reaches 5 0 (V0.unitAt 5 0 12 k 4) 4 false (scratchAt 5 (524288 - 4 + 4 * k))) ∧
      (V0.rowFault 5 0 (V0.unitAt 5 0 12 1 4) 4 4 false).isSome = true) ∧
    -- VLW
    (fBF16 ∈ [fFP16, fBF16, fE4M3, fE5M2] ∧ fwidthOk two.ew = true ∧ V0.allReach 5 0 two (vMax two.ew) (fmtBytes fBF16)
      false (fun k => V0.unitAt 5 0 3 k (fmtBytes fBF16)) (fun k => 4096 + 2 * k)) ∧
    -- VST, VSTS and VSX
    V0.allReach 5 0 two (vMax 32) 4 true (fun k => V0.unitAt 5 0 3 k 4) (fun k => 4096 + 4 * k) ∧
    V0.allReach 5 0 two (vMax 32) 4 true (V0.strideAt 5 0 3 4) (fun k => 4096 + 8 * k) ∧
    V0.allReach 5 0 two (xMax 32) 4 true (V0.indexAt 5 0 3 9 two.ew) (fun k => 4096 + 16 * k) ∧
    -- VSXA.O, and VSXA.U with STRICT 1 and 0
    ((∀ j k : Nat, V0.partakes 5 0 two (xMax two.ew) j = true → V0.partakes 5 0 two (xMax two.ew) k = true →
        4096 + 16 * j = 4096 + 16 * k ∨ Apart 4 (4096 + 16 * j) (4096 + 16 * k)) ∧ V0.is DET_MODE.STRICT = false) ∧
    (VecRuns (strict V0) 5 0 two ∧ (strict V0).is DET_MODE.STRICT = true ∧
      (strict V0).allReach 5 0 two (xMax 32) 4 true ((strict V0).indexAt 5 0 3 9 two.ew) (fun k => 4096 + 16 * k)) ∧
    -- VSG
    (VecRuns gs 5 0 two ∧ 2 < 16 ∧ gs.partakes 5 0 two (vMax two.ew) 0 = true ∧ gs.gateSlotOk 5 2 = true ∧ fmtBytes (gateOf (gs.get (EXN_GATE.GATE 5 2))).fmt = 2 ∧
      gs.allReach 5 0 two (vMax two.ew) 2 true (fun k => gs.unitAt 5 0 3 k 2) (fun k => 4096 + 2 * k)) :=
  ⟨⟨V0_runs, by decide, .inl rfl⟩, by decide +kernel, allReach_of (by decide +kernel), allReach_of (by decide +kernel),
    ⟨by decide, allReach_of (by decide +kernel)⟩,
    ⟨by decide, by decide +kernel, (by
      intro k hk _
      have h0 : k = 0 := by omega
      subst h0
      exact by and_intros <;> decide +kernel), by decide +kernel⟩,
    ⟨by decide, by decide, allReach_of (by decide +kernel)⟩, allReach_of (by decide +kernel), allReach_of (by decide +kernel),
    allReach_of (by decide +kernel), ⟨(by intro j k _ _; simp only [Apart]; omega), by decide +kernel⟩,
    ⟨⟨rowRuns_of (by decide +kernel), by decide, .inl rfl⟩, by decide +kernel, allReach_of (by decide +kernel)⟩,
    ⟨gs_runs, by decide, .inl rfl⟩, by decide, by decide +kernel, by decide +kernel, by decide +kernel, allReach_of (by decide +kernel)⟩

end Sys2Proof.Machine
end

/-! SUPPORT. Writes of the register window (O5, O6, O7): what a write does to one field, by its access code, to a register
of RW fields, and where it is refused. -/

namespace Sys2Proof.Machine
open Reg

/-! ### Writing the fields of a register -/

/-- The bits of a word that belong to a field fit its width. -/
theorem Fld.of_lt (f : Fld) (v : Nat) : f.of v < 2 ^ f.width := Nat.mod_lt _ (Nat.two_pow_pos _)

@[simp] theorem Fld.of_mod (f : Fld) (v : Nat) : f.of v % 2 ^ f.width = f.of v := Nat.mod_mod _ _

section
variable (s : State) (v : Nat) (f : Fld)

theorem State.writeField_ro (h : f.acc = .ro) : s.writeField v f = s := by simp [State.writeField, h]

theorem State.writeField_rw (h : f.acc = .rw) : s.writeField v f = s.set f (f.of v) := by simp [State.writeField, h]

theorem State.writeField_w1c (h : f.acc = .w1c) :
    s.writeField v f = s.set f (s.get f - Nat.land (s.get f) (f.of v)) := by simp [State.writeField, h]

theorem State.writeField_rwl (h : f.acc = .rwl) : s.writeField v f = s.setLocked f (f.of v) := by
  simp [State.writeField, h]

theorem State.writeField_command_zero (h : f.acc = .wo ∨ f.acc = .w1s) (h0 : f.of v = 0) : s.writeField v f = s := by
  rcases h with h | h <;> simp [State.writeField, h, h0]

end

/-! ### A corrected-class event (R331, R352) -/

/-- The fields that a corrected-class event may change: the class counter and, where LOG_CORR is set, the log's status. -/
def correctedFields : List Fld := [ERR_COUNT0.CORRECTED, ERR_LOG_STATUS.TOTAL, ERR_LOG_STATUS.NEXT, ERR_LOG_STATUS.WRAPPED]

theorem State.log_corrected_mem (s : State) (e : Err) (a b c : Bool) (h : e.cls = 0) : (s.log e a b c).mem = s.mem := by
  unfold State.log
  simp only [h, if_true]
  split <;> rfl

/-- Logging a corrected error changes no field but the log's status. -/
theorem State.log_corrected_get (s : State) (e : Err) (a b c : Bool) (h : e.cls = 0) {g : Fld}
    (hg : g.key ∉ [ERR_LOG_STATUS.TOTAL.key, ERR_LOG_STATUS.NEXT.key, ERR_LOG_STATUS.WRAPPED.key]) :
    (s.log e a b c).get g = s.get g := by
  simp only [List.mem_cons, List.not_mem_nil, or_false, not_or] at hg
  obtain ⟨ht, hn, hw⟩ := hg
  unfold State.log
  simp only [h, if_true]
  split
  · rw [State.get_set_other _ _ hw, State.get_set_other _ _ hn]
    exact State.get_inc_other _ _ ht
  · rw [State.get_set_other _ _ hn]
    exact State.get_inc_other _ _ ht

/-- An error of the corrected class is counted, and logged where LOG_CORR asks for it. -/
theorem State.raise_corrected (s : State) (e : Err) (h : e.cls = 0) :
    s.raise e = if (s.inc ERR_COUNT0.CORRECTED).is ERR_CTRL.LOG_CORR
      then (s.inc ERR_COUNT0.CORRECTED).log e false false false else s.inc ERR_COUNT0.CORRECTED := by
  simp [State.raise, State.noteFirst, State.countErr, h]

theorem State.raise_corrected_mem (s : State) (e : Err) (h : e.cls = 0) : (s.raise e).mem = s.mem := by
  rw [s.raise_corrected e h]
  split
  · exact State.log_corrected_mem _ e _ _ _ h
  · rfl

theorem State.raise_corrected_get (s : State) (e : Err) (h : e.cls = 0) {g : Fld}
    (hg : g.key ∉ correctedFields.map Fld.key) : (s.raise e).get g = s.get g := by
  have hg' := List.not_mem_of_not_mem_cons hg
  have hc := State.get_inc_other s 1 (List.ne_of_not_mem_cons hg)
  rw [s.raise_corrected e h]
  split
  · rw [State.log_corrected_get _ e _ _ _ h hg', hc]
  · exact hc

theorem State.raise_corrected_count (s : State) (e : Err) (h : e.cls = 0) :
    (s.raise e).get ERR_COUNT0.CORRECTED = min (s.get ERR_COUNT0.CORRECTED + 1) (2 ^ 32 - 1) := by
  rw [s.raise_corrected e h]
  split
  · rw [State.log_corrected_get _ e _ _ _ h (by decide)]
    exact s.get_inc_same _ _
  · exact s.get_inc_same _ _

/-- A corrected-class event of a block is an error of class 0 in a state that has drawn two free values. -/
theorem State.corrected_eq (s : State) (a b c : Nat) :
    ∃ (e : Err) (n : Nat), e.cls = 0 ∧ s.corrected a b c = ({ s with freeCtr := n } : State).raise e :=
  ⟨⟨0, a, b, c, Config.freeValue s.freeCtr % 2 ^ 16, Config.freeValue (s.freeCtr + 1) % 2 ^ 48⟩, s.freeCtr + 2, rfl, rfl⟩

section
variable (s : State) (a b c : Nat)

theorem State.corrected_mem : (s.corrected a b c).mem = s.mem := by
  obtain ⟨e, n, he, hc⟩ := s.corrected_eq a b c
  rw [hc, State.raise_corrected_mem _ e he]

theorem State.corrected_get {g : Fld} (hg : g.key ∉ correctedFields.map Fld.key) : (s.corrected a b c).get g = s.get g := by
  obtain ⟨e, n, he, hc⟩ := s.corrected_eq a b c
  rw [hc, State.raise_corrected_get _ e he hg]
  rfl

theorem State.corrected_count :
    (s.corrected a b c).get ERR_COUNT0.CORRECTED = min (s.get ERR_COUNT0.CORRECTED + 1) (2 ^ 32 - 1) := by
  obtain ⟨e, n, he, hc⟩ := s.corrected_eq a b c
  rw [hc, State.raise_corrected_count _ e he]
  rfl

end

/-! ### RW-L fields (R10) -/

section
variable (s : State) (f : Fld) (x : Nat)

theorem State.setLocked_unloaded (h : s.tick.loaded = false) : s.setLocked f x = s.set f x := by
  simp [State.setLocked, h]

theorem State.setLocked_same (h : s.tick.loaded = true) (hx : x % 2 ^ f.width = s.get f) : s.setLocked f x = s := by
  simp [State.setLocked, h, hx]

theorem State.setLocked_logs (h : s.tick.loaded = true) (hx : x % 2 ^ f.width ≠ s.get f) :
    ∃ a b c, s.setLocked f x = s.corrected a b c :=
  ⟨_, _, _, by rw [State.setLocked, if_pos h, if_neg hx]⟩

end

/-- Settles O7: one case for each access code; a locked field that would change costs one corrected-class event. -/
theorem fieldsObeyTheirAccessCodes : Obligations.FieldsObeyTheirAccessCodes := by
  intro s v f
  refine ⟨s.writeField_ro v f, s.writeField_rw v f, s.writeField_w1c v f, ?_, ?_, ?_, s.writeField_command_zero v f⟩
  case refine_1 =>
    intro hf hl
    rw [s.writeField_rwl v f hf, s.setLocked_unloaded f _ hl]
  case refine_2 =>
    intro hf hl hv
    rw [s.writeField_rwl v f hf, s.setLocked_same f _ hl (by rw [Fld.of_mod, hv])]
  case refine_3 =>
    intro hf hl hv hk
    obtain ⟨a, b, c, hc⟩ := s.setLocked_logs f (f.of v) hl (by rwa [Fld.of_mod])
    rw [s.writeField_rwl v f hf, hc]
    exact ⟨s.corrected_get a b c hk, s.corrected_mem a b c, s.corrected_count a b c⟩

/-! ### Writing a whole register -/

/-- Fields in turn are the fields. -/
theorem mem_inTurn {fs : List Fld} {f : Fld} : f ∈ inTurn fs ↔ f ∈ fs := by
  have : f.acc.turn = 0 ∨ f.acc.turn = 1 ∨ f.acc.turn = 2 ∨ f.acc.turn = 3 := by cases f.acc <;> decide
  simp only [inTurn, List.mem_flatMap, List.mem_filter, List.mem_cons, List.not_mem_nil, or_false, beq_iff_eq]
  constructor
  · rintro ⟨_, _, h, _⟩; exact h
  · intro h; exact ⟨f.acc.turn, this, h, rfl⟩

/-- RW fields take a write in the order in which they stand. -/
theorem inTurn_rw {fs : List Fld} (h : ∀ f ∈ fs, f.acc = .rw) : inTurn fs = fs := by
  have turn : ∀ k, (fs.filter fun f => f.acc.turn == k) = if k = 1 then fs else [] := by
    intro k
    split
    · exact List.filter_eq_self.2 fun f hf => by rw [h f hf, ‹k = 1›]; rfl
    · exact List.filter_eq_nil_iff.2 fun f hf => by simp [h f hf, Access.turn]; omega
  simp [inTurn, turn]

/-- Writing several fields changes the register fields alone. -/
theorem State.setAll_frame (s : State) (l : List (Fld × Nat)) : { s.setAll l with flds := s.flds } = s := by
  induction l generalizing s with
  | nil => rfl
  | cons e l ih =>
    have := congrArg (fun t : State => { t with flds := s.flds }) (ih (s.set e.1 e.2))
    exact this

/-- An answer does not matter to a write of fields. -/
theorem State.setAll_answer (s : State) (ok : Bool) (x : Nat) (l : List (Fld × Nat)) :
    (s.answer ok x).setAll l = (s.setAll l).answer ok x := by
  induction l generalizing s with
  | nil => rfl
  | cons e l ih => exact ih (s.set e.1 e.2)

/-- Among fields that stand apart each one written holds its value, cut to its width. -/
theorem State.get_setAll_mem (s : State) {fs : List Fld} (x : Fld → Nat) (hn : (fs.map Fld.key).Nodup) {f : Fld}
    (hf : f ∈ fs) : (s.setAll (fs.map fun f => (f, x f))).get f = x f % 2 ^ f.width := by
  induction fs generalizing s with
  | nil => cases hf
  | cons g fs ih =>
    obtain ⟨hg, hn⟩ := List.nodup_cons.1 hn
    rw [List.map_cons, State.setAll_cons]
    rcases List.mem_cons.1 hf with rfl | hf
    · rw [State.get_setAll_other _ _ (by simpa using hg), State.get_set_same]
    · exact ih _ hn hf

/-- Writing a register of RW fields writes its fields. -/
theorem State.writeAll_rw (s : State) (v : Nat) {fs : List Fld} (h : ∀ f ∈ fs, f.acc = .rw) :
    s.writeAll v fs = (s.setAll (fs.map fun f => (f, f.of v))).okay := by
  suffices ∀ b, (fun r : State × Bool => r.1.answer r.2 0) (fs.foldl (fun (y : State × Bool) f =>
      let s := y.1.okay.writeField v f
      (s, y.2 && s.resp.ok)) (s, b)) = (s.setAll (fs.map fun f => (f, f.of v))).answer b 0 by
    unfold State.writeAll
    rw [inTurn_rw h]
    exact this true
  intro b
  induction fs generalizing s b with
  | nil => rfl
  | cons f fs ih =>
    obtain ⟨hf, hfs⟩ := List.forall_mem_cons.1 h
    have := ih (s.okay.set f (f.of v)) hfs (b && true)
    rw [List.foldl_cons]
    simp only [State.writeField_rw _ v f hf]
    refine this.trans ?_
    have hc : s.okay.set f (f.of v) = (s.set f (f.of v)).answer true 0 := rfl
    rw [hc, State.setAll_answer, Bool.and_true]
    rfl

/-- A write that is accepted, aligned and finds a register without a rule of its own writes its fields. -/
theorem execRegisterWrite_fields (s : State) {a v : Nat} (hs : s.accepts = true) (ha : a % 8 = 0) (hf : fieldsAt a ≠ [])
    (ho : s.ownRule a v = none) : exec (.registerWrite a 8 v) s = .next (s.writeAll v (fieldsAt a)) := by
  have hw : s.writeReg a v = s.writeAll v (fieldsAt a) := by
    unfold State.writeReg
    simp only [List.isEmpty_iff, hf, if_false, ho]
  simp only [exec, execRegisterWrite, State.write_accepts _ _ hs, ne_eq, not_true_eq_false, ha, or_self, if_false, hw]

/-- Settles O5: the fields take their bits one after the other, and each stands apart from the rest. -/
theorem registerWriteStoresEveryField : Obligations.RegisterWriteStoresEveryField := by
  intro s a v hs ha hf ho hrw hn
  refine ⟨_, execRegisterWrite_fields s hs ha hf ho, ?_⟩
  rw [s.writeAll_rw v hrw]
  refine ⟨rfl, fun f hm => ?_, ?_, fun g hg => ?_⟩
  · rw [State.get_okay, s.get_setAll_mem _ hn hm, Fld.of_mod]
  · exact congrArg State.okay (s.setAll_frame _)
  · exact s.get_setAll_other _ (by simpa using hg)

/-! ### Writes that are refused (R9, R246, R342) -/

/-- Settles O6: the first clause by the checks of the write itself, the second by the one gate that every write passes. -/
theorem refusedRegisterWritesHaveNoEffect : Obligations.RefusedRegisterWritesHaveNoEffect := by
  refine ⟨fun s a size v hs h => ?_, fun s a v w hs => ⟨?_, fun hw => ?_⟩⟩
  · have : (if size ≠ 8 ∨ a % 8 ≠ 0 then s.denied else s.writeReg a v) = s.denied := by
      split
      · rfl
      · have hf : fieldsAt a = [] := by tauto
        simp [State.writeReg, hf]
    exact congrArg _ ((s.write_accepts _ hs).trans this)
  · have gate : ∀ f : State → State, Host.Outcome.next (s.write f) = (.next s.denied : Host.Outcome State Fault Refusal) :=
      fun f => congrArg _ (s.write_denied f hs)
    simp only [List.forall_mem_cons, List.not_mem_nil, false_imp_iff, implies_true, and_true]
    and_intros <;> exact gate _
  · simp only [exec, execLnkTrain, execLnkRestore, hw, if_true, s.write_denied _ hs, and_self]

end Sys2Proof.Machine

/-! SUPPORT. Register requests of the host (O48): a field that holds more than its width refutes the clause of W1C. -/

namespace Sys2Proof.Machine
open Reg

/-- A request that writes 0 to ETH_FLAGS: address, count and the one word. -/
def flagsPayload : List Nat := leBytes 8 ETH_FLAGS.LINK_DOWN.addr ++ leBytes 2 1 ++ leBytes 8 0

/-- Its header, in session 1. -/
def flagsHeader : BcpHdr := ⟨⟨0xFFFF0A000001, 4000, 0x1234⟩, 1, 9, 1⟩

/-- A ready device with that request at the front of the queue, whose one-bit field LINK_DOWN holds 2. The state is
canonical, but no run reaches it, since every write cuts to the field's width. -/
def overwideFlags : State :=
  { State.reset with
    flds := [(ETH_FLAGS.LINK_DOWN.key, 2), (CFG_STATUS.STATE.key, 1)],
    boot := { BootSt.reset with configuring := false },
    host := { HostSt.reset with sessions := [⟨1, 1, 8, []⟩], queue := [⟨flagsHeader, opREG_WRITE, flagsPayload⟩] } }

theorem overwideFlags_served : Served overwideFlags flagsHeader opREG_WRITE flagsPayload :=
  ⟨⟨[], rfl⟩, by decide +kernel⟩

theorem overwideFlags_plain : overwideFlags.plainWord (ETH_FLAGS.LINK_DOWN.addr + 8 * 0) :=
  ⟨by decide +kernel, by decide +kernel, by decide +kernel, by decide +kernel, fun _ => rfl, by and_intros <;> decide +kernel⟩

/-- The field that the device holds after it took the request. -/
def linkDownAfter : Host.Outcome State Fault Refusal → Nat
  | .next t => t.get ETH_FLAGS.LINK_DOWN
  | _ => 2

theorem overwideFlags_cut :
    linkDownAfter (exec (.regWrite flagsHeader ETH_FLAGS.LINK_DOWN.addr [0]) overwideFlags) = 0 := by decide +kernel

/-- Refutes O48: the write of a W1C field cuts what stays to the field's width, and the statement does not. A field of
one bit that holds 2 holds 0 after a 0 is written to it, where the statement asks for 2. -/
theorem not_registerRequestsComplete : ¬ Obligations.RegisterRequestsComplete := by
  intro h
  obtain ⟨t, ht, -, -, -, hf, -⟩ := (h overwideFlags flagsHeader ETH_FLAGS.LINK_DOWN.addr flagsPayload).2 [0] 0
    overwideFlags_served (by decide +kernel) (by decide +kernel) (by simp) (by simp) (by simp)
    (fun k hk => .inl (by obtain rfl : k = 0 := by simpa using hk
                          exact overwideFlags_plain)) (by decide +kernel)
  have kept : t.get ETH_FLAGS.LINK_DOWN = 2 :=
    (hf 0 0 rfl overwideFlags_plain ETH_FLAGS.LINK_DOWN (by decide +kernel)).2 rfl
  have cut := overwideFlags_cut
  rw [ht] at cut
  exact absurd (kept.symm.trans cut) (by decide)

/-! SUPPORT. The canonical form of every next state (O2): one lemma for each operation of the model, in the model's order.
A lemma `State.Inv.<operation>` says that the operation keeps the form, and `<command>_nextInv` that a command answers a
state in that form. The proof of each follows the operation's own branches and cites the lemmas of what it calls. -/

/-! ### A state that is written out -/

/-- Row registers are canonical: keys rise, and none is listed as 0. -/
def rowRegsCanon (x : List (Nat × Nat)) : Prop := (Store.sorted x && x.all fun e => e.2 != 0) = true

@[simp] theorem State.Inv.wf_mem {s : State} (hs : s.Inv) : Memory.wf s.mem = true := hs.1
@[simp] theorem State.Inv.sorted_flds {s : State} (hs : s.Inv) : Store.sorted s.flds = true := hs.2.1
@[simp] theorem State.Inv.rowRegs {s : State} (hs : s.Inv) : rowRegsCanon s.xr := hs.2.2

/-- A state that is written out has the form if its memory, register fields and row registers have. -/
@[simp] theorem State.inv_mk {p f m q x r t a b e l k h d o w y z v u c g n i j z' y'} :
    State.Inv ⟨p, f, m, q, x, r, t, a, b, e, l, k, h, d, o, w, y, z, v, u, c, g, n, i, j, z', y'⟩ ↔
      Memory.wf m = true ∧ Store.sorted f = true ∧ rowRegsCanon x := Iff.rfl

@[simp] theorem State.Inv.ite {c : Prop} [Decidable c] {a b : State} (ha : a.Inv) (hb : b.Inv) :
    (if c then a else b).Inv := by
  split <;> assumption

/-! ### Loops and pairs -/

@[simp] theorem State.Inv.fst_ite {α : Type} {c : Prop} [Decidable c] {a b : State × α} (ha : a.1.Inv) (hb : b.1.Inv) :
    (if c then a else b).1.Inv := by
  split <;> assumption

@[simp] theorem State.Inv.snd_ite {α : Type} {c : Prop} [Decidable c] {a b : α × State} (ha : a.2.Inv) (hb : b.2.Inv) :
    (if c then a else b).2.Inv := by
  split <;> assumption

/-- A loop that carries a result beside the state keeps the form if each pass does. -/
theorem State.Inv.foldl_fst {α β : Type} (f : State × β → α → State × β) (hf : ∀ r a, r.1.Inv → (f r a).1.Inv) (l : List α)
    {r : State × β} (hr : r.1.Inv) : (l.foldl f r).1.Inv :=
  List.foldlRecOn (motive := fun r => r.1.Inv) l f hr fun r hr a _ => hf r a hr

theorem State.Inv.foldl_snd {α β : Type} (f : β × State → α → β × State) (hf : ∀ r a, r.2.Inv → (f r a).2.Inv) (l : List α)
    {r : β × State} (hr : r.2.Inv) : (l.foldl f r).2.Inv :=
  List.foldlRecOn (motive := fun r => r.2.Inv) l f hr fun r hr a _ => hf r a hr

theorem State.Inv.foldl_snd_snd {α β γ : Type} (f : β × γ × State → α → β × γ × State) (hf : ∀ r a, r.2.2.Inv → (f r a).2.2.Inv)
    (l : List α) {r : β × γ × State} (hr : r.2.2.Inv) : (l.foldl f r).2.2.Inv :=
  List.foldlRecOn (motive := fun r => r.2.2.Inv) l f hr fun r hr a _ => hf r a hr

/-! ### The next state of a command -/

/-- Whatever next state a command answers is canonical. -/
def NextInv (o : Host.Outcome State Fault Refusal) : Prop := ∀ t, o = .next t → t.Inv

@[simp] theorem nextInv_next (s : State) : NextInv (.next s) ↔ s.Inv :=
  ⟨fun h => h s rfl, fun h _ ht => by cases ht; exact h⟩

@[simp] theorem nextInv_fault (r : Fault) : NextInv (.fault r) := fun _ ht => by cases ht

@[simp] theorem nextInv_ite {c : Prop} [Decidable c] {a b : Host.Outcome State Fault Refusal} (ha : NextInv a) (hb : NextInv b) :
    NextInv (if c then a else b) := by
  split <;> assumption

@[simp] theorem nextInv_forUnit {s : State} (h : s.Inv) (n i : Nat) : NextInv (State.forUnit n i s) := by
  unfold State.forUnit
  simp [h]

@[simp] theorem nextInv_issueWhen {s : State} (h : s.Inv) {busy : Bool} {u : UnitKind} {eng : Nat} {i : Issue} {w : Bool}
    {body : State → State} (hb : ∀ t, t.Inv → (body t).Inv) : NextInv (s.issueWhen busy u eng i w body) :=
  fun _ ht => h.issueWhen (hb _ (h.entered u eng i w)) ht

@[simp] theorem nextInv_issue {s : State} (h : s.Inv) {u : UnitKind} {eng : Nat} {i : Issue} {w : Bool}
    {body : State → State} (hb : ∀ t, t.Inv → (body t).Inv) : NextInv (s.issue u eng i w body) :=
  nextInv_issueWhen h hb

/-- A register write answers a canonical state if what it does keeps the form. -/
@[simp] theorem State.Inv.write_of_forall {s : State} (h : s.Inv) {f : State → State} (hf : ∀ t, t.Inv → (f t).Inv) :
    (s.write f).Inv := h.write (hf s h)

/-! ### Memory operations, errors, provenance, completions and the tick -/

section
variable {s : State} (hs : s.Inv)
include hs

@[simp] theorem State.Inv.clearF (f : Fld) : (s.clearF f).Inv := by
  unfold State.clearF
  simp [hs]

@[simp] theorem State.Inv.sendEvent (b : Sub) (e : Event) : (s.sendEvent b e).Inv := by
  unfold State.sendEvent
  simp [hs]

@[simp] theorem State.Inv.ndUsed (f : Fld) : (s.ndUsed f).Inv := by
  unfold State.ndUsed
  simp (maxDischargeDepth := 20) [hs]

@[simp] theorem State.Inv.setDigest (fs : List Fld) (d : List Nat) : (s.setDigest fs d).Inv := by
  unfold State.setDigest
  simp [hs]

@[simp] theorem State.Inv.mapChange (k : Nat) : (s.mapChange k).Inv := by
  unfold State.mapChange
  simp (maxDischargeDepth := 20) [hs]

@[simp] theorem State.Inv.beginRun : s.beginRun.Inv := by
  unfold State.beginRun
  simp (maxDischargeDepth := 20) [hs]

@[simp] theorem State.Inv.chainInput (n : Nat) : (s.chainInput n).Inv := by
  unfold State.chainInput
  simp [hs]

@[simp] theorem State.Inv.formRecord : s.formRecord.Inv := by
  unfold State.formRecord
  split
  · exact hs
  · extract_lets n slot a r s1 s2 s3 s4 s5
    have h3 : s3.Inv := ((hs.wrBytes _ _).wrBytes _ _).inc _ _
    have h4 : s4.Inv := by unfold s4; split <;> [split; skip] <;> simp [h3]
    have h5 : s5.Inv := h4.event _ _
    split <;> [split; skip] <;> simp [h5]

@[simp] theorem State.Inv.provAtCommit (exported : Bool) : (s.provAtCommit exported).Inv := by
  unfold State.provAtCommit
  simp (maxDischargeDepth := 20) [hs]

@[simp] theorem State.Inv.actSnap : s.actSnap.Inv := by
  unfold State.actSnap
  simp (maxDischargeDepth := 20) [hs]

@[simp] theorem execDetProvSnap_nextInv : NextInv (execDetProvSnap s) := by
  unfold execDetProvSnap
  simp +contextual (maxDischargeDepth := 20) [hs]

@[simp] theorem execProvenanceSignDone_nextInv : NextInv (execProvenanceSignDone s) := by
  unfold execProvenanceSignDone
  refine (nextInv_next _).2 ?_
  split
  · exact hs
  · extract_lets a sec sig s1 s2 s3
    have h2 : s2.Inv := (hs.wrBytes _ _).wr _ _ _
    have h3 : s3.Inv := (h2.updDet _).set _ _
    exact (h3.inc _ _).event _ _

@[simp] theorem State.Inv.respond (h : BcpHdr) (op session status : Nat) (payload : List Nat) :
    (s.respond h op session status payload).Inv := by
  unfold State.respond
  simp [hs]

@[simp] theorem State.Inv.complete (h : BcpHdr) (op status : Nat) (payload : List Nat) :
    (s.complete h op status payload).Inv := by
  unfold State.complete
  simp [hs]

@[simp] theorem State.Inv.completeLong (op status : Nat) (payload : List Nat) :
    (s.completeLong op status payload).Inv := by
  unfold State.completeLong
  split <;> simp (maxDischargeDepth := 20) [hs]

@[simp] theorem State.Inv.loadRefused (code : Nat) : (s.loadRefused code).Inv := by
  unfold State.loadRefused
  simp [hs]

@[simp] theorem State.Inv.loadFailed : s.loadFailed.Inv := by
  unfold State.loadFailed
  simp [hs]

@[simp] theorem State.Inv.setInBuf (step b : Nat) (x : InBuf) : (s.setInBuf step b x).Inv := by
  unfold State.setInBuf
  simp [hs]

@[simp] theorem State.Inv.pass (n : Nat) : (s.pass n).Inv := by
  unfold State.pass
  simp [hs]

@[simp] theorem State.Inv.retryOf (who : Option (UnitKind × Nat × Nat)) : (s.retryOf who).Inv := by
  unfold State.retryOf
  simp [hs]

@[simp] theorem State.Inv.oppAtBoundary : s.oppAtBoundary.Inv := by
  unfold State.oppAtBoundary
  simp [hs]

@[simp] theorem State.Inv.oppAtClose (causes : Nat) : (s.oppAtClose causes).Inv := by
  unfold State.oppAtClose
  simp [hs]

@[simp] theorem State.Inv.beginTick : s.beginTick.Inv := by
  unfold State.beginTick
  simp (maxDischargeDepth := 20) [hs]

@[simp] theorem State.Inv.noteCauses (work : Bool) : (s.noteCauses work).Inv := by
  unfold State.noteCauses
  simp [hs]

@[simp] theorem State.Inv.recordStretch (n whole : Nat) (first : Bool) : (s.recordStretch n whole first).Inv := by
  unfold State.recordStretch
  simp (maxDischargeDepth := 20) [hs]

@[simp] theorem State.Inv.recordMargin : s.recordMargin.Inv := by
  unfold State.recordMargin
  simp (maxDischargeDepth := 20) [hs]

@[simp] theorem State.Inv.closeTick (n causes : Nat) (send : Bool) : (s.closeTick n causes send).Inv := by
  unfold State.closeTick
  simp (maxDischargeDepth := 20) [hs]

@[simp] theorem State.Inv.overrun (cc : Nat) : (s.overrun cc).Inv := by
  unfold State.overrun
  split <;> simp [hs]

@[simp] theorem execTickBoundary_nextInv : NextInv (execTickBoundary s) := by
  unfold execTickBoundary
  simp (maxDischargeDepth := 20) [hs]

@[simp] theorem State.Inv.tickClose : s.tickClose.Inv := by
  unfold State.tickClose
  simp (maxDischargeDepth := 20) [hs]

@[simp] theorem State.Inv.stretchClose (q : Nat) : (s.stretchClose q).Inv := by
  unfold State.stretchClose
  simp (maxDischargeDepth := 20) [hs]

@[simp] theorem State.Inv.havoc (a n : Nat) : (s.havoc a n).Inv := by
  induction n generalizing s a with
  | zero => exact hs
  | succ n ih =>
    apply ih
    simp [Memory.wf_write, hs]

@[simp] theorem State.Inv.stopEngine (b : Busy) : (s.stopEngine b).Inv := by
  unfold State.stopEngine
  split <;> simp (maxDischargeDepth := 20) [hs]

@[simp] theorem State.Inv.abandonWork (cc : Nat) (landRange : Land → List (Nat × Nat)) : (s.abandonWork cc landRange).Inv := by
  have stopped : ∀ (bs : List Busy) (rs : List (Nat × Nat)),
      (bs.foldl State.stopEngine (rs.foldl (fun s r => s.havoc r.1 r.2) s)).Inv := fun bs rs =>
    State.Inv.foldl _ (fun _ b ht => ht.stopEngine b) bs (State.Inv.foldl _ (fun _ r ht => ht.havoc r.1 r.2) rs hs)
  exact (stopped _ _).dropDue.of_eq rfl rfl rfl

@[simp] theorem execFreezeEnd_nextInv : NextInv (execFreezeEnd s) := by
  unfold execFreezeEnd
  simp (maxDischargeDepth := 20) [hs]

@[simp] theorem execStretchNotice_nextInv (p amount dev count : Nat) :
    NextInv (execStretchNotice p amount dev count s) := by
  unfold execStretchNotice
  refine nextInv_ite ((nextInv_next _).2 ?_) (nextInv_fault _)
  extract_lets s1 c prior extra s2
  have h1 : s1.Inv := hs.emitTree _ _
  have h2 : s2.Inv := h1.updTick _
  exact .ite h1 (.ite (h1.updTick _) (.ite (h1.updTick _) (.ite h1
    (.ite ((h2.recordStretch _ _ _).updTick _) ((h2.recordStretch _ _ _).updTick _)))))

@[simp] theorem execEngineBusyFault_nextInv (u : UnitKind) (idx eng entry : Nat) :
    NextInv (execEngineBusyFault u idx eng entry s) := by
  unfold execEngineBusyFault
  simp (maxDischargeDepth := 20) [hs]

@[simp] theorem execNop_nextInv (u : UnitKind) (i : Issue) : NextInv (execNop u i s) := by
  unfold execNop
  simp [hs]

@[simp] theorem execMark_nextInv (u : UnitKind) (i : Issue) : NextInv (execMark u i s) := by
  unfold execMark
  simp +contextual (maxDischargeDepth := 20) [hs]

@[simp] theorem State.Inv.unseal (b : Nat) : (s.unseal b).Inv := by
  unfold State.unseal
  simp (maxDischargeDepth := 20) [hs]

@[simp] theorem State.Inv.abortSeal (b : Nat) : (s.abortSeal b).Inv := by
  unfold State.abortSeal
  simp (maxDischargeDepth := 20) [hs]

@[simp] theorem State.Inv.touchBank (b scope index source : Nat) : (s.touchBank b scope index source).2.Inv := by
  unfold State.touchBank
  simp (maxDischargeDepth := 20) [hs]

@[simp] theorem State.Inv.actHalt : s.actHalt.Inv := by
  unfold State.actHalt
  simp (maxDischargeDepth := 20) [hs]

@[simp] theorem State.Inv.unload : s.unload.Inv := by
  unfold State.unload
  simp (maxDischargeDepth := 20) [hs, State.Inv.stopTicks]

@[simp] theorem State.Inv.actUnload : s.actUnload.Inv := by
  unfold State.actUnload
  simp (maxDischargeDepth := 20) [hs]

@[simp] theorem State.Inv.actPhaseArm : s.actPhaseArm.Inv := by
  unfold State.actPhaseArm
  simp (maxDischargeDepth := 20) [hs]

@[simp] theorem State.Inv.actPhaseStep (v : Nat) : (s.actPhaseStep v).Inv := by
  unfold State.actPhaseStep
  simp (maxDischargeDepth := 20) [hs]

@[simp] theorem State.Inv.actSeal : s.actSeal.Inv := by
  unfold State.actSeal
  simp (maxDischargeDepth := 20) [hs]

@[simp] theorem execTickCtrlHalt_nextInv : NextInv (execTickCtrlHalt s) := by
  unfold execTickCtrlHalt
  simp +contextual (maxDischargeDepth := 20) [hs]

@[simp] theorem execTickCtrlUnload_nextInv : NextInv (execTickCtrlUnload s) := by
  unfold execTickCtrlUnload
  simp +contextual (maxDischargeDepth := 20) [hs]

@[simp] theorem execTickPhaseArm_nextInv : NextInv (execTickPhaseArm s) := by
  unfold execTickPhaseArm
  simp +contextual (maxDischargeDepth := 20) [hs]

@[simp] theorem execTickPhaseStepWrite_nextInv (v : Nat) : NextInv (execTickPhaseStepWrite v s) := by
  unfold execTickPhaseStepWrite
  simp +contextual (maxDischargeDepth := 20) [hs]

@[simp] theorem execTickSeal_nextInv : NextInv (execTickSeal s) := by
  unfold execTickSeal
  simp +contextual (maxDischargeDepth := 20) [hs]

end

/-! ### Gates, totals, the array and its links -/

section
variable {s : State} (hs : s.Inv)
include hs

@[simp] theorem State.Inv.countGate (cls fmt : Nat) (os : List Outcome5) : (s.countGate cls fmt os).Inv := by
  unfold State.countGate
  simp [hs]

@[simp] theorem State.Inv.noteSre (g : Gate) (n : Nat) : (s.noteSre g n).Inv := by
  unfold State.noteSre
  simp [hs]

@[simp] theorem State.Inv.gateAll (cls : Nat) (g : Gate) (tensor : Nat) (xs : List (Nat × Val)) :
    (s.gateAll cls g tensor xs).2.Inv := by
  unfold State.gateAll
  simp [hs]

@[simp] theorem State.Inv.hwMem (hw : List HwFault) (vsrc msrc : Nat) (who : State → Option (UnitKind × Nat × Nat)) :
    (s.hwMem hw vsrc msrc who).Inv := by
  refine State.Inv.foldl _ (fun t f ht => ?_) hw hs
  split <;> simp (maxDischargeDepth := 20) [ht]

@[simp] theorem State.Inv.memBytes (c n : Nat) : (s.memBytes c n).Inv := by
  unfold State.memBytes
  simp (maxDischargeDepth := 20) [hs]

@[simp] theorem State.Inv.memTraffic (rs : List (Nat × Nat)) : (s.memTraffic rs).Inv := by
  unfold State.memTraffic
  simp +contextual (maxDischargeDepth := 20) [hs, State.Inv.foldl]

@[simp] theorem State.Inv.descPar (scope index source code : Nat) : (s.descPar scope index source code).Inv := by
  unfold State.descPar
  simp [hs]

@[simp] theorem State.Inv.wrParts (l : List (Nat × Nat)) (bs : List Nat) : (s.wrParts l bs).Inv := by
  induction l generalizing s bs with
  | nil => exact hs
  | cons x l ih => exact ih (hs.wrBytes _ _) _

@[simp] theorem State.Inv.opHwErr (o : Op) (source code : Nat) : (s.opHwErr o source code).Inv := by
  unfold State.opHwErr
  simp [hs]

@[simp] theorem State.Inv.arrHw (o : Op) (hw : List HwFault) : (s.arrHw o hw).Inv := by
  refine State.Inv.foldl _ (fun t f ht => ?_) hw hs
  split <;> simp (maxDischargeDepth := 20) [ht]

@[simp] theorem State.Inv.arrPoison (o : Op) (reads : List (Nat × Nat)) : (s.arrPoison o reads).Inv := by
  unfold State.arrPoison
  simp +contextual (maxDischargeDepth := 20) [hs, State.Inv.foldl]

@[simp] theorem State.Inv.arrOob (p q : Nat) : (s.arrOob p q).Inv := by
  unfold State.arrOob
  simp [hs]

@[simp] theorem State.Inv.putTotals (a fmt rows cols stride : Nat) (ts : List Total) :
    (s.putTotals a fmt rows cols stride ts).Inv := by
  unfold State.putTotals
  simp +contextual (maxDischargeDepth := 20) [hs, State.Inv.foldl]

@[simp] theorem State.Inv.stopOnSat : s.stopOnSat.Inv := by
  unfold State.stopOnSat
  simp [hs]

@[simp] theorem State.Inv.noteOut (p q half rows cols stride : Nat) (b : BlockOut) :
    (s.noteOut p q half rows cols stride b).Inv := by
  unfold State.noteOut
  simp (maxDischargeDepth := 20) [hs]

@[simp] theorem State.Inv.noteBlock (o : Op) (b : Drained) : (s.noteBlock o b).Inv := by
  unfold State.noteBlock
  simp [hs]

@[simp] theorem State.Inv.noteTotals (p q desc item blk tile : Nat) (ts : List Total) :
    (s.noteTotals p q desc item blk tile ts).Inv := by
  unfold State.noteTotals
  simp (maxDischargeDepth := 20) [hs]

@[simp] theorem State.Inv.noteTile (o : Op) (b : Drained) : (s.noteTile o b).Inv := by
  unfold State.noteTile
  simp [hs]

@[simp] theorem State.Inv.wrC (o : Op) (a : List (Nat × Nat)) (bs : List Nat) : (s.wrC o a bs).Inv :=
  (hs.noteWrite _ _ _).wrParts _ _

@[simp] theorem State.Inv.writeC (o : Op) (off unit : Nat) (bs : List Nat) : (s.writeC o off unit bs).1.Inv := by
  unfold State.writeC
  split
  · exact hs.wrC _ _ _
  · refine State.Inv.foldl _ (fun t i ht => ?_) _ hs
    split <;> simp [ht]

@[simp] theorem State.Inv.drainRow (o : Op) (item m : Nat) (xs : List (Nat × Val)) : (s.drainRow o item m xs).1.Inv := by
  unfold State.drainRow
  extract_lets d g base ix w r
  split
  · refine State.Inv.foldl_fst _ (fun r j hr => ?_) _ hs
    simp (maxDischargeDepth := 20) [hr]
  · split
    · exact hs
    · exact State.Inv.writeC (hs.gateAll _ _ _ _) _ _ _ _

@[simp] theorem State.Inv.keepChain (o : Op) (bs : List Drained) : (s.keepChain o bs).Inv := by
  unfold State.keepChain
  simp [hs]

@[simp] theorem State.Inv.runOp (o : Op) (hw : List HwFault) (ahead : State → State) (ha : ∀ t, t.Inv → (ahead t).Inv) :
    (s.runOp o hw ahead).Inv := by
  unfold State.runOp
  extract_lets reads bs s0 p q s1 s2 s3 s4 rows s5 s6 drain r6 r s7
  have h1 : s1.Inv := (hs.arrPoison _ _).arrHw _ _
  have h3 : s3.Inv := by simp (maxDischargeDepth := 20) [s3, s2, h1]
  have h4 : s4.Inv := State.Inv.foldl _ (fun _ b ht => ht.noteBlock o b) bs h3
  have h6 : s6.Inv := State.Inv.foldl _ (fun _ b ht => ht.noteTile o b) bs (by simp (maxDischargeDepth := 20) [s5, h4])
  have hd : ∀ r x, r.1.Inv → (drain r x).1.Inv := fun r x hr => hr.drainRow o _ _ _
  have hr : r.1.Inv :=
    .fst_ite (ha _ h4) (State.Inv.foldl_fst _ hd _ (ha _ (State.Inv.foldl_fst _ hd _ h6)))
  have h7 : s7.Inv := .ite (hr.keepChain _ _) hr
  exact .ite h1 (.ite (h7.arrOob _ _) h7)

@[simp] theorem State.Inv.dropPre (eng tick start : Nat) : (s.dropPre eng tick start).Inv := by
  unfold State.dropPre
  simp [hs]

@[simp] theorem State.Inv.loadTile (o : Op) (tick start : Nat) : (s.loadTile o tick start).Inv := by
  unfold State.loadTile
  simp (maxDischargeDepth := 20) [hs]

@[simp] theorem State.Inv.preload (p : Nat) (i : Issue) (eng : Nat) : (s.preload p i eng).Inv := by
  unfold State.preload
  simp (maxDischargeDepth := 20) [hs]

@[simp] theorem State.Inv.arrBegin (p : Nat) : (s.arrBegin p).Inv := by
  unfold State.arrBegin
  simp [hs]

@[simp] theorem State.Inv.startOp (o : Op) (eng tick start : Nat) (hw : List HwFault) (ahead : State → State)
    (ha : ∀ t, t.Inv → (ahead t).Inv) : (s.startOp o eng tick start hw ahead).Inv :=
  State.Inv.runOp (((hs.arrBegin _).noteInfo _ _ _ _).dropPre _ _ _) o hw ahead ha

@[simp] theorem execMatmul_nextInv (i : Issue) (hw : List HwFault) : NextInv (execMatmul i hw s) := by
  unfold execMatmul
  simp +contextual (maxDischargeDepth := 20) [hs]

@[simp] theorem execScarfPeer_nextInv (i : Issue) (hw : List HwFault) : NextInv (execScarfPeer i hw s) := by
  unfold execScarfPeer
  simp +contextual (maxDischargeDepth := 20) [hs]

@[simp] theorem execGangOn_nextInv (i : Issue) : NextInv (execGangOn i s) := by
  unfold execGangOn
  simp +contextual (maxDischargeDepth := 20) [hs]

@[simp] theorem execGangOff_nextInv (i : Issue) : NextInv (execGangOff i s) := by
  unfold execGangOff
  simp +contextual (maxDischargeDepth := 20) [hs]

@[simp] theorem execArrayReserve_nextInv (i : Issue) : NextInv (execArrayReserve i s) := by
  unfold execArrayReserve
  simp +contextual (maxDischargeDepth := 20) [hs]

@[simp] theorem State.Inv.matmulDone (p eng cc : Nat) : (s.matmulDone p eng cc).Inv := by
  unfold State.matmulDone
  split
  · exact hs
  · refine .ite hs ?_
    extract_lets s1 s2 s3
    have h3 : s3.Inv := ((((hs.engineDone _ _ _ _).inc _ _).inc _ _).inc _ _).setAll _
    refine .ite h3 ?_
    split
    · exact h3.inc _ _
    · exact h3

@[simp] theorem execMatmulComplete_nextInv (p q cc : Nat) : NextInv (execMatmulComplete p q cc s) := by
  unfold execMatmulComplete
  simp [hs]

@[simp] theorem State.Inv.accDebug (p : Nat) : (s.accDebug p).Inv := by
  unfold State.accDebug
  simp [hs]

@[simp] theorem execAccDebugRead_nextInv (p : Nat) : NextInv (execAccDebugRead p s) := by
  unfold execAccDebugRead
  simp [hs]

@[simp] theorem State.Inv.transmit (p : Nat) (f : Frame) : (s.transmit p f).Inv := by
  unfold State.transmit
  simp (maxDischargeDepth := 20) [hs]

@[simp] theorem State.Inv.release (p n : Nat) : (s.release p n).Inv := by
  induction n generalizing s with
  | zero => exact hs
  | succ n ih =>
    unfold State.release
    dsimp only
    split
    · exact hs
    · split
      · exact hs
      · exact ih ((hs.setLink _ _).transmit _ _)

@[simp] theorem State.Inv.foreign (p : Nat) : (s.foreign p).Inv := by
  unfold State.foreign
  simp (maxDischargeDepth := 20) [hs]

@[simp] theorem State.Inv.noRoute (p : Nat) : (s.noRoute p).Inv := by
  unfold State.noRoute
  simp (maxDischargeDepth := 20) [hs]

@[simp] theorem State.Inv.unmatched (p : Nat) : (s.unmatched p).Inv := by
  unfold State.unmatched
  simp (maxDischargeDepth := 20) [hs]

@[simp] theorem State.Inv.sendVia (p q alt : Nat) (f : Frame) : (s.sendVia p q alt f).Inv := by
  unfold State.sendVia
  split <;> simp (maxDischargeDepth := 20) [hs]

@[simp] theorem State.Inv.sendRouted (dev n : Nat) (m : Nat → Msg) : (s.sendRouted dev n m).Inv := by
  unfold State.sendRouted
  dsimp only
  split
  · simp (maxDischargeDepth := 20) [hs]
  · split <;> simp (maxDischargeDepth := 20) [hs]

@[simp] theorem State.Inv.sendData (dev : Nat) (data : List Nat) : (s.sendData dev data).Inv := by
  unfold State.sendData
  simp +contextual (maxDischargeDepth := 20) [hs, State.Inv.foldl]

@[simp] theorem State.Inv.sendOwn (p : Nat) (f : Frame) : (s.sendOwn p f).Inv := by
  unfold State.sendOwn
  simp [hs]

@[simp] theorem State.Inv.forward (p q alt : Nat) (f : Frame) : (s.forward p q alt f).Inv := by
  unfold State.forward
  simp [hs]

@[simp] theorem State.Inv.permFail : s.permFail.Inv := by
  unfold State.permFail
  simp (maxDischargeDepth := 20) [hs]

@[simp] theorem State.Inv.linkFault (p : Nat) : (s.linkFault p).Inv := by
  unfold State.linkFault
  dsimp only
  split
  · split <;> simp (maxDischargeDepth := 20) [hs]
  · split <;> simp (maxDischargeDepth := 20) [hs]

@[simp] theorem State.Inv.faultIfUp (p : Nat) : (s.faultIfUp p).Inv := by
  unfold State.faultIfUp
  simp [hs]

@[simp] theorem State.Inv.beginEvent (p : Nat) : (s.beginEvent p).Inv := by
  unfold State.beginEvent
  dsimp only
  split <;> simp (maxDischargeDepth := 20) [hs]

@[simp] theorem State.Inv.resend (p seq : Nat) : (s.resend p seq).Inv := by
  unfold State.resend
  dsimp only
  split <;> simp +contextual (maxDischargeDepth := 20) [hs, State.Inv.foldl]

@[simp] theorem execAckReceive_nextInv (p seq : Nat) : NextInv (execAckReceive p seq s) := by
  unfold execAckReceive
  split
  · dsimp only
    split <;> simp (maxDischargeDepth := 20) [hs]
  · exact nextInv_fault _

@[simp] theorem execNakReceive_nextInv (p seq : Nat) : NextInv (execNakReceive p seq s) := by
  unfold execNakReceive
  simp (maxDischargeDepth := 20) [hs]

@[simp] theorem execLinkAckTimeout_nextInv (p : Nat) : NextInv (execLinkAckTimeout p s) := by
  unfold execLinkAckTimeout
  split
  · split <;> simp (maxDischargeDepth := 20) [hs]
  · exact nextInv_fault _

@[simp] theorem execReplayExhausted_nextInv (p : Nat) : NextInv (execReplayExhausted p s) := by
  unfold execReplayExhausted
  simp (maxDischargeDepth := 20) [hs]

@[simp] theorem execLaneLockLoss_nextInv (p : Nat) : NextInv (execLaneLockLoss p s) := by
  unfold execLaneLockLoss
  simp [hs]

@[simp] theorem execPartnerLoss_nextInv (p : Nat) : NextInv (execPartnerLoss p s) := by
  unfold execPartnerLoss
  simp [hs]

@[simp] theorem execBerWarn_nextInv (p corr : Nat) : NextInv (execBerWarn p corr s) := by
  unfold execBerWarn
  simp (maxDischargeDepth := 20) [hs]

@[simp] theorem State.Inv.acknowledge (p : Nat) : (s.acknowledge p).Inv := by
  unfold State.acknowledge
  simp (maxDischargeDepth := 20) [hs]

@[simp] theorem execCumulativeAck_nextInv (p : Nat) : NextInv (execCumulativeAck p s) := by
  unfold execCumulativeAck
  simp [hs]

@[simp] theorem State.Inv.nak (p seq : Nat) : (s.nak p seq).Inv := by
  unfold State.nak
  simp [hs]

@[simp] theorem State.Inv.accept (p : Nat) (f : Frame) : (s.accept p f).2.Inv := by
  unfold State.accept
  simp (maxDischargeDepth := 20) [hs]

@[simp] theorem State.Inv.takeFrames (p : Nat) (data : List Nat) : (s.takeFrames p data).2.Inv := by
  unfold State.takeFrames
  simp +contextual (maxDischargeDepth := 20) [hs, State.Inv.foldl]

@[simp] theorem State.Inv.train (p : Nat) : (s.train p).Inv := by
  unfold State.train
  simp (maxDischargeDepth := 20) [hs]

@[simp] theorem State.Inv.trainAll : s.trainAll.Inv := by
  unfold State.trainAll
  simp +contextual (maxDischargeDepth := 20) [hs, State.Inv.foldl]

@[simp] theorem State.Inv.trainIdle : s.trainIdle.Inv := by
  unfold State.trainIdle
  simp +contextual (maxDischargeDepth := 20) [hs, State.Inv.foldl]

@[simp] theorem State.Inv.actTrain (p : Nat) : (s.actTrain p).Inv := by
  unfold State.actTrain
  simp (maxDischargeDepth := 20) [hs]

@[simp] theorem State.Inv.actRestore (p : Nat) : (s.actRestore p).Inv := by
  unfold State.actRestore
  simp (maxDischargeDepth := 20) [hs]

@[simp] theorem execLnkTrain_nextInv (p : Nat) : NextInv (execLnkTrain p s) := by
  unfold execLnkTrain
  simp +contextual (maxDischargeDepth := 20) [hs]

@[simp] theorem execLnkRestore_nextInv (p : Nat) : NextInv (execLnkRestore p s) := by
  unfold execLnkRestore
  simp +contextual (maxDischargeDepth := 20) [hs]

@[simp] theorem execPartnerTrainingRequest_nextInv (p : Nat) : NextInv (execPartnerTrainingRequest p s) := by
  unfold execPartnerTrainingRequest
  simp (maxDischargeDepth := 20) [hs]

@[simp] theorem State.Inv.sourceUp (p : Nat) : (s.sourceUp p).Inv := by
  unfold State.sourceUp
  split <;> simp (maxDischargeDepth := 20) [hs]

@[simp] theorem execLinkTrainDone_nextInv (p : Nat) (t : TrainResult) : NextInv (execLinkTrainDone p t s) := by
  unfold execLinkTrainDone
  simp (maxDischargeDepth := 20) [hs]

end

/-! ### The fabric, memory errors and provenance records -/

section
variable {s : State} (hs : s.Inv)
include hs

@[simp] theorem State.Inv.portHw (p : Nat) (hw : List HwFault) : (s.portHw p hw).Inv := by
  unfold State.portHw
  refine State.Inv.foldl _ (fun t a ht => ?_) _ hs
  split <;> simp (maxDischargeDepth := 20) [ht]

@[simp] theorem State.Inv.linkPoison (rs : List (Nat × Nat)) : (s.linkPoison rs).Inv := by
  unfold State.linkPoison
  simp [hs]

@[simp] theorem State.Inv.leave (p cc : Nat) : (s.leave p cc).Inv := by
  unfold State.leave
  simp +contextual (maxDischargeDepth := 20) [hs, State.Inv.foldl]

@[simp] theorem execSend_nextInv (i : Issue) (hw : List HwFault) : NextInv (execSend i hw s) := by
  unfold execSend
  simp +contextual (maxDischargeDepth := 20) [hs]

@[simp] theorem State.Inv.leaveAll (p : Nat) : (s.leaveAll p).Inv := by
  unfold State.leaveAll
  simp [hs]

@[simp] theorem execSendComplete_nextInv (p cc : Nat) : NextInv (execSendComplete p cc s) := by
  unfold execSendComplete
  split <;> simp (maxDischargeDepth := 20) [hs]

@[simp] theorem execPass_nextInv (i : Issue) : NextInv (execPass i s) := by
  unfold execPass
  simp [hs]

@[simp] theorem execLand_nextInv (i : Issue) : NextInv (execLand i s) := by
  unfold execLand
  simp +contextual (maxDischargeDepth := 20) [hs]

@[simp] theorem State.Inv.landBytes (p : Nat) (x : Xfer) (off : Nat) (bs : List Nat) : (s.landBytes p x off bs).Inv := by
  unfold State.landBytes
  extract_lets n s1
  have h1 : s1.Inv := .ite hs (hs.noteWrite _ _ _)
  refine .ite hs (State.Inv.foldl _ (fun t k ht => ?_) _ h1)
  split <;> simp (maxDischargeDepth := 20) [ht]

@[simp] theorem State.Inv.setLand (l : Land) : (s.setLand l).Inv := by
  unfold State.setLand
  simp [hs]

@[simp] theorem State.Inv.landIn (p cc : Nat) (next : Bool) (l : Land) (f : Frame) :
    (s.landIn p cc next l f).Inv := by
  unfold State.landIn
  simp (maxDischargeDepth := 20) [hs]

@[simp] theorem State.Inv.landFrame (p cc : Nat) (f : Frame) : (s.landFrame p cc f).Inv := by
  unfold State.landFrame
  refine .ite (hs.inc _ _) (.ite (hs.inc _ _) (.ite (hs.unmatched _) ?_))
  extract_lets t c c0 go
  split
  · exact hs.landIn _ _ _ _ _
  · exact hs.landIn _ _ _ _ _
  · exact hs.unmatched _

@[simp] theorem State.Inv.passOn (p out alt cc : Nat) (f : Frame) : (s.passOn p out alt cc f).Inv := by
  unfold State.passOn
  split <;> simp [hs]

@[simp] theorem execFrameArrive_nextInv (p cc : Nat) (f : Frame) : NextInv (execFrameArrive p cc f s) := by
  unfold execFrameArrive
  simp (maxDischargeDepth := 20) [hs]

@[simp] theorem State.Inv.actSynt (v : Nat) : (s.actSynt v).Inv := by
  unfold State.actSynt
  simp (maxDischargeDepth := 20) [hs]

@[simp] theorem execSyntSourceWrite_nextInv (v : Nat) : NextInv (execSyntSourceWrite v s) := by
  unfold execSyntSourceWrite
  simp +contextual (maxDischargeDepth := 20) [hs]

@[simp] theorem execSyntSourceLoss_nextInv : NextInv (execSyntSourceLoss s) := by
  unfold execSyntSourceLoss
  simp (maxDischargeDepth := 20) [hs]

@[simp] theorem execHoldoverTimeout_nextInv : NextInv (execHoldoverTimeout s) := by
  unfold execHoldoverTimeout
  simp (maxDischargeDepth := 20) [hs]

@[simp] theorem State.Inv.actPermArm : s.actPermArm.Inv := by
  unfold State.actPermArm
  simp (maxDischargeDepth := 20) [hs]

@[simp] theorem State.Inv.actPermCancel : s.actPermCancel.Inv := by
  unfold State.actPermCancel
  simp (maxDischargeDepth := 20) [hs]

@[simp] theorem execFabPermArm_nextInv : NextInv (execFabPermArm s) := by
  unfold execFabPermArm
  simp +contextual (maxDischargeDepth := 20) [hs]

@[simp] theorem execFabPermCancel_nextInv : NextInv (execFabPermCancel s) := by
  unfold execFabPermCancel
  simp +contextual (maxDischargeDepth := 20) [hs]

@[simp] theorem State.Inv.permLand (scope index : Nat) (x : PermIn) : (s.permLand scope index x).Inv := by
  unfold State.permLand
  dsimp only
  split <;> simp (maxDischargeDepth := 20) [hs]

@[simp] theorem State.Inv.permArrive (x : PermIn) : (s.permArrive x).Inv := by
  unfold State.permArrive
  simp (maxDischargeDepth := 20) [hs]

@[simp] theorem State.Inv.permSend (e : PermEntry) : (s.permSend e).Inv := by
  unfold State.permSend
  split <;> simp (maxDischargeDepth := 20) [hs]

@[simp] theorem State.Inv.permUe (a : Nat) : (s.permUe a).Inv := by
  unfold State.permUe
  simp (maxDischargeDepth := 20) [hs]

@[simp] theorem execReshardPermutation_nextInv (hw : List HwFault) : NextInv (execReshardPermutation s hw) := by
  unfold execReshardPermutation
  rw [nextInv_next]
  extract_lets s1 es new s2
  have h2 : s2.Inv := State.Inv.foldl _ (fun t f ht => by split <;> simp (maxDischargeDepth := 20) [ht]) hw (by simp [s1, hs])
  refine .ite hs ?_
  split
  · exact State.Inv.foldl _ (fun _ e ht => ht.permSend e) _ h2
  · exact (State.Inv.foldl _ (fun _ a ht => ht.permUe a) _ h2).permFail

@[simp] theorem State.Inv.permEnd : s.permEnd.Inv := by
  unfold State.permEnd
  simp (maxDischargeDepth := 20) [hs]

@[simp] theorem State.Inv.permDone (ins : List PermIn) : (s.permDone ins).Inv := by
  unfold State.permDone
  simp +contextual (maxDischargeDepth := 20) [hs, State.Inv.foldl]

@[simp] theorem execPermutationTimeout_nextInv : NextInv (execPermutationTimeout s) := by
  unfold execPermutationTimeout
  simp [hs]

@[simp] theorem State.Inv.copyRanges (src dst : List (Nat × Nat)) : (s.copyRanges src dst).Inv := by
  unfold State.copyRanges
  simp +contextual (maxDischargeDepth := 20) [hs, State.Inv.foldl]

@[simp] theorem execMover_nextInv (i : Issue) (hw : List HwFault) : NextInv (execMover i hw s) := by
  unfold execMover
  refine nextInv_issue hs fun t ht => ?_
  extract_lets m src dst s1 s2
  have h1 : s1.Inv := State.Inv.foldl _ (fun t f ht => by split <;> simp (maxDischargeDepth := 20) [ht]) hw ht
  have h2 : s2.Inv := h1.readPoison _ _ _
  simp (maxDischargeDepth := 20) [h2]

@[simp] theorem execMoveComplete_nextInv (p cc : Nat) : NextInv (execMoveComplete p cc s) := by
  unfold execMoveComplete
  split <;> simp (maxDischargeDepth := 20) [hs]

@[simp] theorem State.Inv.advise (scope index detail : Nat) : (s.advise scope index detail).Inv := by
  unfold State.advise
  simp [hs]

@[simp] theorem State.Inv.bumpTally (k : Nat) : (s.bumpTally k).Inv := by
  unfold State.bumpTally
  simp [hs]

@[simp] theorem State.Inv.scrubFinding (p : Nat) (f : ScrubFinding) : (s.scrubFinding p f).Inv := by
  unfold State.scrubFinding
  simp (maxDischargeDepth := 20) [hs]

@[simp] theorem State.Inv.vnrPassEnd : s.vnrPassEnd.Inv := by
  unfold State.vnrPassEnd
  simp +contextual (maxDischargeDepth := 20) [hs, State.Inv.foldl]

@[simp] theorem execVeneerScrub_nextInv (p : Nat) (f : List ScrubFinding) (passEnd : Bool) :
    NextInv (execVeneerScrub p f passEnd s) := by
  unfold execVeneerScrub
  simp +contextual (maxDischargeDepth := 20) [hs, State.Inv.foldl]

@[simp] theorem execLpddrScrub_nextInv (c a : Nat) (f : Option Bool) (passEnd : Bool) :
    NextInv (execLpddrScrub c a f passEnd s) := by
  unfold execLpddrScrub
  refine nextInv_ite ((nextInv_next _).2 (.ite ?_ hs)) (nextInv_fault _)
  extract_lets u v s1 n s2
  have h1 : s1.Inv := by
    simp only [s1]
    split
    · exact hs
    · exact (hs.inc _ _).bumpTally _
    · exact ((((hs.poisonWord _).inc _ _).memRecord _ _ _ _).raise _ _).advise _ _ _
  have h2 : s2.Inv := .ite (h1.draw.advise _ _ _) h1
  exact .ite (h2.inc _ _) h1

@[simp] theorem execMr4Over_nextInv (c mult : Nat) : NextInv (execMr4Over c mult s) := by
  unfold execMr4Over
  simp (maxDischargeDepth := 20) [hs]

@[simp] theorem execMr4ConditionEnds_nextInv (c mult : Nat) : NextInv (execMr4ConditionEnds c mult s) := by
  unfold execMr4ConditionEnds
  simp (maxDischargeDepth := 20) [hs]

@[simp] theorem execVeneerInitDone_nextInv : NextInv (execVeneerInitDone s) := by
  unfold execVeneerInitDone
  simp (maxDischargeDepth := 20) [hs]

@[simp] theorem execLpddrReady_nextInv (c : Nat) (pkg0 pkg1 : Bool) : NextInv (execLpddrReady c pkg0 pkg1 s) := by
  unfold execLpddrReady
  simp +contextual (maxDischargeDepth := 20) [hs]

end

/-! ### A chain in progress (R122 to R136) -/

/-- The state of a chain in progress is canonical. -/
def FinRun.Inv (r : FinRun) : Prop := r.s.Inv

@[simp] theorem FinRun.inv_mk {s v p h q l d m f o a t} : FinRun.Inv ⟨s, v, p, h, q, l, d, m, f, o, a, t⟩ ↔ s.Inv := Iff.rfl

@[simp] theorem FinRun.Inv.state {r : FinRun} (hr : r.Inv) : r.s.Inv := hr

@[simp] theorem FinRun.Inv.ite {c : Prop} [Decidable c] {a b : FinRun} (ha : a.Inv) (hb : b.Inv) : (if c then a else b).Inv := by
  split <;> assumption

/-- What one pass of a loop over a chain's run keeps, the loop keeps. -/
theorem FinRun.Inv.foldl {α : Type} (f : FinRun → α → FinRun) (hf : ∀ r a, r.Inv → (f r a).Inv) (l : List α) {r : FinRun}
    (hr : r.Inv) : (l.foldl f r).Inv :=
  List.foldlRecOn (motive := FinRun.Inv) l f hr fun r hr a _ => hf r a hr

section
variable {r : FinRun} (hr : r.Inv)
include hr

@[simp] theorem FinRun.Inv.settle (n : Nat) : (r.settle n).Inv := hr

@[simp] theorem FinRun.Inv.flag (fs : List Nat) : (r.flag fs).Inv := hr

@[simp] theorem FinRun.Inv.put (n : Nat) (l : List (Nat × Nat)) (bs : List Nat) : (FinRun.put n l bs r).Inv := by
  induction l generalizing r bs with
  | nil => exact hr
  | cons x l ih => exact ih (r := { r with s := _, pend := _ }) (State.Inv.wrBytes hr _ _) _

@[simp] theorem FinRun.Inv.loadSlot (c : FinCtx) (o g lanes k : Nat) (st : Stream) : (r.loadSlot c o g lanes k st).Inv :=
  State.Inv.readPoison hr _ _ _

@[simp] theorem FinRun.Inv.loadReady (c : FinCtx) (o g lanes : Nat) : (r.loadReady c o g lanes).Inv :=
  FinRun.Inv.foldl _ (fun _ _ hr => .ite hr (hr.loadSlot _ _ _ _ _ _)) _ hr

@[simp] theorem FinRun.Inv.loadRing (lanes k : Nat) : (r.loadRing lanes k).Inv := by
  unfold FinRun.loadRing
  extract_lets x
  have hx : x.2.Inv := by
    refine State.Inv.foldl_snd _ (fun x _ hx => ?_) _ ?_
    · exact hx.draw
    · exact hr
  exact .ite hr hx

@[simp] theorem FinRun.Inv.loadAll (c : FinCtx) (o g lanes : Nat) : (r.loadAll c o g lanes).Inv :=
  FinRun.Inv.foldl _ (fun _ _ hr => hr.loadRing _ _) _ (FinRun.Inv.foldl _ (fun _ _ hr => hr.loadReady _ _ _ _) _ hr)

@[simp] theorem FinRun.Inv.putDest (n w : Nat) (d : Dest) (code : Nat) : (r.putDest n w d code).Inv := hr.put _ _ _

@[simp] theorem FinRun.Inv.putBits (c : FinCtx) (st : Stream) (n w : Nat) (a : Int) (code : Nat) :
    (r.putBits c st n w a code).Inv := by
  unfold FinRun.putBits
  split
  · exact hr.putDest _ _ _ _
  · exact hr

@[simp] theorem FinRun.Inv.storePlain (c : FinCtx) (st : Stream) (n o : Nat) (xs : List (Nat × Nat × Val)) :
    (r.storePlain c st n o xs).Inv := by
  refine FinRun.Inv.foldl _ (fun r x hr => ?_) _ ((hr.state.gateAll _ _ _ _).noteWrite _ _ _)
  split
  · exact hr.put _ _ _
  · exact hr

@[simp] theorem FinRun.Inv.addOne (c : FinCtx) (st : Stream) (n o i : Nat) (d : Dest) (v : Val) :
    (r.addOne c st n o i d v).Inv := by
  unfold FinRun.addOne
  extract_lets g s1 sum
  have h1 : s1.Inv := hr.state.readPoison _ _ _
  have put : ∀ (s : State) (w code : Nat), s.Inv → (FinRun.putDest n w d code { r with s := s }).Inv :=
    fun s w code hs => FinRun.Inv.putDest (r := { r with s := s }) hs n w d code
  split
  · exact .ite (put _ _ _ h1) (put _ _ _ h1.draw)
  · split
    · exact (put _ _ _ ((h1.draw.countGate _ _ _).noteSre _ _)).put _ _ _
    · exact put _ _ _ (h1.gateAll _ _ _ _)

@[simp] theorem FinRun.Inv.addOrdered (c : FinCtx) (st : Stream) (n o : Nat) (xs : List (Nat × Nat × Val)) :
    (r.addOrdered c st n o xs).Inv := by
  refine FinRun.Inv.foldl _ (fun r x hr => ?_) _ (hr.state.inc _ _)
  split
  · exact hr.addOne _ _ _ _ _ _ _
  · exact hr

@[simp] theorem FinRun.Inv.addUnordered (c : FinCtx) (st : Stream) (n o : Nat) (xs : List (Nat × Nat × Val)) :
    (r.addUnordered c st n o xs).Inv := by
  refine FinRun.Inv.foldl _ (fun r z hr => ?_) _ (hr.state.ndUsed _)
  extract_lets old ups r1 r2
  have h1 : r1.Inv := hr.addOne _ _ _ _ _ _ _
  have h2 : r2.Inv := by
    unfold r2
    refine .ite h1 ?_
    split
    · exact h1.putDest _ _ _ _
    · exact FinRun.Inv.putDest (r := { r1 with s := _ }) h1.state.draw _ _ _ _
  exact h2

@[simp] theorem FinRun.Inv.storeMask (c : FinCtx) (st : Stream) (n o : Nat) (xs : List (Nat × Nat × Val)) :
    (r.storeMask c st n o xs).Inv :=
  FinRun.Inv.foldl _ (fun _ _ hr => hr.putBits _ _ _ _ _ _) _ (hr.state.noteWrite _ _ _)

@[simp] theorem FinRun.Inv.scatterBlock (c : FinCtx) (st : Stream) (n w scale : Nat) (xs : List (Option Int × Nat)) :
    (r.scatterBlock c st n w scale xs).Inv := by
  refine FinRun.Inv.foldl _ (fun r x hr => ?_) _ hr
  dsimp only
  split
  · exact (FinRun.Inv.putBits (r := { r with s := _ }) (hr.state.noteWrite _ _ _) _ _ _ _ _ _).put _ _ _
  · exact hr

@[simp] theorem FinRun.Inv.storeBlock (c : FinCtx) (st : Stream) (n o blk n1 : Nat) (xs : List (Nat × Option Int × Val)) :
    (r.storeBlock c st n o blk n1 xs).Inv := by
  unfold FinRun.storeBlock
  extract_lets g w b r1
  have h1 : r1.Inv := (hr.state.countGate _ _ _).noteSre _ _
  refine .ite hr (.ite (h1.scatterBlock _ _ _ _ _ _) ?_)
  split
  · exact ((FinRun.Inv.put (r := { r1 with s := _ }) (h1.state.noteWrite _ _ _) _ _ _).put _ _ _)
  · exact h1

@[simp] theorem FinRun.Inv.storeMx (c : FinCtx) (st : Stream) (k n o g lanes : Nat) (xs : List (Nat × Nat × Val)) :
    (r.storeMx c st k n o g lanes xs).Inv :=
  FinRun.Inv.foldl _ (fun _ _ hr => hr.storeBlock _ _ _ _ _ _ _) _ hr

@[simp] theorem FinRun.Inv.storeAs (c : FinCtx) (st : Stream) (n o : Nat) (xs : List (Nat × Nat × Val)) :
    (r.storeAs c st n o xs).Inv := by
  unfold FinRun.storeAs
  split <;> simp [hr]

@[simp] theorem FinRun.Inv.loadIndex (c : FinCtx) (o n : Nat) (st : Stream) : (FinRun.loadIndex c o n r st).Inv := by
  induction n generalizing st with
  | zero => exact hr
  | succ n ih =>
    refine .ite ?_ hr
    split
    · exact (ih _).loadSlot _ _ _ _ _ _
    · exact hr

@[simp] theorem FinRun.Inv.store (c : FinCtx) (k o g lanes : Nat) (xs : List (Nat × Nat × Val)) :
    (r.store c k o g lanes xs).Inv := by
  unfold FinRun.store
  split
  · exact hr
  · exact .ite (hr.storeAs _ _ _ _ _)
      (.ite (hr.storeMask _ _ _ _ _) (.ite (hr.storeMx _ _ _ _ _ _ _ _) (hr.storeAs _ _ _ _ _)))

@[simp] theorem FinRun.Inv.reduce (c : FinCtx) (k : Nat) (x : FinInstr) (o g lanes : Nat) : (r.reduce c k x o g lanes).Inv := by
  unfold FinRun.reduce
  extract_lets js row rest op y r1 r2
  have h1 : r1.Inv := hr
  have h2 : r2.Inv := .ite (h1.state.inc _ _) h1
  refine .ite hr ?_
  split
  · exact h2
  · have hi := h2.loadIndex c o 8 ‹Stream›
    exact .ite (hi.storeBlock _ _ _ _ _ _ _) (hi.storeAs _ _ _ _ _)

@[simp] theorem FinRun.Inv.instr (c : FinCtx) (k : Nat) (x : FinInstr) (o g lanes : Nat) : (r.instr c k x o g lanes).Inv := by
  unfold FinRun.instr
  extract_lets js res on vs r1
  have h1 : r1.Inv := hr.flag _
  exact .ite (hr.reduce _ _ _ _ _ _) (.ite h1 (.ite h1 (.ite (h1.store _ _ _ _ _ _) h1)))

@[simp] theorem FinRun.Inv.group (c : FinCtx) (prog : List FinInstr) (o g : Nat) : (r.group c prog o g).Inv :=
  FinRun.Inv.foldl _ (fun _ _ hr => hr.instr _ _ _ _ _ _) _ ((hr.settle _).loadAll _ _ _ _)

@[simp] theorem FinRun.Inv.finish (c : FinCtx) (entry : Nat) : (r.finish c entry).Inv := by
  have flags : (r.flags.eraseDups.foldl (fun s b => s.set (finFlag c.p b) 1) r.s).Inv :=
    State.Inv.foldl _ (fun _ _ hs => hs.set _ _) _ hr
  unfold FinRun.finish
  simp (maxDischargeDepth := 20) [flags]

end

/-! ### Chains and the gauge -/

section
variable {s : State} (hs : s.Inv)
include hs

@[simp] theorem State.Inv.runChain (p ch entry : Nat) : (s.runChain p ch entry).Inv := by
  unfold State.runChain
  extract_lets d st c prog s1 s2 z r0 r
  have h0 : r0.Inv := (hs.readPoison _ _ _).inc _ _
  have hr : r.Inv := FinRun.Inv.foldl _ (fun _ _ hr => FinRun.Inv.foldl _ (fun _ _ hr => hr.group _ _ _ _) _ hr) _ h0
  exact hr.finish _ _

@[simp] theorem State.Inv.finHw (p : Nat) (hw : List HwFault) : (s.finHw p hw).Inv := by
  unfold State.finHw
  refine State.Inv.foldl _ (fun t a ht => ?_) _ hs
  split <;> simp (maxDischargeDepth := 20) [ht]

@[simp] theorem State.Inv.finNote (p : Nat) (flags : List Nat) : (s.finNote p flags).Inv := by
  unfold State.finNote
  simp +contextual (maxDischargeDepth := 20) [hs, State.Inv.foldl]

@[simp] theorem State.Inv.chainCounts (p desc groups : Nat) : (s.chainCounts p desc groups).Inv := by
  unfold State.chainCounts
  simp (maxDischargeDepth := 20) [hs]

@[simp] theorem execChain_nextInv (i : Issue) (hw : List HwFault) : NextInv (execChain i hw s) := by
  unfold execChain
  simp +contextual (maxDischargeDepth := 20) [hs]

@[simp] theorem execChainComplete_nextInv (p cc : Nat) : NextInv (execChainComplete p cc s) := by
  unfold execChainComplete
  split <;> simp (maxDischargeDepth := 20) [hs]

@[simp] theorem execFinisherReserve_nextInv (i : Issue) : NextInv (execFinisherReserve i s) := by
  unfold execFinisherReserve
  simp +contextual (maxDischargeDepth := 20) [hs]

@[simp] theorem State.Inv.loadTable (p : Nat) : (s.loadTable p).Inv := by
  unfold State.loadTable
  extract_lets off src s1 cells s2
  have h1 : s1.Inv := hs.readPoison _ _ _
  have h2 : s2.Inv := by
    refine State.Inv.foldl _ (fun t e ht => ?_) cells (h1.zeroRange _ _)
    exact ⟨Memory.wf_write _ _ ht.1, ht.2⟩
  exact State.Inv.foldl _ (fun t k ht => .ite ((ht.wr _ _ _).set _ _) ht) _ h2

@[simp] theorem execTableLoad_nextInv (i : Issue) (hw : List HwFault) : NextInv (execTableLoad i hw s) := by
  unfold execTableLoad
  simp +contextual (maxDischargeDepth := 20) [hs]

@[simp] theorem execTableLoadComplete_nextInv (p cc : Nat) : NextInv (execTableLoadComplete p cc s) := by
  unfold execTableLoadComplete
  split <;> simp (maxDischargeDepth := 20) [hs]

@[simp] theorem State.Inv.writeCapture (f : Factor) (half esize : Nat) (rows : List (List Nat)) :
    (s.writeCapture f half esize rows).Inv := by
  unfold State.writeCapture
  refine State.Inv.foldl _ (fun t a ht => ?_) _ hs
  split <;> simp (maxDischargeDepth := 20) [ht]

@[simp] theorem State.Inv.captureBlock (i : Issue) (o : Op) (fmt col0 d : Nat) (rows : List (Option Nat)) :
    (s.captureBlock i o fmt col0 d rows).Inv := by
  unfold State.captureBlock
  simp (maxDischargeDepth := 20) [hs]

@[simp] theorem State.Inv.runTap (i : Issue) (t : TapDesc) (f : Factor) : (s.runTap i t f).Inv := by
  unfold State.runTap
  simp +contextual (maxDischargeDepth := 20) [hs, State.Inv.foldl]

@[simp] theorem State.Inv.gauHw (p : Nat) (hw : List HwFault) : (s.gauHw p hw).Inv := by
  unfold State.gauHw
  refine State.Inv.foldl _ (fun t a ht => ?_) _ hs
  split <;> simp (maxDischargeDepth := 20) [ht]

@[simp] theorem execTap_nextInv (i : Issue) (hw : List HwFault) : NextInv (execTap i hw s) := by
  unfold execTap
  simp +contextual (maxDischargeDepth := 20) [hs]

@[simp] theorem execTapComplete_nextInv (p cc : Nat) : NextInv (execTapComplete p cc s) := by
  unfold execTapComplete
  split
  · split <;> simp (maxDischargeDepth := 20) [hs]
  · simp (maxDischargeDepth := 20) [hs]

end

/-! ### The update units -/

section
variable {s : State} (hs : s.Inv)
include hs

@[simp] theorem State.Inv.evalSchedule : s.evalSchedule.Inv := by
  unfold State.evalSchedule
  simp (maxDischargeDepth := 20) [hs]

@[simp] theorem State.Inv.writeSlot (vsrc : Nat) (oob : State → State) (ho : ∀ t, t.Inv → (oob t).Inv) (e : ApplyEntry)
    (slot : Nat) : (s.writeSlot vsrc oob e slot).Inv := by
  unfold State.writeSlot
  split
  · exact hs
  · exact .ite (ho _ hs) ((hs.noteWrite _ _ _).wr _ _ _)

@[simp] theorem State.Inv.updOob (u : Nat) : (s.updOob u).Inv := by
  unfold State.updOob
  simp [hs]

@[simp] theorem State.Inv.bindAll (slot : Nat) : (s.bindAll slot).Inv := by
  unfold State.bindAll
  simp +contextual (maxDischargeDepth := 20) [hs, State.Inv.foldl]

@[simp] theorem State.Inv.updWriteRange (u a : Nat) (bs : List Nat) : (s.updWriteRange u a bs).Inv := by
  unfold State.updWriteRange
  simp +contextual (maxDischargeDepth := 20) [hs, State.Inv.foldl]

@[simp] theorem State.Inv.updWrite (u a : Nat) (bs : List Nat) : (s.updWrite u a bs).Inv := by
  unfold State.updWrite
  simp [hs]

@[simp] theorem State.Inv.updReads (u : Nat) (as : List Nat) : (s.updReads u as).Inv := by
  unfold State.updReads
  simp (maxDischargeDepth := 20) [hs]

@[simp] theorem State.Inv.updStart (u op : Nat) : (s.updStart u op).Inv := by
  unfold State.updStart
  simp [hs]

@[simp] theorem State.Inv.updHw (u d : Nat) (lost : Nat → Bool) (hw : List HwFault) : (s.updHw u d lost hw).Inv := by
  unfold State.updHw
  refine State.Inv.foldl _ (fun t a ht => ?_) _ hs
  split <;> simp (maxDischargeDepth := 20) [ht]

@[simp] theorem State.Inv.updHwAny (hw : List HwFault) : (s.updHwAny hw).Inv := by
  unfold State.updHwAny
  simp +contextual (maxDischargeDepth := 20) [hs, State.Inv.foldl]

@[simp] theorem State.Inv.updMoved (u n : Nat) : (s.updMoved u n).Inv := by
  unfold State.updMoved
  simp [hs]

@[simp] theorem State.Inv.runNorm (u d : Nat) : (s.runNorm u d).Inv := by
  unfold State.runNorm
  simp (maxDischargeDepth := 20) [hs]

@[simp] theorem State.Inv.runNormSum (u : Nat) : (s.runNormSum u).Inv := by
  unfold State.runNormSum
  simp [hs]

@[simp] theorem State.Inv.clipFactor (u : Nat) (sh : Shard) : (s.clipFactor u sh).2.Inv := by
  unfold State.clipFactor
  simp (maxDischargeDepth := 20) [hs]

@[simp] theorem State.Inv.storeArray (sh : Shard) (kind fmt : Nat) (vs : List Val) (count : Bool) :
    (s.storeArray sh kind fmt vs count).2.Inv := by
  unfold State.storeArray
  simp (maxDischargeDepth := 20) [hs]

@[simp] theorem State.Inv.writeArray (sh : Shard) (gen : Nat) (tee : Option Nat) (kind : Nat) (cs : List Nat) :
    (s.writeArray sh gen tee kind cs).Inv := by
  unfold State.writeArray
  split
  · simp (maxDischargeDepth := 20) [hs]
  · split <;> simp (maxDischargeDepth := 20) [hs]

@[simp] theorem State.Inv.writeChk (u d : Nat) (sh : Shard) (crc : Nat) : (s.writeChk u d sh crc).Inv := by
  unfold State.writeChk
  simp [hs]

@[simp] theorem State.Inv.regenWc (u : Nat) (sh : Shard) (g : Nat) (count : Bool) : (s.regenWc u sh g count).Inv := by
  unfold State.regenWc
  simp (maxDischargeDepth := 20) [hs]

@[simp] theorem State.Inv.applyPass (u : Nat) (sh : Shard) (count : Bool) : (s.applyPass u sh count).Inv := by
  unfold State.applyPass
  extract_lets n old new tee
  split
  next c t heq =>
  have ht : t.Inv := by simpa [heq] using hs.clipFactor u sh
  extract_lets skip k grads s1 outs master s2 cv r1 s3 r2 s4 r3 s5 r4 s6 nf s7
  have h1 : s1.Inv := .ite (ht.set _ _) ht
  have h2 : s2.Inv := (h1.storeArray _ _ _ _ _).writeArray _ _ _ _ _
  have h3 : s3.Inv := .ite ((h2.storeArray _ _ _ _ _).writeArray _ _ _ _ _) h2
  have h4 : s4.Inv := (h3.storeArray _ _ _ _ _).writeArray _ _ _ _ _
  have h5 : s5.Inv := .ite ((h4.storeArray _ _ _ _ _).writeArray _ _ _ _ _) h4
  have hskip : skip.Inv := (ht.set _ _).updUpd _
  have h6 : s6.Inv := .ite (State.Inv.foldl _ (fun _ a ht => ht.writeArray _ _ _ _ _) _ hskip)
    (.ite ((h5.storeArray _ _ _ _ _).writeArray _ _ _ _ _) h5)
  have h7 : s7.Inv := .ite (h6.set _ _) h6
  exact h7.regenWc _ _ _ _

@[simp] theorem State.Inv.runApply (u d : Nat) (count : Bool) : (s.runApply u d count).Inv := by
  unfold State.runApply
  dsimp only
  split <;> simp (maxDischargeDepth := 20) [hs]

@[simp] theorem execNorm_nextInv (i : Issue) (hw : List HwFault) : NextInv (execNorm i hw s) := by
  unfold execNorm
  simp +contextual (maxDischargeDepth := 20) [hs]

@[simp] theorem execNormSum_nextInv (i : Issue) (hw : optParam (List HwFault) []) : NextInv (execNormSum i s hw) := by
  unfold execNormSum
  simp +contextual (maxDischargeDepth := 20) [hs]

@[simp] theorem State.Inv.applyReads (u d : Nat) (hw : List HwFault) : (s.applyReads u d hw).Inv := by
  unfold State.applyReads
  simp (maxDischargeDepth := 20) [hs]

@[simp] theorem execUpdApply_nextInv (i : Issue) (hw : List HwFault) : NextInv (execUpdApply i hw s) := by
  unfold execUpdApply
  simp +contextual (maxDischargeDepth := 20) [hs]

@[simp] theorem State.Inv.updDone (u op cc : Nat) : (s.updDone u op cc).Inv := by
  unfold State.updDone
  simp (maxDischargeDepth := 20) [hs]

@[simp] theorem execNormComplete_nextInv (u cc : Nat) : NextInv (execNormComplete u cc s) := by
  unfold execNormComplete
  simp [hs]

@[simp] theorem execNormSumComplete_nextInv (u cc : Nat) : NextInv (execNormSumComplete u cc s) := by
  unfold execNormSumComplete
  simp [hs]

@[simp] theorem execApplyComplete_nextInv (u cc : Nat) : NextInv (execApplyComplete u cc s) := by
  unfold execApplyComplete
  simp [hs]

@[simp] theorem State.Inv.actRegen : s.actRegen.Inv := by
  unfold State.actRegen
  simp (maxDischargeDepth := 20) [hs]

@[simp] theorem execUpdRegen_nextInv : NextInv (execUpdRegen s) := by
  unfold execUpdRegen
  simp +contextual (maxDischargeDepth := 20) [hs]

@[simp] theorem execRegenDone_nextInv (hw : List HwFault) : NextInv (execRegenDone hw s) := by
  unfold execRegenDone
  simp +contextual (maxDischargeDepth := 20) [hs, State.Inv.foldl]

@[simp] theorem State.Inv.actExportArm : s.actExportArm.Inv := by
  unfold State.actExportArm
  simp (maxDischargeDepth := 20) [hs]

@[simp] theorem execUpdExportArm_nextInv : NextInv (execUpdExportArm s) := by
  unfold execUpdExportArm
  simp +contextual (maxDischargeDepth := 20) [hs]

@[simp] theorem State.Inv.actExportStep (v : Nat) : (s.actExportStep v).Inv := by
  unfold State.actExportStep
  simp (maxDischargeDepth := 20) [hs]

@[simp] theorem execUpdExportStepWrite_nextInv (v : Nat) : NextInv (execUpdExportStepWrite v s) := by
  unfold execUpdExportStepWrite
  simp +contextual (maxDischargeDepth := 20) [hs]

@[simp] theorem State.Inv.copyChks : s.copyChks.Inv := by
  unfold State.copyChks
  simp +contextual (maxDischargeDepth := 20) [hs, State.Inv.foldl]

@[simp] theorem State.Inv.updCommit (n : Nat) : (s.updCommit n).1.Inv := by
  unfold State.updCommit
  extract_lets s1 s2 s3 s4 s5 s6 done s7
  have h1 : s1.Inv := hs.bindAll _
  have h2 : s2.Inv := State.Inv.foldl _ (fun _ _ ht => ht.inc _ _) _ h1
  have h3 : s3.Inv := State.Inv.foldl _ (fun _ _ ht => ht.inc _ _) _ h2
  have h4 : s4.Inv := .ite (h3.inc _ _) h3
  have h5 : s5.Inv := .ite (h4.inc _ _) h4
  have h6 : s6.Inv := by
    simp only [s6]
    split
    · exact h5.set _ _
    · exact h5
  have h7 : s7.Inv := .ite (State.Inv.event (((State.Inv.copyChks h6).set _ _).set _ _) _ _) h6
  exact h7.updUpd _

end

/-! ### Root units -/

section
variable {s : State} (hs : s.Inv)
include hs

@[simp] theorem State.Inv.putOpt (fmt : Nat) (a : Option Nat) (code : Nat) : (s.putOpt fmt a code).Inv := by
  unfold State.putOpt
  split <;> simp [hs]

@[simp] theorem State.Inv.elNote (f : Factor) (first n fmt : Nat) (xs : List ((Nat × Nat) × List Val × Val)) :
    (s.elNote f first n fmt xs).Inv := by
  unfold State.elNote
  refine State.Inv.foldl _ (fun t a ht => ?_) _ hs
  split <;> simp (maxDischargeDepth := 20) [ht]

@[simp] theorem State.Inv.putEls (f : Factor) (first n fmt : Nat) (addr : Nat → Nat → Option Nat) (v : Nat → Nat → List Val × Val) :
    (s.putEls f first n fmt addr v).Inv := by
  unfold State.putEls
  simp +contextual (maxDischargeDepth := 20) [hs, State.Inv.foldl]

@[simp] theorem State.Inv.putWs (f : Factor) (k : Nat) (v : Nat → Nat → List Val × Val) : (s.putWs f k v).Inv := by
  unfold State.putWs
  simp [hs]

@[simp] theorem State.Inv.sumNote (f : Factor) (parts : List (Val × List Nat)) : (s.sumNote f parts).Inv := by
  unfold State.sumNote
  refine State.Inv.foldl _ (fun t a ht => ?_) _ hs
  split <;> simp (maxDischargeDepth := 20) [ht]

@[simp] theorem State.Inv.notePiece (p q half tile rows cols stride : Nat) (ops : List Val) (o : BlockOut) :
    (s.notePiece p q half tile rows cols stride ops o).Inv := by
  unfold State.notePiece
  simp (maxDischargeDepth := 20) [hs]

@[simp] theorem State.Inv.prodPart (f : Factor) (dst a b tile : Nat) (x : Nat × List Nat × List Nat) :
    (s.prodPart f dst a b tile x).Inv := by
  unfold State.prodPart
  split <;> simp +contextual (maxDischargeDepth := 20) [hs, State.Inv.foldl]

@[simp] theorem State.Inv.prodTile (f : Factor) (dst a b tile : Nat) : (s.prodTile f dst a b tile).Inv := by
  unfold State.prodTile
  simp +contextual (maxDischargeDepth := 20) [hs, State.Inv.foldl]

@[simp] theorem State.Inv.rootPrep (f : Factor) (d : Nat) : (s.rootPrep f d).1.Inv := by
  unfold State.rootPrep
  simp (maxDischargeDepth := 20) [hs]

@[simp] theorem State.Inv.rootT (f : Factor) (set : Nat) : (s.rootT f set).Inv := by
  unfold State.rootT
  simp [hs]

@[simp] theorem State.Inv.setRootRec (d : Nat) (r : RootRec) : (s.setRootRec d r).Inv := by
  unfold State.setRootRec
  simp [hs]

@[simp] theorem State.Inv.rootStore (f : Factor) (d entry set : Nat) : (s.rootStore f d entry set).Inv := by
  unfold State.rootStore
  split
  · simp (maxDischargeDepth := 20) [hs]
  · split <;> simp (maxDischargeDepth := 20) [hs]

@[simp] theorem State.Inv.foldInit (f : Factor) : (s.foldInit f).Inv := by
  unfold State.foldInit
  simp [hs]

@[simp] theorem State.Inv.gramTileWork (f : Factor) (fmt c tile : Nat) : (s.gramTileWork f fmt c tile).Inv := by
  unfold State.gramTileWork
  extract_lets cls w cols
  refine State.Inv.foldl _ (fun t m ht => ?_) _ hs
  extract_lets rows cells X o ops g u
  have hu : u.Inv := State.Inv.foldl _ (fun _ _ h => h.putOpt _ _ _) _ (ht.gateAll _ _ _ _)
  split
  · exact hu.notePiece _ _ _ _ _ _ _ _ _
  · exact hu

@[simp] theorem State.Inv.foldAdd (f : Factor) : (s.foldAdd f).Inv := by
  unfold State.foldAdd
  simp [hs]

@[simp] theorem State.Inv.foldKeep (f : Factor) : (s.foldKeep f).Inv := by
  unfold State.foldKeep
  simp [hs]

@[simp] theorem State.Inv.atRootCommit (d kind val : Nat) : (s.atRootCommit d kind val).Inv := by
  unfold State.atRootCommit
  simp [hs]

@[simp] theorem State.Inv.runPiece (f : Factor) (fmt : Nat) (r : RootRun) (x : Piece) :
    (s.runPiece f fmt r x).1.Inv := by
  unfold State.runPiece
  split
  · simp (maxDischargeDepth := 20) [hs]
  · split <;> simp (maxDischargeDepth := 20) [hs]

@[simp] theorem State.Inv.endRun (f : Factor) (r : RootRun) : (s.endRun f r).Inv := by
  unfold State.endRun
  simp (maxDischargeDepth := 20) [hs]

@[simp] theorem State.Inv.startRun (r : RootRun) : (s.startRun r).Inv := by
  unfold State.startRun
  simp [hs]

@[simp] theorem execRootSeg_nextInv (i : Issue) : NextInv (execRootSeg i s) := by
  unfold execRootSeg
  refine nextInv_issue hs fun t ht => ?_
  extract_lets f rec'
  split
  · exact ht
  · exact .ite (ht.startRun _) ht

@[simp] theorem execGaugeSeg_nextInv (i : Issue) : NextInv (execGaugeSeg i s) := by
  unfold execGaugeSeg
  simp +contextual (maxDischargeDepth := 20) [hs]

@[simp] theorem State.Inv.memberErr (scarf : Bool) (p source code : Nat) : (s.memberErr scarf p source code).Inv := by
  unfold State.memberErr
  simp [hs]

@[simp] theorem State.Inv.arrPieceHw (p src msrc : Nat) (scarf : Bool) (h : HwFault) :
    (s.arrPieceHw p src msrc scarf h).Inv := by
  unfold State.arrPieceHw
  split <;> simp (maxDischargeDepth := 20) [hs]

@[simp] theorem State.Inv.pieceHw (f : Factor) (x : Piece) (p : Nat) (hw : List HwFault) :
    (s.pieceHw f x p hw).Inv := by
  unfold State.pieceHw
  refine State.Inv.foldl _ (fun t a ht => ?_) _ hs
  split <;> simp (maxDischargeDepth := 20) [ht]

@[simp] theorem State.Inv.piecePoison (f : Factor) (fmt : Nat) (r : RootRun) (x : Piece) :
    (s.piecePoison f fmt r x).Inv := by
  unfold State.piecePoison
  simp [hs]

@[simp] theorem State.Inv.pieceCounts (f : Factor) (g : Bool) (fmt : Nat) (x : Piece) (lead : Bool) :
    (s.pieceCounts f g fmt x lead).Inv := by
  unfold State.pieceCounts
  split <;> simp +contextual (maxDischargeDepth := 20) [hs, State.Inv.foldl]

@[simp] theorem State.Inv.stepRun (r : RootRun) (x : Piece) (lead : Bool) : (s.stepRun r x lead).Inv := by
  unfold State.stepRun
  extract_lets f fmt rest s1 y q r' l z done s2
  have h1 : s1.Inv := .ite hs (hs.piecePoison _ _ _ _)
  have hy : y.1.Inv := State.Inv.runPiece (.ite h1 (h1.pieceCounts _ _ _ _ _)) _ _ _ _
  have hz : z.1.Inv := by
    simp only [z]
    split
    · exact hy.runPiece _ _ _ _
    · exact hy.runPiece _ _ _ _
    · exact hy
  exact .ite h1 (.ite (hz.endRun _ _) hz)

@[simp] theorem State.Inv.nextPiece (g : Bool) (d p : Nat) (hw : List HwFault) : (s.nextPiece g d p hw).Inv := by
  unfold State.nextPiece
  split
  · exact hs
  next r _ =>
    extract_lets f
    split
    · exact hs
    next x _ =>
      extract_lets mates s1
      have h1 : s1.Inv := hs.pieceHw f x p hw
      refine .ite h1 (State.Inv.foldl _ (fun t q ht => ?_) _ (h1.stepRun r x true))
      split
      · exact .ite (ht.stepRun _ _ _) ht
      · exact ht

@[simp] theorem execRootPiece_nextInv (g : Bool) (d p : Nat) (hw : List HwFault) :
    NextInv (execRootPiece g d p hw s) := by
  unfold execRootPiece
  simp (maxDischargeDepth := 20) [hs]

@[simp] theorem State.Inv.setRecWord (d w v : Nat) : (s.setRecWord d w v).Inv := by
  unfold State.setRecWord
  simp [hs]

@[simp] theorem State.Inv.actRootRec (v : Nat) : (s.actRootRec v).Inv := by
  unfold State.actRootRec
  simp (maxDischargeDepth := 20) [hs]

@[simp] theorem execRootRecWrite_nextInv (v : Nat) : NextInv (execRootRecWrite v s) := by
  unfold execRootRecWrite
  simp +contextual (maxDischargeDepth := 20) [hs]

@[simp] theorem State.Inv.rootOob : s.rootOob.Inv := by
  unfold State.rootOob
  simp [hs]

@[simp] theorem State.Inv.rootBind (d : Nat) : (s.rootBind d).Inv := by
  unfold State.rootBind
  simp +contextual (maxDischargeDepth := 20) [hs, State.Inv.foldl]

@[simp] theorem State.Inv.rootBindAll : s.rootBindAll.Inv := by
  unfold State.rootBindAll
  simp +contextual (maxDischargeDepth := 20) [hs, State.Inv.foldl]

@[simp] theorem State.Inv.rootLast (d kind resid : Nat) : (s.rootLast d kind resid).Inv := by
  unfold State.rootLast
  simp (maxDischargeDepth := 20) [hs]

@[simp] theorem State.Inv.rootOutcome (o : RootOutcome) : (s.rootOutcome o).Inv := by
  unfold State.rootOutcome
  split <;> simp (maxDischargeDepth := 20) [hs]

@[simp] theorem State.Inv.rootCommit : s.rootCommit.Inv := by
  unfold State.rootCommit
  simp +contextual (maxDischargeDepth := 20) [hs, State.Inv.foldl]

@[simp] theorem State.Inv.rootAbandon : s.rootAbandon.Inv := by
  unfold State.rootAbandon
  simp +contextual (maxDischargeDepth := 20) [hs, State.Inv.foldl]

end

/-! ### Solver contexts -/

section
variable {s : State} (hs : s.Inv)
include hs

@[simp] theorem State.Inv.putVec (e : SolEnv) (m : SolMember) (v : SVec) (xs : List Val) :
    (s.putVec e m v xs).Inv := by
  unfold State.putVec
  simp [hs]

@[simp] theorem State.Inv.putEl (e : SolEnv) (m : SolMember) (v : SVec) (xs : List (List Val × Val)) :
    (s.putEl e m v xs).Inv := by
  unfold State.putEl
  simp [hs]

@[simp] theorem State.Inv.partial (e : SolEnv) (h : Hand) (m : SolMember) (x y : SVec) :
    (s.partial e h m x y).2.Inv := by
  unfold State.partial
  simp [hs]

@[simp] theorem State.Inv.stmt (e : SolEnv) (h : Hand) (r : SolveRun) (x : SStmt × Bool) : (s.stmt e h r x).1.Inv := by
  unfold State.stmt
  split
  · refine State.Inv.foldl_snd _ (fun y m hy => ?_) _ hs
    exact hy.partial _ _ _ _ _
  · refine State.Inv.foldl_fst _ (fun z m hz => ?_) _ hs
    split
    next d _ =>
      have hn : (if x.2 then z.1.putEl e m d.1 d.2 else z.1.finNote m.p (d.2.flatMap (elFlags fFP64))).Inv :=
        .ite (hz.putEl _ _ _ _) (hz.finNote _ _)
      exact .ite (hn.finNote _ _) hn
    · exact hz

@[simp] theorem State.Inv.chain (e : SolEnv) (r : SolveRun) (l : List SStmt) : (s.chain e r l).1.Inv :=
  State.Inv.foldl_fst _ (fun _ _ hy => hy.stmt _ _ _ _) _ hs

@[simp] theorem State.Inv.chainOob (p : Nat) (oob : Bool) : (s.chainOob p oob).Inv := by
  unfold State.chainOob
  simp (maxDischargeDepth := 20) [hs]

@[simp] theorem State.Inv.solOob (m : SolMember) : (s.solOob m).Inv := by
  unfold State.solOob
  simp [hs]

@[simp] theorem State.Inv.haloExchange (e : SolEnv) (v : SVec) : (s.haloExchange e v).Inv := by
  unfold State.haloExchange
  refine State.Inv.foldl _ (fun t m ht => State.Inv.foldl _ (fun u k hu => ?_) _ (ht.wrBytes _ _)) _ hs
  extract_lets h
  split
  · exact hu
  · split
    · exact hu
    · exact hu.wrBytes _ _

@[simp] theorem State.Inv.putRows (e : SolEnv) (m : SolMember) (d : SVec) (rows : List RowElems) :
    (s.putRows e m d rows).Inv := by
  unfold State.putRows
  simp (maxDischargeDepth := 20) [hs]

@[simp] theorem State.Inv.product (e : SolEnv) (d : SVec) : (s.product e d).Inv := by
  unfold State.product
  simp +contextual (maxDischargeDepth := 20) [hs, State.Inv.foldl]

@[simp] theorem State.Inv.scatterNote (m : SolMember) (x : Scatter) : (s.scatterNote m x).Inv := by
  unfold State.scatterNote
  simp [hs]

@[simp] theorem State.Inv.productT (e : SolEnv) (d x : SVec) (ext : List HaloBack) : (s.productT e d x ext).Inv := by
  unfold State.productT
  simp +contextual (maxDischargeDepth := 20) [hs, State.Inv.foldl]

@[simp] theorem State.Inv.jacobiSetup (e : SolEnv) : (s.jacobiSetup e).1.Inv :=
  State.Inv.foldl_fst _ (fun _ m hy => (hy.chainOob m.p _).putEl e m (.pre 0) _) _ hs

@[simp] theorem State.Inv.bjNote (p k : Nat) (x : BjRun) : (s.bjNote p k x).Inv := by
  unfold State.bjNote
  simp +contextual (maxDischargeDepth := 20) [hs, State.Inv.foldl]

@[simp] theorem State.Inv.bjSetup (e : SolEnv) : (s.bjSetup e).1.Inv := by
  unfold State.bjSetup
  refine State.Inv.foldl_fst _ (fun y m hy => State.Inv.foldl_fst _ (fun z k hz => ?_) _ hy) _ hs
  exact (((hz.chainOob m.p _).gateAll _ _ _ _).bjNote m.p k _).wrBytes _ _

@[simp] theorem State.Inv.bjApply (e : SolEnv) (d x : SVec) (tr : Bool) : (s.bjApply e d x tr).Inv := by
  unfold State.bjApply
  simp +contextual (maxDischargeDepth := 20) [hs, State.Inv.foldl]

@[simp] theorem State.Inv.sendParts (e : SolEnv) (r : SolveRun) (l : List Nat) : (s.sendParts e r l).Inv := by
  unfold State.sendParts
  simp +contextual (maxDischargeDepth := 20) [hs, State.Inv.foldl]

@[simp] theorem State.Inv.scalarPut (e : SolEnv) (r : SolveRun) (i k n : Nat) : (s.scalarPut e r i k n).Inv := by
  unfold State.scalarPut
  simp +contextual (maxDischargeDepth := 20) [hs, State.Inv.foldl]

@[simp] theorem State.Inv.scalarWrite (e : SolEnv) (r : SolveRun) (o : ScOp) : (s.scalarWrite e r o).Inv := by
  unfold State.scalarWrite
  simp [hs]

@[simp] theorem State.Inv.solBegin (e : SolEnv) (r : SolveRun) : (s.solBegin e r).1.Inv := by
  unfold State.solBegin
  simp (maxDischargeDepth := 20) [hs]

@[simp] theorem State.Inv.solOut (e : SolEnv) (t : Pattern) (r : SolveRun) : (s.solOut e t r).Inv := by
  unfold State.solOut
  refine State.Inv.foldl_fst _ (fun y m hy => ?_) _ hs
  extract_lets u xs a w w' z
  have hw : w'.Inv := ((hy.wrBytes _ _).gateAll _ _ _ _).finNote _ _
  exact (hw.gateAll _ _ _ _).wrBytes _ _

@[simp] theorem State.Inv.solStatus (e : SolEnv) (r : SolveRun) : (s.solStatus e r).Inv := by
  unfold State.solStatus
  simp +contextual (maxDischargeDepth := 20) [hs, State.Inv.foldl]

@[simp] theorem State.Inv.solDeriv (e : SolEnv) : (s.solDeriv e).Inv := by
  unfold State.solDeriv
  simp +contextual (maxDischargeDepth := 20) [hs, State.Inv.foldl]

@[simp] theorem State.Inv.clearVec (e : SolEnv) (v : SVec) : (s.clearVec e v).Inv := by
  unfold State.clearVec
  simp +contextual (maxDischargeDepth := 20) [hs, State.Inv.foldl]

@[simp] theorem State.Inv.solAct (e : SolEnv) (t : Pattern) (fab : SolverIn) (r : SolveRun) (x : SAct) :
    (s.solAct e t fab r x).1.Inv := by
  cases x with
  | vecs l _ => exact hs.chain e r l
  | halo v => exact hs.haloExchange e v
  | mat d tr x => exact .ite (hs.productT _ _ _ _) (hs.product _ _)
  | red warm => exact .fst_ite (hs.sendParts _ _ _) (hs.sendParts _ _ _)
  | sc o => exact .ite ((hs.scalarWrite _ _ _).solStatus _ _) (hs.scalarWrite _ _ _)
  | warmCheck => exact hs
  | x0 => exact .fst_ite (hs.chain _ _ _) (hs.chain _ _ _)
  | jacobi => exact hs.jacobiSetup e
  | part => exact hs
  | factor => exact hs.bjSetup e
  | block d x tr => exact hs.bjApply e d x tr
  | user k => exact State.Inv.foldl _ (fun _ _ ht => .ite (ht.runChain _ _ _) ht) _ hs
  | out => exact hs.solOut e t r
  | deriv => exact hs.solDeriv e

@[simp] theorem State.Inv.solGated (e : SolEnv) (t : Pattern) (fab : SolverIn) (r : SolveRun) (x : SAct) :
    (s.solGated e t fab r x).1.Inv := by
  unfold State.solGated
  refine .fst_ite hs (.fst_ite ?_ ?_) <;> split
  · exact (hs.clearVec _ _).scalarWrite _ _ _
  · exact .fst_ite hs (hs.solAct _ _ _ _ _)
  · exact hs.chain _ _ _
  · exact hs

@[simp] theorem State.Inv.solPoison (e : SolEnv) (r : SolveRun) (x : SAct) : (s.solPoison e r x).Inv := by
  unfold State.solPoison
  simp [hs]

@[simp] theorem State.Inv.solHw (x : SPiece) (p : Nat) (hw : List HwFault) : (s.solHw x p hw).Inv := by
  unfold State.solHw
  refine State.Inv.foldl _ (fun t a ht => ?_) _ hs
  split <;> simp (maxDischargeDepth := 20) [ht]

@[simp] theorem State.Inv.tableCounts (p c : Nat) : (s.tableCounts p c).Inv := by
  unfold State.tableCounts
  simp (maxDischargeDepth := 20) [hs]

@[simp] theorem State.Inv.solCounts (e : SolEnv) (r : SolveRun) (x : SPiece) : (s.solCounts e r x).Inv := by
  unfold State.solCounts
  simp +contextual (maxDischargeDepth := 20) [hs, State.Inv.foldl]

@[simp] theorem State.Inv.solActive : s.solActive.Inv := by
  unfold State.solActive
  simp [hs]

@[simp] theorem State.Inv.solPiece (ctx : Nat) (adj : Bool) (p : Nat) (fab : SolverIn) (hw : List HwFault) :
    (s.solPiece ctx adj p fab hw).Inv := by
  unfold State.solPiece
  split
  · exact hs
  next r _ =>
    extract_lets rest et e src gated
    split
    · exact State.Inv.solActive hs
    next x _ =>
      extract_lets s1 s2 b s3 r' y q ended sol
      have h2 : s2.Inv := (hs.solHw x p hw).solPoison e r _
      have hb : b.1.Inv := .fst_ite (h2.solBegin e r) h2
      have h3 : s3.Inv := .ite hb (hb.solCounts e r x)
      have hy : y.1.Inv := .fst_ite h3 (.fst_ite (h3.solGated _ _ _ _ _)
        (.fst_ite ((h3.clearVec _ _).solAct _ _ _ _ _) (h3.solAct _ _ _ _ _)))
      exact .ite h2 (.ite hy (State.Inv.solActive (.ite hy hy)))

@[simp] theorem execSolverPiece_nextInv (ctx : Nat) (adj : Bool) (p : Nat) (fab : SolverIn) (hw : List HwFault) :
    NextInv (execSolverPiece ctx adj p fab hw s) := by
  unfold execSolverPiece
  simp (maxDischargeDepth := 20) [hs]

@[simp] theorem execSolve_nextInv (i : Issue) : NextInv (execSolve i s) := by
  unfold execSolve
  simp +contextual (maxDischargeDepth := 20) [hs]

@[simp] theorem State.Inv.solCount (r : SolveRun) : (s.solCount r).Inv := by
  unfold State.solCount
  extract_lets s1 s2 s3 s4 s5 s6 s7
  have h1 : s1.Inv := by
    simp only [s1]
    split
    · exact hs.inc _ _
    · exact (hs.inc _ _).set _ _
    · exact (hs.inc _ _).set _ _
    · exact (hs.inc _ _).set _ _
  have h2 : s2.Inv := .ite ((h1.inc _ _).set _ _) h1
  have h3 : s3.Inv := .ite ((h2.inc _ _).set _ _) h2
  have h4 : s4.Inv := .ite (h3.set _ _) h3
  have h5 : s5.Inv := .ite ((h4.inc _ _).set _ _) h4
  have h6 : s6.Inv := .ite ((h5.inc _ _).set _ _) h5
  exact ((h6.inc _ _).inc _ _).setAll _

@[simp] theorem State.Inv.solCommit : s.solCommit.Inv := by
  unfold State.solCommit
  simp +contextual (maxDischargeDepth := 20) [hs, State.Inv.foldl]

@[simp] theorem State.Inv.solDrop : s.solDrop.Inv := by
  unfold State.solDrop
  simp [hs]

end

/-! ### Copies of whole ranges and filtered stores -/

/-- A store stays sorted under insertions of any keys and values. -/
theorem sorted_foldl_insert {α : Type} {m : List (Nat × α)} (l : List (Nat × α)) (k : Nat × α → Nat) (h : Store.sorted m = true) :
    Store.sorted (l.foldl (fun m e => Store.insert m (k e) e.2) m) = true :=
  List.foldlRecOn (motive := fun m => Store.sorted m = true) l _ h fun _ h e _ => Store.sorted_insert (k e) e.2 h

theorem sorted_moveFields {fl : List (Nat × Nat)} (src dst : Nat) (h : Store.sorted fl = true) :
    Store.sorted (moveFields fl src dst) = true :=
  sorted_foldl_insert _ _ (Store.sorted_filter _ h)

theorem wf_blit {m : List Host.Cell} (src dst n : Nat) (h : Memory.wf m = true) : Memory.wf (blit m src dst n) = true :=
  Memory.wf_foldl_insert _ (fun k => k - src + dst)
    (fun e he => ((Memory.wf_iff m).1 h).2 e (List.mem_of_mem_filter he)) (Memory.wf_eraseRange dst n h)

theorem rowRegsCanon.filter {x : List (Nat × Nat)} (h : rowRegsCanon x) (p : Nat × Nat → Bool) : rowRegsCanon (x.filter p) := by
  obtain ⟨hs, hz⟩ := Bool.and_eq_true_iff.1 h
  exact Bool.and_eq_true_iff.2 ⟨Store.sorted_filter p hs,
    List.all_eq_true.2 fun e he => List.all_eq_true.1 hz e (List.mem_of_mem_filter he)⟩

/-! ### Register reads, the outbox and spare swaps -/

section
variable {s : State} (hs : s.Inv)
include hs

@[simp] theorem State.Inv.setupPoison (a n : Nat) : (s.setupPoison a n).Inv := by
  unfold State.setupPoison
  simp +contextual (maxDischargeDepth := 20) [hs, State.Inv.foldl]

@[simp] theorem State.Inv.hostPoison (w : Nat) : (s.hostPoison w).Inv := by
  unfold State.hostPoison
  simp [hs]

@[simp] theorem State.Inv.readAt (a : Nat) : (s.readAt a).2.Inv := by
  unfold State.readAt
  repeat' split
  all_goals simp (maxDischargeDepth := 20) [hs]

@[simp] theorem State.Inv.setQp (q : Qp) : (s.setQp q).Inv := by
  unfold State.setQp
  simp [hs]

@[simp] theorem State.Inv.sendPart (q : Qp) (b : OutBind) (x : Push) (parts : List (Nat × Nat × Nat)) (k psn : Nat) :
    (s.sendPart q b x parts k psn).Inv := by
  unfold State.sendPart
  split <;> simp +contextual (maxDischargeDepth := 20) [hs, State.Inv.foldl]

@[simp] theorem State.Inv.transmitPush (q : Qp) (b : OutBind) (x : Push) : (s.transmitPush q b x).Inv := by
  unfold State.transmitPush
  simp +contextual (maxDischargeDepth := 20) [hs, State.Inv.foldl]

@[simp] theorem State.Inv.resendPush (q : Qp) (b : OutBind) (x : Push) : (s.resendPush q b x).Inv := by
  unfold State.resendPush
  simp +contextual (maxDischargeDepth := 20) [hs, State.Inv.foldl]

@[simp] theorem State.Inv.startPush : s.startPush.Inv := by
  unfold State.startPush
  split
  · split <;> simp (maxDischargeDepth := 20) [hs]
  · simp (maxDischargeDepth := 20) [hs]

@[simp] theorem State.Inv.queuePush (n : Nat) (replayed : Bool) : (s.queuePush n replayed).Inv := by
  unfold State.queuePush
  simp (maxDischargeDepth := 20) [hs]

@[simp] theorem State.Inv.releaseInputs (n : Nat) : (s.releaseInputs n).Inv := by
  unfold State.releaseInputs
  simp [hs]

@[simp] theorem State.Inv.sampleEvent (n : Nat) : (s.sampleEvent n).Inv := by
  unfold State.sampleEvent
  split
  · exact hs
  · refine .ite (State.Inv.event ?_ _ _) hs
    refine State.Inv.foldl_snd _ (fun r a hr => ?_) _ hs
    exact hr.readAt a

@[simp] theorem State.Inv.moveCluster (src dst : Nat) : (s.moveCluster src dst).Inv :=
  ⟨wf_blit _ _ _ (wf_blit _ _ _ hs.wf_mem), sorted_moveFields src dst hs.sorted_flds, hs.rowRegs⟩

@[simp] theorem State.Inv.setMap (active good : Nat) : (s.setMap active good).Inv := by
  unfold State.setMap
  simp [hs]

@[simp] theorem State.Inv.doSwap (c target : Nat) (sealAgain : Bool) : (s.doSwap c target sealAgain).Inv := by
  unfold State.doSwap
  simp +contextual (maxDischargeDepth := 20) [hs, State.Inv.foldl]

@[simp] theorem State.Inv.beginSwaps : s.beginSwaps.Inv := by
  unfold State.beginSwaps
  split
  · simp (maxDischargeDepth := 20) [hs]
  · split <;> simp (maxDischargeDepth := 20) [hs]

@[simp] theorem State.Inv.swapDone : s.swapDone.Inv := by
  unfold State.swapDone
  dsimp only
  split
  · simp (maxDischargeDepth := 20) [hs]
  · split
    · simp (maxDischargeDepth := 20) [hs]
    · split <;> simp (maxDischargeDepth := 20) [hs]

@[simp] theorem State.Inv.actSwap (c : Nat) : (s.actSwap c).Inv := by
  unfold State.actSwap
  simp (maxDischargeDepth := 20) [hs]

@[simp] theorem execErrSwap_nextInv (pc : Nat) : NextInv (execErrSwap pc s) := by
  unfold execErrSwap
  simp +contextual (maxDischargeDepth := 20) [hs]

end

/-! ### Square-ups, rollback, commit and the measured state -/

section
variable {s : State} (hs : s.Inv)
include hs

@[simp] theorem State.Inv.sendGo (g : GoFrame) (own : Nat) : (s.sendGo g own).Inv := by
  unfold State.sendGo
  simp +contextual (maxDischargeDepth := 20) [hs, State.Inv.foldl]

@[simp] theorem State.Inv.exportAtGo (confirmed : Bool) : (s.exportAtGo confirmed).Inv := by
  unfold State.exportAtGo
  simp (maxDischargeDepth := 20) [hs]

@[simp] theorem State.Inv.confirmAtGo (g : GoFrame) : (s.confirmAtGo g).Inv := by
  unfold State.confirmAtGo
  simp +contextual (maxDischargeDepth := 20) [hs]

@[simp] theorem State.Inv.firstAtGo (g : GoFrame) : (s.firstAtGo g).Inv := by
  unfold State.firstAtGo
  extract_lets s1 s2 s3
  have h1 : s1.Inv := hs.updTick _
  have h2 : s2.Inv := .ite h1.beginRun ((h1.dropOutcomes.setAll _).updErr _)
  have h3 : s3.Inv := (h1.clearEach _ _ _).clearEach _ _ _
  exact .ite (h1.set _ _) (.ite ((((h2.exportAtGo _).confirmAtGo g).setJob 2 0).updTick _)
    (.ite ((h3.setAll _).updTick _) h1))

@[simp] theorem State.Inv.entropyAtGo (g : GoFrame) : (s.entropyAtGo g).Inv := by
  unfold State.entropyAtGo
  simp (maxDischargeDepth := 20) [hs]

@[simp] theorem State.Inv.scheduleZero (acc : Nat) : (s.scheduleZero acc).Inv := by
  unfold State.scheduleZero
  simp (maxDischargeDepth := 20) [hs]

@[simp] theorem State.Inv.applyGo (g : GoFrame) : (s.applyGo g).Inv := by
  unfold State.applyGo
  dsimp only
  split
  · split <;> simp (maxDischargeDepth := 20) [hs]
  · simp (maxDischargeDepth := 20) [hs]

@[simp] theorem State.Inv.stepMismatch : s.stepMismatch.Inv := by
  unfold State.stepMismatch
  simp (maxDischargeDepth := 20) [hs]

@[simp] theorem State.Inv.trySquareUp : s.trySquareUp.Inv := by
  unfold State.trySquareUp
  split
  · simp (maxDischargeDepth := 20) [hs]
  · split <;> simp (maxDischargeDepth := 20) [hs]

@[simp] theorem execSquareUpGather_nextInv (p : Nat) (t : Token) : NextInv (execSquareUpGather p t s) := by
  unfold execSquareUpGather
  simp (maxDischargeDepth := 20) [hs]

@[simp] theorem execSquareUpGo_nextInv (g : GoFrame) : NextInv (execSquareUpGo g s) := by
  unfold execSquareUpGo
  simp (maxDischargeDepth := 20) [hs]

@[simp] theorem State.Inv.zeroListCtx : s.zeroListCtx.Inv :=
  ⟨hs.wf_mem, Store.sorted_filter _ hs.sorted_flds, hs.rowRegs.filter _⟩

@[simp] theorem State.Inv.rotateErrors : s.rotateErrors.Inv := by
  unfold State.rotateErrors
  simp [hs]

@[simp] theorem execTickZero_nextInv : NextInv (execTickZero s) := by
  unfold execTickZero
  dsimp only
  split
  · simp (maxDischargeDepth := 20) [hs]
  · split
    · simp (maxDischargeDepth := 20) [hs]
    · split <;> simp (maxDischargeDepth := 20) [hs]

@[simp] theorem State.Inv.actStart : s.actStart.Inv := by
  unfold State.actStart
  simp (maxDischargeDepth := 20) [hs]

@[simp] theorem execTickCtrlStart_nextInv : NextInv (execTickCtrlStart s) := by
  unfold execTickCtrlStart
  simp +contextual (maxDischargeDepth := 20) [hs]

@[simp] theorem State.Inv.actDry : s.actDry.Inv := by
  unfold State.actDry
  simp (maxDischargeDepth := 20) [hs]

@[simp] theorem execTickDryStart_nextInv (bank : Nat) : NextInv (execTickDryStart bank s) := by
  unfold execTickDryStart
  simp +contextual (maxDischargeDepth := 20) [hs]

@[simp] theorem execSpareSwapDone_nextInv : NextInv (execSpareSwapDone s) := by
  unfold execSpareSwapDone
  refine (nextInv_next _).2 (.ite ?_ hs)
  extract_lets s1 s2 s3
  have h1 : s1.Inv := State.Inv.swapDone hs
  have h3 : s3.Inv := (State.Inv.ite (h1.set _ _) h1).updErr _
  refine .ite h1 (.ite ?_ h1.trySquareUp)
  split
  · exact .ite (h3.fatalSlice _ _) (h3.enterHalt _)
  · exact h3.enterHalt _

@[simp] theorem State.Inv.zeroTotals : s.zeroTotals.Inv := ((hs.zeroRange _ _).zeroRange _ _).arrSingle

@[simp] theorem State.Inv.discardAttempt : s.discardAttempt.Inv := by
  unfold State.discardAttempt
  simp (maxDischargeDepth := 20) [hs]

@[simp] theorem State.Inv.endAttempt : s.endAttempt.Inv := by
  unfold State.endAttempt
  simp (maxDischargeDepth := 20) [hs]

@[simp] theorem State.Inv.haltSlice (e : Err) : (s.haltSlice e).Inv := by
  unfold State.haltSlice
  simp [hs]

@[simp] theorem State.Inv.secondFailure (es : List Err) : (s.secondFailure es).Inv := by
  unfold State.secondFailure
  dsimp only
  split <;> simp (maxDischargeDepth := 20) [hs]

@[simp] theorem State.Inv.ladder (es : List Err) : (s.ladder es).Inv := by
  unfold State.ladder
  split <;> simp [hs]

@[simp] theorem State.Inv.failedBy (es : List Err) (v : Option CarriedErr) : (s.failedBy es v).Inv := by
  unfold State.failedBy
  split <;> simp [hs]

@[simp] theorem State.Inv.rollback (v : Option CarriedErr) : (s.rollback v).Inv := by
  unfold State.rollback
  simp (maxDischargeDepth := 20) [hs]

@[simp] theorem State.Inv.rollbackHalt (v : Option CarriedErr) : (s.rollbackHalt v).Inv := by
  unfold State.rollbackHalt
  simp (maxDischargeDepth := 20) [hs]

@[simp] theorem execQueuedError_nextInv : NextInv (execQueuedError s) := by
  unfold execQueuedError
  split <;> simp (maxDischargeDepth := 20) [hs]

@[simp] theorem State.Inv.writeCensusEntries (a : Nat) : (s.writeCensusEntries a).Inv := by
  unfold State.writeCensusEntries
  simp +contextual (maxDischargeDepth := 20) [hs, State.Inv.foldl]

@[simp] theorem State.Inv.nextCensusSlot : s.nextCensusSlot.Inv := by
  unfold State.nextCensusSlot
  simp [hs]

@[simp] theorem State.Inv.entriesBefore (a bad : Nat) : (s.entriesBefore a bad).Inv := by
  unfold State.entriesBefore
  simp [hs]

@[simp] theorem State.Inv.abandonCensus (a bad : Nat) : (s.abandonCensus a bad).Inv := by
  unfold State.abandonCensus
  simp (maxDischargeDepth := 20) [hs]

@[simp] theorem State.Inv.snapshot (hw : List HwFault) : (s.snapshot hw).Inv := by
  unfold State.snapshot
  split
  · simp (maxDischargeDepth := 20) [hs]
  · dsimp only
    split <;> simp (maxDischargeDepth := 20) [hs]

@[simp] theorem State.Inv.recHw (hw : List HwFault) : (s.recHw hw).Inv := by
  unfold State.recHw
  refine State.Inv.foldl _ (fun t a ht => ?_) _ hs
  split <;> simp (maxDischargeDepth := 20) [ht]

@[simp] theorem State.Inv.commit (hw : List HwFault) : (s.commit hw).Inv := by
  unfold State.commit
  simp (maxDischargeDepth := 20) [hs]

@[simp] theorem State.Inv.endDry (hw : List HwFault) : (s.endDry hw).Inv :=
  ((hs.snapshot hw).stopTicks.setAll _).endHandling

@[simp] theorem State.Inv.actCommit (hw : List HwFault) : (s.actCommit hw).Inv := by
  unfold State.actCommit
  simp (maxDischargeDepth := 20) [hs]

@[simp] theorem execErrCtrlCommit_nextInv (hw : List HwFault) : NextInv (execErrCtrlCommit hw s) := by
  unfold execErrCtrlCommit
  simp +contextual (maxDischargeDepth := 20) [hs]

@[simp] theorem State.Inv.actMeasure : s.actMeasure.Inv := by
  unfold State.actMeasure
  simp (maxDischargeDepth := 20) [hs]

@[simp] theorem execDetMeasure_nextInv : NextInv (execDetMeasure s) := by
  unfold execDetMeasure
  simp +contextual (maxDischargeDepth := 20) [hs]

@[simp] theorem execMeasureDone_nextInv (hw : List HwFault) : NextInv (execMeasureDone hw s) := by
  unfold execMeasureDone
  simp (maxDischargeDepth := 20) [hs]

end

/-- The state in which a write to an unsealed bank goes on is canonical. -/
theorem State.Inv.of_touchBank {s : State} (hs : s.Inv) {b sc idx src : Nat} {t u : State}
    (h : s.touchBank b sc idx src = (some t, u)) : t.Inv := by
  unfold State.touchBank at h
  extract_lets s1 s2 at h
  have h1 : s1.Inv := hs.abortSeal b
  split at h
  · exact absurd (congrArg Prod.fst h) (by simp)
  · obtain rfl : s2 = t := Option.some.inj (congrArg Prod.fst h)
    exact (h1.unseal b).set _ _

theorem State.Inv.of_touchBank_none {s : State} (hs : s.Inv) {b sc idx src : Nat} {u : State}
    (h : s.touchBank b sc idx src = (none, u)) : u.Inv := by
  simpa [h] using hs.touchBank b sc idx src

/-! ### Loads, seals, list memories and replicas -/

section
variable {s : State} (hs : s.Inv)
include hs

@[simp] theorem State.Inv.sealView (b : Nat) : (s.sealView b).Inv := by
  unfold State.sealView
  simp (maxDischargeDepth := 20) [hs]

@[simp] theorem State.Inv.freshJob : s.freshJob.Inv := by
  unfold State.freshJob
  extract_lets inT outT s1 s2 s3 s4 s5
  have h1 : s1.Inv := State.inv_mk.2 ⟨hs.wf_mem, Store.sorted_filter _ hs.sorted_flds, hs.rowRegs⟩
  have h2 : s2.Inv := State.Inv.foldl _ (fun _ f ht => ht.clearF f) _ h1
  have h4 : s4.Inv := State.Inv.set (State.Inv.zeroTotals (h2.setAll _)) _ _
  have h5 : s5.Inv := State.inv_mk.2 ⟨h4.wf_mem, h4.sorted_flds, h4.rowRegs⟩
  exact State.Inv.updTick (h5.updHost _) _

@[simp] theorem State.Inv.actLoad : s.actLoad.Inv := by
  unfold State.actLoad
  simp (maxDischargeDepth := 20) [hs]

@[simp] theorem execTickCtrlLoad_nextInv : NextInv (execTickCtrlLoad s) := by
  unfold execTickCtrlLoad
  simp +contextual (maxDischargeDepth := 20) [hs]

@[simp] theorem State.Inv.sealFails (b : Nat) (load : Bool) (f : SealFault) : (s.sealFails b load f).Inv := by
  unfold State.sealFails
  simp (maxDischargeDepth := 20) [hs]

@[simp] theorem State.Inv.sealPasses (b : Nat) (load : Bool) : (s.sealPasses b load).Inv := by
  unfold State.sealPasses
  simp (maxDischargeDepth := 20) [hs]

@[simp] theorem State.Inv.sealDone : s.sealDone.Inv := by
  unfold State.sealDone
  split
  · simp (maxDischargeDepth := 20) [hs]
  · dsimp only
    split <;> simp (maxDischargeDepth := 20) [hs]

@[simp] theorem execSealDone_nextInv : NextInv (execSealDone s) := by
  unfold execSealDone
  simp [hs]

@[simp] theorem State.Inv.writeList (a v : Nat) : (s.writeList a v).Inv := by
  unfold State.writeList
  split
  · extract_lets sc
    split
    next t _ h => exact ((hs.of_touchBank h).wr a 8 v).okay
    next h => exact (hs.of_touchBank_none h).okay
  · exact hs.denied

@[simp] theorem State.Inv.writeKernel (a v : Nat) : (s.writeKernel a v).Inv := by
  unfold State.writeKernel
  split
  · split
    · split
      next t _ h => exact ((hs.of_touchBank h).wr a 8 v).okay
      next h => exact (hs.of_touchBank_none h).okay
    · exact hs.denied
  · exact hs.denied

@[simp] theorem State.Inv.putFields (a v : Nat) : (s.putFields a v).Inv := by
  unfold State.putFields
  simp +contextual (maxDischargeDepth := 20) [hs, State.Inv.foldl]

@[simp] theorem State.Inv.writePointer (a v : Nat) : (s.writePointer a v).Inv := by
  unfold State.writePointer
  split
  · split
    next t _ h => exact ((hs.of_touchBank h).putFields a v).okay
    next h => exact (hs.of_touchBank_none h).okay
  · exact hs.denied

@[simp] theorem execListMemoryWrite_nextInv (a v : Nat) : NextInv (execListMemoryWrite a v s) := by
  unfold execListMemoryWrite
  simp +contextual (maxDischargeDepth := 20) [hs]

@[simp] theorem execDescriptorPointerWrite_nextInv (a v : Nat) : NextInv (execDescriptorPointerWrite a v s) := by
  unfold execDescriptorPointerWrite
  simp +contextual (maxDischargeDepth := 20) [hs]

@[simp] theorem execKernelRegionWrite_nextInv (a v : Nat) : NextInv (execKernelRegionWrite a v s) := by
  unfold execKernelRegionWrite
  simp +contextual (maxDischargeDepth := 20) [hs]

@[simp] theorem State.Inv.touchTables (a n : Nat) : (s.touchTables a n).Inv := by
  unfold State.touchTables
  split <;> simp [hs]

@[simp] theorem State.Inv.sendChks (xs : List ChkSlot) : (s.sendChks xs).Inv := by
  unfold State.sendChks
  simp +contextual (maxDischargeDepth := 20) [hs, State.Inv.foldl]

@[simp] theorem State.Inv.chkFirst (key rgroup : Nat) : (s.chkFirst key rgroup).Inv := by
  unfold State.chkFirst
  simp (maxDischargeDepth := 20) [hs]

@[simp] theorem State.Inv.chkDone : s.chkDone.Inv := by
  unfold State.chkDone
  simp [hs]

@[simp] theorem State.Inv.compareChks : s.compareChks.Inv := by
  unfold State.compareChks
  dsimp only
  split
  · split <;> simp (maxDischargeDepth := 20) [hs]
  · split <;> simp (maxDischargeDepth := 20) [hs]

@[simp] theorem State.Inv.replayShard (d : Nat) : (s.replayShard d).Inv := by
  unfold State.replayShard
  simp +contextual (maxDischargeDepth := 20) [hs, State.Inv.foldl]

@[simp] theorem State.Inv.abandonProc : s.abandonProc.Inv := by
  unfold State.abandonProc
  simp [hs]

@[simp] theorem State.Inv.beginMismatch : s.beginMismatch.Inv := by
  unfold State.beginMismatch
  simp +contextual (maxDischargeDepth := 20) [hs, State.Inv.foldl]

@[simp] theorem State.Inv.mismatchHalt : s.mismatchHalt.Inv := by
  unfold State.mismatchHalt
  simp (maxDischargeDepth := 20) [hs]

@[simp] theorem State.Inv.resolveShard (x : ChkSlot) : (s.resolveShard x).Inv := by
  unfold State.resolveShard
  dsimp only
  split
  · simp +contextual (maxDischargeDepth := 20) [hs]
  · split <;> simp +contextual (maxDischargeDepth := 20) [hs, State.Inv.foldl]

@[simp] theorem State.Inv.secondExchange (hw : List HwFault) : (s.secondExchange hw).Inv := by
  unfold State.secondExchange
  simp +contextual (maxDischargeDepth := 20) [hs, State.Inv.foldl]

@[simp] theorem State.Inv.landRepair (key : Nat) (data : List Nat) : (s.landRepair key data).Inv := by
  unfold State.landRepair
  split <;> simp (maxDischargeDepth := 20) [hs]

end

/-! ### Glue-up and boot -/

section
variable {s : State} (hs : s.Inv)
include hs

@[simp] theorem State.Inv.toGlue (a : Nat) : (s.toGlue a).Inv := by
  unfold State.toGlue
  simp [hs]

@[simp] theorem State.Inv.reportAtGlue : s.reportAtGlue.Inv := by
  unfold State.reportAtGlue
  simp +contextual (maxDischargeDepth := 20) [hs, State.Inv.foldl]

@[simp] theorem State.Inv.toSeven : s.toSeven.Inv := by
  unfold State.toSeven
  simp [hs]

@[simp] theorem State.Inv.phaseMiss : s.phaseMiss.Inv := by
  unfold State.phaseMiss
  simp (maxDischargeDepth := 20) [hs]

@[simp] theorem State.Inv.afterCommit : s.afterCommit.Inv := by
  unfold State.afterCommit
  simp (maxDischargeDepth := 20) [hs]

@[simp] theorem State.Inv.rollbackBy (v : Option CarriedErr) : (s.rollbackBy v).Inv := by
  unfold State.rollbackBy
  simp [hs]

@[simp] theorem State.Inv.afterBarrier (act : Nat) (v : Verdict) : (s.afterBarrier act v).Inv := by
  unfold State.afterBarrier
  split <;> simp (maxDischargeDepth := 20) [hs]

@[simp] theorem State.Inv.hearErr (e : Option CarriedErr) (next : optParam Bool false) : (s.hearErr e next).Inv := by
  unfold State.hearErr
  split <;> simp (maxDischargeDepth := 20) [hs]

@[simp] theorem State.Inv.release' (act : Nat) (v : Verdict) : (s.release' act v).Inv := by
  unfold State.release'
  simp +contextual (maxDischargeDepth := 20) [hs, State.Inv.foldl]

@[simp] theorem State.Inv.gatherOnce : s.gatherOnce.Inv := by
  unfold State.gatherOnce
  dsimp only
  split
  · simp (maxDischargeDepth := 20) [hs]
  · split <;> simp (maxDischargeDepth := 20) [hs]

@[simp] theorem State.Inv.glueAdvance : s.glueAdvance.Inv := by
  unfold State.glueAdvance
  simp (maxDischargeDepth := 20) [hs]

@[simp] theorem State.Inv.advanceMismatch : s.advanceMismatch.Inv := by
  unfold State.advanceMismatch
  simp [hs]

@[simp] theorem execBarrierGather_nextInv (p act : Nat) (v : Verdict) : NextInv (execBarrierGather p act v s) := by
  unfold execBarrierGather
  simp (maxDischargeDepth := 20) [hs]

@[simp] theorem execBarrierRelease_nextInv (act : Nat) (v : Verdict) : NextInv (execBarrierRelease act v s) := by
  unfold execBarrierRelease
  simp (maxDischargeDepth := 20) [hs]

@[simp] theorem execTickClose_nextInv : NextInv (execTickClose s) := by
  unfold execTickClose
  simp [hs]

@[simp] theorem execStretchClose_nextInv (q : Nat) : NextInv (execStretchClose q s) := by
  unfold execStretchClose
  simp [hs]

@[simp] theorem State.Inv.stretchLimit : s.stretchLimit.Inv := by
  unfold State.stretchLimit
  simp (maxDischargeDepth := 20) [hs]

@[simp] theorem execStretchLimit_nextInv : NextInv (execStretchLimit s) := by
  unfold execStretchLimit
  simp [hs]

@[simp] theorem execPendingErrorCheck_nextInv : NextInv (execPendingErrorCheck s) := by
  unfold execPendingErrorCheck
  refine (nextInv_next _).2 (.ite ?_ hs)
  split
  · exact hs
  next v _ =>
    have h1 := hs.updTick fun t => { t with released := none }
    exact .ite (h1.enterHalt _) (.ite (h1.toGlue _) (h1.rollbackBy _))

@[simp] theorem execChecksumExchange_nextInv : NextInv (execChecksumExchange s) := by
  unfold execChecksumExchange
  simp (maxDischargeDepth := 20) [hs]

@[simp] theorem State.Inv.lateKey (rgroup key : Nat) : (s.lateKey rgroup key).Inv := by
  unfold State.lateKey
  simp (maxDischargeDepth := 20) [hs]

@[simp] theorem execChecksumFrame_nextInv (dev key crc : Nat) (rgroup : optParam Nat 0) :
    NextInv (execChecksumFrame dev key crc s rgroup) := by
  unfold execChecksumFrame
  simp (maxDischargeDepth := 20) [hs]

@[simp] theorem execSecondExchange_nextInv (hw : optParam (List HwFault) []) : NextInv (execSecondExchange s hw) := by
  unfold execSecondExchange
  simp (maxDischargeDepth := 20) [hs]

@[simp] theorem execRepairTransferLanded_nextInv (key : Nat) (data : List Nat) :
    NextInv (execRepairTransferLanded key data s) := by
  unfold execRepairTransferLanded
  simp (maxDischargeDepth := 20) [hs]

@[simp] theorem execCommit_nextInv (hw : List HwFault) : NextInv (execCommit hw s) := by
  unfold execCommit
  simp (maxDischargeDepth := 20) [hs]

@[simp] theorem execPermutationDone_nextInv (ins : List PermIn) : NextInv (execPermutationDone ins s) := by
  unfold execPermutationDone
  simp (maxDischargeDepth := 20) [hs]

@[simp] theorem State.Inv.swapBanks : s.swapBanks.Inv := by
  unfold State.swapBanks
  simp (maxDischargeDepth := 20) [hs]

@[simp] theorem execPhaseChange_nextInv : NextInv (execPhaseChange s) := by
  unfold execPhaseChange
  simp (maxDischargeDepth := 20) [hs]

@[simp] theorem State.Inv.holdInput : s.holdInput.Inv := by
  unfold State.holdInput
  simp (maxDischargeDepth := 20) [hs]

@[simp] theorem State.Inv.holdPush : s.holdPush.Inv := by
  unfold State.holdPush
  simp (maxDischargeDepth := 20) [hs]

@[simp] theorem State.Inv.residencyCheck : s.residencyCheck.Inv := by
  unfold State.residencyCheck
  simp (maxDischargeDepth := 20) [hs]

@[simp] theorem execInputResidencyCheck_nextInv : NextInv (execInputResidencyCheck s) := by
  unfold execInputResidencyCheck
  simp [hs]

@[simp] theorem State.Inv.recheckHold : s.recheckHold.Inv := by
  unfold State.recheckHold
  simp [hs]

@[simp] theorem execGlueUpWatchdog_nextInv : NextInv (execGlueUpWatchdog s) := by
  unfold execGlueUpWatchdog
  simp (maxDischargeDepth := 20) [hs]

@[simp] theorem execHaltNotice_nextInv (p : Nat) (e : CarriedErr) : NextInv (execHaltNotice p e s) := by
  unfold execHaltNotice
  refine nextInv_ite ((nextInv_next _).2 ?_) (nextInv_fault _)
  extract_lets s1 s2
  have h2 : s2.Inv := ((hs.emitTree _ _).hearErr _ _).updTick _
  exact .ite h2 (.ite (h2.updTick _) (.ite (h2.updErr _) ((h2.set _ _).enterHalt _)))

@[simp] theorem State.Inv.actLogClear : s.actLogClear.Inv := by
  unfold State.actLogClear
  simp (maxDischargeDepth := 20) [hs]

@[simp] theorem execErrLogClear_nextInv : NextInv (execErrLogClear s) := by
  unfold execErrLogClear
  simp +contextual (maxDischargeDepth := 20) [hs]

@[simp] theorem State.Inv.actCntClear : s.actCntClear.Inv := by
  unfold State.actCntClear
  simp (maxDischargeDepth := 20) [hs]

@[simp] theorem execErrCntClear_nextInv : NextInv (execErrCntClear s) := by
  unfold execErrCntClear
  simp +contextual (maxDischargeDepth := 20) [hs]

@[simp] theorem State.Inv.actInject (v : Nat) : (s.actInject v).Inv := by
  unfold State.actInject
  simp (maxDischargeDepth := 20) [hs]

@[simp] theorem execErrInjectArm_nextInv (v : Nat) : NextInv (execErrInjectArm v s) := by
  unfold execErrInjectArm
  simp +contextual (maxDischargeDepth := 20) [hs]

@[simp] theorem execInjectedError_nextInv : NextInv (execInjectedError s) := by
  unfold execInjectedError
  simp (maxDischargeDepth := 20) [hs]

@[simp] theorem State.Inv.pwrFatal : s.pwrFatal.Inv := by
  unfold State.pwrFatal
  simp [hs]

@[simp] theorem State.Inv.trip : s.trip.Inv := by
  unfold State.trip
  simp (maxDischargeDepth := 20) [hs]

@[simp] theorem State.Inv.tripAgain : s.tripAgain.Inv := by
  unfold State.tripAgain
  simp [hs]

@[simp] theorem State.Inv.resetTo (kind : Nat) : (s.resetTo kind).Inv := by
  unfold State.resetTo
  extract_lets warm flds r tick err host boot pwr t
  have hf : Store.sorted flds = true := by
    simp only [flds]
    split
    · rfl
    · exact Store.sorted_filter _ hs.sorted_flds
  have hm : Memory.wf (if warm then s.mem else []) = true := by
    split
    · exact hs.wf_mem
    · rfl
  have ht : t.Inv := State.inv_mk.2 ⟨hm, hf, rfl⟩
  exact ht.trainAll.setAll _

@[simp] theorem State.Inv.loseOffRails (veneer : Bool) : (s.loseOffRails veneer).Inv :=
  ⟨Memory.wf_filter _ hs.wf_mem, hs.sorted_flds, hs.rowRegs⟩

@[simp] theorem State.Inv.resetFrom (kind cause : Nat) : (s.resetFrom kind cause).Inv := by
  unfold State.resetFrom
  simp (maxDischargeDepth := 20) [hs]

@[simp] theorem State.Inv.actWarm : s.actWarm.Inv := by
  unfold State.actWarm
  simp (maxDischargeDepth := 20) [hs]

@[simp] theorem execPwrResetWarm_nextInv : NextInv (execPwrResetWarm s) := by
  unfold execPwrResetWarm
  simp [hs]

@[simp] theorem State.Inv.loadWord (fs : List Fld) (w : Nat) : (s.loadWord fs w).Inv := by
  unfold State.loadWord
  simp +contextual (maxDischargeDepth := 20) [hs, State.Inv.foldl]

@[simp] theorem State.Inv.clearWord (fs : List Fld) : (s.clearWord fs).Inv := by
  unfold State.clearWord
  simp +contextual (maxDischargeDepth := 20) [hs, State.Inv.foldl]

@[simp] theorem State.Inv.loadAddresses (x : Option (List Nat)) : (s.loadAddresses x).Inv := by
  unfold State.loadAddresses
  simp (maxDischargeDepth := 20) [hs]

@[simp] theorem State.Inv.loadSite (x : Option (List Nat)) (seqno : Nat) : (s.loadSite x seqno).Inv := by
  unfold State.loadSite
  split <;> simp +contextual (maxDischargeDepth := 20) [hs, State.Inv.foldl]

@[simp] theorem State.Inv.loadDev (x : Aon) : (s.loadDev x).Inv := by
  unfold State.loadDev
  simp (maxDischargeDepth := 20) [hs]

@[simp] theorem State.Inv.loadRows (code : List Nat) : (s.loadRows code).Inv := by
  unfold State.loadRows
  simp +contextual (maxDischargeDepth := 20) [hs, State.Inv.foldl]

@[simp] theorem State.Inv.startClocks : s.startClocks.Inv := by
  unfold State.startClocks
  simp (maxDischargeDepth := 20) [hs]

@[simp] theorem State.Inv.configure (x : Aon) : (s.configure x).Inv := by
  unfold State.configure
  simp (maxDischargeDepth := 20) [hs]

@[simp] theorem State.Inv.bootFailed : s.bootFailed.Inv := by
  unfold State.bootFailed
  simp +contextual (maxDischargeDepth := 20) [hs, State.Inv.foldl]

@[simp] theorem State.Inv.configureFlash : s.configureFlash.Inv := by
  unfold State.configureFlash
  split <;> simp [hs]

@[simp] theorem State.Inv.configureStored (x : Aon) : (s.configureStored x).Inv := by
  unfold State.configureStored
  simp (maxDischargeDepth := 20) [hs]

@[simp] theorem State.Inv.coldStart : s.coldStart.Inv := by
  unfold State.coldStart
  simp [hs]

@[simp] theorem State.Inv.warmFallback : s.warmFallback.Inv := by
  unfold State.warmFallback
  dsimp only
  split <;> simp (maxDischargeDepth := 20) [hs]

@[simp] theorem State.Inv.configureWarm (lost : List (Nat × Nat)) : (s.configureWarm lost).Inv := by
  unfold State.configureWarm
  split <;> simp [hs]

@[simp] theorem execConfigurationDone_nextInv (lost : optParam (List (Nat × Nat)) []) :
    NextInv (execConfigurationDone s lost) := by
  unfold execConfigurationDone
  simp (maxDischargeDepth := 20) [hs]

@[simp] theorem State.Inv.tapReset : s.tapReset.Inv := by
  unfold State.tapReset
  simp [hs]

@[simp] theorem execPowerOn_nextInv : NextInv (execPowerOn s) := by
  unfold execPowerOn
  simp (maxDischargeDepth := 20) [hs]

@[simp] theorem execPorRelease_nextInv : NextInv (execPorRelease s) := by
  unfold execPorRelease
  simp (maxDischargeDepth := 20) [hs]

@[simp] theorem execBrownOut_nextInv : NextInv (execBrownOut s) := by
  unfold execBrownOut
  simp (maxDischargeDepth := 20) [hs]

@[simp] theorem execRstNAssert_nextInv : NextInv (execRstNAssert s) := by
  unfold execRstNAssert
  simp [hs]

@[simp] theorem State.Inv.pwrEvent : s.pwrEvent.Inv := by
  unfold State.pwrEvent
  simp [hs]

@[simp] theorem State.Inv.noteRate (ns : Nat) : (s.noteRate ns).Inv := by
  unfold State.noteRate
  simp (maxDischargeDepth := 20) [hs]

@[simp] theorem State.Inv.rstReset (ns : Nat) : (s.rstReset ns).Inv := by
  unfold State.rstReset
  simp (maxDischargeDepth := 20) [hs]

@[simp] theorem State.Inv.tapCutOff : s.tapCutOff.Inv := by
  unfold State.tapCutOff
  simp [hs]

@[simp] theorem State.Inv.boardWrites (l : List (Nat × List Nat)) : (s.boardWrites l).Inv := by
  unfold State.boardWrites
  simp [hs]

@[simp] theorem execRstNRelease_nextInv (w : Nat) (prog : optParam (List (Nat × List Nat)) []) :
    NextInv (execRstNRelease w s prog) := by
  unfold execRstNRelease
  simp (maxDischargeDepth := 20) [hs]

@[simp] theorem execRstNStuck_nextInv : NextInv (execRstNStuck s) := by
  unfold execRstNStuck
  simp (maxDischargeDepth := 20) [hs]

end

/-! ### Power, the management bus and the TAP -/

section
variable {s : State} (hs : s.Inv)
include hs

@[simp] theorem execRailFault_nextInv (rail : Nat) : NextInv (execRailFault rail s) := by
  unfold execRailFault
  simp (maxDischargeDepth := 20) [hs]

@[simp] theorem execPowerAverage_nextInv (watts : Nat) : NextInv (execPowerAverage watts s) := by
  unfold execPowerAverage
  simp (maxDischargeDepth := 20) [hs]

@[simp] theorem State.Inv.actRate (v : Nat) : (s.actRate v).Inv := by
  unfold State.actRate
  simp (maxDischargeDepth := 20) [hs]

@[simp] theorem execClkRateWrite_nextInv (v : Nat) : NextInv (execClkRateWrite v s) := by
  unfold execClkRateWrite
  simp +contextual (maxDischargeDepth := 20) [hs]

@[simp] theorem execPllRelockDone_nextInv : NextInv (execPllRelockDone s) := by
  unfold execPllRelockDone
  simp (maxDischargeDepth := 20) [hs]

@[simp] theorem execRefclkLoss_nextInv (present : Bool) : NextInv (execRefclkLoss present s) := by
  unfold execRefclkLoss
  simp (maxDischargeDepth := 20) [hs]

@[simp] theorem State.Inv.enterStop : s.enterStop.Inv := by
  unfold State.enterStop
  simp +contextual (maxDischargeDepth := 20) [hs, State.Inv.foldl]

@[simp] theorem State.Inv.stopped : s.stopped.Inv := by
  unfold State.stopped
  simp +contextual (maxDischargeDepth := 20) [hs, State.Inv.foldl]

@[simp] theorem execStopEntryDone_nextInv : NextInv (execStopEntryDone s) := by
  unfold execStopEntryDone
  simp [hs]

@[simp] theorem execWakeDone_nextInv : NextInv (execWakeDone s) := by
  unfold execWakeDone
  split
  · dsimp only
    split <;> simp +contextual (maxDischargeDepth := 20) [hs, State.Inv.foldl]
  · simp +contextual (maxDischargeDepth := 20) [hs]

@[simp] theorem State.Inv.actPadRelease : s.actPadRelease.Inv := by
  unfold State.actPadRelease
  simp [hs]

@[simp] theorem execPadHoldRelease_nextInv : NextInv (execPadHoldRelease s) := by
  unfold execPadHoldRelease
  simp +contextual (maxDischargeDepth := 20) [hs]

@[simp] theorem execThermalSample_nextInv (ts : List Int) : NextInv (execThermalSample ts s) := by
  unfold execThermalSample
  simp +contextual (maxDischargeDepth := 20) [hs]

@[simp] theorem execThermHot_nextInv : NextInv (execThermHot s) := by
  unfold execThermHot
  simp (maxDischargeDepth := 20) [hs]

@[simp] theorem State.Inv.filtered : s.filtered.Inv := by
  unfold State.filtered
  simp [hs]

@[simp] theorem State.Inv.shedLoads : s.shedLoads.Inv := by
  unfold State.shedLoads
  split <;> simp [hs]

@[simp] theorem execPwrFailAssert_nextInv (short : optParam Bool false) : NextInv (execPwrFailAssert s short) := by
  unfold execPwrFailAssert
  simp (maxDischargeDepth := 20) [hs]

@[simp] theorem execPwrFailRelease_nextInv : NextInv (execPwrFailRelease s) := by
  unfold execPwrFailRelease
  simp [hs]

@[simp] theorem execPwrFailStuck_nextInv : NextInv (execPwrFailStuck s) := by
  unfold execPwrFailStuck
  simp (maxDischargeDepth := 20) [hs]

@[simp] theorem execSclStuck_nextInv (ns : optParam Nat (smbStuckNs + 1)) : NextInv (execSclStuck s ns) := by
  unfold execSclStuck
  simp (maxDischargeDepth := 20) [hs]

@[simp] theorem execSdaStuck_nextInv (ns : optParam Nat (smbStuckNs + 1)) : NextInv (execSdaStuck s ns) := by
  unfold execSdaStuck
  simp (maxDischargeDepth := 20) [hs]

@[simp] theorem State.Inv.skewCheck (cc : Int) : (s.skewCheck cc).Inv := by
  unfold State.skewCheck
  simp (maxDischargeDepth := 20) [hs]

@[simp] theorem execSqupInEdge_nextInv (cc : Int) (width : Nat) : NextInv (execSqupInEdge cc width s) := by
  unfold execSqupInEdge
  simp (maxDischargeDepth := 20) [hs]

@[simp] theorem execSqupInStuck_nextInv : NextInv (execSqupInStuck s) := by
  unfold execSqupInStuck
  simp (maxDischargeDepth := 20) [hs]

@[simp] theorem execSqupInFall_nextInv : NextInv (execSqupInFall s) := by
  unfold execSqupInFall
  simp [hs]

@[simp] theorem State.Inv.smbWake : s.smbWake.Inv := by
  unfold State.smbWake
  simp (maxDischargeDepth := 20) [hs]

@[simp] theorem execSmbAddressMatch_nextInv (addr : Nat) : NextInv (execSmbAddressMatch addr s) := by
  unfold execSmbAddressMatch
  simp [hs]

@[simp] theorem State.Inv.smbTurn {body : State → State} (hb : ∀ t, t.Inv → (body t).Inv) : (s.smbTurn body).Inv :=
  .ite hs (.ite hs.smbWake (.ite ((hs.updPwr _).emit _) (hb s hs)))

@[simp] theorem execSmbStatus_nextInv : NextInv (execSmbStatus s) := by
  unfold execSmbStatus
  simp +contextual (maxDischargeDepth := 20) [hs]

@[simp] theorem State.Inv.smbCommand (code pec : Nat) (ok : Bool) {act : State → State} (ha : ∀ t, t.Inv → (act t).Inv) :
    (s.smbCommand code pec ok act).Inv :=
  hs.smbTurn fun _ ht => .ite ((ht.inc _ _).emit _) (.ite (ha _ (ht.emit _)) (ht.emit _))

@[simp] theorem execSmbStop_nextInv (pec : Nat) : NextInv (execSmbStop pec s) := by
  unfold execSmbStop
  simp +contextual (maxDischargeDepth := 20) [hs]

@[simp] theorem execSmbWarmReset_nextInv (pec : Nat) : NextInv (execSmbWarmReset pec s) := by
  unfold execSmbWarmReset
  simp +contextual (maxDischargeDepth := 20) [hs]

@[simp] theorem execSmbAlertResponse_nextInv : NextInv (execSmbAlertResponse s) := by
  unfold execSmbAlertResponse
  simp [hs]

@[simp] theorem State.Inv.tapSelect (op : Nat) : (s.tapSelect op).Inv := by
  unfold State.tapSelect
  simp [hs]

@[simp] theorem State.Inv.tapBypass : s.tapBypass.Inv := by
  unfold State.tapBypass
  simp [hs]

@[simp] theorem State.Inv.tapCapture : s.tapCapture.Inv := by
  unfold State.tapCapture
  simp [hs]

@[simp] theorem State.Inv.tap (op : Nat) {act : State → State} (ha : ∀ t, t.Inv → (act t).Inv) : NextInv (s.tap op act) := by
  unfold State.tap
  exact (nextInv_next _).2 (.ite hs (.ite (State.Inv.tapBypass (hs.tapSelect op)) (ha _ (hs.tapSelect op))))

@[simp] theorem State.Inv.tapTest (d : Option Nat) : (s.tapTest d).Inv := by
  unfold State.tapTest
  simp (maxDischargeDepth := 20) [hs]

@[simp] theorem execExtest_nextInv (d : optParam (Option Nat) none) : NextInv (execExtest s d) := by
  unfold execExtest
  simp +contextual (maxDischargeDepth := 20) [hs]

@[simp] theorem execSamplePreload_nextInv (d : Nat) : NextInv (execSamplePreload d s) := by
  unfold execSamplePreload
  simp +contextual (maxDischargeDepth := 20) [hs]

@[simp] theorem execIdcode_nextInv : NextInv (execIdcode s) := by
  unfold execIdcode
  simp +contextual (maxDischargeDepth := 20) [hs]

@[simp] theorem execClamp_nextInv : NextInv (execClamp s) := by
  unfold execClamp
  simp +contextual (maxDischargeDepth := 20) [hs]

@[simp] theorem execHighZ_nextInv : NextInv (execHighZ s) := by
  unfold execHighZ
  simp +contextual (maxDischargeDepth := 20) [hs]

@[simp] theorem execExtestPulse_nextInv (d : optParam (Option Nat) none) : NextInv (execExtestPulse s d) := by
  unfold execExtestPulse
  simp +contextual (maxDischargeDepth := 20) [hs]

@[simp] theorem execExtestTrain_nextInv (d : optParam (Option Nat) none) : NextInv (execExtestTrain s d) := by
  unfold execExtestTrain
  simp +contextual (maxDischargeDepth := 20) [hs]

@[simp] theorem execBypass_nextInv : NextInv (execBypass s) := by
  unfold execBypass
  simp +contextual (maxDischargeDepth := 20) [hs]

@[simp] theorem execTrstN_nextInv : NextInv (execTrstN s) := by
  unfold execTrstN
  simp [hs]

end

/-- Every action of a WO or W1S field keeps the canonical form. -/
theorem command_inv {c : Fld × (State → State)} (hc : c ∈ commands) {s : State} (hs : s.Inv) : (c.2 s).Inv := by
  simp only [commands, List.mem_append, List.mem_cons, List.mem_flatMap, List.not_mem_nil, or_false] at hc
  rcases hc with (rfl | rfl | rfl | rfl | rfl | rfl | rfl | rfl | rfl | rfl | rfl | rfl | rfl | rfl | rfl | rfl | rfl | rfl | rfl) |
    ⟨p, _, rfl | rfl⟩
  all_goals simp [hs]

theorem some_ite_inv {c : Prop} [Decidable c] {x : State} {o : Option State} (hx : x.Inv) (ho : ∀ t, o = some t → t.Inv) :
    ∀ t, (if c then some x else o) = some t → t.Inv := by
  split
  · intro t h
    exact Option.some.inj h ▸ hx
  · exact ho

/-! ### Writes of the register window -/

section
variable {s : State} (hs : s.Inv)
include hs

@[simp] theorem State.Inv.trigger (f : Fld) : (s.trigger f).Inv := by
  unfold State.trigger
  split
  next c h => exact command_inv (List.mem_of_find?_eq_some h) hs
  · exact hs

@[simp] theorem State.Inv.writeField (v : Nat) (f : Fld) : (s.writeField v f).Inv := by
  unfold State.writeField
  split <;> simp [hs]

@[simp] theorem State.Inv.writeAll (v : Nat) (fs : List Fld) : (s.writeAll v fs).Inv := by
  unfold State.writeAll
  extract_lets r
  refine State.Inv.answer (State.Inv.foldl_fst _ (fun y f hy => ?_) _ hs) _ _
  exact hy.okay.writeField v f

theorem State.Inv.of_ownRule (a v : Nat) : ∀ t, s.ownRule a v = some t → t.Inv := by
  unfold State.ownRule
  refine some_ite_inv (hs.actRootRec v) <| some_ite_inv (hs.actPhaseStep v) <| some_ite_inv (hs.actExportStep v) <|
    some_ite_inv (hs.actSynt v) <| some_ite_inv (hs.actRate v) <| some_ite_inv (hs.actInject v) <|
    some_ite_inv (hs.writePointer a v) ?_
  intro t h
  exact absurd h (Option.some_ne_none t).symm

@[simp] theorem State.Inv.writeReg (a v : Nat) : (s.writeReg a v).Inv := by
  unfold State.writeReg
  refine .ite hs.denied ?_
  split
  next t h => exact hs.of_ownRule a v t h
  · exact hs.writeAll v _

@[simp] theorem execRegisterWrite_nextInv (a size v : Nat) : NextInv (execRegisterWrite a size v s) := by
  unfold execRegisterWrite
  simp +contextual (maxDischargeDepth := 20) [hs]

@[simp] theorem State.Inv.memoryWritten (a n : Nat) : (s.memoryWritten a n).Inv := by
  unfold State.memoryWritten
  simp (maxDischargeDepth := 20) [hs]

@[simp] theorem State.Inv.writeAt (a v : Nat) : (s.writeAt a v).Inv := by
  unfold State.writeAt
  split
  · simp (maxDischargeDepth := 20) [hs]
  · split <;> simp (maxDischargeDepth := 20) [hs]

end

/-! ### The Ethernet port and the control protocol -/

section
variable {s : State} (hs : s.Inv)
include hs

@[simp] theorem State.Inv.frameDrop : s.frameDrop.Inv := by
  unfold State.frameDrop
  simp [hs]

@[simp] theorem State.Inv.arrives {body : State → State} (hb : ∀ t, t.Inv → (body t).Inv) : NextInv (s.arrives body) := by
  unfold State.arrives
  exact (nextInv_next _).2 (.ite (hb _ (hs.inc _ _)) hs)

@[simp] theorem State.Inv.frameIn (e : EthHdr) (permits : Nat → Bool) {body : State → State} (hb : ∀ t, t.Inv → (body t).Inv) :
    NextInv (s.frameIn e permits body) :=
  hs.arrives fun t ht => .ite (hb t ht) ht.frameDrop

@[simp] theorem State.Inv.ipIn (v6 : Bool) {body : State → State} (hb : ∀ t, t.Inv → (body t).Inv) : (s.ipIn v6 body).Inv :=
  .ite (hb s hs) hs.frameDrop

@[simp] theorem execEthFrameDropped_nextInv : NextInv (execEthFrameDropped s) := by
  unfold execEthFrameDropped
  simp +contextual (maxDischargeDepth := 20) [hs]

@[simp] theorem execArpRequest_nextInv (eth : EthHdr) (ip target : Nat) :
    NextInv (execArpRequest eth ip target s) := by
  unfold execArpRequest
  simp +contextual (maxDischargeDepth := 20) [hs]

@[simp] theorem execNeighbourSolicitation_nextInv (eth : EthHdr) (ip target : Nat) :
    NextInv (execNeighbourSolicitation eth ip target s) := by
  unfold execNeighbourSolicitation
  simp +contextual (maxDischargeDepth := 20) [hs]

@[simp] theorem execEchoRequest_nextInv (eth : EthHdr) (ip : Nat) (v6 : Bool) (data : List Nat) :
    NextInv (execEchoRequest eth ip v6 data s) := by
  unfold execEchoRequest
  simp +contextual (maxDischargeDepth := 20) [hs]

@[simp] theorem execPfcPause_nextInv (prio quanta : Nat) : NextInv (execPfcPause prio quanta s) := by
  unfold execPfcPause
  simp +contextual (maxDischargeDepth := 20) [hs]

@[simp] theorem execEthLinkDown_nextInv : NextInv (execEthLinkDown s) := by
  unfold execEthLinkDown
  simp (maxDischargeDepth := 20) [hs]

@[simp] theorem State.Inv.congestion (q : Qp) (h : RoceHdr) : (s.congestion q h).Inv := by
  unfold State.congestion
  simp (maxDischargeDepth := 20) [hs]

@[simp] theorem State.Inv.roceIn (h : RoceHdr) {body : Qp → State → State} (hb : ∀ q t, t.Inv → (body q t).Inv) :
    NextInv (s.roceIn h body) := by
  refine hs.frameIn _ _ fun t ht => ?_
  split
  · exact ht.frameDrop
  next q _ =>
    refine ht.ipIn _ fun u hu => ?_
    exact .ite hu (hb _ _ (hu.congestion q h))

@[simp] theorem State.Inv.nakTo (h : RoceHdr) (psn code : Nat) : (s.nakTo h psn code).Inv := by
  unfold State.nakTo
  simp [hs]

@[simp] theorem State.Inv.expect (qpn psn : Nat) : (s.expect qpn psn).Inv := by
  unfold State.expect
  split <;> simp [hs]

@[simp] theorem State.Inv.hashPart (a : Nat) (data : List Nat) (x : InboxPart) : (s.hashPart a data x).Inv := by
  unfold State.hashPart
  simp [hs]

@[simp] theorem State.Inv.holdHost (l : List Nat) : (s.holdHost l).Inv := by
  unfold State.holdHost
  simp +contextual (maxDischargeDepth := 20) [hs, State.Inv.foldl]

@[simp] theorem State.Inv.place (a : Nat) (data : List Nat) : (s.place a data).Inv := by
  unfold State.place
  simp +contextual (maxDischargeDepth := 20) [hs, State.Inv.foldl]

@[simp] theorem execRdmaWrite_nextInv (w : RdmaWrite) : NextInv (execRdmaWrite w s) := by
  unfold execRdmaWrite
  extract_lets h
  refine hs.roceIn h fun q t ht => .ite (ht.nakTo _ _ _) (.ite (ht.emitEth _ _) (.ite (ht.nakTo _ _ _) ?_))
  split
  · exact (ht.set _ _).nakTo _ _ _
  · exact ((ht.place _ _).expect _ _).emitEth _ _

@[simp] theorem State.Inv.hostHw (hw : List HwFault) : (s.hostHw hw).Inv := by
  unfold State.hostHw
  refine State.Inv.foldl _ (fun t a ht => ?_) _ hs
  split <;> simp (maxDischargeDepth := 20) [ht]

@[simp] theorem execRdmaRead_nextInv (w : RdmaRead) (hw : List HwFault) : NextInv (execRdmaRead w hw s) := by
  unfold execRdmaRead
  extract_lets h
  refine hs.roceIn h fun q t ht => .ite (ht.nakTo _ _ _) (.ite (ht.nakTo _ _ _) ?_)
  dsimp only
  have h1 := ht.hostHw hw
  split
  · have h2 := (h1.memTraffic [(w.addr, w.len)]).inc ETH_RD_BYTES.BYTES w.len
    exact State.Inv.foldl _ (fun _ e hu => hu.emitEth _ _) _ (.ite (h2.expect _ _) h2)
  · exact ((State.Inv.foldl _ (fun _ a hu => hu.hostPoison a) _ h1).set _ _).nakTo _ _ _

@[simp] theorem execHostSend_nextInv (qpn psn : Nat) (f : optParam RoceFrame noFrame) :
    NextInv (execHostSend qpn psn s f) := by
  unfold execHostSend
  simp +contextual (maxDischargeDepth := 20) [hs]

@[simp] theorem State.Inv.setWaiting (l : List Nat) : (s.setWaiting l).Inv := by
  unfold State.setWaiting
  simp [hs]

@[simp] theorem State.Inv.pushDone (x : Push) : (s.pushDone x).Inv := by
  unfold State.pushDone
  simp (maxDischargeDepth := 20) [hs]

@[simp] theorem execRoceAck_nextInv (qpn psn : Nat) (f : RoceFrame) : NextInv (execRoceAck qpn psn s f) := by
  unfold execRoceAck
  extract_lets h
  refine hs.roceIn h fun q t ht => ?_
  split
  · refine .ite ?_ ht
    split
    · exact (ht.setQp _).pushDone _
    · exact (ht.setQp _).setWaiting _
  · exact ht

@[simp] theorem State.Inv.qpError (q : Qp) (kind : Nat) : (s.qpError q kind).Inv := by
  unfold State.qpError
  simp (maxDischargeDepth := 20) [hs]

@[simp] theorem execRoceNak_nextInv (qpn psn code : Nat) (f : RoceFrame) : NextInv (execRoceNak qpn psn code s f) := by
  unfold execRoceNak
  extract_lets h
  refine hs.roceIn h fun q t ht => ?_
  split
  · exact .ite (ht.qpError _ _) ht
  · exact ht

@[simp] theorem execRoceAckTimeout_nextInv (qpn : Nat) : NextInv (execRoceAckTimeout qpn s) := by
  unfold execRoceAckTimeout
  split <;> simp (maxDischargeDepth := 20) [hs]

@[simp] theorem execCnpReceive_nextInv (h : RoceHdr) : NextInv (execCnpReceive h s) := by
  unfold execCnpReceive
  simp +contextual (maxDischargeDepth := 20) [hs]

@[simp] theorem execPushRateRestore_nextInv (qpn : Nat) : NextInv (execPushRateRestore qpn s) := by
  unfold execPushRateRestore
  split <;> simp [hs]

@[simp] theorem State.Inv.setSession (x : Session) : (s.setSession x).Inv := by
  unfold State.setSession
  simp [hs]

@[simp] theorem State.Inv.enqueue (r : Request) : (s.enqueue r).Inv := by
  unfold State.enqueue
  simp [hs]

@[simp] theorem State.Inv.takeIn (x : Session) (r : Request) (rsvdOk : Bool) : (s.takeIn x r rsvdOk).Inv := by
  unfold State.takeIn
  split
  · simp (maxDischargeDepth := 20) [hs]
  · split <;> simp (maxDischargeDepth := 20) [hs]

@[simp] theorem State.Inv.receive (x : Session) (r : Request) (rsvdOk : Bool) : (s.receive x r rsvdOk).Inv := by
  unfold State.receive
  dsimp only
  split
  · simp (maxDischargeDepth := 20) [hs]
  · split <;> simp (maxDischargeDepth := 20) [hs]

@[simp] theorem State.Inv.request (r : Request) (rsvdOk : Bool) : (s.request r rsvdOk).Inv := by
  unfold State.request
  split
  · simp (maxDischargeDepth := 20) [hs]
  · dsimp only
    split <;> simp (maxDischargeDepth := 20) [hs]

@[simp] theorem execBcpDatagram_nextInv (d : Datagram) : NextInv (execBcpDatagram d s) := by
  unfold execBcpDatagram
  simp +contextual (maxDischargeDepth := 20) [hs]

@[simp] theorem State.Inv.dequeue : s.dequeue.Inv := by
  unfold State.dequeue
  simp [hs]

@[simp] theorem State.Inv.serve (h : BcpHdr) (op : Nat) (carries : List Nat → Bool) {body : Request → State → State}
    (hb : ∀ r t, t.Inv → (body r t).Inv) : NextInv (s.serve h op carries body) := by
  unfold State.serve
  refine (nextInv_next _).2 ?_
  split
  · exact hs
  next r _ =>
    extract_lets t
    have ht : t.Inv := State.Inv.dequeue hs
    exact .ite hs (.ite (ht.complete _ _ _ _) (.ite (ht.complete _ _ _ _) (hb r t ht)))

@[simp] theorem State.Inv.beginLong (r : Request) : (s.beginLong r).Inv := by
  unfold State.beginLong
  simp [hs]

@[simp] theorem State.Inv.countSessions : s.countSessions.Inv := by
  unfold State.countSessions
  simp [hs]

@[simp] theorem State.Inv.closeSession (id : Nat) : (s.closeSession id).Inv := by
  unfold State.closeSession
  simp [hs]

@[simp] theorem State.Inv.openSession (h : BcpHdr) (v : Nat) : (s.openSession h v).Inv := by
  unfold State.openSession
  simp (maxDischargeDepth := 20) [hs]

@[simp] theorem execHello_nextInv (h : BcpHdr) (lo hi : Nat) : NextInv (execHello h lo hi s) := by
  unfold execHello
  simp +contextual (maxDischargeDepth := 20) [hs]

@[simp] theorem execBye_nextInv (h : BcpHdr) : NextInv (execBye h s) := by
  unfold execBye
  simp +contextual (maxDischargeDepth := 20) [hs]

@[simp] theorem execSessionIdleTimeout_nextInv (id : Nat) : NextInv (execSessionIdleTimeout id s) := by
  unfold execSessionIdleTimeout
  simp [hs]

@[simp] theorem State.Inv.readRegs (a n : Nat) : (s.readRegs a n).2.2.Inv := by
  unfold State.readRegs
  refine State.Inv.foldl_snd_snd _ (fun r i hr => ?_) _ hs
  extract_lets x
  have hx : x.2.Inv := hr.readAt _
  split <;> exact hx

@[simp] theorem State.Inv.writeRegs (a : Nat) (vs : List Nat) : (s.writeRegs a vs).2.Inv := by
  unfold State.writeRegs
  refine State.Inv.foldl_snd _ (fun r e hr => ?_) _ hs
  exact hr.writeAt _ _

@[simp] theorem execRegRead_nextInv (h : BcpHdr) (a n : Nat) : NextInv (execRegRead h a n s) := by
  unfold execRegRead
  simp +contextual (maxDischargeDepth := 20) [hs]

@[simp] theorem execRegWrite_nextInv (h : BcpHdr) (a : Nat) (vs : List Nat) : NextInv (execRegWrite h a vs s) := by
  unfold execRegWrite
  simp +contextual (maxDischargeDepth := 20) [hs]

@[simp] theorem State.Inv.copyUnseals (dst n b : Nat) : (s.copyUnseals dst n b).Inv := by
  unfold State.copyUnseals
  simp [hs]

@[simp] theorem State.Inv.copyBytes (src dst n : Nat) : (s.copyBytes src dst n).Inv := by
  unfold State.copyBytes
  simp (maxDischargeDepth := 20) [hs]

@[simp] theorem execSetupCopy_nextInv (h : BcpHdr) (src dst n : Nat) : NextInv (execSetupCopy h src dst n s) := by
  unfold execSetupCopy
  refine hs.serve _ _ _ fun r t ht => .ite (ht.complete _ _ _ _) ?_
  split
  · exact (ht.copyBytes _ _ _).beginLong _
  · exact (State.Inv.foldl _ (fun _ a hu => hu.hostPoison a) _ ht).complete _ _ _ _

@[simp] theorem execSetupCopyDone_nextInv : NextInv (execSetupCopyDone s) := by
  unfold execSetupCopyDone
  simp [hs]

@[simp] theorem State.Inv.completeWrite (h : BcpHdr) (op : Nat) : (s.completeWrite h op).Inv := by
  unfold State.completeWrite
  simp [hs]

@[simp] theorem execJobLoad_nextInv (h : BcpHdr) (step : Nat) : NextInv (execJobLoad h step s) := by
  unfold execJobLoad
  simp +contextual (maxDischargeDepth := 20) [hs]

@[simp] theorem execJobStart_nextInv (h : BcpHdr) : NextInv (execJobStart h s) := by
  unfold execJobStart
  simp +contextual (maxDischargeDepth := 20) [hs]

@[simp] theorem execJobHalt_nextInv (h : BcpHdr) : NextInv (execJobHalt h s) := by
  unfold execJobHalt
  simp +contextual (maxDischargeDepth := 20) [hs]

@[simp] theorem execJobUnload_nextInv (h : BcpHdr) : NextInv (execJobUnload h s) := by
  unfold execJobUnload
  simp +contextual (maxDischargeDepth := 20) [hs]

@[simp] theorem execDryFit_nextInv (h : BcpHdr) (bank : Nat) : NextInv (execDryFit h bank s) := by
  unfold execDryFit
  simp +contextual (maxDischargeDepth := 20) [hs]

@[simp] theorem State.Inv.inputRefused (h : BcpHdr) (status : Nat) : (s.inputRefused h status).Inv := by
  unfold State.inputRefused
  simp [hs]

@[simp] theorem execInputReady_nextInv (h : BcpHdr) (step b len : Nat) : NextInv (execInputReady h step b len s) := by
  unfold execInputReady
  simp +contextual (maxDischargeDepth := 20) [hs]

@[simp] theorem State.Inv.rebindPush : s.rebindPush.Inv := by
  unfold State.rebindPush
  split <;> simp (maxDischargeDepth := 20) [hs]

@[simp] theorem execOutboxBind_nextInv (h : BcpHdr) (qpn a rkey ring : Nat) :
    NextInv (execOutboxBind h qpn a rkey ring s) := by
  unfold execOutboxBind
  simp +contextual (maxDischargeDepth := 20) [hs]

@[simp] theorem State.Inv.countQps : s.countQps.Inv := by
  unfold State.countQps
  simp [hs]

@[simp] theorem execQpCreate_nextInv (h : BcpHdr) (q : QpArgs) : NextInv (execQpCreate h q s) := by
  unfold execQpCreate
  simp +contextual (maxDischargeDepth := 20) [hs]

@[simp] theorem execQpDestroy_nextInv (h : BcpHdr) (qpn : Nat) : NextInv (execQpDestroy h qpn s) := by
  unfold execQpDestroy
  simp +contextual (maxDischargeDepth := 20) [hs]

@[simp] theorem execSubscribe_nextInv (h : BcpHdr) (q : SubArgs) : NextInv (execSubscribe h q s) := by
  unfold execSubscribe
  simp +contextual (maxDischargeDepth := 20) [hs]

@[simp] theorem execEventAck_nextInv (h : BcpHdr) (ev : Nat) : NextInv (execEventAck h ev s) := by
  unfold execEventAck
  simp +contextual (maxDischargeDepth := 20) [hs]

@[simp] theorem execEventResend_nextInv : NextInv (execEventResend s) := by
  unfold execEventResend
  split <;> simp +contextual (maxDischargeDepth := 20) [hs, State.Inv.foldl]

@[simp] theorem execStop_nextInv (h : BcpHdr) : NextInv (execStop h s) := by
  unfold execStop
  simp +contextual (maxDischargeDepth := 20) [hs]

end

/-! ### Row controllers: memory view, errors and one instruction -/

section
variable {s : State} (hs : s.Inv)
include hs

@[simp] theorem State.Inv.rowTraffic (a n : Nat) : (s.rowTraffic a n).Inv := by
  unfold State.rowTraffic
  simp [hs]

@[simp] theorem State.Inv.rowRead (r x a n align : Nat) : (s.rowRead r x a n align).2.Inv := by
  unfold State.rowRead
  repeat' split
  all_goals simp (maxDischargeDepth := 20) [hs]

@[simp] theorem State.Inv.rowWrite (r x a n align v : Nat) : (s.rowWrite r x a n align v).2.Inv := by
  unfold State.rowWrite
  split
  · simp (maxDischargeDepth := 20) [hs]
  · split <;> simp (maxDischargeDepth := 20) [hs]

@[simp] theorem State.Inv.hwErr (f : Fld) (r : Nat) : (s.hwErr f r).Inv := by
  unfold State.hwErr
  simp [hs]

@[simp] theorem State.Inv.rowError (cls r code : Nat) : (s.rowError cls r code).Inv := by
  unfold State.rowError
  simp [hs]

@[simp] theorem State.Inv.scratchUe (r a : Nat) : (s.scratchUe r a).Inv := by
  unfold State.scratchUe
  simp (maxDischargeDepth := 20) [hs]

theorem State.Inv.of_rowRead {r x a n align : Nat} {e : Except Nat Nat} {t : State} (h : s.rowRead r x a n align = (e, t)) :
    t.Inv := by
  simpa [h] using hs.rowRead r x a n align

theorem State.Inv.of_rowWrite {r x a n align v : Nat} {e : Option Nat} {t : State} (h : s.rowWrite r x a n align v = (e, t)) :
    t.Inv := by
  simpa [h] using hs.rowWrite r x a n align v

@[simp] theorem State.Inv.rowHw (r x a : Nat) (hw : List HwFault) : (s.rowHw r x a hw).2.Inv := by
  unfold State.rowHw
  refine State.Inv.foldl_snd _ (fun y h hy => ?_) _ hs
  dsimp only
  split
  case h_5 =>
    dsimp only
    split
    · exact .ite hy (hy.poisonWord _)
    · exact hy
  all_goals simp (maxDischargeDepth := 20) [hy]

@[simp] theorem State.Inv.rowUe (r x a : Nat) : (s.rowUe r x a).Inv := by
  unfold State.rowUe
  split <;> simp +contextual (maxDischargeDepth := 20) [hs, State.Inv.foldl]

@[simp] theorem State.Inv.listException (r cause addr : Nat) (raised : Bool) :
    (s.listException r cause addr raised).Inv := by
  unfold State.listException
  simp (maxDischargeDepth := 20) [hs]

@[simp] theorem State.Inv.exception (r x cause addr : Nat) (raised : Bool) :
    (s.exception r x cause addr raised).Inv := by
  unfold State.exception
  simp (maxDischargeDepth := 20) [hs]

@[simp] theorem State.Inv.suspend (r x : Nat) : (s.suspend r x).Inv := by
  unfold State.suspend
  simp (maxDischargeDepth := 20) [hs]

@[simp] theorem State.Inv.finish (r x : Nat) (e : XEnd) : (s.finish r x e).Inv := by
  cases e with
  | next => exact hs.setPc _ _ _
  | jump t => exact hs.setPc _ _ _
  | exc c a => exact hs.exception r x c a false
  | excAt k c a => exact (hs.set _ k).exception r x c a false
  | stop k => exact (hs.set _ k).suspend r x
  | ended => exact hs

/-- An instruction of a row answers a canonical state if what it does keeps the form. -/
@[simp] theorem State.Inv.instrHw (r : Nat) (hw : List HwFault) (addr : Nat → State → Nat) {body : Nat → State → State × XEnd}
    (hb : ∀ x t, t.Inv → (body x t).1.Inv) : NextInv (s.instrHw r hw addr body) := by
  refine nextInv_forUnit ?_ _ _
  split
  · exact hs
  · split
    · exact hs.exception _ _ _ _ _
    next x _ _ _ =>
      have hh := hs.rowHw r x (addr x s) hw
      refine .ite hh ?_
      split
      · exact hh.exception _ _ _ _ _
      · exact (hb _ _ hh).finish _ _ _

@[simp] theorem State.Inv.instr (r : Nat) (hw : List HwFault) {body : Nat → State → State × XEnd}
    (hb : ∀ x t, t.Inv → (body x t).1.Inv) : NextInv (s.instr r hw body) :=
  hs.instrHw r hw _ hb

end

/-! ### CALL entries and scalar instructions -/

section
variable {s : State} (hs : s.Inv)
include hs

@[simp] theorem State.Inv.enterCall (r : Nat) (i : Issue) : (s.enterCall r i).Inv := by
  unfold State.enterCall
  simp (maxDischargeDepth := 20) [hs]

@[simp] theorem execKernelCall_nextInv (i : Issue) (hw : List HwFault) : NextInv (execKernelCall i hw s) := by
  unfold execKernelCall
  refine nextInv_issue hs fun t ht => ?_
  extract_lets r y u v
  have hy : y.2.Inv := by
    refine State.Inv.foldl_snd _ (fun y h hy => ?_) _ ht
    split
    · exact hy.draw.descPar _ _ _ _
    · exact hy.rowHw _ _ _ _
  have hu : u.Inv := hy.set _ _
  have hv : v.Inv := hu.enterCall r i
  exact .ite hu (.ite (hu.engineDone _ _ _ _) (.ite (hv.exception _ _ _ _ _) hv))

@[simp] theorem State.Inv.retList (r cc : Nat) (c : CallRec) : (s.retList r cc c).Inv := by
  unfold State.retList
  simp (maxDischargeDepth := 20) [hs]

@[simp] theorem execRet_nextInv (r cc : Nat) (hw : List HwFault) : NextInv (execRet r cc s hw) := by
  unfold execRet
  refine hs.instr _ _ fun x t ht => .fst_ite ht ?_
  split
  · exact .ite (ht.retList _ _ _) ht
  · exact ht

@[simp] theorem execCallDeadline_nextInv (r : Nat) : NextInv (execCallDeadline r s) := by
  unfold execCallDeadline
  split <;> simp (maxDischargeDepth := 20) [hs]

@[simp] theorem execServiceResume_nextInv (r : Nat) : NextInv (execServiceResume r s) := by
  unfold execServiceResume
  simp (maxDischargeDepth := 20) [hs]

@[simp] theorem execServiceEvent_nextInv (r ev : Nat) : NextInv (execServiceEvent r ev s) := by
  unfold execServiceEvent
  split
  · simp (maxDischargeDepth := 20) [hs]
  · split <;> simp (maxDischargeDepth := 20) [hs]

@[simp] theorem execIntegerOp_nextInv (r : Nat) (o : IntOp) (d a b imm : Nat) (hw : optParam (List HwFault) []) :
    NextInv (execIntegerOp r o d a b imm s hw) := by
  unfold execIntegerOp
  simp +contextual (maxDischargeDepth := 20) [hs]

@[simp] theorem execMultiplyDivide_nextInv (r : Nat) (o : MulOp) (d a b : Nat) (hw : optParam (List HwFault) []) :
    NextInv (execMultiplyDivide r o d a b s hw) := by
  unfold execMultiplyDivide
  simp +contextual (maxDischargeDepth := 20) [hs]

@[simp] theorem execBranch_nextInv (r : Nat) (o : BranchOp) (d a b off : Nat) (hw : optParam (List HwFault) []) :
    NextInv (execBranch r o d a b off s hw) := by
  unfold execBranch
  split <;> simp +contextual (maxDischargeDepth := 20) [hs]

@[simp] theorem execLoad_nextInv (r bytes : Nat) (sext : Bool) (d a off : Nat) (hw : List HwFault) :
    NextInv (execLoad r bytes sext d a off hw s) := by
  unfold execLoad
  refine hs.instrHw _ _ _ fun x t ht => .fst_ite ht ?_
  dsimp only
  split
  next v u h => exact (ht.of_rowRead h).xSet _ _ _ _ _
  next c u h => exact ht.of_rowRead h

@[simp] theorem State.Inv.storeHalf (r x addr bytes : Nat) : (s.storeHalf r x addr bytes).Inv := by
  unfold State.storeHalf
  split <;> simp (maxDischargeDepth := 20) [hs]

@[simp] theorem execStore_nextInv (r bytes a b off : Nat) (hw : List HwFault) : NextInv (execStore r bytes a b off hw s) := by
  unfold execStore
  refine hs.instrHw _ _ _ fun x t ht => .fst_ite ht ?_
  dsimp only
  split <;> next h => exact (ht.storeHalf _ _ _ _).of_rowWrite h

@[simp] theorem execFloatOp_nextInv (r : Nat) (o : FloatOp) (dbl : Bool) (d a b c : Nat) (hw : optParam (List HwFault) []) :
    NextInv (execFloatOp r o dbl d a b c s hw) := by
  unfold execFloatOp
  dsimp only
  split <;> simp +contextual (maxDischargeDepth := 20) [hs]

@[simp] theorem execConversion_nextInv (r : Nat) (o : ConvOp) (rnd d a : Nat) (hw : optParam (List HwFault) []) :
    NextInv (execConversion r o rnd d a s hw) := by
  unfold execConversion
  split
  · simp +contextual (maxDischargeDepth := 20) [hs]
  · split <;> simp +contextual (maxDischargeDepth := 20) [hs]

@[simp] theorem execCsrRead_nextInv (r d csr : Nat) (hw : optParam (List HwFault) []) :
    NextInv (execCsrRead r d csr s hw) := by
  unfold execCsrRead
  simp +contextual (maxDischargeDepth := 20) [hs]

@[simp] theorem execCsrWrite_nextInv (r a csr : Nat) (hw : optParam (List HwFault) []) :
    NextInv (execCsrWrite r a csr s hw) := by
  unfold execCsrWrite
  simp +contextual (maxDischargeDepth := 20) [hs, State.Inv.foldl]

@[simp] theorem execBrk_nextInv (r : Nat) (hw : optParam (List HwFault) []) : NextInv (execBrk r s hw) := by
  unfold execBrk
  simp [hs]

@[simp] theorem execFence_nextInv (r : Nat) (hw : optParam (List HwFault) []) : NextInv (execFence r s hw) := by
  unfold execFence
  simp [hs]

@[simp] theorem execLanes_nextInv (r ew d : Nat) (hw : optParam (List HwFault) []) :
    NextInv (execLanes r ew d s hw) := by
  unfold execLanes
  simp +contextual (maxDischargeDepth := 20) [hs]

@[simp] theorem execExenoSArith_nextInv (r : Nat) (o : SOp) (ew d a b c : Nat) (hw : optParam (List HwFault) []) :
    NextInv (execExenoSArith r o ew d a b c s hw) := by
  unfold execExenoSArith
  simp +contextual (maxDischargeDepth := 20) [hs]

@[simp] theorem execExenoSLane_nextInv (r : Nat) (o : SLaneOp) (ew d a b ln : Nat) (hw : optParam (List HwFault) []) :
    NextInv (execExenoSLane r o ew d a b ln s hw) := by
  unfold execExenoSLane
  split
  · simp +contextual (maxDischargeDepth := 20) [hs]
  · split <;> simp +contextual (maxDischargeDepth := 20) [hs]

@[simp] theorem execExenoSLoadStore_nextInv (r : Nat) (isStore : Bool) (d a off : Nat) (hw : List HwFault) :
    NextInv (execExenoSLoadStore r isStore d a off hw s) := by
  unfold execExenoSLoadStore
  refine hs.instrHw _ _ _ fun x t ht => .fst_ite ?_ ?_
  · split <;> next h => exact ht.of_rowWrite h
  · split
    next v u h => exact (ht.of_rowRead h).xSet _ _ _ _ _
    next c u h => exact ht.of_rowRead h

end

/-! ### Vector instructions -/

section
variable {s : State} (hs : s.Inv)
include hs

@[simp] theorem State.Inv.vSet (r x i ew k e : Nat) : (s.vSet r x i ew k e).Inv := by
  unfold State.vSet
  simp [hs]

omit hs in
/-- The elements of a vector instruction keep the form if each does. -/
theorem vLoop_inv (stop : Option Nat) (active : Nat → Bool) {f : Nat → State → State × Option (Nat × Nat)}
    (hf : ∀ k t, t.Inv → (f k t).1.Inv) (left k : Nat) {t : State} (ht : t.Inv) :
    (vLoop stop active f left k t).1.Inv := by
  induction left generalizing k t with
  | zero => exact ht
  | succ left ih =>
    unfold vLoop
    refine .fst_ite ht (.fst_ite (ih _ ht) ?_)
    have hk := hf k t ht
    split
    next u h => exact ih _ (by simpa [h] using hk)
    next u e h => simpa [h] using hk

@[simp] theorem State.Inv.vDone (r x : Nat) : (s.vDone r x).Inv := by
  unfold State.vDone
  simp [hs]

@[simp] theorem State.Inv.vRun (r x : Nat) (v : VArgs) (limit : Nat) {f : Nat → State → State × Option (Nat × Nat)}
    (hf : ∀ k t, t.Inv → (f k t).1.Inv) : (s.vRun r x v limit f).1.Inv := by
  unfold State.vRun
  extract_lets n s1 k y
  have hy : y.1.Inv := vLoop_inv _ _ hf _ _ (hs.setAll _)
  split
  · exact hy.vDone r x
  · exact hy

@[simp] theorem State.Inv.vInstr (r : Nat) (hw : List HwFault) (v : VArgs) (legal : Bool)
    {f : Nat → Nat → State → State × Option (Nat × Nat)} (hf : ∀ x k t, t.Inv → (f x k t).1.Inv) :
    NextInv (s.vInstr r hw v legal f) :=
  hs.instr _ _ fun x _ ht => .fst_ite (ht.vRun _ _ _ _ (hf x)) ht

@[simp] theorem State.Inv.vMem (r : Nat) (v : VArgs) (legal : Bool) (limit a : Nat) (hw : List HwFault)
    {f : Nat → Nat → State → State × Option (Nat × Nat)} (hf : ∀ x k t, t.Inv → (f x k t).1.Inv) :
    NextInv (s.vMem r v legal limit a hw f) :=
  hs.instrHw _ _ _ fun x _ ht => .fst_ite (ht.vRun _ _ _ _ (hf x)) ht

@[simp] theorem execVectorElementwise_nextInv (r : Nat) (v : VArgs) (o : VOp) (d a b c : Nat) (hw : optParam (List HwFault) []) :
    NextInv (execVectorElementwise r v o d a b c s hw) := by
  unfold execVectorElementwise
  simp +contextual (maxDischargeDepth := 20) [hs]

@[simp] theorem execVdivVsqrt_nextInv (r : Nat) (v : VArgs) (sqrt : Bool) (d a b : Nat) (hw : optParam (List HwFault) []) :
    NextInv (execVdivVsqrt r v sqrt d a b s hw) := by
  unfold execVdivVsqrt
  simp +contextual (maxDischargeDepth := 20) [hs]

@[simp] theorem execVcmp_nextInv (r : Nat) (v : VArgs) (o : CmpOp) (d a b : Nat) (hw : optParam (List HwFault) []) :
    NextInv (execVcmp r v o d a b s hw) := by
  unfold execVcmp
  simp +contextual (maxDischargeDepth := 20) [hs]

@[simp] theorem execVmerge_nextInv (r : Nat) (v : VArgs) (d a b m : Nat) (hw : optParam (List HwFault) []) :
    NextInv (execVmerge r v d a b m s hw) := by
  unfold execVmerge
  simp +contextual (maxDischargeDepth := 20) [hs]

@[simp] theorem execVacco_nextInv (r : Nat) (v : VArgs) (f a : Nat) (hw : optParam (List HwFault) []) :
    NextInv (execVacco r v f a s hw) := by
  unfold execVacco
  simp +contextual (maxDischargeDepth := 20) [hs]

@[simp] theorem execViacc_nextInv (r : Nat) (v : VArgs) (o : IAccOp) (d a : Nat) (hw : optParam (List HwFault) []) :
    NextInv (execViacc r v o d a s hw) := by
  unfold execViacc
  simp +contextual (maxDischargeDepth := 20) [hs]

@[simp] theorem State.Inv.vLoadAt (r x d ew k addr : Nat) : (s.vLoadAt r x d ew k addr).1.Inv := by
  unfold State.vLoadAt
  split
  next e t h => exact (hs.of_rowRead h).vSet _ _ _ _ _ _
  next c t h => exact hs.of_rowRead h

@[simp] theorem State.Inv.vStoreAt (r x addr bytes e : Nat) : (s.vStoreAt r x addr bytes e).1.Inv := by
  unfold State.vStoreAt
  split <;> next h => exact (hs.storeHalf _ _ _ _).of_rowWrite h

@[simp] theorem execVld_nextInv (r : Nat) (v : VArgs) (d a : Nat) (hw : List HwFault) :
    NextInv (execVld r v d a hw s) := by
  unfold execVld
  simp +contextual (maxDischargeDepth := 20) [hs]

@[simp] theorem execVst_nextInv (r : Nat) (v : VArgs) (d a : Nat) (hw : List HwFault) :
    NextInv (execVst r v d a hw s) := by
  unfold execVst
  simp +contextual (maxDischargeDepth := 20) [hs]

@[simp] theorem execVlds_nextInv (r : Nat) (v : VArgs) (d a st : Nat) (hw : List HwFault) :
    NextInv (execVlds r v d a st hw s) := by
  unfold execVlds
  simp +contextual (maxDischargeDepth := 20) [hs]

@[simp] theorem execVsts_nextInv (r : Nat) (v : VArgs) (d a st : Nat) (hw : List HwFault) :
    NextInv (execVsts r v d a st hw s) := by
  unfold execVsts
  simp +contextual (maxDischargeDepth := 20) [hs]

@[simp] theorem State.Inv.probeEnd (r x : Nat) (e : XEnd) : (s.probeEnd r x e).1.Inv := by
  cases e with
  | next => exact hs.set _ _
  | excAt k c a => exact .fst_ite ((hs.set _ _).vDone _ _) hs
  | jump | exc | stop | ended => exact hs

@[simp] theorem execVlprobe_nextInv (r : Nat) (v : VArgs) (d a : Nat) (hw : List HwFault) :
    NextInv (execVlprobe r v d a hw s) := by
  unfold execVlprobe
  refine hs.instrHw _ _ _ fun x t ht => .fst_ite ht (State.Inv.probeEnd ?_ _ _ _)
  exact ht.vRun _ _ _ _ fun k u hu => hu.vLoadAt _ _ _ _ _ _

@[simp] theorem execVlw_nextInv (r : Nat) (v : VArgs) (fmt d a : Nat) (hw : List HwFault) :
    NextInv (execVlw r v fmt d a hw s) := by
  unfold execVlw
  refine hs.vMem _ _ _ _ _ _ fun x k t ht => ?_
  dsimp only
  split
  next e u h => exact (ht.of_rowRead h).vSet _ _ _ _ _ _
  next c u h => exact ht.of_rowRead h

@[simp] theorem execVlx_nextInv (r : Nat) (v : VArgs) (d a i : Nat) (hw : List HwFault) :
    NextInv (execVlx r v d a i hw s) := by
  unfold execVlx
  simp +contextual (maxDischargeDepth := 20) [hs]

@[simp] theorem execVsx_nextInv (r : Nat) (v : VArgs) (d a i : Nat) (hw : List HwFault) :
    NextInv (execVsx r v d a i hw s) := by
  unfold execVsx
  simp +contextual (maxDischargeDepth := 20) [hs]

@[simp] theorem State.Inv.addAt (r x addr ew : Nat) (int : Bool) (e : Nat) : (s.addAt r x addr ew int e).1.Inv := by
  unfold State.addAt
  dsimp only
  split
  · exact hs
  · split
    next m t h => exact (hs.of_rowRead h).vStoreAt _ _ _ _ _
    next c t h => exact hs.of_rowRead h

@[simp] theorem State.Inv.scatterO (r x : Nat) (v : VArgs) (int : Bool) (d a i : Nat) :
    (s.scatterO r x v int d a i).1.Inv := by
  unfold State.scatterO
  extract_lets y
  have hy : y.1.Inv := hs.vRun _ _ _ _ fun k t ht => ht.addAt _ _ _ _ _ _
  split
  · exact hy.inc _ _
  · exact hy

@[simp] theorem execVsxaO_nextInv (r : Nat) (v : VArgs) (int : Bool) (d a i : Nat) (hw : List HwFault) :
    NextInv (execVsxaO r v int d a i hw s) := by
  unfold execVsxaO
  simp +contextual (maxDischargeDepth := 20) [hs]

@[simp] theorem State.Inv.groupAdd (r x ew : Nat) (int : Bool) (g : List (Nat × Nat × Nat)) :
    (s.groupAdd r x ew int g).Inv := by
  unfold State.groupAdd
  refine State.Inv.foldl _ (fun t addr ht => ?_) _ hs
  extract_lets es cs left
  exact .ite (State.Inv.foldl _ (fun _ _ hu => hu.addAt _ _ _ _ _ _) _ ht)
    (.ite (ht.addAt _ _ _ _ _ _) (ht.draw.vStoreAt _ _ _ _ _))

omit hs in
theorem State.Inv.groupLoop (r x : Nat) (v : VArgs) (int : Bool) (d a i n : Nat) (stop : Option Nat) (left k : Nat)
    {t : State} (ht : t.Inv) : (t.groupLoop r x v int d a i n stop left k).1.Inv := by
  induction left generalizing k t with
  | zero => exact ht
  | succ left ih =>
    unfold State.groupLoop
    refine .fst_ite ht (.fst_ite ht ?_)
    dsimp only
    split
    · exact ht
    · exact ih _ (ht.groupAdd _ _ _ _ _)

@[simp] theorem State.Inv.scatterU (r x : Nat) (v : VArgs) (int : Bool) (d a i : Nat) :
    (s.scatterU r x v int d a i).1.Inv := by
  unfold State.scatterU
  extract_lets n s1 k y
  have hy : y.1.Inv := State.Inv.groupLoop _ _ _ _ _ _ _ _ _ _ _ ((hs.setAll _).ndUsed _)
  split
  · exact hy.vDone r x
  · exact hy

@[simp] theorem execVsxaU_nextInv (r : Nat) (v : VArgs) (int : Bool) (d a i : Nat) (hw : List HwFault) :
    NextInv (execVsxaU r v int d a i hw s) := by
  unfold execVsxaU
  refine hs.instrHw _ _ _ fun x t ht => .fst_ite ht (.fst_ite ?_ (ht.scatterU _ _ _ _ _ _ _))
  have hy := ht.scatterO r x v int d a i
  dsimp only
  split
  · exact hy.inc _ _
  · exact hy

@[simp] theorem execVsg_nextInv (r : Nat) (v : VArgs) (d a i slot : Nat) (hw : List HwFault) :
    NextInv (execVsg r v d a i slot hw s) := by
  unfold execVsg
  refine hs.instrHw _ _ _ fun x t ht => .fst_ite ht (ht.vRun _ _ _ _ fun k u hu => ?_)
  dsimp only
  split
  · exact hu
  · exact (hu.gateAll _ _ _ _).vStoreAt _ _ _ _ _

end

/-! ### Attestation and records of the flash -/

section
variable {s : State} (hs : s.Inv)
include hs

@[simp] theorem execAttest_nextInv (h : BcpHdr) (nonce a : Nat) : NextInv (execAttest h nonce a s) := by
  unfold execAttest
  refine hs.serve _ _ _ fun r t ht => ?_
  split
  · exact .ite (ht.complete _ _ _ _) ((ht.beginLong _).updBoot _)
  · exact ht.complete _ _ _ _

@[simp] theorem execAttestSignDone_nextInv : NextInv (execAttestSignDone s) := by
  unfold execAttestSignDone
  split
  · simp (maxDischargeDepth := 20) [hs]
  · split <;> simp (maxDischargeDepth := 20) [hs]

@[simp] theorem State.Inv.flash (f : List Host.Cell → List Host.Cell) : (s.flash f).Inv := by
  unfold State.flash
  simp [hs]

@[simp] theorem State.Inv.recordDone (res : Nat) : (s.recordDone res).Inv := by
  unfold State.recordDone
  simp (maxDischargeDepth := 20) [hs]

@[simp] theorem State.Inv.startSector (x : Aon) (w : FlashWrite) : (s.startSector x w).Inv := by
  unfold State.startSector
  dsimp only
  split <;> simp (maxDischargeDepth := 20) [hs]

@[simp] theorem execRecordWrite_nextInv (h : BcpHdr) (kind a len : Nat) : NextInv (execRecordWrite h kind a len s) := by
  unfold execRecordWrite
  refine hs.serve _ _ _ fun r t ht => ?_
  have hu := ((ht.inc CFG_FLASH.WRITES 1).setAll [(CFG_FLASH.BUSY, 1), (CFG_FLASH.SECTORS, 0)]).beginLong r
  dsimp only
  split
  · exact hu.recordDone _
  next x _ =>
    refine .ite (hu.recordDone _) ?_
    split
    · have hv := hu.memTraffic [(a, len)]
      exact .ite (hv.recordDone _) ((hv.updBoot _).startSector _ _)
    · exact (State.Inv.foldl _ (fun _ a hv => hv.hostPoison a) _ hu).recordDone _

@[simp] theorem State.Inv.verifyRecord (w : FlashWrite) : (s.verifyRecord w).Inv := by
  unfold State.verifyRecord
  simp [hs]

@[simp] theorem execFlashSectorDone_nextInv : NextInv (execFlashSectorDone s) := by
  unfold execFlashSectorDone
  split <;> simp (maxDischargeDepth := 20) [hs]

end

/-! ### Every command and every step -/

/-- Every command keeps the canonical form. -/
theorem exec_nextInv {s : State} (hs : s.Inv) (c : Instr) : NextInv (exec c s) := by
  cases c <;> simp [exec, hs]

/-- A step executes the front command with the rest of the queue, or passes a cycle. -/
theorem step_nextInv {s : State} (hs : s.Inv) : NextInv (step s) := by
  unfold step
  split
  · exact (nextInv_next _).2 (hs.pass 1)
  · exact exec_nextInv (State.inv_mk.2 ⟨hs.wf_mem, hs.sorted_flds, hs.rowRegs⟩) _

/-- Settles O2: each command and the idle step keep the canonical form, operation by operation. -/
theorem everyStepKeepsTheCanonicalForm : Obligations.EveryStepKeepsTheCanonicalForm := fun _ t hs h => step_nextInv hs t h

end Sys2Proof.Machine

namespace Sys2Proof.Machine
open Reg

/-! SUPPORT. What reports, errors and halts change. Each relation says that one state is another but for some parts, and has
a lemma for every operation that keeps it, so that a chain of operations is a chain of dots. -/

/-! ### Reports: messages, events, the log and completions (R352, R359, R369) -/

/-- The fields that a report may change. -/
def reportFields : List Fld :=
  [BCP_EVT_SEQ.NEXT, BCP_EVT.QUEUED, BCP_EVT.LOST, ETH_COUNT0.TX_FRAMES, ERR_LOG_STATUS.TOTAL, ERR_LOG_STATUS.NEXT,
    ERR_LOG_STATUS.WRAPPED]

/-- The error handling without the log. -/
def ErrSt.unreported (e : ErrSt) : ErrSt := { e with log := [], written := 0 }

/-- The host interface without events, completions and the command that delays the queue. -/
def HostSt.unreported (h : HostSt) : HostSt := { h with events := [], lost := false, sessions := [], busyWith := none }

/-- A state without the parts that reports change. -/
def State.unreported (s : State) : State :=
  { s with flds := [], out := [], err := s.err.unreported, host := s.host.unreported }

/-- `t` is `s` after some reports. -/
structure Reports (s t : State) : Prop where
  rest : t.unreported = s.unreported
  get : ∀ g : Fld, g.key ∉ reportFields.map Fld.key → t.get g = s.get g

theorem Reports.refl (s : State) : Reports s s := ⟨rfl, fun _ _ => rfl⟩

theorem Reports.ite {s a b : State} {c : Prop} [Decidable c] (ha : Reports s a) (hb : Reports s b) :
    Reports s (if c then a else b) := by
  split <;> assumption

section
variable {s t : State} (h : Reports s t)
include h

theorem Reports.mem : t.mem = s.mem := (congrArg State.mem h.rest :)
theorem Reports.tick : t.tick = s.tick := (congrArg State.tick h.rest :)
theorem Reports.rows : t.rows = s.rows := (congrArg State.rows h.rest :)
theorem Reports.handling : t.err.handling = s.err.handling := (congrArg (fun x => x.err.handling) h.rest :)

theorem Reports.is {g : Fld} (hg : g.key ∉ reportFields.map Fld.key := by decide) : t.is g = s.is g := by
  rw [State.is, h.get g hg, State.is]

theorem Reports.job : t.job = s.job := h.get _ (by decide)
theorem Reports.running : t.running = s.running := by rw [State.running, h.job, h.is, State.running]

theorem Reports.set {f : Fld} (v : Nat) (hf : f.key ∈ reportFields.map Fld.key := by decide) : Reports s (t.set f v) :=
  ⟨h.rest, fun g hg => (State.get_set_other t v fun e => hg (by rwa [e])).trans (h.get g hg)⟩

theorem Reports.inc {f : Fld} (n : Nat) (hf : f.key ∈ reportFields.map Fld.key := by decide) : Reports s (t.inc f n) :=
  h.set _ hf

theorem Reports.updErr {f : ErrSt → ErrSt} (hf : ∀ e, (f e).unreported = e.unreported := by intro; rfl) :
    Reports s (t.updErr f) :=
  ⟨(congrArg (fun e => ({ t with flds := [], out := [], err := e, host := t.host.unreported } : State)) (hf t.err)).trans
    h.rest, h.get⟩

theorem Reports.updHost {f : HostSt → HostSt} (hf : ∀ x, (f x).unreported = x.unreported := by intro; rfl) :
    Reports s (t.updHost f) :=
  ⟨(congrArg (fun x => ({ t with flds := [], out := [], err := t.err.unreported, host := x } : State)) (hf t.host)).trans
    h.rest, h.get⟩

theorem Reports.emit (m : Msg) : Reports s (t.emit m) := .ite h ⟨h.rest, h.get⟩

theorem Reports.foldl {α : Type} (f : State → α → State) (hf : ∀ t a, Reports s t → Reports s (f t a)) (l : List α) :
    Reports s (l.foldl f t) :=
  List.foldlRecOn (motive := fun t => Reports s t) l f h fun t ht a _ => hf t a ht

theorem Reports.emitTree (x : Option Nat) (m : Nat → Msg) : Reports s (t.emitTree x m) :=
  h.foldl _ (fun _ _ ht => ht.emit _) _

theorem Reports.emitEth (dst : Nat) (m : EthMsg) : Reports s (t.emitEth dst m) := by
  unfold State.emitEth
  exact .ite ((h.emit _).inc _) (h.emit _)

theorem Reports.pushEvent (b : Sub) (code : Nat) (body : List Nat) : Reports s (t.pushEvent b code body) := by
  unfold State.pushEvent State.sendEvent State.incWrap
  exact ((h.set _).updHost.set _).emitEth _ _

theorem Reports.event (code : Nat) (body : List Nat) : Reports s (t.event code body) := by
  have lost := (h.inc 1 (f := BCP_EVT.LOST)).updHost (f := fun x => { x with lost := true })
  unfold State.event
  split
  · exact h
  next b _ =>
    refine .ite h (.ite (h.pushEvent b _ _) ?_)
    dsimp only
    split
    · exact lost.updHost.pushEvent b _ _
    · exact lost

theorem Reports.log (e : Err) (a b c : Bool) : Reports s (t.log e a b c) := by
  unfold State.log
  refine .ite ?_ (Reports.event ?_ _ _) <;> refine .ite (Reports.set ?_ _) ?_ <;> exact (h.inc _).updErr.updErr.set _

theorem Reports.complete (r : BcpHdr) (op status : Nat) (payload : List Nat) : Reports s (t.complete r op status payload) :=
  h.updHost.emitEth _ _

theorem Reports.completeLong (op status : Nat) (payload : List Nat) : Reports s (t.completeLong op status payload) := by
  unfold State.completeLong
  split
  · exact .ite (h.updHost.complete _ _ _ _) h
  · exact h

end

/-! ### Errors and halts (R327 to R342) -/

/-- The fields that a halt may change, but for those that every cluster or row has. -/
def haltFields : List Fld :=
  reportFields ++ [TICK_STATUS.STATE, TICK_STATUS.DRY, TICK_STATUS.STRETCHING, SOL_STATUS.ACTIVE, SOL_STATUS.GATED,
    ERR_STATUS.HANDLING, ERR_STATUS.PENDING, ERR_STATUS.QDEPTH]

/-- The fields that an error below fatal-to-device may change: those of a halt, and counts and flags of the ERR block. -/
def errorFields : List Fld :=
  haltFields ++ [ERR_COUNT0.CORRECTED, ERR_COUNT0.CONTAINED, ERR_COUNT1.FATAL_SLICE, ERR_COUNT2.MERGED, ERR_COUNT2.QUEUED,
    ERR_COUNT3.PREEMPTED, ERR_COUNT3.ESCALATED, ERR_STATUS.QUEUE_OVF]

/-- A key is that of a listed field, or stands where every cluster has GANG and HOLDING and every row has CTX: above the
tick controller's block, at bit 0 or 6 of a block's first register. -/
def touches (l : List Fld) (k : Nat) : Bool :=
  (l.map Fld.key).contains k || (decide (arrBase 0 * 64 ≤ k) && (k % 0x400000 == 0 || k % 0x400000 == 6))

/-- A state without the parts that an error or a halt may change. -/
def State.lasting (s : State) : State :=
  { s with flds := [], out := [], freeCtr := 0, err := ErrSt.reset, host := HostSt.reset, tick := TickSt.reset, rows := [],
           lands := [], links := [], arr := ⟨[], [], []⟩, root := RootSt.reset, sol := ⟨[], []⟩, upd := UpdSt.reset,
           census := [] }

/-- `t` is `s` but for what errors and halts change, of the fields those of `l` alone. -/
structure Upset (l : List Fld) (s t : State) : Prop where
  rest : t.lasting = s.lasting
  get : ∀ g : Fld, touches l g.key = false → t.get g = s.get g

theorem Upset.refl (l : List Fld) (s : State) : Upset l s s := ⟨rfl, fun _ _ => rfl⟩

theorem Upset.ite {l : List Fld} {s a b : State} {c : Prop} [Decidable c] (ha : Upset l s a) (hb : Upset l s b) :
    Upset l s (if c then a else b) := by
  split <;> assumption

theorem touches_errorFields {k : Nat} (h : touches haltFields k = true) : touches errorFields k = true := by
  simp only [touches, errorFields, List.map_append, List.contains_eq_mem, List.mem_append, Bool.or_eq_true,
    decide_eq_true_eq] at h ⊢
  tauto

theorem touches_ctx (l : List Fld) (r : Nat) : touches l (EXN_STATUS.CTX r).key = true := by
  have above : arrBase 0 * 64 ≤ (EXN_STATUS.CTX r).key := by simp only [Fld.key, EXN_STATUS.CTX, exnBase, arrBase]; omega
  have place : (EXN_STATUS.CTX r).key % 0x400000 = 0 := by simp only [Fld.key, EXN_STATUS.CTX, exnBase]; omega
  simp [touches, above, place]

/-- A field that each of `n` blocks has leaves a field alone whose key is that of none of them. -/
theorem State.get_clearEach_other (s : State) {f g : Fld} {stride n : Nat}
    (h : g.key % 64 = f.lo → f.addr ≤ g.key / 64 → (g.key / 64 - f.addr) % stride = 0 → n ≤ (g.key / 64 - f.addr) / stride) :
    (s.clearEach f stride n).get g = s.get g := by
  refine congrArg (·.getD g.reset) (Store.find?_filter s.flds _ g.key fun _ => ?_)
  simp only [Bool.not_eq_true', Bool.and_eq_false_imp, decide_eq_false_iff_not]
  intro hk hn
  simp only [Bool.and_eq_true, beq_iff_eq, decide_eq_true_eq] at hk
  obtain ⟨⟨hlo, haddr⟩, hstride⟩ := hk
  exact Nat.not_lt.mpr (h hlo haddr hstride) hn

section
variable {l : List Fld} {s t : State} (h : Upset l s t)
include h

theorem Upset.mem : t.mem = s.mem := (congrArg State.mem h.rest :)

theorem Upset.is {g : Fld} (hg : touches l g.key = false := by decide) : t.is g = s.is g := by
  rw [State.is, h.get g hg, State.is]

theorem Upset.set {f : Fld} (v : Nat) (hf : touches l f.key = true := by decide) : Upset l s (t.set f v) :=
  ⟨h.rest, fun g hg => (State.get_set_other t v fun e => by simp [e, hf] at hg).trans (h.get g hg)⟩

theorem Upset.inc {f : Fld} (n : Nat) (hf : touches l f.key = true := by decide) : Upset l s (t.inc f n) := h.set _ hf

theorem Upset.updErr (f : ErrSt → ErrSt) : Upset l s (t.updErr f) := ⟨h.rest, h.get⟩
theorem Upset.updTick (f : TickSt → TickSt) : Upset l s (t.updTick f) := ⟨h.rest, h.get⟩
theorem Upset.draw : Upset l s t.draw.2 := ⟨h.rest, h.get⟩
theorem Upset.setLink (p : Nat) (x : Link) : Upset l s (t.setLink p x) := ⟨h.rest, h.get⟩

theorem Upset.foldl {α : Type} (f : State → α → State) (hf : ∀ t a, Upset l s t → Upset l s (f t a)) (as : List α) :
    Upset l s (as.foldl f t) :=
  List.foldlRecOn (motive := fun t => Upset l s t) as f h fun t ht a _ => hf t a ht

theorem Upset.clearEach (f : Fld) (hf : f = ARR_STATUS.GANG 0 ∨ f = ARR_STATUS.HOLDING 0) :
    Upset l s (t.clearEach f 0x10000 nPhys) := by
  refine ⟨h.rest, fun g hg => (t.get_clearEach_other fun h1 h2 h3 => ?_).trans (h.get g hg)⟩
  have place : arrBase 0 * 64 ≤ g.key ∧ (g.key % 0x400000 = 0 ∨ g.key % 0x400000 = 6) := by
    rcases hf with rfl | rfl <;> simp only [ARR_STATUS.GANG, ARR_STATUS.HOLDING, arrBase] at h1 h2 h3 ⊢ <;> omega
  have : touches l g.key = true := by simp [touches, place]
  simp [this] at hg

theorem Upset.arrSingle : Upset l s t.arrSingle :=
  Upset.clearEach (Upset.clearEach (t := { t with arr := ⟨[], [], []⟩ }) ⟨h.rest, h.get⟩ _ (.inl rfl)) _ (.inr rfl)

theorem Upset.dropDue : Upset l s t.dropDue := h.foldl _ (fun _ _ ht => ht.setLink _ _) _

theorem Upset.endCall (r : Nat) : Upset l s (t.endCall r) := by
  unfold State.endCall
  dsimp only
  split
  · exact h
  · refine Upset.set ?_ _ (touches_ctx l r)
    exact ⟨h.rest, h.get⟩

theorem Upset.stopRows : Upset l s t.stopRows := h.foldl _ (fun _ _ ht => ht.endCall _) _

theorem Upset.takeInHand (e : Err) : Upset l s (t.takeInHand e) := by
  unfold State.takeInHand
  exact h.updErr _

theorem Upset.noteFirst (e : Err) : Upset l s (t.noteFirst e) := .ite h ((h.updErr _).updTick _)


theorem Upset.noteProc (e : Err) : Upset l s (t.noteProc e) := .ite (h.updErr _) h

/-! The operations below change the fields of a halt. -/

variable (hl : ∀ k, touches haltFields k = true → touches l k = true)
include hl

theorem Upset.report {u : State} (hr : Reports t u) : Upset l s u := by
  have rest : u.lasting = t.lasting := (congrArg State.lasting hr.rest :)
  refine ⟨rest.trans h.rest, fun g hg => (hr.get g fun hm => ?_).trans (h.get g hg)⟩
  have : touches haltFields g.key = true := by
    simp only [touches, haltFields, List.map_append, List.contains_eq_mem, List.mem_append, Bool.or_eq_true,
      decide_eq_true_eq]
    exact .inl (.inl hm)
  simp [hl _ this] at hg

theorem Upset.event (code : Nat) (body : List Nat) : Upset l s (t.event code body) := h.report hl ((Reports.refl t).event _ _)

theorem Upset.log (e : Err) (a b c : Bool) : Upset l s (t.log e a b c) := h.report hl ((Reports.refl t).log _ _ _ _)

theorem Upset.emitTree (x : Option Nat) (m : Nat → Msg) : Upset l s (t.emitTree x m) :=
  h.report hl ((Reports.refl t).emitTree _ _)

theorem Upset.setAll (fs : List (Fld × Nat)) (hf : ∀ e ∈ fs, touches haltFields e.1.key = true := by decide) :
    Upset l s (t.setAll fs) :=
  List.foldlRecOn (motive := fun t => Upset l s t) fs _ h fun _ ht e he => ht.set _ (hl _ (hf e he))

theorem Upset.setJob (j c : Nat) : Upset l s (t.setJob j c) := .ite h ((h.set _ (hl _ (by decide))).event hl _ _)

theorem Upset.dropOutcomes : Upset l s t.dropOutcomes := by
  refine Upset.setAll ?_ hl _
  exact ⟨h.rest, h.get⟩

theorem Upset.stopTicks : Upset l s t.stopTicks := by
  have stop : ∀ u, Upset l s u → Upset l s ({ u.arrSingle.dropDue with lands := [] } : State) :=
    fun u hu => ⟨hu.arrSingle.dropDue.rest, hu.arrSingle.dropDue.get⟩
  unfold State.stopTicks
  exact ((stop _ (.ite h (h.dropOutcomes hl))).updTick _).setAll hl _

theorem Upset.endHandling : Upset l s t.endHandling := (h.updErr _).setAll hl _

theorem Upset.enterHalt (c : Nat) : Upset l s (t.enterHalt c) :=
  .ite ((((h.stopTicks hl).stopRows).setJob hl _ _).endHandling hl) (h.endHandling hl)

theorem Upset.haltNotice (e : Err) : Upset l s (t.haltNotice e) := h.emitTree hl _ _

theorem Upset.fatalSlice (e : Err) (c : Nat) : Upset l s (t.fatalSlice e c) :=
  .ite ((h.updErr _).set _ (hl _ (by decide))) (((h.haltNotice hl e).updTick _).enterHalt hl c)

theorem Upset.contained (e : Err) : Upset l s (t.contained e) :=
  .ite (.ite (h.updErr _) ((((h.updErr _).noteProc e).set _ (hl _ (by decide))))) h

theorem Upset.consequence {e : Err} (he : e.cls ≤ 2) (c : Nat) (g : Bool) : Upset l s (t.consequence e c g) := by
  have : e.cls = 0 ∨ e.cls = 1 ∨ e.cls = 2 := by omega
  rcases this with h0 | h0 | h0 <;> simp only [State.consequence, h0]
  · exact h
  · exact .ite ((h.contained hl e).set _ (hl _ (by decide))) (h.updErr _)
  · exact .ite (h.set _ (hl _ (by decide))) (h.fatalSlice hl e c)

end

theorem Upset.countErr {s t : State} (h : Upset errorFields s t) {c : Nat} (hc : c ≤ 2) : Upset errorFields s (t.countErr c) := by
  have : c = 0 ∨ c = 1 ∨ c = 2 := by omega
  rcases this with rfl | rfl | rfl <;> exact h.inc _

theorem Upset.nested {s t : State} (h : Upset errorFields s t) (x : Err) {e : Err} (he : e.cls ≤ 2) (g : Bool) :
    Upset errorFields s (t.nested x e g) := by
  have hl := fun k => touches_errorFields (k := k)
  unfold State.nested
  refine .ite ?_ (.ite ?_ (.ite ?_ ?_))
  · exact ((((h.updErr _).inc _).log hl _ _ _ _).takeInHand _).consequence hl he _ _
  · exact (h.log hl _ _ _ _).inc _
  · exact ((((h.log hl _ _ _ _).inc _).updErr _).noteProc _).set _
  · have full := ((((h.set (f := ERR_STATUS.QUEUE_OVF) 1).inc (f := ERR_COUNT3.ESCALATED) 1).draw).log hl e false false
      false).countErr (Nat.le_refl 2)
    have marked := Upset.ite (c := x.cls < 2) ((full.updErr fun y => { y with log := markPreempted y.log y.inHand }).inc
      (f := ERR_COUNT3.PREEMPTED) 1) full
    exact Upset.consequence (.ite ((marked.log hl _ _ _ _).takeInHand _) (marked.log hl _ _ _ _)) hl (Nat.le_refl 2) _ _

theorem Upset.raise {s t : State} (h : Upset errorFields s t) {e : Err} (he : e.cls ≤ 2) (g : Bool := false) :
    Upset errorFields s (t.raise e g) := by
  have hl := fun k => touches_errorFields (k := k)
  have counted := (h.countErr he).noteFirst e
  unfold State.raise
  refine .ite (.ite (counted.log hl _ _ _ _) counted) ?_
  split
  · exact counted.nested _ he _
  · exact ((counted.log hl _ _ _ _).takeInHand _).consequence hl he _ _

theorem Upset.raiseOpen {s t : State} (h : Upset errorFields s t) {c : Nat} (hc : c ≤ 2) (scope index source code : Nat) :
    Upset errorFields s (t.raiseOpen c scope index source code) :=
  h.draw.raise hc

/-! ### A fatal-to-slice error that finds nothing in hand (R340) -/

@[simp] theorem State.job_okay (s : State) : s.okay.job = s.job := rfl
@[simp] theorem State.job_updTick (s : State) (f : TickSt → TickSt) : (s.updTick f).job = s.job := rfl
@[simp] theorem State.job_updErr (s : State) (f : ErrSt → ErrSt) : (s.updErr f).job = s.job := rfl

theorem State.stopRows_tick (s : State) : s.stopRows.tick = s.tick := by
  refine List.foldlRecOn (motive := fun t : State => t.tick = s.tick) _ _ rfl fun t ht r _ => ?_
  rw [← ht]
  unfold State.endCall
  dsimp only
  split <;> rfl

theorem State.setJob_reports (s : State) (j c : Nat) (h : s.job ≠ j) : Reports (s.set TICK_STATUS.STATE j) (s.setJob j c) := by
  unfold State.setJob
  rw [if_neg h]
  exact (Reports.refl _).event _ _

theorem State.setJob_tick (s : State) (j c : Nat) : (s.setJob j c).tick = s.tick := by
  unfold State.setJob
  split
  · rfl
  · exact ((Reports.refl _).event _ _).tick

theorem State.setJob_job (s : State) {j : Nat} (c : Nat) (hj : j < 4 := by decide) : (s.setJob j c).job = j := by
  by_cases h : s.job = j
  · rw [State.setJob, if_pos h, h]
  · rw [(s.setJob_reports j c h).job, State.job, State.get_set_same]
    exact Nat.mod_eq_of_lt hj

theorem State.enterHalt_job {s : State} (h : s.running = true) (c : Nat) : (s.enterHalt c).job = 3 := by
  unfold State.enterHalt State.endHandling
  rw [if_pos h, State.job, State.get_setAll_other _ _ (by decide), State.get_updErr]
  exact State.setJob_job _ _

/-- A device that enters HALT has no tick open and no glue-up, and its engines have stopped. -/
theorem State.enterHalt_tick {s : State} (h : s.running = true) (c : Nat) : (s.enterHalt c).tick = s.stopTicks.tick := by
  unfold State.enterHalt State.endHandling
  rw [if_pos h, State.setAll_tick, State.updErr_tick, State.setJob_tick, State.stopRows_tick]

theorem State.stopTicks_inTick (s : State) : s.stopTicks.tick.inTick = false := by simp [State.stopTicks]
theorem State.stopTicks_glue (s : State) : s.stopTicks.tick.glue = 0 := by simp [State.stopTicks]

/-- The state in which a fatal-to-slice error stops the slice: the error is counted, logged and in hand. -/
def State.fatalInHand (s : State) (e : Err) : State := (((s.countErr 2).noteFirst e).log e false false false).takeInHand e

theorem State.noteFirst_handling (s : State) (e : Err) : (s.noteFirst e).err.handling = s.err.handling := by
  unfold State.noteFirst
  split <;> rfl

theorem State.raise_fatal (s : State) {e : Err} (he : e.cls = 2) (hh : s.err.handling = none) :
    s.raise e = (s.fatalInHand e).fatalSlice e (s.fatalInHand e).lastSeq := by
  have free : ((s.countErr 2).noteFirst e).err.handling = none := (State.noteFirst_handling _ _).trans hh
  unfold State.raise
  simp only [he, free]
  rw [if_neg (by decide)]
  simp only [State.consequence, he, State.fatalInHand]
  rfl

theorem Upset.fatalInHand (s : State) (e : Err) : Upset haltFields (s.countErr 2) (s.fatalInHand e) :=
  (((Upset.refl _ _).noteFirst e).log (fun _ h => h) _ _ _ _).takeInHand e

/-- A fatal-to-slice error that finds nothing in hand counts once. -/
theorem Upset.raise_fatal (s : State) {e : Err} (he : e.cls = 2) (hh : s.err.handling = none) :
    Upset haltFields (s.countErr 2) (s.raise e) := by
  rw [s.raise_fatal he hh]
  exact (Upset.fatalInHand s e).fatalSlice (fun _ h => h) _ _

theorem State.fatalInHand_job (s : State) (e : Err) : (s.fatalInHand e).job = s.job := by
  have counted : (s.countErr 2).job = s.job := State.get_inc_other s 1 (by decide)
  have noted : ((s.countErr 2).noteFirst e).job = s.job := by
    unfold State.noteFirst
    split
    · exact counted
    · rw [State.job_updTick, State.job_updErr, counted]
  exact (((Reports.refl _).log e _ _ _).job).trans noted

/-- A fatal-to-slice error in RUN, with nothing in hand and no spare swap in progress, halts the device. -/
theorem State.raise_fatal_halts {s : State} {e : Err} (he : e.cls = 2) (hj : s.job = 2) (hh : s.err.handling = none)
    (hb : s.is ERR_SWAP.BUSY = false) :
    (s.raise e).job = 3 ∧ (s.raise e).tick.inTick = false ∧ (s.raise e).tick.glue = 0 := by
  have idle : (s.fatalInHand e).is ERR_SWAP.BUSY = false := by
    rw [(Upset.fatalInHand s e).is (g := ERR_SWAP.BUSY), State.is, State.countErr, State.get_inc_other _ _ (by decide)]
    exact hb
  have notice := (Reports.refl (s.fatalInHand e)).emitTree none fun p =>
    .halt p (carry ((s.fatalInHand e).get FAB_ID.DEV) false ((s.fatalInHand e).err.first.getD e))
  have running : (((s.fatalInHand e).haltNotice e).updTick fun t => { t with startPend := false, dryPend := false }).running
      = true := by
    have : ((s.fatalInHand e).haltNotice e).job = 2 := notice.job.trans ((s.fatalInHand_job e).trans hj)
    simp [State.running, State.job] at this ⊢
    simp [this]
  rw [s.raise_fatal he hh, State.fatalSlice, if_neg (by simp [idle])]
  exact ⟨State.enterHalt_job running _, by rw [State.enterHalt_tick running, State.stopTicks_inTick],
    by rw [State.enterHalt_tick running, State.stopTicks_glue]⟩

/-! ### A contained error that finds nothing in hand (R329, R333) -/

/-- The fields that a contained error changes, but for its count. -/
def containFields : List Fld := reportFields ++ [ERR_STATUS.HANDLING, ERR_STATUS.PENDING]

/-- `t` is `s` after a contained error: reports, the error handling and the note for a dry fit. -/
structure Contains (s t : State) : Prop where
  rest : ({ t with flds := s.flds, out := s.out, err := s.err, host := s.host, tick := s.tick } : State) = s
  tick : ({ t.tick with dryFault := s.tick.dryFault } : TickSt) = s.tick
  get : ∀ g : Fld, g.key ∉ containFields.map Fld.key → t.get g = s.get g

section
variable {s t : State} (h : Contains s t)
include h

theorem Contains.set {f : Fld} (v : Nat) (hf : f.key ∈ containFields.map Fld.key := by decide) : Contains s (t.set f v) :=
  ⟨h.rest, h.tick, fun g hg => (State.get_set_other t v fun e => hg (by rwa [e])).trans (h.get g hg)⟩

theorem Contains.updErr (f : ErrSt → ErrSt) : Contains s (t.updErr f) := ⟨h.rest, h.tick, h.get⟩

theorem Contains.noteFirst (e : Err) : Contains s (t.noteFirst e) := by
  unfold State.noteFirst
  split
  · exact h
  · exact ⟨h.rest, h.tick, h.get⟩

theorem Contains.report {u : State} (hr : Reports t u) : Contains s u := by
  refine ⟨?_, by rw [hr.tick, h.tick], fun g hg => (hr.get g fun hm => hg ?_).trans (h.get g hg)⟩
  · have same : ({ u with flds := s.flds, out := s.out, err := s.err, host := s.host, tick := s.tick } : State) =
        { t with flds := s.flds, out := s.out, err := s.err, host := s.host, tick := s.tick } :=
      (congrArg (fun x : State => { x with flds := s.flds, out := s.out, err := s.err, host := s.host, tick := s.tick }) hr.rest :)
    exact same.trans h.rest
  · rw [containFields, List.map_append]
    exact List.mem_append_left _ hm

theorem Contains.takeInHand (e : Err) : Contains s (t.takeInHand e) := by
  unfold State.takeInHand
  exact h.updErr _

theorem Contains.running : t.running = s.running := by
  rw [State.running, State.job, State.is, h.get _ (by decide), h.get _ (by decide)]
  rfl

theorem Contains.noteProc (e : Err) : Contains s (t.noteProc e) := by
  unfold State.noteProc
  split
  · exact h.updErr _
  · exact h

theorem Contains.contained (e : Err) : Contains s (t.contained e) := by
  unfold State.contained
  split
  · split
    · exact h.updErr _
    · exact ((h.updErr _).noteProc e).set _
  · exact h

end

/-- A contained error in a step, with nothing in hand, is counted, logged, in hand and pending. -/
theorem State.raise_contained (s : State) {e : Err} (he : e.cls = 1) (hh : s.err.handling = none) (hr : s.running = true) :
    Contains (s.countErr 1) (s.raise e) := by
  have free : ((s.countErr 1).noteFirst e).err.handling = none := (State.noteFirst_handling _ _).trans hh
  have start : Contains (s.countErr 1) (s.countErr 1) := ⟨rfl, rfl, fun _ _ => rfl⟩
  have inHand := ((start.noteFirst e).report ((Reports.refl _).log e false false false)).takeInHand e
  have counted : (s.countErr 1).running = s.running := by
    have other {g : Fld} (hg : g.key ≠ ERR_COUNT0.CONTAINED.key) : (s.countErr 1).get g = s.get g := s.get_inc_other 1 hg
    rw [State.running, State.job, State.is, other (by decide), other (by decide)]
    rfl
  unfold State.raise
  simp only [he, free]
  rw [if_neg (by decide)]
  simp only [State.consequence, he]
  rw [if_pos (by rw [inHand.running, counted, hr])]
  exact (inHand.contained e).set _

/-! ### Schedule faults (R26, R27) -/

/-- Of several fields that stand apart each one written holds its value, cut to its width. -/
theorem State.get_setAll_at (s : State) {l : List (Fld × Nat)} (hn : (l.map fun e => e.1.key).Nodup) {f : Fld} {v : Nat}
    (h : (f, v) ∈ l) : (s.setAll l).get f = v % 2 ^ f.width := by
  induction l generalizing s with
  | nil => cases h
  | cons e l ih =>
    obtain ⟨he, hn⟩ := List.nodup_cons.1 hn
    rw [State.setAll_cons]
    rcases List.mem_cons.1 h with rfl | h
    · rw [State.get_setAll_other _ _ he, State.get_set_same]
    · exact ih _ hn h

/-- The fields that a record of a schedule fault fills. -/
def faultFields : List Fld :=
  [TICK_FAULT.CODE, TICK_FAULT.UNIT_CLASS, TICK_FAULT.UNIT_INDEX, TICK_FAULT.ENTRY, TICK_FAULT.BANK, TICK_FAULT.VALID,
    TICK_FAULT_TICK.AT_TICK]

theorem State.recordFault_frame (s : State) (code cls idx entry bank atTick : Nat) :
    { s.recordFault code cls idx entry bank atTick with flds := s.flds } = s := by
  unfold State.recordFault
  split
  · rfl
  · exact State.setAll_frame _ _

theorem State.get_recordFault_other (s : State) (code cls idx entry bank atTick : Nat) {g : Fld}
    (h : g.key ∉ faultFields.map Fld.key) : (s.recordFault code cls idx entry bank atTick).get g = s.get g := by
  unfold State.recordFault
  split
  · rfl
  · exact State.get_setAll_other _ _ h

/-- A fault that TICK_FAULT names: its code, unit and entry. -/
structure FaultNamed (t : State) (code cls idx entry bank : Nat) : Prop where
  code : t.get TICK_FAULT.CODE = code % 2 ^ TICK_FAULT.CODE.width
  cls : t.get TICK_FAULT.UNIT_CLASS = cls % 2 ^ TICK_FAULT.UNIT_CLASS.width
  idx : t.get TICK_FAULT.UNIT_INDEX = idx % 2 ^ TICK_FAULT.UNIT_INDEX.width
  entry : t.get TICK_FAULT.ENTRY = entry % 2 ^ TICK_FAULT.ENTRY.width
  bank : t.get TICK_FAULT.BANK = bank % 2 ^ TICK_FAULT.BANK.width
  valid : t.get TICK_FAULT.VALID = 1

theorem FaultNamed.of_get {t u : State} {code cls idx entry bank : Nat} (h : FaultNamed t code cls idx entry bank)
    (hg : ∀ g ∈ faultFields, u.get g = t.get g) : FaultNamed u code cls idx entry bank := by
  simp only [faultFields, List.forall_mem_cons] at hg
  obtain ⟨hcode, hcls, hidx, hentry, hbank, hvalid, -⟩ := hg
  exact ⟨hcode.trans h.code, hcls.trans h.cls, hidx.trans h.idx, hentry.trans h.entry, hbank.trans h.bank, hvalid.trans h.valid⟩

theorem State.recordFault_named {s : State} (h : s.is TICK_FAULT.VALID = false) (code cls idx entry bank atTick : Nat) :
    FaultNamed (s.recordFault code cls idx entry bank atTick) code cls idx entry bank := by
  unfold State.recordFault
  rw [if_neg (by simp [h])]
  have apart : (faultFields.map Fld.key).Nodup := by decide
  have written (f : Fld) (v : Nat) (hf : (f, v) ∈ faultFields.zip [code, cls, idx, entry, bank, 1, atTick]) :=
    State.get_setAll_at s (l := faultFields.zip [code, cls, idx, entry, bank, 1, atTick]) apart hf
  simp only [faultFields, List.zip_cons_cons, List.zip_nil_left] at written
  exact ⟨written _ code (by simp), written _ cls (by simp), written _ idx (by simp), written _ entry (by simp),
    written _ bank (by simp), written _ 1 (by simp)⟩

theorem State.schedFault_eq (s : State) (cls code : Nat) (u : UnitKind) (idx entry : Nat) :
    s.schedFault cls code u idx entry = (s.recordFault code u.code idx entry s.runBank (s.get TICK_COUNT.COUNT)).raiseOpen cls
      (unitScope u idx).1 (unitScope u idx).2 srcTICK code := rfl

theorem State.schedFault_mem (s : State) {cls : Nat} (hc : cls ≤ 2) (code : Nat) (u : UnitKind) (idx entry : Nat) :
    (s.schedFault cls code u idx entry).mem = s.mem := by
  rw [State.schedFault_eq]
  exact (((Upset.refl errorFields _).raiseOpen hc _ _ _ _).mem).trans (congrArg State.mem (s.recordFault_frame _ _ _ _ _ _) :)

/-- A fatal-to-slice schedule fault has halted the device: TICK_FAULT names it, it is counted, memory is as it was. -/
structure FaultHalts (s t : State) (code cls idx entry : Nat) : Prop where
  job : t.job = 3
  mem : t.mem = s.mem
  inTick : t.tick.inTick = false
  glue : t.tick.glue = 0
  named : FaultNamed t code cls idx entry s.runBank
  count : t.get ERR_COUNT1.FATAL_SLICE = min (s.get ERR_COUNT1.FATAL_SLICE + 1) (2 ^ 32 - 1)

/-- A fatal-to-slice schedule fault can halt the device: it is in RUN, no error is in hand, no spare swap is in progress
and TICK_FAULT holds no record. -/
structure FaultHits (s : State) : Prop where
  job : s.job = 2
  handling : s.err.handling = none
  swap : s.is ERR_SWAP.BUSY = false
  valid : s.is TICK_FAULT.VALID = false

theorem State.schedFault_halts {s : State} (h : FaultHits s) (code : Nat) (u : UnitKind) (idx entry : Nat) :
    FaultHalts s (s.schedFault 2 code u idx entry) code u.code idx entry := by
  have other {g : Fld} (hg : g.key ∉ faultFields.map Fld.key) :=
    s.get_recordFault_other code u.code idx entry s.runBank (s.get TICK_COUNT.COUNT) hg
  have named := State.recordFault_named h.valid code u.code idx entry s.runBank (s.get TICK_COUNT.COUNT)
  have frame := s.recordFault_frame code u.code idx entry s.runBank (s.get TICK_COUNT.COUNT)
  rw [State.schedFault_eq]
  generalize s.recordFault code u.code idx entry s.runBank (s.get TICK_COUNT.COUNT) = r at *
  have handling : r.err.handling = none := (congrArg (fun x => x.err.handling) frame :).trans h.handling
  have upset := Upset.raise_fatal r.draw.2 (e := ⟨2, (unitScope u idx).1, (unitScope u idx).2, srcTICK, code, r.draw.1 % 2 ^ 48⟩)
    rfl handling
  obtain ⟨hj, ht, hg⟩ := State.raise_fatal_halts (s := r.draw.2)
    (e := ⟨2, (unitScope u idx).1, (unitScope u idx).2, srcTICK, code, r.draw.1 % 2 ^ 48⟩) rfl
    ((other (by decide)).trans h.job) handling (by rw [← h.swap]; exact congrArg (· == 1) (other (by decide)))
  refine ⟨hj, upset.mem.trans (congrArg State.mem frame :), ht, hg, named.of_get fun g hg => ?_, ?_⟩
  · have : ∀ g ∈ faultFields, touches haltFields g.key = false ∧ g.key ≠ ERR_COUNT1.FATAL_SLICE.key := by decide
    obtain ⟨untouched, ne⟩ := this g hg
    exact (upset.get g untouched).trans (State.get_inc_other _ _ ne)
  · exact (upset.get _ (by decide)).trans ((State.get_inc_same r _ _).trans (by rw [other (by decide)]; rfl))

/-- A contained schedule fault of a step, with nothing in hand: it is counted, TICK_FAULT names it unless a record is held, and
but for the error handling, reports and these fields all is as it was. -/
structure FaultContained (s t : State) (code cls idx entry : Nat) : Prop where
  rest : ({ t with flds := s.flds, out := s.out, err := s.err, host := s.host, tick := s.tick, freeCtr := s.freeCtr } : State) = s
  tick : ({ t.tick with dryFault := s.tick.dryFault } : TickSt) = s.tick
  get : ∀ g : Fld, g.key ∉ (ERR_COUNT0.CONTAINED :: (faultFields ++ containFields)).map Fld.key → t.get g = s.get g
  named : s.is TICK_FAULT.VALID = false → FaultNamed t code cls idx entry s.runBank
  count : t.get ERR_COUNT0.CONTAINED = min (s.get ERR_COUNT0.CONTAINED + 1) (2 ^ 32 - 1)

theorem State.schedFault_contained {s : State} (hh : s.err.handling = none) (hr : s.running = true) (code : Nat) (u : UnitKind)
    (idx entry : Nat) : FaultContained s (s.schedFault 1 code u idx entry) code u.code idx entry := by
  have other {g : Fld} (hg : g.key ∉ faultFields.map Fld.key) :=
    s.get_recordFault_other code u.code idx entry s.runBank (s.get TICK_COUNT.COUNT) hg
  have named := fun h => State.recordFault_named (s := s) h code u.code idx entry s.runBank (s.get TICK_COUNT.COUNT)
  have frame := s.recordFault_frame code u.code idx entry s.runBank (s.get TICK_COUNT.COUNT)
  rw [State.schedFault_eq]
  generalize s.recordFault code u.code idx entry s.runBank (s.get TICK_COUNT.COUNT) = r at *
  have handling : r.err.handling = none := (congrArg (fun x => x.err.handling) frame :).trans hh
  have running : r.running = true := by
    rw [State.running, State.job, State.is, other (by decide), other (by decide)]
    exact hr
  have contains : Contains (r.draw.2.countErr 1) (r.raiseOpen 1 (unitScope u idx).1 (unitScope u idx).2 srcTICK code) :=
    State.raise_contained r.draw.2 (e := ⟨1, _, _, _, _, _⟩) rfl handling running
  obtain ⟨x, rfl⟩ : ∃ x, r = { s with flds := x } := ⟨r.flds, by rw [← frame]⟩
  refine ⟨?_, contains.tick, fun g hg => ?_, fun h => (named h).of_get fun g hg => ?_, ?_⟩
  · exact (congrArg (fun x : State => { x with flds := s.flds, out := s.out, err := s.err, host := s.host, tick := s.tick,
                                               freeCtr := s.freeCtr }) contains.rest :)
  · simp only [List.map_cons, List.map_append, List.mem_cons, List.mem_append, not_or] at hg
    obtain ⟨hcount, hfault, hcontain⟩ := hg
    rw [contains.get g hcontain, ← other hfault]
    exact State.get_inc_other _ 1 hcount
  · have : ∀ g ∈ faultFields, g.key ∉ containFields.map Fld.key ∧ g.key ≠ ERR_COUNT0.CONTAINED.key := by decide
    obtain ⟨hcontain, hcount⟩ := this g hg
    rw [contains.get g hcontain]
    exact State.get_inc_other _ 1 hcount
  · rw [contains.get ERR_COUNT0.CONTAINED (by decide), ← other (by decide : ERR_COUNT0.CONTAINED.key ∉ _)]
    exact State.get_inc_same _ _ _

end Sys2Proof.Machine

namespace Sys2Proof.Machine
open Reg

/-- Settles O4: every part of the state after reset is stated by its definition. -/
theorem resetIsCanonicalAndAtResetValues : Obligations.ResetIsCanonicalAndAtResetValues :=
  ⟨⟨fun _ => rfl, rfl, rfl, rfl, rfl, fun _ => rfl, rfl, rfl, rfl⟩, rfl, rfl, rfl⟩

/-! ### A busy engine (R17, R27) -/

section
variable {s : State} (h : FaultHits s) {u : UnitKind} {i : Issue} (ht : Turn s u i)
include h ht

/-- An entry whose engine is busy at its START_CC halts the slice and does not run. -/
theorem issueWhen_halts {c : Instr} {busy : Bool} {eng : Nat} {waits : Bool} {body : State → State}
    (hc : exec c s = s.issueWhen busy u eng i waits body) (hb : busy = true) : ∃ t, exec c s = .next t ∧ BusyHalt s t u i := by
  have atCc : FaultHits (s.atCc i.startCc) := ⟨h.job, h.handling, h.swap, h.valid⟩
  have halts := State.schedFault_halts atCc fBUSY u i.idx i.entry
  refine ⟨_, hc.trans (hb ▸ s.issueWhen_busy waits body ht.1 ht.canIssue), ?_⟩
  exact ⟨halts.job, halts.mem, halts.inTick, halts.named.code, halts.named.cls, halts.named.idx, halts.named.entry, halts.count⟩

theorem issue_halts {c : Instr} {eng : Nat} {waits : Bool} {body : State → State} (hc : exec c s = s.issue u eng i waits body)
    (hb : s.engineBusy u i.idx eng i.startCc = true) : ∃ t, exec c s = .next t ∧ BusyHalt s t u i :=
  issueWhen_halts h ht hc hb

end

/-- ENGINE_BUSY_FAULT raises BUSY where its condition holds, and does nothing otherwise. -/
theorem execEngineBusyFault_eq (s : State) {u : UnitKind} {idx : Nat} (hu : idx < u.count) (eng e : Nat) :
    exec (.engineBusyFault u idx eng e) s =
      .next (if s.running && (s.runningRec u idx eng).isSome && !s.excused then s.schedFault 2 fBUSY u idx e else s) :=
  if_pos hu

/-- Settles O18: BUSY is a schedule fault that is fatal to the slice, whichever engine raises it. -/
theorem busyEngineHaltsTheSlice : Obligations.BusyEngineHaltsTheSlice := by
  refine ⟨fun s u idx eng e hu => ⟨_, execEngineBusyFault_eq s hu eng e, ?_, fun idle => if_neg ?_⟩, fun s hj hh hb hv => ?_⟩
  · split
    · exact s.schedFault_mem (Nat.le_refl 2) _ _ _ _
    · rfl
  · rcases idle with hr | hn | hf | hx
    · simp [hr]
    · simp [State.runningRec, hn]
    · simp [State.runningRec, hf]
    · simp [hx]
  · have hits : FaultHits s := ⟨hj, hh, hb, hv⟩
    refine ⟨fun u idx eng e hu hr hf hx => ?_, fun i hw eng c hc ht hb => ?_, fun i hw u eng c hc ht hb => ?_⟩
    · have raised : s.running && (s.runningRec u idx eng).isSome && !s.excused := by
        simp [State.running, hj, State.runningRec, hf, hr, hx]
      have halts := State.schedFault_halts hits fBUSY u idx e
      refine ⟨_, (execEngineBusyFault_eq s hu eng e).trans (congrArg _ (if_pos raised)), ?_⟩
      exact ⟨halts.job, halts.mem, halts.inTick, halts.named.code, halts.named.cls, halts.named.idx, halts.named.entry,
        halts.named.valid, halts.count⟩
    · simp only [List.mem_cons, List.not_mem_nil, or_false, Prod.mk.injEq] at hc
      rcases hc with ⟨rfl, rfl⟩ | ⟨rfl, rfl⟩ | ⟨rfl, rfl⟩ | ⟨rfl, rfl⟩ | ⟨rfl, rfl⟩
      · exact issueWhen_halts hits ht (show execMatmul i hw s = _ from by dsimp only [execMatmul]) hb
      · exact issueWhen_halts hits ht (show execScarfPeer i hw s = _ from by dsimp only [execScarfPeer]) hb
      · exact issueWhen_halts hits ht (show execArrayReserve i s = _ from rfl) hb
      · exact issueWhen_halts hits ht (show execGangOn i s = _ from rfl) hb
      · exact issueWhen_halts hits ht (show execGangOff i s = _ from rfl) hb
    · simp only [List.mem_cons, List.not_mem_nil, or_false, Prod.mk.injEq] at hc
      rcases hc with ⟨rfl, rfl, rfl⟩ | ⟨rfl, rfl, rfl⟩ | ⟨rfl, rfl, rfl⟩ | ⟨rfl, rfl, rfl⟩ | ⟨rfl, rfl, rfl⟩ | ⟨rfl, rfl, rfl⟩ |
          ⟨rfl, rfl, rfl⟩ | ⟨rfl, rfl, rfl⟩ | ⟨rfl, rfl, rfl⟩ | ⟨rfl, rfl, rfl⟩ | ⟨rfl, rfl, rfl⟩ | ⟨rfl, rfl, rfl⟩ |
          ⟨rfl, rfl, rfl⟩ | ⟨rfl, rfl, rfl⟩ | ⟨rfl, rfl, rfl⟩
      · exact issue_halts hits ht (show execChain i hw s = _ from rfl) hb
      · exact issue_halts hits ht (show execTableLoad i hw s = _ from rfl) hb
      · exact issue_halts hits ht (show execFinisherReserve i s = _ from rfl) hb
      · exact issue_halts hits ht (show execTap i hw s = _ from rfl) hb
      · exact issue_halts hits ht (show execSend i hw s = _ from rfl) hb
      · exact issue_halts hits ht (show execPass i s = _ from rfl) hb
      · exact issue_halts hits ht (show execLand i s = _ from rfl) hb
      · exact issue_halts hits ht (show execMover i hw s = _ from rfl) hb
      · exact issue_halts hits ht (show execNorm i hw s = _ from rfl) hb
      · exact issue_halts hits ht (show execNormSum i s hw = _ from rfl) hb
      · exact issue_halts hits ht (show execUpdApply i hw s = _ from rfl) hb
      · exact issue_halts hits ht (show execKernelCall i hw s = _ from rfl) hb
      · exact issue_halts hits ht (show execRootSeg i s = _ from rfl) hb
      · exact issue_halts hits ht (show execGaugeSeg i s = _ from rfl) hb
      · exact issue_halts hits ht (show execSolve i s = _ from rfl) hb

end Sys2Proof.Machine

namespace Sys2Proof.Machine
open Reg

/-! ### Entries that occupy an engine (R23, R79, R424) -/

theorem Occupied.of_tick {t v : State} {u : UnitKind} {eng : Nat} {i : Issue} {waits : Bool} (h : Occupied t u eng i waits)
    (ht : v.tick = t.tick) : Occupied v u eng i waits := by
  simpa only [Occupied, State.busyRec, ht] using h

/-- The notes of an engine's running entry do not change what occupies it. -/
theorem Occupied.noteInfo {t : State} {u : UnitKind} {eng : Nat} {i : Issue} {waits : Bool} (h : Occupied t u eng i waits)
    (info : List Nat) : Occupied (t.noteInfo u i.idx eng info) u eng i waits := by
  obtain ⟨b, hb, hentry, hend, hwaits⟩ := h
  have found := List.find?_some hb
  refine ⟨{ b with info := info }, ?_, hentry, hend, hwaits⟩
  simp only [State.busyRec, State.noteInfo, State.updTick, List.find?_map]
  have keys : ((fun b : Busy => b.unit == u && b.idx == i.idx && b.eng == eng) ∘ fun b : Busy =>
      if b.unit == u && b.idx == i.idx && b.eng == eng then { b with info := info } else b) =
      fun b => b.unit == u && b.idx == i.idx && b.eng == eng := by
    funext b
    simp only [Function.comp_apply]
    split <;> rfl
  rw [keys]
  exact (congrArg (Option.map _) hb).trans (congrArg some (if_pos found))

theorem OnlyFields.refl (s : State) (l : List Fld) : OnlyFields s s l := ⟨rfl, fun _ _ => rfl⟩

theorem OnlyFields.eq_flds {s t : State} {l : List Fld} (h : OnlyFields s t l) : ∃ x, t = { s with flds := x } :=
  ⟨t.flds, by rw [← h.1]⟩

theorem OnlyFields.set {s t : State} {l : List Fld} (h : OnlyFields s t l) {f : Fld} (v : Nat) (hf : f ∈ l) :
    OnlyFields s (t.set f v) l :=
  ⟨h.1, fun g hg => (State.get_set_other t v fun e => hg (by rw [e]; exact List.mem_map_of_mem hf)).trans (h.2 g hg)⟩

theorem OnlyFields.inc {s t : State} {l : List Fld} (h : OnlyFields s t l) {f : Fld} (n : Nat) (hf : f ∈ l) :
    OnlyFields s (t.inc f n) l := h.set _ hf

theorem OnlyFields.setAll {s t : State} {l : List Fld} (h : OnlyFields s t l) {fs : List (Fld × Nat)}
    (hf : ∀ e ∈ fs, e.1 ∈ l) : OnlyFields s (t.setAll fs) l :=
  List.foldlRecOn (motive := fun t => OnlyFields s t l) fs _ h fun _ ht e he => ht.set _ (hf e he)

/-- An array entry whose turn it is issues on its idle engine. -/
theorem ArrReady.issueWhen {s : State} {eng : Nat} {i : Issue} (h : ArrReady s eng i) (waits : Bool) (body : State → State) :
    s.issueWhen (s.arrBusyAt i.idx eng i.startCc) .cluster eng i waits body = .next (body (s.entered .cluster eng i waits)) := by
  rw [h.arrBusyAt]
  exact s.issueWhen_ready waits body h.1.1 h.1.canIssue

/-- Settles O19: each entry issues on an idle engine, occupies it, and sets the fields named. -/
theorem controlAndReserveEntries : Obligations.ControlAndReserveEntries := by
  intro s u i
  refine ⟨fun h => ?_, fun h => ?_, fun h => ?_, fun h => ?_, fun h => ⟨?_, fun c b hc => ?_⟩⟩
  · exact ⟨_, show execNop u i s = _ from s.issue_ready false id h, s.entered_occupied _ _ _ _, rfl⟩
  · refine ⟨_, show execMark u i s = _ from s.issue_ready false _ h, (s.entered_occupied _ _ _ _).of_tick ?_, ?_, ?_, ?_⟩
    · rfl
    · exact (State.get_set_other _ _ (by decide : TICK_MARK.LAST_TAG.key ≠ TICK_MARK.AT_TICK.key)).trans (State.get_set_same _ _ _)
    · exact State.get_set_same _ _ _
    · exact (OnlyFields.refl _ _).setAll (by simp)
  · exact ⟨_, show execPass i s = _ from s.issue_ready false id h, s.entered_occupied _ _ _ _, rfl⟩
  · exact ⟨_, show execFinisherReserve i s = _ from s.issue_ready false _ h, (s.entered_occupied _ _ _ _).noteInfo _, rfl⟩
  · refine ⟨_, show execArrayReserve i s = _ from h.issueWhen false _,
      ((s.entered_occupied _ _ _ _).noteInfo [0x104, i.tag]).of_tick ?_, State.get_inc_same _ _ _, ?_⟩
    · rfl
    · exact OnlyFields.inc (OnlyFields.refl _ _) _ (by simp)
  · have apart : (ARR_STATUS.GANG i.idx).key ≠ (ARR_BUSY.BUSY_CC i.idx).key := by
      simp only [Fld.key, ARR_STATUS.GANG, ARR_BUSY.BUSY_CC]
      omega
    have done : exec c s = .next (((s.entered .cluster 1 i false).set (ARR_STATUS.GANG i.idx) b).inc (ARR_BUSY.BUSY_CC i.idx) 8) := by
      rcases hc with ⟨rfl, rfl⟩ | ⟨rfl, rfl⟩
      · exact show execGangOn i s = _ from h.issueWhen false _
      · exact show execGangOff i s = _ from h.issueWhen false _
    have bit : b % 2 ^ (ARR_STATUS.GANG i.idx).width = b := by
      rcases hc with ⟨-, rfl⟩ | ⟨-, rfl⟩ <;> rfl
    refine ⟨_, done, (s.entered_occupied _ _ _ _).of_tick ?_, ?_, ?_, ?_⟩
    · rfl
    · rw [State.get_inc_other _ _ apart, State.get_set_same, bit]
    · rw [State.get_inc_same, State.get_set_other _ _ apart.symm]
      rfl
    · exact ((OnlyFields.refl _ _).set _ (by simp)).inc _ (by simp)

/-! ### Notices and freezes (R18, R19) -/

/-- Messages along the tree change nothing but what has been sent, and leave unless the device is in reset. -/
theorem State.emitTree_eq (s : State) (x : Option Nat) (m : Nat → Msg) :
    ∃ o, s.emitTree x m = { s with out := o } ∧
      (s.inReset = false → o = s.out ++ (s.treePorts.filter fun q => some q != x).map m) := by
  have sent (l : List Nat) (s : State) : ∃ o, (l.foldl (fun s p => s.emit (m p)) s) = { s with out := o } ∧
      (s.inReset = false → o = s.out ++ l.map m) := by
    induction l generalizing s with
    | nil => exact ⟨s.out, rfl, by simp⟩
    | cons p l ih =>
      obtain ⟨o, ho, hout⟩ := ih (s.emit (m p))
      rw [List.foldl_cons, ho]
      cases hr : s.inReset && (m p).byLane
      · have step : s.emit (m p) = { s with out := s.out ++ [m p] } := if_neg (by simp [hr])
        rw [step] at hout ⊢
        exact ⟨o, rfl, fun h => by simp [hout h]⟩
      · have step : s.emit (m p) = s := if_pos hr
        rw [step]
        exact ⟨o, rfl, fun h => by simp [h] at hr⟩
  exact sent _ s

/-- What the record of a stretch changes. -/
theorem State.recordStretch_only (s : State) (n whole : Nat) (first : Bool) :
    OnlyFields s (s.recordStretch n whole first) [TICK_STRETCH.LAST_CC, TICK_STRETCH.TICKS_STRETCHED, TICK_STRETCH_TOTAL.TOTAL_CC] := by
  have both := ((OnlyFields.refl s _).set (min whole (2 ^ 26 - 1)) (by simp : TICK_STRETCH.LAST_CC ∈ _)).inc n
    (by simp : TICK_STRETCH_TOTAL.TOTAL_CC ∈ [TICK_STRETCH.LAST_CC, TICK_STRETCH.TICKS_STRETCHED, TICK_STRETCH_TOTAL.TOTAL_CC])
  unfold State.recordStretch
  split
  · exact both.inc _ (by simp)
  · exact both

theorem State.recordStretch_total (s : State) (n whole : Nat) (first : Bool) :
    (s.recordStretch n whole first).get TICK_STRETCH_TOTAL.TOTAL_CC =
      min (s.get TICK_STRETCH_TOTAL.TOTAL_CC + n) (2 ^ TICK_STRETCH_TOTAL.TOTAL_CC.width - 1) := by
  have counted : ((s.set TICK_STRETCH.LAST_CC (min whole (2 ^ 26 - 1))).inc TICK_STRETCH_TOTAL.TOTAL_CC n).get
      TICK_STRETCH_TOTAL.TOTAL_CC = min (s.get TICK_STRETCH_TOTAL.TOTAL_CC + n) (2 ^ TICK_STRETCH_TOTAL.TOTAL_CC.width - 1) := by
    rw [State.get_inc_same, State.get_set_other _ _ (by decide)]
  unfold State.recordStretch
  split
  · exact (State.get_inc_other _ _ (by decide)).trans counted
  · exact counted

theorem State.recordStretch_last (s : State) (n whole : Nat) (first : Bool) :
    (s.recordStretch n whole first).get TICK_STRETCH.LAST_CC = min whole (2 ^ 26 - 1) := by
  have recorded : ((s.set TICK_STRETCH.LAST_CC (min whole (2 ^ 26 - 1))).inc TICK_STRETCH_TOTAL.TOTAL_CC n).get
      TICK_STRETCH.LAST_CC = min whole (2 ^ 26 - 1) := by
    rw [State.get_inc_other _ _ (by decide), State.get_set_same]
    exact Nat.mod_eq_of_lt (show _ < 2 ^ 26 by omega)
  unfold State.recordStretch
  split
  · exact (State.get_inc_other _ _ (by decide)).trans recorded
  · exact recorded

theorem State.recordStretch_frame (s : State) (n whole : Nat) (first : Bool) :
    { s.recordStretch n whole first with flds := s.flds } = s :=
  (s.recordStretch_only n whole first).1

@[simp] theorem State.recordStretch_job (s : State) (n whole : Nat) (first : Bool) :
    (s.recordStretch n whole first).job = s.job :=
  (s.recordStretch_only n whole first).2 _ (by decide)

@[simp] theorem State.recordStretch_mem (s : State) (n whole : Nat) (first : Bool) :
    (s.recordStretch n whole first).mem = s.mem :=
  (congrArg State.mem (s.recordStretch_frame n whole first) :)

@[simp] theorem State.recordStretch_out (s : State) (n whole : Nat) (first : Bool) :
    (s.recordStretch n whole first).out = s.out :=
  (congrArg State.out (s.recordStretch_frame n whole first) :)

@[simp] theorem State.recordStretch_tick (s : State) (n whole : Nat) (first : Bool) :
    (s.recordStretch n whole first).tick = s.tick :=
  (congrArg State.tick (s.recordStretch_frame n whole first) :)

/-- A notice of a tick that has closed, for which no stretch has been applied, freezes the open tick by its amount. -/
theorem execStretchNotice_freezes {s : State} {p c a : Nat} (hp : p < 8) (hr : s.running = true) (hi : s.tick.inTick = true)
    (hc : c < s.get TICK_COUNT.COUNT) (ha : ∀ e ∈ s.tick.applied, e.1 ≠ c) (h0 : 0 < a) (d : Nat) :
    exec (.stretchNotice p a d c) s = .next
      ((((s.emitTree (some p) fun q => .stretch q a d c).updTick fun t =>
        { t with applied := (c, a) :: t.applied.filter fun e => e.1 != c }).recordStretch a (s.tick.frozen + a)
          (s.tick.frozen == 0)).updTick fun t => { t with freeze := t.freeze + a, frozen := t.frozen + a }) := by
  obtain ⟨o, ho, -⟩ := s.emitTree_eq (some p) fun q => .stretch q a d c
  have run : exec (.stretchNotice p a d c) s = _ := (show execStretchNotice p a d c s = _ from if_pos hp)
  rw [run, ho]
  have hr : ({ s with out := o } : State).running = true := hr
  have hc : c < ({ s with out := o } : State).get TICK_COUNT.COUNT := hc
  have none : s.tick.applied.filter (fun e => e.1 == c) = [] := by simpa using fun _ _ h => ha _ h
  simp [hr, hi, hc.ne, hc.not_gt, none, h0.ne']

/-- Settles O17: a notice changes what has been sent and then, of the tick controller, what its case says. -/
theorem stretchNoticesLengthenOrFreeze : Obligations.StretchNoticesLengthenOrFreeze := by
  refine fun s => ⟨fun p a d c hp => ?_, fun hf => ?_⟩
  · obtain ⟨o, ho, hout⟩ := s.emitTree_eq (some p) fun q => .stretch q a d c
    have run : exec (.stretchNotice p a d c) s = _ := (show execStretchNotice p a d c s = _ from if_pos hp)
    rw [ho] at run
    have job : ({ s with out := o } : State).job = s.job := rfl
    refine ⟨_, run, ?_, ?_, fun hr => ?_, fun hrun hin hc => ?_, fun hrun hin hc ha h0 => ?_⟩
    · dsimp only
      split_ifs <;> simp
    · dsimp only
      split_ifs <;> simp [job]
    · rw [← hout hr]
      dsimp only
      split_ifs <;> simp
    · have hrun : ({ s with out := o } : State).running = true := hrun
      have hc : c = ({ s with out := o } : State).get TICK_COUNT.COUNT := hc
      simp [hrun, hin, ← hc]
    · have now := execStretchNotice_freezes hp hrun hin hc ha h0 d
      rw [ho, run] at now
      injection now with now
      rw [now]
      have only := State.recordStretch_only (({ s with out := o } : State).updTick fun t =>
        { t with applied := (c, a) :: t.applied.filter fun e => e.1 != c }) a (s.tick.frozen + a) (s.tick.frozen == 0)
      have total := State.recordStretch_total (({ s with out := o } : State).updTick fun t =>
        { t with applied := (c, a) :: t.applied.filter fun e => e.1 != c }) a (s.tick.frozen + a) (s.tick.frozen == 0)
      obtain ⟨x, hx⟩ := only.eq_flds
      rw [hx] at only total ⊢
      exact ⟨rfl, total, rfl, only.2⟩
  · refine ⟨_, show execFreezeEnd s = _ from congrArg Host.Outcome.next (if_neg hf.ne'), rfl, rfl, rfl, rfl, rfl⟩

end Sys2Proof.Machine

namespace Sys2Proof.Machine
open Reg

/-! ### Ticks begin (R15, R30, R170, R287, R290) -/

theorem State.oppAtBoundary_only (s : State) : OnlyFields s s.oppAtBoundary [TICK_STRETCH_LIMIT.OPP_IGNORED] := by
  unfold State.oppAtBoundary
  split
  · exact OnlyFields.refl _ _
  · exact (OnlyFields.refl _ _).inc _ (by simp)

theorem OnlyFields.mono {s t : State} {l m : List Fld} (h : OnlyFields s t l) (hl : ∀ k ∈ l.map Fld.key, k ∈ m.map Fld.key) :
    OnlyFields s t m :=
  ⟨h.1, fun g hg => h.2 g fun hm => hg (hl _ hm)⟩

/-- The fields that the start of a tick changes. -/
def beginFields : List Fld := [TICK_COUNT.COUNT, THERM_STRETCH.Q, TICK_STRETCH_LIMIT.OPP_IGNORED]

/-- A tick that begins changes these fields, the tick controller's own state and the landings, and nothing else. -/
theorem State.beginTick_eq (s : State) : ∃ x k l, s.beginTick = { s with flds := x, tick := k, lands := l } ∧
    k.inTick = true ∧ k.cc = 0 ∧ k.glue = s.tick.glue ∧ k.tickZeroAt = s.tick.tickZeroAt := by
  obtain ⟨x, hx⟩ := (State.oppAtBoundary_only _).eq_flds
  exact ⟨_, _, _, hx, rfl, rfl, rfl, rfl⟩

theorem State.get_beginTick_other (s : State) {g : Fld} (hg : g.key ∉ beginFields.map Fld.key) : s.beginTick.get g = s.get g := by
  simp only [beginFields, List.map_cons, List.map_nil, List.mem_cons, List.not_mem_nil, or_false, not_or] at hg
  obtain ⟨hcount, hq, hopp⟩ := hg
  exact ((State.oppAtBoundary_only _).2 g (by simpa using hopp)).trans
    ((State.get_set_other _ _ hq).trans (State.get_set_other _ _ hcount))

theorem State.beginTick_count (s : State) :
    s.beginTick.get TICK_COUNT.COUNT = (s.get TICK_COUNT.COUNT + 1) % 2 ^ TICK_COUNT.COUNT.width :=
  ((State.oppAtBoundary_only _).2 _ (by decide)).trans ((State.get_set_other _ _ (by decide)).trans (State.get_set_same _ _ _))

/-- A field outside the row controllers' windows survives the zeroing of the list contexts. -/
theorem State.get_zeroListCtx (s : State) {g : Fld} (hg : g.key / 64 < csrBase 0 0) : s.zeroListCtx.get g = s.get g :=
  congrArg (·.getD g.reset) (Store.find?_filter s.flds _ g.key fun _ => by simp [hg.not_ge])

theorem State.zeroListCtx_list (s : State) {k : Nat} (hk : k / 256 % 2 = 0) : Store.get s.zeroListCtx.xr 0 k = 0 :=
  congrArg (·.getD 0) (Store.find?_filter_none s.xr _ k fun _ => by simp [hk])

theorem State.zeroListCtx_service (s : State) {k : Nat} (hk : k / 256 % 2 ≠ 0) :
    Store.get s.zeroListCtx.xr 0 k = Store.get s.xr 0 k :=
  congrArg (·.getD 0) (Store.find?_filter s.xr _ k fun _ => by simpa using hk)

theorem State.emit_eq (s : State) (m : Msg) :
    ∃ o, s.emit m = { s with out := o } ∧ (s.inReset = false → o = s.out ++ [m]) := by
  unfold State.emit
  split
  next h => exact ⟨s.out, rfl, fun hr => by simp [hr] at h⟩
  next => exact ⟨_, rfl, fun _ => rfl⟩

/-- At tick 0 the time is that of the square-up, and TICK_GLUE records the glue-up that ends. -/
def State.glueEnds (s : State) (z : Nat) : State :=
  let s := s.updTick fun t => { t with now := max t.now z, tickZeroAt := none }
  if s.tick.glueStart = 0 ∨ s.is TICK_STATUS.DRY = true then s
  else s.set TICK_GLUE.LAST_CC (s.tick.now - s.tick.glueStart)

theorem State.glueEnds_only (s : State) (z : Nat) :
    OnlyFields (s.updTick fun t => { t with now := max t.now z, tickZeroAt := none }) (s.glueEnds z) [TICK_GLUE.LAST_CC] := by
  unfold State.glueEnds
  dsimp only
  split
  · exact OnlyFields.refl _ _
  · exact (OnlyFields.refl _ _).set _ (by simp)

/-- The contexts and landings with which tick 0 begins. -/
def State.stepReset (s : State) : State :=
  { s.zeroListCtx with rows := s.rows.map (fun (r : Nat × RowSt) => (r.1, { r.2 with faulted := false })),
                       lands := s.lands.filter fun l => !l.abandoned }

theorem State.rotateErrors_only (s : State) : ∃ e, OnlyFields { s with err := e } s.rotateErrors [ERR_STATUS.PENDING] :=
  ⟨_, (OnlyFields.refl _ _).set _ (by simp)⟩

/-- The flags of the tick controller with which tick 0 begins. -/
def State.openStep (s : State) : State :=
  s.updTick fun t => { t with glue := 0, glueStart := 0, held := false, heldOut := false, mismatch := false, sent := false,
                              exclEnd := 0, injectLive := s.is ERR_INJECT.ARM && s.job == 2 &&
                                decide (t.injectStep ≤ s.get TICK_STEP.STEP) }

/-- Tick 0 begins once SQUP_OUT has pulsed and the list contexts are zero. -/
theorem execTickZero_begins {s : State} {z : Nat} (hr : s.running = true) (hz : s.tick.tickZeroAt = some z) :
    ∃ u : State, exec .tickZero s = .next u.beginTick ∧ u.tick.glue = 0 ∧ u.tick.tickZeroAt = none ∧ u.mem = s.mem ∧
      u.xr = s.zeroListCtx.xr ∧ (s.inReset = false → Msg.squpPulse ∈ u.out) ∧ u.job = s.job ∧
      u.get TICK_STATUS.TICK_IN_STEP = 0 ∧ u.get TICK_COUNT.COUNT = s.get TICK_COUNT.COUNT := by
  have glued := s.glueEnds_only z
  obtain ⟨x, hx⟩ := glued.eq_flds
  obtain ⟨o, ho, hout⟩ := ((s.glueEnds z).set TICK_STATUS.TICK_IN_STEP 0).emit_eq .squpPulse
  obtain ⟨e, he⟩ := (((s.glueEnds z).set TICK_STATUS.TICK_IN_STEP 0).emit .squpPulse).stepReset.rotateErrors_only
  obtain ⟨y, hy⟩ := he.eq_flds
  have field {g : Fld} (h : g.key / 64 < csrBase 0 0) (hp : g.key ∉ [ERR_STATUS.PENDING].map Fld.key) :
      ((((s.glueEnds z).set TICK_STATUS.TICK_IN_STEP 0).emit .squpPulse).stepReset).rotateErrors.openStep.get g =
        ((s.glueEnds z).set TICK_STATUS.TICK_IN_STEP 0).get g :=
    (he.2 g hp).trans ((State.get_zeroListCtx _ h).trans (by rw [ho]; rfl))
  refine ⟨(((((s.glueEnds z).set TICK_STATUS.TICK_IN_STEP 0).emit .squpPulse).stepReset).rotateErrors).openStep, ?_, rfl, ?_, ?_, ?_,
    fun h => ?_, ?_, ?_, ?_⟩
  · show execTickZero s = _
    rw [execTickZero, hz]
    dsimp only
    rw [if_neg (by simp [hr])]
    rfl
  · rw [hy, ho, hx]; rfl
  · rw [hy, ho, hx]; rfl
  · rw [hy, ho, hx]; rfl
  · have sent : Msg.squpPulse ∈ o := by
      rw [hout (by rw [hx]; exact h)]
      exact List.mem_append_right _ (List.mem_singleton.2 rfl)
    rw [hy, ho]
    exact sent
  · exact (field (by decide) (by decide)).trans ((State.get_set_other _ _ (by decide)).trans (glued.2 _ (by decide)))
  · exact (field (by decide) (by decide)).trans (State.get_set_same _ _ _)
  · exact (field (by decide) (by decide)).trans ((State.get_set_other _ _ (by decide)).trans (glued.2 _ (by decide)))

/-- Settles O14: a boundary begins a tick, and tick 0 begins one once the step is reset. -/
theorem ticksBegin : Obligations.TicksBegin := by
  refine fun s hr => ⟨fun hh hi hf hg hz => ?_, fun z hz => ?_⟩
  · obtain ⟨x, k, l, ht, hin, hcc, -, -⟩ := s.beginTick_eq
    have run : exec .tickBoundary s = .next s.beginTick := by
      show execTickBoundary s = _
      simp [execTickBoundary, hr, hh, hi, hf, hg, hz]
    refine ⟨_, run, ?_, ?_, s.beginTick_count, ?_, ?_, s.get_beginTick_other (by decide), s.get_beginTick_other (by decide), ?_⟩ <;>
      rw [ht] <;> assumption
  · obtain ⟨u, run, hg, hz, hm, hx, ho, hj, hi, hc⟩ := execTickZero_begins hr hz
    obtain ⟨x, k, l, ht, hin, hcc, hglue, hzero⟩ := u.beginTick_eq
    refine ⟨_, run, by rw [ht, hin], by rw [ht, hcc], by rw [ht, hglue, hg], by rw [ht, hzero, hz],
      (u.get_beginTick_other (by decide)).trans hi, (u.get_beginTick_other (by decide)).trans hj,
      by rw [u.beginTick_count, hc], by rw [ht, hm], fun h => by rw [ht]; exact ho h, fun k hk => ?_, fun k hk => ?_⟩
    · rw [ht, hx]
      exact s.zeroListCtx_list hk
    · rw [ht, hx]
      exact s.zeroListCtx_service hk

end Sys2Proof.Machine

namespace Sys2Proof.Machine
open Reg

/-! ### Banks (R26, R33, R36) -/

/-- A bank's sealed flag is one of two. -/
theorem sealedF_cases (b : Nat) : (b = 0 ∧ sealedF b = TICK_STATUS.SEALED_A) ∨ (b ≠ 0 ∧ sealedF b = TICK_STATUS.SEALED_B) := by
  unfold sealedF
  by_cases h : b = 0 <;> simp [h]

/-- No field but the two sealed flags has the key of one. -/
theorem sealedF_key_ne {g : Fld} (h : g.key ∉ [TICK_STATUS.SEALED_A, TICK_STATUS.SEALED_B].map Fld.key) (b : Nat) :
    g.key ≠ (sealedF b).key := by
  simp only [List.map_cons, List.map_nil, List.mem_cons, List.not_mem_nil, or_false, not_or] at h
  rcases sealedF_cases b with ⟨-, e⟩ | ⟨-, e⟩ <;> rw [e]
  · exact h.1
  · exact h.2

theorem State.unseal_eq (s : State) (b : Nat) :
    s.unseal b = { s.set (sealedF b) 0 with sealA := if b = 0 then none else s.sealA, sealB := if b = 0 then s.sealB else none } := by
  unfold State.unseal
  by_cases h : b = 0 <;> simp [h]

@[simp] theorem State.unseal_tick (s : State) (b : Nat) : (s.unseal b).tick = s.tick := by rw [State.unseal_eq]; rfl
@[simp] theorem State.unseal_mem (s : State) (b : Nat) : (s.unseal b).mem = s.mem := by rw [State.unseal_eq]; rfl

theorem State.get_unseal (s : State) (b : Nat) (g : Fld) : (s.unseal b).get g = (s.set (sealedF b) 0).get g := by
  rw [State.unseal_eq]
  rfl

theorem State.get_unseal_same (s : State) (b : Nat) : (s.unseal b).get (sealedF b) = 0 := by
  rw [State.get_unseal, State.get_set_same, Nat.zero_mod]

theorem State.get_unseal_other (s : State) (b : Nat) {g : Fld} (h : g.key ≠ (sealedF b).key) : (s.unseal b).get g = s.get g := by
  rw [State.get_unseal, State.get_set_other _ _ h]

/-! ### The job state and halts -/

theorem State.get_setJob_other (s : State) (j c : Nat) {g : Fld} (hg : g.key ∉ reportFields.map Fld.key)
    (hs : g.key ≠ TICK_STATUS.STATE.key) : (s.setJob j c).get g = s.get g := by
  by_cases h : s.job = j
  · rw [State.setJob, if_pos h]
  · rw [(s.setJob_reports j c h).get g hg, State.get_set_other _ _ hs]

theorem State.setJob_unreported (s : State) (j c : Nat) : (s.setJob j c).unreported = s.unreported := by
  by_cases h : s.job = j
  · rw [State.setJob, if_pos h]
  · exact (s.setJob_reports j c h).rest

@[simp] theorem State.setJob_mem (s : State) (j c : Nat) : (s.setJob j c).mem = s.mem :=
  (congrArg State.mem (s.setJob_unreported j c) :)

@[simp] theorem State.endHandling_tick (s : State) : s.endHandling.tick = s.tick := State.setAll_tick _ _

/-- What stops at an unload: the ticks, the rows' kernels and the handling of errors; both banks are unsealed. -/
def State.jobStopped (s : State) : State :=
  (((s.set ERR_STATUS.COMMIT_READY 0).stopTicks.stopRows.unseal 0).unseal 1).endHandling

theorem State.jobStopped_mem (s : State) : s.jobStopped.mem = s.mem := by
  have stopped := ((Upset.refl haltFields (s.set ERR_STATUS.COMMIT_READY 0)).stopTicks (fun _ h => h)).stopRows
  simp only [State.jobStopped, State.endHandling, State.setAll_mem, State.updErr_mem, State.unseal_mem, stopped.mem]
  rfl

theorem State.jobStopped_tick (s : State) : s.jobStopped.tick = (s.set ERR_STATUS.COMMIT_READY 0).stopTicks.tick := by
  simp only [State.jobStopped, State.endHandling_tick, State.unseal_tick, State.stopRows_tick]

theorem State.jobStopped_seals (s : State) : s.jobStopped.sealA = none ∧ s.jobStopped.sealB = none := by
  simp [State.jobStopped, State.endHandling, State.unseal_eq]

theorem State.jobStopped_sealed (s : State) :
    s.jobStopped.get TICK_STATUS.SEALED_A = 0 ∧ s.jobStopped.get TICK_STATUS.SEALED_B = 0 := by
  unfold State.jobStopped State.endHandling
  rw [State.get_setAll_other _ _ (by decide), State.get_setAll_other _ _ (by decide)]
  constructor
  · exact (State.get_unseal_other _ 1 (g := TICK_STATUS.SEALED_A) (by decide)).trans (State.get_unseal_same _ 0)
  · exact State.get_unseal_same _ 1

/-- The state of an unload before the job state changes. -/
def State.unloading (s : State) : State :=
  let s := s.jobStopped.setAll
    [(TICK_PHASE.ARM, 0), (TICK_STATUS.SEALING, 0), (DET_STATE_CTRL.VALID, 0), (DET_STATE_CTRL.BUSY, 0), (FAB_PERM.ARM, 0),
     (FAB_PERM.CONFIRMED, 0), (ERR_LADDER.ATTEMPT, 0), (ERR_STATUS.COMMIT_READY, 0)]
  let s := s.updUpd fun u => { u with regenPend := false }
  let s := s.zeroRange (accumBase 0) (nPhys * 0x40000)
  let s := s.updTick fun t =>
    { t with loaded := false, sealing := none, sealLoad := false, phaseOk := false, permOk := false, injectStep := 0 }
  s.updDet fun d => { d with inRun := false, snapPend := false }

theorem State.unload_eq (s : State) : s.unload = s.unloading.setJob 0 0 := rfl

/-- After an unload no bank is sealed, no phase change is armed, no job is loaded, no engine runs and no request is held. -/
theorem State.unloading_facts (s : State) :
    s.unloading.get TICK_STATUS.SEALED_A = 0 ∧ s.unloading.get TICK_STATUS.SEALED_B = 0 ∧ s.unloading.get TICK_PHASE.ARM = 0 ∧
      s.unloading.sealA = none ∧ s.unloading.sealB = none ∧ s.unloading.tick.loaded = false ∧ s.unloading.tick.busy = [] ∧
      s.unloading.tick.startPend = false ∧ s.unloading.tick.dryPend = false := by
  obtain ⟨hsa, hsb⟩ := s.jobStopped_sealed
  obtain ⟨ha, hb⟩ := s.jobStopped_seals
  have tick := s.jobStopped_tick
  unfold State.unloading
  generalize s.jobStopped = u at *
  simp only [State.get_updDet, State.get_updTick, State.get_zeroRange, State.get_updUpd, State.updDet_tick, State.updTick_tick,
    State.updDet_sealA, State.updTick_sealA, State.zeroRange_sealA, State.updUpd_sealA, State.updDet_sealB, State.updTick_sealB,
    State.zeroRange_sealB, State.updUpd_sealB, State.zeroRange_tick, State.updUpd_tick, State.setAll_sealA, State.setAll_sealB,
    State.setAll_tick, ha, hb, tick]
  refine ⟨?_, ?_, ?_, trivial, trivial, trivial, by simp [State.stopTicks]⟩
  · rw [State.get_setAll_other _ _ (by decide), hsa]
  · rw [State.get_setAll_other _ _ (by decide), hsb]
  · rw [State.setAll_cons, State.get_setAll_other _ _ (by decide), State.get_set_same, Nat.zero_mod]

theorem State.read_zeroRange_below (s : State) {a x : Nat} (n : Nat) (h : x < a) :
    Memory.read (s.zeroRange a n).mem x = Memory.read s.mem x :=
  Memory.read_eraseRange_other _ (.inl h)

theorem State.read_unloading (s : State) {x : Nat} (hx : x < 2 ^ 48) : Memory.read s.unloading.mem x = Memory.read s.mem x := by
  have below : x < accumBase 0 := by unfold accumBase; omega
  have kept : Memory.read s.unloading.mem x = Memory.read s.jobStopped.mem x := by
    simp only [State.unloading, State.updDet_mem, State.updTick_mem]
    rw [State.read_zeroRange_below _ _ below, State.updUpd_mem, State.setAll_mem]
  rw [kept, State.jobStopped_mem]

/-- Settles O10: each request by its definition, UNLOAD through what stops and what is unsealed. -/
theorem tickControlRequestsTakeEffect : Obligations.TickControlRequestsTakeEffect := by
  refine ⟨fun s hs => ⟨fun b hj hn hb => ?_, fun hj => ?_, fun hsealed hat => ?_, fun h => ?_, fun v ha => ?_, fun v ha => ?_⟩,
    fun s hs hj => ?_⟩
  · have run : exec .tickSeal s = .next (((s.unseal b).set TICK_STATUS.SEALING 1).updTick
        fun t => { t with sealing := some b, sealLoad := false }).okay := by
      rw [show exec .tickSeal s = .next (s.write State.actSeal) from rfl, s.write_accepts _ hs, State.actSeal, if_neg hj,
        if_neg (by simp [hn])]
      rw [hb]
      rfl
    refine ⟨_, run, rfl, rfl, rfl, (s.unseal b).get_set_same TICK_STATUS.SEALING 1, ?_, ?_, fun g h1 h2 => ?_⟩
    · exact ((s.unseal b).get_set_other 1 (sealedF_key_ne (g := TICK_STATUS.SEALING) (by decide) b).symm).trans (s.get_unseal_same b)
    · exact s.unseal_mem b
    · exact ((s.unseal b).get_set_other 1 h1).trans (s.get_unseal_other b h2)
  · refine ⟨(s.updTick fun t => { t with haltPend := true }).okay, ?_, rfl, rfl, rfl⟩
    rw [show exec .tickCtrlHalt s = .next (s.write State.actHalt) from rfl, s.write_accepts _ hs, State.actHalt, if_pos hj]
  · refine ⟨(s.set TICK_PHASE.ARM 1).okay, ?_, s.get_set_same TICK_PHASE.ARM 1,
      (OnlyFields.refl s.okay [TICK_PHASE.ARM]).set (f := TICK_PHASE.ARM) 1 (by simp)⟩
    rw [show exec .tickPhaseArm s = .next (s.write State.actPhaseArm) from rfl, s.write_accepts _ hs, State.actPhaseArm,
      if_pos (by simp [hsealed, hat])]
  · rw [show exec .tickPhaseArm s = .next (s.write State.actPhaseArm) from rfl, s.write_accepts _ hs, State.actPhaseArm,
      if_neg (by rw [Bool.and_eq_true, decide_eq_true_eq]; rcases h with h | h <;> simp [h])]
  · refine ⟨(s.set TICK_PHASE_STEP.AT_STEP v).okay, ?_, s.get_set_same TICK_PHASE_STEP.AT_STEP v,
      (OnlyFields.refl s.okay [TICK_PHASE_STEP.AT_STEP]).set (f := TICK_PHASE_STEP.AT_STEP) v (by simp)⟩
    rw [show exec (.tickPhaseStepWrite v) s = .next (s.write fun s => s.actPhaseStep v) from rfl, s.write_accepts _ hs,
      State.actPhaseStep, if_neg (by simp [ha])]
  · refine ⟨(s.corrected scSeq 0 srcTICK).okay, ?_, ?_, State.corrected_mem _ _ _ _, ?_⟩
    · rw [show exec (.tickPhaseStepWrite v) s = .next (s.write fun s => s.actPhaseStep v) from rfl, s.write_accepts _ hs,
        State.actPhaseStep, if_pos ha]
    · rw [State.get_okay, State.corrected_get _ _ _ _ (by decide)]
    · rw [State.get_okay, State.corrected_count]
  · have run : exec .tickCtrlUnload s = .next (s.unloading.setJob 0 0).okay := by
      rw [show exec .tickCtrlUnload s = .next (s.write State.actUnload) from rfl, s.write_accepts _ hs, State.actUnload, if_pos hj,
        State.unload_eq]
    have read {x : Nat} (hx : x < 2 ^ 48) := s.read_unloading hx
    obtain ⟨hsa, hsb, harm, ha, hb, hl, hbusy, hstart, hdry⟩ := s.unloading_facts
    generalize s.unloading = u at *
    have kept := u.setJob_unreported 0 0
    have tick : (u.setJob 0 0).tick = u.tick := State.setJob_tick _ _ _
    refine ⟨_, run, rfl, (State.job_okay _).trans (u.setJob_job 0), ?_, ?_, ?_, ?_, ?_, ?_, ?_, ?_, ?_, fun x hx => ?_⟩
    · rw [State.get_okay, u.get_setJob_other 0 0 (by decide) (by decide), hsa]
    · rw [State.get_okay, u.get_setJob_other 0 0 (by decide) (by decide), hsb]
    · rw [State.okay_sealA]
      exact (congrArg State.sealA kept :).trans ha
    · rw [State.okay_sealB]
      exact (congrArg State.sealB kept :).trans hb
    · rw [State.get_okay, u.get_setJob_other 0 0 (by decide) (by decide), harm]
    · rw [State.okay_tick, tick, hl]
    · rw [State.okay_tick, tick, hbusy]
    · rw [State.okay_tick, tick, hstart]
    · rw [State.okay_tick, tick, hdry]
    · rw [State.okay_mem, State.setJob_mem, read hx]

end Sys2Proof.Machine

namespace Sys2Proof.Machine
open Reg

/-! ### A tick closes (R17, R18, R30) -/

theorem OnlyFields.trans {s t u : State} {l : List Fld} (h : OnlyFields s t l) (k : OnlyFields t u l) : OnlyFields s u l :=
  ⟨by rw [← h.1, ← k.1], fun g hg => (k.2 g hg).trans (h.2 g hg)⟩

def marginFields : List Fld := [TICK_MARGIN.MIN_SLACK_CC, TICK_MARGIN.AT_TICK_IN_STEP]

/-- The fields that the record of a closing tick changes. -/
def closeFields : List Fld :=
  marginFields ++ [DET_ND_USED.FIRST_STEP, DET_ND_USED.OPP_STRETCH, TICK_STRETCH.LAST_CC, TICK_STRETCH.TICKS_STRETCHED,
    TICK_STRETCH_TOTAL.TOTAL_CC, TICK_STRETCH.CAUSE, THERM_STRETCH.TICKS]

theorem State.oppAtClose_only (s : State) (c : Nat) :
    OnlyFields s (s.oppAtClose c) [DET_ND_USED.FIRST_STEP, DET_ND_USED.OPP_STRETCH] := by
  unfold State.oppAtClose State.ndUsed
  split
  · refine OnlyFields.set ?_ _ (by simp)
    split
    · exact (OnlyFields.refl s _).set _ (by simp)
    · exact OnlyFields.refl s _
  · exact OnlyFields.refl s _

theorem State.recordMargin_only (s : State) : OnlyFields s s.recordMargin marginFields := by
  unfold State.recordMargin
  dsimp only
  split
  · exact (OnlyFields.refl s _).setAll (by simp [marginFields])
  · exact OnlyFields.refl s _

/-- The record of a stretch of `n` cc with its causes. -/
def State.stretchNoted (s : State) (n causes : Nat) : State :=
  let s := (s.oppAtClose causes).recordStretch n (n + s.tick.frozen) (s.tick.frozen == 0)
  let s := s.set TICK_STRETCH.CAUSE (Nat.lor (s.get TICK_STRETCH.CAUSE) causes)
  if bit causes 2 then s.inc THERM_STRETCH.TICKS else s

theorem State.stretchNoted_recorded (s : State) (n causes : Nat) :
    OnlyFields ((s.oppAtClose causes).recordStretch n (n + s.tick.frozen) (s.tick.frozen == 0)) (s.stretchNoted n causes)
      [TICK_STRETCH.CAUSE, THERM_STRETCH.TICKS] := by
  have noted := (OnlyFields.refl ((s.oppAtClose causes).recordStretch n (n + s.tick.frozen) (s.tick.frozen == 0))
    [TICK_STRETCH.CAUSE, THERM_STRETCH.TICKS]).set (f := TICK_STRETCH.CAUSE)
      (Nat.lor (((s.oppAtClose causes).recordStretch n (n + s.tick.frozen) (s.tick.frozen == 0)).get TICK_STRETCH.CAUSE) causes)
      (by simp)
  unfold State.stretchNoted
  dsimp only
  split
  · exact noted.inc _ (by simp)
  · exact noted

theorem State.stretchNoted_only (s : State) (n causes : Nat) : OnlyFields s (s.stretchNoted n causes) closeFields :=
  (((s.oppAtClose_only causes).mono (by decide)).trans ((State.recordStretch_only _ _ _ _).mono (by decide))).trans
    ((s.stretchNoted_recorded n causes).mono (by decide))

theorem State.stretchNoted_total (s : State) (n causes : Nat) :
    (s.stretchNoted n causes).get TICK_STRETCH_TOTAL.TOTAL_CC =
      min (s.get TICK_STRETCH_TOTAL.TOTAL_CC + n) (2 ^ TICK_STRETCH_TOTAL.TOTAL_CC.width - 1) := by
  rw [(s.stretchNoted_recorded n causes).2 TICK_STRETCH_TOTAL.TOTAL_CC (by decide), State.recordStretch_total,
    (s.oppAtClose_only causes).2 TICK_STRETCH_TOTAL.TOTAL_CC (by decide)]

theorem State.stretchNoted_last (s : State) (n causes : Nat) :
    (s.stretchNoted n causes).get TICK_STRETCH.LAST_CC = min (n + s.tick.frozen) (2 ^ 26 - 1) := by
  rw [(s.stretchNoted_recorded n causes).2 TICK_STRETCH.LAST_CC (by decide), State.recordStretch_last]

/-- What a closing tick leaves in the record of stretches or of the margin, with its notice. -/
def State.closeNoted (s : State) (n causes : Nat) (send : Bool) : State :=
  if 0 < n then
    let t := s.stretchNoted n causes
    if send then t.emitTree none fun p => .stretch p n (t.get FAB_ID.DEV) (s.get TICK_COUNT.COUNT) else t
  else if s.tick.frozen = 0 then s.recordMargin else s

/-- The open tick ends, and the step goes on to its next tick or to the glue-up. -/
def State.endTick (s : State) (n count : Nat) : State :=
  let last := decide (s.stepTicks ≤ s.get TICK_STATUS.TICK_IN_STEP + 1)
  let s := (s.set TICK_STATUS.STRETCHING 0).updTick fun t =>
    { t with inTick := false, lastLen := n + t.frozen, applied := (count, n) :: t.applied.take 7,
             busy := t.busy.filter fun b => b.waits, recovery := [], causes := 0 }
  if last then
    s.updTick fun t => { t with glue := 1, glueStart := t.now, actDone := true, sent := false, released := none }
  else s.set TICK_STATUS.TICK_IN_STEP (s.get TICK_STATUS.TICK_IN_STEP + 1)

theorem State.closeTick_eq (s : State) (n causes : Nat) (send : Bool) :
    s.closeTick n causes send = (s.closeNoted n (Nat.lor s.tick.causes causes) send).endTick n (s.get TICK_COUNT.COUNT) := rfl

theorem State.closeNoted_only (s : State) (n causes : Nat) (send : Bool) :
    ∃ o, OnlyFields { s with out := o } (s.closeNoted n causes send) closeFields := by
  have noted := s.stretchNoted_only n causes
  unfold State.closeNoted
  dsimp only
  split
  · split
    · obtain ⟨o, ho, -⟩ := (s.stretchNoted n causes).emitTree_eq none fun p =>
        .stretch p n ((s.stretchNoted n causes).get FAB_ID.DEV) (s.get TICK_COUNT.COUNT)
      rw [ho]
      exact ⟨o, (congrArg (fun x : State => { x with out := o }) noted.1 :), noted.2⟩
    · exact ⟨s.out, noted⟩
  · split
    · exact ⟨s.out, (s.recordMargin_only).mono (by decide)⟩
    · exact ⟨s.out, OnlyFields.refl _ _⟩

/-- The fields that the close of a tick changes. -/
def closedFields : List Fld := closeFields ++ [TICK_STATUS.STRETCHING, TICK_STATUS.TICK_IN_STEP]

/-- A tick that is not the step's last has closed: of the rest only messages, fields and the tick controller's state changed. -/
structure TickClosed (s t : State) : Prop where
  rest : ({ t with flds := s.flds, out := s.out, tick := s.tick } : State) = s
  get : ∀ g : Fld, g.key ∉ closedFields.map Fld.key → t.get g = s.get g
  inTick : t.tick.inTick = false
  glue : t.tick.glue = s.tick.glue
  busy : t.tick.busy = s.tick.busy.filter fun b => b.waits
  stretching : t.get TICK_STATUS.STRETCHING = 0
  inStep : t.get TICK_STATUS.TICK_IN_STEP = (s.get TICK_STATUS.TICK_IN_STEP + 1) % 2 ^ TICK_STATUS.TICK_IN_STEP.width

theorem State.closeNoted_eq (s : State) (n causes : Nat) (send : Bool) :
    ∃ x o, s.closeNoted n causes send = { s with flds := x, out := o } := by
  obtain ⟨o, ho⟩ := s.closeNoted_only n causes send
  obtain ⟨x, hx⟩ := ho.eq_flds
  exact ⟨x, o, hx⟩

theorem State.get_closeNoted (s : State) (n causes : Nat) (send : Bool) {g : Fld} (hg : g.key ∉ closeFields.map Fld.key) :
    (s.closeNoted n causes send).get g = s.get g := by
  obtain ⟨o, ho⟩ := s.closeNoted_only n causes send
  exact ho.2 g hg

/-- The step's ticks depend on the sealed copies, the bank that runs and TICK_ABI alone. -/
theorem State.stepTicks_congr {s t : State} (ha : t.sealA = s.sealA) (hb : t.sealB = s.sealB)
    (hdry : t.tick.dryBank = s.tick.dryBank)
    (hf : ∀ g ∈ [TICK_ABI.STEP_TICKS, TICK_STATUS.DRY, TICK_STATUS.BANK], t.get g = s.get g) : t.stepTicks = s.stepTicks := by
  simp only [List.forall_mem_cons] at hf
  obtain ⟨steps, dry, bank, -⟩ := hf
  have run : t.runBank = s.runBank := by rw [State.runBank, State.is, dry, bank, hdry]; rfl
  simp only [State.stepTicks, run, ha, hb, steps]

theorem State.closeNoted_stepTicks (s : State) (n causes : Nat) (send : Bool) :
    (s.closeNoted n causes send).stepTicks = s.stepTicks := by
  obtain ⟨x, o, h⟩ := s.closeNoted_eq n causes send
  refine State.stepTicks_congr (by rw [h]) (by rw [h]) (by rw [h]) fun g hg => s.get_closeNoted n causes send ?_
  revert g
  decide

/-- The state of a tick that ends before the step's last. -/
theorem State.endTick_short {s : State} (h : s.get TICK_STATUS.TICK_IN_STEP + 1 < s.stepTicks) (n count : Nat) :
    s.endTick n count = ((s.set TICK_STATUS.STRETCHING 0).updTick fun t =>
      { t with inTick := false, lastLen := n + t.frozen, applied := (count, n) :: t.applied.take 7,
               busy := t.busy.filter fun b => b.waits, recovery := [], causes := 0 }).set TICK_STATUS.TICK_IN_STEP
        (s.get TICK_STATUS.TICK_IN_STEP + 1) := by
  unfold State.endTick
  dsimp only
  rw [if_neg (by simpa using h), State.get_updTick, State.get_set_other _ _ (by decide)]

/-- The state of a tick that closes before the step's last. -/
theorem State.closeTick_short (s : State) (h : s.get TICK_STATUS.TICK_IN_STEP + 1 < s.stepTicks) (n causes : Nat) (send : Bool) :
    s.closeTick n causes send = (((s.closeNoted n (Nat.lor s.tick.causes causes) send).set TICK_STATUS.STRETCHING 0).updTick fun t =>
      { t with inTick := false, lastLen := n + t.frozen, applied := (s.get TICK_COUNT.COUNT, n) :: t.applied.take 7,
               busy := t.busy.filter fun b => b.waits, recovery := [], causes := 0 }).set TICK_STATUS.TICK_IN_STEP
        (s.get TICK_STATUS.TICK_IN_STEP + 1) := by
  have steps := s.closeNoted_stepTicks n (Nat.lor s.tick.causes causes) send
  have inStep := s.get_closeNoted n (Nat.lor s.tick.causes causes) send (g := TICK_STATUS.TICK_IN_STEP) (by decide)
  rw [State.closeTick_eq, State.endTick_short (by rw [steps, inStep]; exact h), inStep]

theorem State.closeTick_closed {s : State} (h : s.get TICK_STATUS.TICK_IN_STEP + 1 < s.stepTicks) (n causes : Nat) (send : Bool) :
    TickClosed s (s.closeTick n causes send) := by
  have other {g : Fld} (hg : g.key ∉ closeFields.map Fld.key) := s.get_closeNoted n (Nat.lor s.tick.causes causes) send hg
  obtain ⟨x, o, hx⟩ := s.closeNoted_eq n (Nat.lor s.tick.causes causes) send
  rw [s.closeTick_short h]
  rw [hx] at other ⊢
  refine ⟨rfl, fun g hg => ?_, rfl, rfl, rfl, ?_, State.get_set_same _ _ _⟩
  · simp only [closedFields, List.map_append, List.mem_append, List.map_cons, List.map_nil, List.mem_cons, List.not_mem_nil,
      or_false, not_or] at hg
    obtain ⟨hclose, hstretch, hstep⟩ := hg
    rw [State.get_set_other _ _ hstep, State.get_updTick, State.get_set_other _ _ hstretch, other hclose]
  · rw [State.get_set_other _ _ (by decide), State.get_updTick, State.get_set_same]
    rfl

/-- A tick that closes at cc T sends no notice and records no stretch. -/
theorem State.closeTick_plain {s : State} (h : s.get TICK_STATUS.TICK_IN_STEP + 1 < s.stepTicks) :
    (s.closeTick 0 0 false).out = s.out ∧
      (s.closeTick 0 0 false).get TICK_STRETCH_TOTAL.TOTAL_CC = s.get TICK_STRETCH_TOTAL.TOTAL_CC := by
  have noted : OnlyFields s (s.closeNoted 0 (Nat.lor s.tick.causes 0) false) marginFields := by
    unfold State.closeNoted
    rw [if_neg (Nat.lt_irrefl 0)]
    split
    · exact s.recordMargin_only
    · exact OnlyFields.refl _ _
  rw [s.closeTick_short h]
  refine ⟨(congrArg State.out noted.1 :), ?_⟩
  rw [State.get_set_other _ _ (by decide), State.get_updTick, State.get_set_other _ _ (by decide)]
  exact noted.2 TICK_STRETCH_TOTAL.TOTAL_CC (by decide)

/-- A tick that closes after `n` cc of stretch records them. -/
theorem State.closeTick_stretched {s : State} (h : s.get TICK_STATUS.TICK_IN_STEP + 1 < s.stepTicks) {n : Nat} (hn : 0 < n)
    (causes : Nat) (send : Bool) :
    (s.closeTick n causes send).get TICK_STRETCH.LAST_CC = min (n + s.tick.frozen) (2 ^ 26 - 1) ∧
      (s.closeTick n causes send).get TICK_STRETCH_TOTAL.TOTAL_CC =
        min (s.get TICK_STRETCH_TOTAL.TOTAL_CC + n) (2 ^ TICK_STRETCH_TOTAL.TOTAL_CC.width - 1) := by
  have noted {g : Fld} : (s.closeNoted n (Nat.lor s.tick.causes causes) send).get g =
      (s.stretchNoted n (Nat.lor s.tick.causes causes)).get g := by
    unfold State.closeNoted
    rw [if_pos hn]
    dsimp only
    split
    · obtain ⟨o, ho, -⟩ := (s.stretchNoted n (Nat.lor s.tick.causes causes)).emitTree_eq none fun p =>
        .stretch p n ((s.stretchNoted n (Nat.lor s.tick.causes causes)).get FAB_ID.DEV) (s.get TICK_COUNT.COUNT)
      rw [ho]
      rfl
    · rfl
  rw [s.closeTick_short h]
  constructor
  · rw [State.get_set_other _ _ (by decide), State.get_updTick, State.get_set_other _ _ (by decide), noted,
      State.stretchNoted_last]
  · rw [State.get_set_other _ _ (by decide), State.get_updTick, State.get_set_other _ _ (by decide), noted,
      State.stretchNoted_total]

theorem TickClosed.job {s t : State} (h : TickClosed s t) : t.job = s.job := h.get _ (by decide)
theorem TickClosed.mem {s t : State} (h : TickClosed s t) : t.mem = s.mem := (congrArg State.mem h.rest :)
theorem TickClosed.lands {s t : State} (h : TickClosed s t) : t.lands = s.lands := (congrArg State.lands h.rest :)

/-! ### TICK_CLOSE (R17, R27) -/

theorem State.gatherOnce_idle {s : State} (h : s.tick.glue = 0) : s.gatherOnce = s := by
  unfold State.gatherOnce
  simp [h]

/-- Outside a glue-up nothing is gathered. -/
theorem State.glueAdvance_idle {s : State} (h : s.tick.glue = 0) : s.glueAdvance = s := by
  unfold State.glueAdvance
  simp [State.gatherOnce_idle h, h]

theorem execTickClose_idle {s t : State} (h : s.tickClose = t) (hg : t.tick.glue = 0) : exec .tickClose s = .next t := by
  show Host.Outcome.next s.tickClose.glueAdvance = _
  rw [h, State.glueAdvance_idle hg]

/-- Settles O15: at cc T an open tick closes, stretches or overruns. -/
theorem tickCloses : Obligations.TickCloses := by
  intro s hr hi hf hs hh hg
  have close : s.tickClose = if !s.outstanding s.tickLen && s.hold == 0 then (s.atCc s.tickLen).closeTick 0 0 false
      else if s.outstanding s.tickLen && !s.excused && s.hold == 0 then (s.atCc s.tickLen).overrun s.tickLen
      else ((s.atCc s.tickLen).noteCauses (s.outstanding s.tickLen)).set TICK_STATUS.STRETCHING 1 := by
    unfold State.tickClose
    rw [if_pos (by simp [hr, hi, hf, hs, hh])]
    rfl
  refine ⟨fun ho h0 hn => ?_, fun h => ?_, fun ho hx h0 he hj hb hv c hc => ?_⟩
  · have run : s.tickClose = (s.atCc s.tickLen).closeTick 0 0 false := by rw [close, if_pos (by simp [ho, h0])]
    have closed := State.closeTick_closed (s := s.atCc s.tickLen) hn 0 0 false
    obtain ⟨hout, htotal⟩ := State.closeTick_plain (s := s.atCc s.tickLen) hn
    exact ⟨_, execTickClose_idle run (closed.glue.trans hg), closed.inTick, closed.glue.trans hg, closed.mem, hout, closed.inStep,
      htotal, closed.job⟩
  · have run : s.tickClose = ((s.atCc s.tickLen).noteCauses (s.outstanding s.tickLen)).set TICK_STATUS.STRETCHING 1 := by
      rw [close]
      rcases h with h | ⟨ho, hx⟩
      · rw [if_neg (by simp [h.ne']), if_neg (by simp [h.ne'])]
      · rw [if_neg (by simp [ho]), if_neg (by simp [hx])]
    refine ⟨_, execTickClose_idle run hg, State.get_set_same _ _ _, hi, ?_⟩
    exact (OnlyFields.refl ((s.atCc s.tickLen).noteCauses (s.outstanding s.tickLen)) _).set _ (by simp)
  · have run : s.tickClose = (s.atCc s.tickLen).schedFault 2 fOVERRUN c.1 c.2.1 c.2.2 := by
      have cand : firstCand ((s.atCc s.tickLen).overrunCandidates s.tickLen) = some c := hc
      rw [close, if_neg (by simp [ho]), if_pos (by simp [ho, hx, h0]), State.overrun, cand]
    have halts := State.schedFault_halts (s := s.atCc s.tickLen) ⟨hj, he, hb, hv⟩ fOVERRUN c.1 c.2.1 c.2.2
    exact ⟨_, execTickClose_idle run halts.glue, halts.job, halts.mem, halts.named.code, halts.named.cls, halts.named.idx,
      halts.named.entry⟩

end Sys2Proof.Machine

namespace Sys2Proof.Machine
open Reg

/-! ### Work that is abandoned at the limit (R20) -/

theorem BytesKept.refl (s : State) (rs : List (Nat × Nat)) : BytesKept s s rs := fun _ _ => rfl

theorem BytesKept.trans {s t u : State} {rs : List (Nat × Nat)} (h : BytesKept s t rs) (k : BytesKept t u rs) : BytesKept s u rs :=
  fun x hx => (k x hx).trans (h x hx)

theorem BytesKept.mono {s t : State} {rs qs : List (Nat × Nat)} (h : BytesKept s t rs) (hsub : ∀ r ∈ rs, r ∈ qs) : BytesKept s t qs :=
  fun x hx => h x fun r hr => hx r (hsub r hr)

/-- What is no longer stated is the bytes of a range, and how many free values were drawn. -/
theorem State.havoc_eq (s : State) (a n : Nat) :
    ∃ m k, s.havoc a n = { s with mem := m, freeCtr := k } ∧ BytesKept s { s with mem := m } [(a, n)] := by
  induction n generalizing s a with
  | zero => exact ⟨s.mem, s.freeCtr, rfl, BytesKept.refl _ _⟩
  | succ n ih =>
    obtain ⟨m, k, h, kept⟩ := ih { s.draw.2 with mem := Memory.write s.mem a (BitVec.ofNat 8 s.draw.1) } (a + 1)
    refine ⟨m, k, h, fun x hx => ?_⟩
    have hx : x < a ∨ a + (n + 1) ≤ x := by simpa using hx
    exact (kept x (by simpa using (by omega : x < a + 1 ∨ a + 1 + n ≤ x))).trans
      (Memory.read_write_other _ _ (by omega))

theorem State.havocAll_eq (s : State) (rs : List (Nat × Nat)) :
    ∃ m k, rs.foldl (fun s r => s.havoc r.1 r.2) s = { s with mem := m, freeCtr := k } ∧ BytesKept s { s with mem := m } rs := by
  induction rs generalizing s with
  | nil => exact ⟨s.mem, s.freeCtr, rfl, BytesKept.refl _ _⟩
  | cons r rs ih =>
    obtain ⟨m, k, h, kept⟩ := s.havoc_eq r.1 r.2
    obtain ⟨m', k', h', kept'⟩ := ih { s with mem := m, freeCtr := k }
    refine ⟨m', k', by rw [List.foldl_cons, h, h'], ?_⟩
    exact (kept.mono (by simp)).trans (BytesKept.mono (t := { s with mem := m' }) kept' fun q hq => List.mem_cons_of_mem _ hq)

/-- A key of the first register of a cluster's, row's or update unit's block, or of a finisher's or gauge tap's. -/
def engineKey (k : Nat) : Bool :=
  decide (arrBase 0 * 64 ≤ k) && [0, 0x8000, 0xC000].contains (k / 64 % 0x10000)

theorem engineKey_iff {k : Nat} : engineKey k = true ↔ arrBase 0 * 64 ≤ k ∧ k / 64 % 0x10000 ∈ [0, 0x8000, 0xC000] := by
  simp [engineKey]

theorem engineKey_ctx (r : Nat) : engineKey (EXN_STATUS.CTX r).key = true := by
  simp only [engineKey_iff, Fld.key, EXN_STATUS.CTX, exnBase, arrBase, List.mem_cons]
  omega

theorem engineKey_finisher (p : Nat) : engineKey (FIN_STATUS.BUSY p).key = true := by
  simp only [engineKey_iff, Fld.key, FIN_STATUS.BUSY, finBase, arrBase, List.mem_cons]
  omega

theorem engineKey_tap (p : Nat) : engineKey (GAU_STATUS.TAPPING p).key = true := by
  simp only [engineKey_iff, Fld.key, GAU_STATUS.TAPPING, gauBase, arrBase, List.mem_cons]
  omega

theorem engineKey_update (u : Nat) : engineKey (UPD_STATUS.BUSY u).key = true ∧ engineKey (UPD_STATUS.OP u).key = true := by
  simp only [engineKey_iff, Fld.key, UPD_STATUS.BUSY, UPD_STATUS.OP, updBase, arrBase, List.mem_cons]
  omega

/-- `t` is `s` but for what engines that stop show: of fields those of engine blocks, and the kernels of rows. -/
structure Stopped (s t : State) : Prop where
  rest : ({ t with flds := s.flds, rows := s.rows } : State) = s
  get : ∀ g : Fld, engineKey g.key = false → t.get g = s.get g

theorem Stopped.eq {s t : State} (h : Stopped s t) : ∃ x y, t = { s with flds := x, rows := y } :=
  ⟨t.flds, t.rows, by rw [← h.rest]⟩

theorem Stopped.refl (s : State) : Stopped s s := ⟨rfl, fun _ _ => rfl⟩

theorem Stopped.ite {s a b : State} {c : Prop} [Decidable c] (ha : Stopped s a) (hb : Stopped s b) :
    Stopped s (if c then a else b) := by
  split <;> assumption

theorem Stopped.set {s t : State} (h : Stopped s t) {f : Fld} (v : Nat) (hf : engineKey f.key = true) : Stopped s (t.set f v) :=
  ⟨h.rest, fun g hg => (State.get_set_other t v fun e => by simp [e, hf] at hg).trans (h.get g hg)⟩

theorem Stopped.endCall {s t : State} (h : Stopped s t) (r : Nat) : Stopped s (t.endCall r) := by
  unfold State.endCall
  dsimp only
  split
  · exact h
  · refine Stopped.set ?_ _ (engineKey_ctx r)
    exact ⟨h.rest, h.get⟩

theorem Stopped.stopEngine {s t : State} (h : Stopped s t) (b : Busy) : Stopped s (t.stopEngine b) := by
  unfold State.stopEngine
  split
  · exact h.endCall _
  · exact Stopped.ite (h.set _ (engineKey_finisher _)) (Stopped.ite (h.set _ (engineKey_tap _)) h)
  · exact (h.set _ (engineKey_update _).1).set _ (engineKey_update _).2
  · exact h

theorem Stopped.stopEngines {s t : State} (h : Stopped s t) (l : List Busy) : Stopped s (l.foldl State.stopEngine t) :=
  List.foldlRecOn (motive := fun t => Stopped s t) l _ h fun _ ht b _ => ht.stopEngine b

/-- Frames that a port was to send with its transfer are gone; nothing else changes. -/
theorem State.dropDue_eq (s : State) : ∃ l, s.dropDue = { s with links := l } := by
  refine List.foldlRecOn (motive := fun t : State => ∃ l, t = { s with links := l }) s.links _ ⟨s.links, rfl⟩ ?_
  rintro _ ⟨l, rfl⟩ e -
  exact ⟨_, rfl⟩

/-- The memory that the work abandoned at cycle `cc` was to write. -/
def State.openRanges (s : State) (cc : Nat) : List (Nat × Nat) :=
  (s.tick.busy.filter fun b => b.waits || decide (cc < b.endCc)).flatMap (·.dst) ++
    (s.lands.filter fun (l : Land) => l.open (s.get TICK_COUNT.COUNT)).flatMap s.landRange

/-- The engines still busy have stopped and the transfers still open are abandoned. -/
structure Abandoned (s t : State) (cc : Nat) : Prop where
  rest : ({ t with flds := s.flds, rows := s.rows, mem := s.mem, freeCtr := s.freeCtr, links := s.links, lands := s.lands,
                   tick := s.tick } : State) = s
  get : ∀ g : Fld, engineKey g.key = false → t.get g = s.get g
  tick : t.tick = { s.tick with busy := [] }
  lands : t.lands = s.lands.map fun l => if l.open (s.get TICK_COUNT.COUNT) then { l with abandoned := true } else l
  mem : BytesKept s t (s.openRanges cc)

theorem State.abandonWork_abandoned (s : State) (cc : Nat) : Abandoned s (s.abandonWork cc s.landRange) cc := by
  obtain ⟨m, k, h, kept⟩ := s.havocAll_eq (s.openRanges cc)
  have stopped := (Stopped.refl { s with mem := m, freeCtr := k }).stopEngines
    (s.tick.busy.filter fun b => b.waits || decide (cc < b.endCc))
  unfold State.abandonWork
  dsimp only
  rw [show (s.tick.busy.filter fun b => b.waits || decide (cc < b.endCc)).flatMap (·.dst) ++
    (s.lands.filter fun (l : Land) => l.open (s.get TICK_COUNT.COUNT)).flatMap s.landRange = s.openRanges cc from rfl, h]
  generalize List.foldl State.stopEngine { s with mem := m, freeCtr := k } _ = u at *
  obtain ⟨x, y, rfl⟩ := stopped.eq
  obtain ⟨l, hl⟩ := ({ s with mem := m, freeCtr := k, flds := x, rows := y } : State).dropDue_eq
  rw [hl]
  have count : ({ s with mem := m, freeCtr := k, flds := x, rows := y } : State).get TICK_COUNT.COUNT = s.get TICK_COUNT.COUNT :=
    stopped.get _ (by decide)
  exact ⟨rfl, stopped.get, rfl, by rw [← count]; rfl, kept⟩

/-! ### STRETCH_CLOSE and STRETCH_LIMIT (R17, R20) -/

theorem FaultContained.running {s t : State} {code cls idx entry : Nat} (h : FaultContained s t code cls idx entry) :
    t.running = s.running := by
  rw [State.running, State.job, State.is, h.get _ (by decide), h.get _ (by decide)]
  rfl

/-- A fault that STRETCH_LIMIT raises with nothing in hand lets the step run on: the work still open is abandoned and the
tick closes at the limit. -/
theorem State.stretchLimit_eq {s : State} (hr : s.running = true) (hi : s.tick.inTick = true) (hf : s.tick.freeze = 0)
    (hs : s.is TICK_STATUS.STRETCHING = true) (hh : s.tick.haltAtBoundary = false)
    (ho : s.outstanding (s.tickLen + s.get TICK_STRETCH_LIMIT.LIMIT_KCC * 1024) = true) (he : s.err.handling = none) :
    ∃ f n causes u idx e, FaultContained (s.atCc (s.tickLen + s.get TICK_STRETCH_LIMIT.LIMIT_KCC * 1024)) f fSTRETCH u idx e ∧
      s.stretchLimit = (f.abandonWork f.tick.cc f.landRange).closeTick n causes true := by
  have contained := fun (c : UnitKind × Nat × Nat) => State.schedFault_contained
    (s := s.atCc (s.tickLen + s.get TICK_STRETCH_LIMIT.LIMIT_KCC * 1024)) he hr fSTRETCH c.1 c.2.1 c.2.2
  unfold State.stretchLimit
  rw [if_pos (by simp [hr, hi, hf, hs, hh, ho])]
  dsimp only
  rw [if_pos ((contained _).running.trans hr)]
  exact ⟨_, _, _, _, _, _, contained _, rfl⟩

/-- Settles O16: a stretched tick closes by `closeTick`, at the limit after a contained fault and with its work abandoned. -/
theorem stretchedTicksClose : Obligations.StretchedTicksClose := by
  intro s hr hi hf hs hh hg hn
  refine ⟨fun q hq hlim hhold ho => ?_, fun ho he => ?_⟩
  · have run : s.stretchClose q = ((s.atCc (s.tickLen + q * 256)).noteCauses false).closeTick (q * 256)
        (s.ownCauses (decide (s.hold < q * 256))) (decide (s.hold < q * 256) || decide (s.tick.notice < q * 256)) := by
      have idle : (s.atCc (s.tickLen + q * 256)).outstanding ((s.atCc (s.tickLen + q * 256)).tickLen + q * 256) = false := ho
      unfold State.stretchClose
      rw [if_pos (by simp [hr, hi, hf, hs, hh, hq])]
      dsimp only
      have within : ¬((s.atCc (s.tickLen + q * 256)).noteCauses false).get TICK_STRETCH_LIMIT.LIMIT_KCC * 1024 < q * 256 :=
        hlim.not_gt
      have free : ¬q * 256 < ((s.atCc (s.tickLen + q * 256)).noteCauses false).hold := hhold.not_gt
      rw [idle, if_neg within, if_neg free, if_neg Bool.false_ne_true]
      rfl
    have closed := State.closeTick_closed (s := (s.atCc (s.tickLen + q * 256)).noteCauses false) hn (q * 256)
        (s.ownCauses (decide (s.hold < q * 256))) (decide (s.hold < q * 256) || decide (s.tick.notice < q * 256))
    obtain ⟨hlast, htotal⟩ := State.closeTick_stretched (s := (s.atCc (s.tickLen + q * 256)).noteCauses false) hn
      (by omega : 0 < q * 256) (s.ownCauses (decide (s.hold < q * 256)))
      (decide (s.hold < q * 256) || decide (s.tick.notice < q * 256))
    refine ⟨_, ?_, closed.inTick, closed.stretching, closed.mem, hlast, htotal, closed.inStep⟩
    show Host.Outcome.next (s.stretchClose q).glueAdvance = _
    rw [run, State.glueAdvance_idle (closed.glue.trans hg)]
  · obtain ⟨f, n, causes, u, idx, e, fault, run⟩ := State.stretchLimit_eq hr hi hf hs hh ho he
    have tick : f.tick.glue = s.tick.glue ∧ f.tick.busy = s.tick.busy ∧ f.tick.dryBank = s.tick.dryBank :=
      ⟨(congrArg TickSt.glue fault.tick :), (congrArg TickSt.busy fault.tick :), (congrArg TickSt.dryBank fault.tick :)⟩
    have lands : f.lands = s.lands := (congrArg State.lands fault.rest :)
    have range : f.landRange = s.landRange := by
      have : f.active = s.active := (congrArg State.active fault.rest :)
      unfold State.landRange
      rw [this]
    have abandoned := f.abandonWork_abandoned f.tick.cc
    generalize f.abandonWork f.tick.cc f.landRange = a at *
    have kept {g : Fld} (h1 : engineKey g.key = false)
        (h2 : g.key ∉ (ERR_COUNT0.CONTAINED :: (faultFields ++ containFields)).map Fld.key) : a.get g = s.get g :=
      (abandoned.get g h1).trans (fault.get g h2)
    have short : a.get TICK_STATUS.TICK_IN_STEP + 1 < a.stepTicks := by
      have same : ∀ g ∈ [TICK_ABI.STEP_TICKS, TICK_STATUS.DRY, TICK_STATUS.BANK], engineKey g.key = false ∧
          g.key ∉ (ERR_COUNT0.CONTAINED :: (faultFields ++ containFields)).map Fld.key := by decide
      rw [kept (by decide) (by decide), State.stepTicks_congr (s := s) (t := a) ((congrArg State.sealA abandoned.rest :).trans
        (congrArg State.sealA fault.rest :)) ((congrArg State.sealB abandoned.rest :).trans (congrArg State.sealB fault.rest :))
        (by rw [abandoned.tick]; exact tick.2.2) fun g hg => kept (same g hg).1 (same g hg).2]
      exact hn
    have closed := State.closeTick_closed short n causes true
    rw [← run] at closed
    refine ⟨_, ?_, closed.inTick, ?_, closed.stretching, ?_, ?_, fun hv => ?_, ?_, ?_⟩
    · show Host.Outcome.next s.stretchLimit.glueAdvance = _
      rw [State.glueAdvance_idle]
      rw [closed.glue, abandoned.tick]
      exact tick.1.trans hg
    · rw [closed.busy, abandoned.tick]
      rfl
    · exact closed.job.trans (kept (by decide) (by decide))
    · rw [closed.get _ (by decide), abandoned.get _ (by decide), fault.count]
      rfl
    · rw [closed.get _ (by decide), abandoned.get _ (by decide), (fault.named hv).code]
      rfl
    · have count : f.get TICK_COUNT.COUNT = s.get TICK_COUNT.COUNT := fault.get _ (by decide)
      rw [closed.lands, abandoned.lands, count]
      intro l hl
      obtain ⟨k, -, rfl⟩ := List.mem_map.1 hl
      split
      · simp [Land.open]
      next h => exact Bool.not_eq_true _ ▸ h
    · have within : ∀ r ∈ f.openRanges f.tick.cc, r ∈ s.tick.busy.flatMap (·.dst) ++ s.lands.flatMap s.landRange := by
        unfold State.openRanges
        rw [range, lands, tick.2.1]
        intro r hr
        simp only [List.mem_append, List.mem_flatMap, List.mem_filter] at hr ⊢
        rcases hr with ⟨b, hb, hm⟩ | ⟨l, hl, hm⟩
        · exact .inl ⟨b, hb.1, hm⟩
        · exact .inr ⟨l, hl.1, hm⟩
      intro x hx
      have mem : f.mem = s.mem := (congrArg State.mem fault.rest :)
      rw [closed.mem, abandoned.mem.mono within x hx, mem]

end Sys2Proof.Machine

namespace Sys2Proof.Machine
open Reg

/-! ### The end of a seal (R26, R27) -/

/-- What a bank that passes its seal leaves, but for the end of a load: its sealed copies, and TICK_ABI where it is active. -/
def State.sealHeld (s : State) (b : Nat) (load : Bool) : State :=
  let c : SealCopy := ⟨s.mem, s.flds, s.active⟩
  let s := s.set (sealedF b) 1
  let s := if b = 0 then { s with sealA := some c } else { s with sealB := some c }
  if load || s.activeBank b then
    let w := Memory.rd s.mem (bankBase .krylov 0 b + 8) 8
    s.setAll [(TICK_ABI.MAJOR, bits w 7 0), (TICK_ABI.MINOR, bits w 15 8), (TICK_ABI.STEP_TICKS, bits w 47 32)]
  else s

theorem State.sealPasses_eq (s : State) (b : Nat) (load : Bool) :
    s.sealPasses b load =
      if load then ((s.sealHeld b load).setJob 1 0).completeLong opJOB_LOAD stOK [] else s.sealHeld b load := rfl

/-- The state of a bank that has its sealed copies. -/
def State.withCopy (s : State) (b : Nat) : State :=
  if b = 0 then { s.set (sealedF b) 1 with sealA := some ⟨s.mem, s.flds, s.active⟩ }
  else { s.set (sealedF b) 1 with sealB := some ⟨s.mem, s.flds, s.active⟩ }

theorem State.withCopy_facts (s : State) (b : Nat) :
    (if b = 0 then (s.withCopy b).sealA else (s.withCopy b).sealB) = some ⟨s.mem, s.flds, s.active⟩ ∧
      (s.withCopy b).mem = s.mem ∧ (s.withCopy b).tick = s.tick ∧
      ∀ g : Fld, (s.withCopy b).get g = (s.set (sealedF b) 1).get g := by
  unfold State.withCopy
  by_cases h : b = 0 <;> simp only [h, if_true, if_false] <;> exact ⟨trivial, rfl, rfl, fun _ => rfl⟩

theorem State.sealHeld_only (s : State) (b : Nat) (load : Bool) :
    OnlyFields (s.withCopy b) (s.sealHeld b load) [TICK_ABI.MAJOR, TICK_ABI.MINOR, TICK_ABI.STEP_TICKS] := by
  have held : s.sealHeld b load = if load || (s.withCopy b).activeBank b then
      (s.withCopy b).setAll [(TICK_ABI.MAJOR, bits (Memory.rd (s.withCopy b).mem (bankBase .krylov 0 b + 8) 8) 7 0),
        (TICK_ABI.MINOR, bits (Memory.rd (s.withCopy b).mem (bankBase .krylov 0 b + 8) 8) 15 8),
        (TICK_ABI.STEP_TICKS, bits (Memory.rd (s.withCopy b).mem (bankBase .krylov 0 b + 8) 8) 47 32)]
      else s.withCopy b := rfl
  rw [held]
  split
  · exact (OnlyFields.refl _ _).setAll (by simp)
  · exact OnlyFields.refl _ _

/-- A bank that passes its seal. -/
structure SealPassed (s t : State) (b : Nat) : Prop where
  sealed : t.get (sealedF b) = 1
  sealing : t.get TICK_STATUS.SEALING = s.get TICK_STATUS.SEALING
  tick : t.tick = s.tick
  copy : (if b = 0 then t.sealA else t.sealB) = some ⟨s.mem, s.flds, s.active⟩
  mem : t.mem = s.mem

theorem State.sealHeld_passed (s : State) (b : Nat) (load : Bool) : SealPassed s (s.sealHeld b load) b := by
  obtain ⟨copy, mem, tick, get⟩ := s.withCopy_facts b
  have only := s.sealHeld_only b load
  have abi : ∀ f ∈ [TICK_STATUS.SEALED_A, TICK_STATUS.SEALED_B],
      f.key ∉ [TICK_ABI.MAJOR, TICK_ABI.MINOR, TICK_ABI.STEP_TICKS].map Fld.key ∧ f.width = 1 := by decide
  have listed : sealedF b ∈ [TICK_STATUS.SEALED_A, TICK_STATUS.SEALED_B] := by
    rcases sealedF_cases b with ⟨-, e⟩ | ⟨-, e⟩ <;> simp [e]
  obtain ⟨apart, width⟩ := abi _ listed
  refine ⟨?_, ?_, (congrArg State.tick only.1 :).trans tick, ?_, (congrArg State.mem only.1 :).trans mem⟩
  · rw [only.2 _ apart, get, State.get_set_same, width]
    rfl
  · rw [only.2 _ (by decide), get, State.get_set_other _ _ (sealedF_key_ne (by decide) b)]
  · rw [← copy, ← (congrArg State.sealA only.1 :), ← (congrArg State.sealB only.1 :)]

/-- Reports leave what the seal of a bank has set. -/
theorem SealPassed.report {s t u : State} {b : Nat} (h : SealPassed s t b) (hr : Reports t u) : SealPassed s u b := by
  have listed : (sealedF b).key ∉ reportFields.map Fld.key := by
    rcases sealedF_cases b with ⟨-, e⟩ | ⟨-, e⟩ <;> rw [e] <;> decide
  have ha : u.sealA = t.sealA := (congrArg State.sealA hr.rest :)
  have hb : u.sealB = t.sealB := (congrArg State.sealB hr.rest :)
  exact ⟨(hr.get _ listed).trans h.sealed, (hr.get _ (by decide)).trans h.sealing, hr.tick.trans h.tick, by rw [ha, hb, h.copy],
    hr.mem.trans h.mem⟩

theorem SealPassed.setState {s t : State} {b : Nat} (h : SealPassed s t b) (j : Nat) :
    SealPassed s (t.set TICK_STATUS.STATE j) b :=
  ⟨(State.get_set_other _ _ (sealedF_key_ne (by decide) b).symm).trans h.sealed,
    (State.get_set_other _ _ (by decide)).trans h.sealing, h.tick, h.copy, h.mem⟩

theorem State.sealPasses_passed (s : State) (b : Nat) (load : Bool) :
    SealPassed s (s.sealPasses b load) b ∧ (load = true → (s.sealPasses b load).job = 1) := by
  have held := s.sealHeld_passed b load
  rw [State.sealPasses_eq]
  generalize s.sealHeld b load = u at held ⊢
  cases load
  · exact ⟨held, fun h => Bool.noConfusion h⟩
  · have done := (Reports.refl (u.setJob 1 0)).completeLong opJOB_LOAD stOK []
    refine ⟨SealPassed.report ?_ done, fun _ => done.job.trans (u.setJob_job 0)⟩
    by_cases hj : u.job = 1
    · rw [State.setJob, if_pos hj]
      exact held
    · exact (held.setState 1).report (u.setJob_reports 1 0 hj)

/-- The state in which the seal in progress has ended. -/
def State.sealEnded (s : State) : State :=
  (s.set TICK_STATUS.SEALING 0).updTick fun t => { t with sealing := none, sealLoad := false }

theorem State.get_sealEnded (s : State) {g : Fld} (hg : g.key ≠ TICK_STATUS.SEALING.key) : s.sealEnded.get g = s.get g :=
  s.get_set_other 0 hg

theorem State.sealEnded_sealing (s : State) : s.sealEnded.get TICK_STATUS.SEALING = 0 := s.get_set_same TICK_STATUS.SEALING 0

theorem State.sealDone_passes {s : State} {b : Nat} (hb : s.tick.sealing = some b) (h : s.sealFault b = none) :
    s.sealDone = s.sealEnded.sealPasses b s.tick.sealLoad := by
  simp only [State.sealDone, hb, h]
  rfl

theorem State.sealDone_fails {s : State} {b : Nat} {f : SealFault} (hb : s.tick.sealing = some b) (h : s.sealFault b = some f) :
    s.sealDone = s.sealEnded.sealFails b s.tick.sealLoad f := by
  simp only [State.sealDone, hb, h]
  rfl

/-- A failed seal is recorded; where it was a load's, the load ends. -/
theorem State.sealFails_eq (s : State) (b : Nat) (load : Bool) (f : SealFault) :
    Reports ((s.recordFault f.code f.u.code f.idx f.entry b 0).updTick fun t => { t with loaded := !load && t.loaded })
      (s.sealFails b load f) := by
  unfold State.sealFails
  cases load
  · exact Reports.refl _
  · exact (Reports.refl _).completeLong _ _ _

/-- Settles O9: a bank that passes keeps its copies through the reports of a load, one that fails is recorded. -/
theorem sealDoneSealsOrFaults : Obligations.SealDoneSealsOrFaults := by
  intro s b hb hlt
  refine ⟨fun h => ?_, fun f h => ?_⟩
  · obtain ⟨passed, job⟩ := s.sealEnded.sealPasses_passed b s.tick.sealLoad
    rw [← State.sealDone_passes hb h] at passed job
    exact ⟨_, _, rfl, passed.sealed, passed.sealing.trans s.sealEnded_sealing, congrArg TickSt.sealing passed.tick, passed.copy, rfl,
      rfl, fun g hg => s.get_sealEnded hg, passed.mem, job⟩
  · have fails := s.sealEnded.sealFails_eq b s.tick.sealLoad f
    rw [← State.sealDone_fails hb h] at fails
    have field {g : Fld} (hr : g.key ∉ reportFields.map Fld.key) (hf : g.key ∉ faultFields.map Fld.key)
        (hs : g.key ≠ TICK_STATUS.SEALING.key) : s.sealDone.get g = s.get g := by
      rw [fails.get g hr, State.get_updTick, State.get_recordFault_other _ _ _ _ _ _ _ hf, s.get_sealEnded hs]
    have frame := s.sealEnded.recordFault_frame f.code f.u.code f.idx f.entry b 0
    refine ⟨_, rfl, ?_, ?_, ?_, ?_, field (by decide) (by decide) (by decide), fun hl => ?_, fun hv => ?_⟩
    · rw [fails.get _ (by decide), State.get_updTick, State.get_recordFault_other _ _ _ _ _ _ _ (by decide), s.sealEnded_sealing]
    · rw [fails.tick, State.updTick_tick, (congrArg State.tick frame :)]
      rfl
    · rcases sealedF_cases b with ⟨-, e⟩ | ⟨-, e⟩ <;> rw [e] <;> exact field (by decide) (by decide) (by decide)
    · exact fails.mem.trans (congrArg State.mem frame :)
    · rw [fails.tick, State.updTick_tick, hl]
      rfl
    · have named := State.recordFault_named (s := s.sealEnded) (by rw [← hv, State.is, s.get_sealEnded (by decide)]; rfl) f.code f.u.code f.idx
        f.entry b 0
      have kept : ∀ g ∈ faultFields, s.sealDone.get g = (s.sealEnded.recordFault f.code f.u.code f.idx f.entry b 0).get g := by
        have : ∀ g ∈ faultFields, g.key ∉ reportFields.map Fld.key := by decide
        exact fun g hg => (fails.get g (this g hg)).trans (State.get_updTick _ _ _)
      obtain ⟨hcode, hcls, hidx, hentry, hbank, hvalid⟩ := named.of_get kept
      exact ⟨hcode, hcls, hidx, hentry, hbank.trans (Nat.mod_eq_of_lt hlt), hvalid⟩

end Sys2Proof.Machine

namespace Sys2Proof.Machine
open Reg

/-! ### TICK_CTRL.LOAD (R26, R36) -/

theorem State.get_arrSingle (s : State) {g : Fld} (hg : touches [] g.key = false) : s.arrSingle.get g = s.get g :=
  (Upset.refl [] s).arrSingle.get g hg

theorem State.read_zeroTotals (s : State) {x : Nat} (hx : x < 2 ^ 48) : Memory.read s.zeroTotals.mem x = Memory.read s.mem x := by
  have single := (Upset.refl [] ((s.zeroRange (accumBase 0) (nPhys * 0x40000)).zeroRange (ftabBase 0) (nPhys * 0x10000))).arrSingle
  unfold State.zeroTotals
  rw [single.mem, State.read_zeroRange_below _ _ (by unfold ftabBase; omega),
    State.read_zeroRange_below _ _ (by unfold accumBase; omega)]

theorem State.get_zeroTotals (s : State) {g : Fld} (hg : touches [] g.key = false) : s.zeroTotals.get g = s.get g := by
  unfold State.zeroTotals
  rw [State.get_arrSingle _ hg, State.get_zeroRange, State.get_zeroRange]

theorem State.clearAll_only (s : State) (l : List Fld) : OnlyFields s (l.foldl (fun s f => s.clearF f) s) l :=
  List.foldlRecOn (motive := fun t => OnlyFields s t l) l _ (OnlyFields.refl s l) fun _ ht _ hf => ht.set _ hf

/-- A field that no load counts anew keeps its value where the counters return to 0. -/
theorem get_zeroCounters (fl : List (Nat × Nat)) {g f : Fld} (h : fieldOfKey g.key = some f) (hc : f.ctr = false) :
    Store.get (zeroCounters fl) g.reset g.key = Store.get fl g.reset g.key :=
  congrArg (·.getD g.reset) (Store.find?_filter fl _ g.key fun _ => by simp [h, hc])

/-- A load keeps every address of the map, and the job state. -/
theorem State.freshJob_kept (s : State) :
    s.freshJob.job = s.job ∧ ∀ x, x < 2 ^ 48 → Memory.read s.freshJob.mem x = Memory.read s.mem x := by
  have counters : ({ s with flds := zeroCounters s.flds, tallies := Store.erase s.tallies kibTally } : State).get TICK_STATUS.STATE =
      s.get TICK_STATUS.STATE := get_zeroCounters s.flds (f := TICK_STATUS.STATE) rfl rfl
  have digests := State.clearAll_only { s with flds := zeroCounters s.flds, tallies := Store.erase s.tallies kibTally }
    (mapDigestRegs ++ stateDigestRegs ++ inputDigestRegs ++ inputLastRegs)
  unfold State.freshJob
  dsimp only
  generalize List.foldl (fun s f => State.clearF s f) _ _ = u at *
  have mem : u.mem = s.mem := (congrArg State.mem digests.1 :)
  refine ⟨?_, fun x hx => ?_⟩
  · rw [State.job_updTick, State.job, State.get_updHost]
    show (State.set _ BCP_OUTBOX_STAT.PENDING 0).get _ = _
    rw [State.get_set_other _ _ (by decide), State.get_zeroTotals _ (by decide), State.get_setAll_other _ _ (by decide),
      digests.2 _ (by decide), counters]
    rfl
  · show Memory.read (State.zeroTotals _).mem x = _
    rw [State.read_zeroTotals _ hx, State.setAll_mem, mem]

/-- The state of a load that is accepted. -/
def State.loading (s : State) : State :=
  (((s.freshJob.unseal 0).setAll [(TICK_STEP.STEP, s.get TICK_LOAD_STEP.STEP), (TICK_STATUS.SEALING, 1),
    (TICK_STATUS.BANK, 0)]).updTick fun t => { t with loaded := true, sealing := some 0, sealLoad := true }).okay

theorem State.actLoad_eq {s : State} (hj : s.job = 0) (hn : s.tick.sealing = none) :
    s.actLoad = if s.cfgOk then s.loading else ((s.recordFault cCFG ucTick 0 0 0 0).loadRefused cCFG).okay := by
  unfold State.actLoad
  rw [if_neg (by simp [hj, hn])]
  cases s.cfgOk <;> rfl

theorem State.get_loading (s : State) (g : Fld) :
    s.loading.get g = ((((s.freshJob.unseal 0).set TICK_STEP.STEP (s.get TICK_LOAD_STEP.STEP)).set TICK_STATUS.SEALING 1).set
      TICK_STATUS.BANK 0).get g := by
  unfold State.loading
  rw [State.get_okay, State.get_updTick]
  rfl

theorem State.read_loading (s : State) {x : Nat} (hx : x < 2 ^ 48) : Memory.read s.loading.mem x = Memory.read s.mem x := by
  unfold State.loading
  rw [State.okay_mem, State.updTick_mem, State.setAll_mem, State.unseal_mem, s.freshJob_kept.2 x hx]

/-- Settles O8: an accepted load resets what it resets and begins the seal, a refused one is recorded. -/
theorem loadBeginsTheSealOrIsRefused : Obligations.LoadBeginsTheSealOrIsRefused := by
  intro s hs hj hn
  have act : exec .tickCtrlLoad s = .next s.actLoad := by
    rw [show exec .tickCtrlLoad s = .next (s.write State.actLoad) from rfl, s.write_accepts _ hs]
  rw [State.actLoad_eq hj hn] at act
  refine ⟨fun hc => ?_, fun hc => ?_⟩
  · rw [hc, if_pos rfl] at act
    refine ⟨_, act, rfl, rfl, rfl, rfl, ?_, ?_, ?_, ?_, ?_, fun x hx => s.read_loading hx⟩
    · rw [State.get_loading, State.get_set_other _ _ (by decide), State.get_set_same]
      rfl
    · rw [State.get_loading, State.get_set_same]
      rfl
    · rw [State.get_loading, State.get_set_other _ _ (by decide), State.get_set_other _ _ (by decide),
        State.get_set_other _ _ (by decide)]
      exact s.freshJob.get_unseal_same 0
    · rw [State.get_loading, State.get_set_other _ _ (by decide), State.get_set_other _ _ (by decide), State.get_set_same]
      rfl
    · rw [State.job, State.get_loading, State.get_set_other _ _ (by decide), State.get_set_other _ _ (by decide),
        State.get_set_other _ _ (by decide), State.get_unseal_other _ _ (by decide)]
      exact s.freshJob_kept.1.trans hj
  · rw [hc, if_neg Bool.false_ne_true] at act
    have frame := s.recordFault_frame cCFG ucTick 0 0 0 0
    have refused := (Reports.refl (s.recordFault cCFG ucTick 0 0 0 0)).completeLong opJOB_LOAD stSEAL_FAIL
      (leBytes 8 (cCFG + 15 * 2 ^ 8 + 2 ^ 63))
    refine ⟨_, act, ?_, ?_, ?_, fun hv => ?_⟩
    · rw [State.okay_tick]
      exact refused.tick.trans (congrArg State.tick frame :)
    · rw [State.okay_mem]
      exact refused.mem.trans (congrArg State.mem frame :)
    · rw [State.job_okay]
      exact refused.job.trans ((State.get_recordFault_other s _ _ _ _ _ _ (by decide)).trans hj)
    · have named := State.recordFault_named hv cCFG ucTick 0 0 0 0
      refine ⟨?_, ?_, ?_⟩
      · rw [State.get_okay]
        exact (refused.get _ (by decide)).trans named.code
      · rw [State.get_okay]
        exact (refused.get _ (by decide)).trans named.cls
      · rw [State.get_okay]
        exact (refused.get _ (by decide)).trans named.valid

end Sys2Proof.Machine

namespace Sys2Proof.Machine
open Reg

/-! ### Words of memory -/

@[simp] theorem length_leBytes (n v : Nat) : (leBytes n v).length = n := by
  induction n generalizing v with
  | zero => rfl
  | succ n ih => rw [leBytes, List.length_cons, ih]

/-- A number that is written is read back, cut to its bytes. -/
theorem Memory.rd_writeBytes (m : List Host.Cell) (a n v : Nat) :
    Memory.rd (Memory.writeBytes m a (leBytes n v)) a n = v % 256 ^ n := by
  induction n generalizing m a v with
  | zero => rw [Nat.pow_zero, Nat.mod_one]; rfl
  | succ n ih =>
    have first : Memory.read (Memory.writeBytes m a (leBytes (n + 1) v)) a = BitVec.ofNat 8 (v % 256) :=
      (Memory.read_writeBytes_other _ _ _ (.inl (Nat.lt_succ_self a))).trans (Memory.read_write_same _ _ _)
    have rest := ih (Memory.write m a (BitVec.ofNat 8 (v % 256))) (a + 1) (v / 256)
    calc Memory.rd (Memory.writeBytes m a (leBytes (n + 1) v)) a (n + 1)
        = (Memory.read (Memory.writeBytes m a (leBytes (n + 1) v)) a).toNat +
            256 * Memory.rd (Memory.writeBytes m a (leBytes (n + 1) v)) (a + 1) n := rfl
      _ = v % 256 + 256 * (v / 256 % 256 ^ n) := by
          rw [first, BitVec.toNat_ofNat, Nat.mod_mod]
          exact congrArg (v % 256 + 256 * ·) rest
      _ = v % 256 ^ (n + 1) := by rw [Nat.pow_succ', Nat.mod_mul]

theorem State.rd_wr (s : State) (a v : Nat) : (s.wr a 8 v).rd a 8 = v % 2 ^ 64 :=
  Memory.rd_writeBytes s.mem a 8 v

theorem State.wr_kept (s : State) (a n v : Nat) : BytesKept s (s.wr a n v) [(a, n)] := fun x hx => by
  have hx : x < a ∨ a + n ≤ x := by simpa using hx
  exact Memory.read_writeBytes_other _ _ _ (by simpa using hx)

/-! ### Writes that reach a bank (R26, R33, R169, R422) -/

/-- The fields that the end of a seal as aborted changes. -/
def abortFields : List Fld := TICK_STATUS.SEALING :: (faultFields ++ reportFields)

/-- A seal of another bank goes on; one of this bank ends, is recorded, and is reported where it was a load's. -/
theorem State.abortSeal_cases (s : State) (b : Nat) :
    s.abortSeal b = s ∨ ∃ f, Reports (((s.set TICK_STATUS.SEALING 0).updTick f).recordFault 0x0C 15 0 0 b 0) (s.abortSeal b) := by
  unfold State.abortSeal
  split
  · right
    dsimp only
    exact ⟨_, .ite ((Reports.refl _).completeLong _ _ _) (Reports.refl _)⟩
  · exact .inl rfl

theorem State.abortSeal_mem (s : State) (b : Nat) : (s.abortSeal b).mem = s.mem := by
  rcases s.abortSeal_cases b with h | ⟨f, h⟩
  · rw [h]
  · have frame := ((s.set TICK_STATUS.SEALING 0).updTick f).recordFault_frame 0x0C 15 0 0 b 0
    exact h.mem.trans (congrArg State.mem frame :)

theorem State.get_abortSeal (s : State) (b : Nat) {g : Fld} (hg : g.key ∉ abortFields.map Fld.key) :
    (s.abortSeal b).get g = s.get g := by
  simp only [abortFields, List.map_cons, List.map_append, List.mem_cons, List.mem_append, not_or] at hg
  obtain ⟨hseal, hfault, hreport⟩ := hg
  rcases s.abortSeal_cases b with h | ⟨f, h⟩
  · rw [h]
  · rw [h.get g hreport, State.get_recordFault_other _ _ _ _ _ _ _ hfault, State.get_updTick, State.get_set_other _ _ hseal]

theorem State.abortSeal_activeBank (s : State) (b c : Nat) : (s.abortSeal c).activeBank b = s.activeBank b := by
  rw [State.activeBank, State.job, s.get_abortSeal c (by decide), s.get_abortSeal c (by decide)]
  rfl

/-- The state in which a write to bank `b`, which is not active, goes on. -/
def State.bankOpened (s : State) (b : Nat) : State := ((s.abortSeal b).unseal b).set TICK_PHASE.ARM 0

theorem State.touchBank_open {s : State} {b : Nat} (h : s.activeBank b = false) (scope index source : Nat) :
    s.touchBank b scope index source = (some (s.bankOpened b), s.bankOpened b) := by
  unfold State.touchBank
  dsimp only
  rw [s.abortSeal_activeBank, h, if_neg Bool.false_ne_true]
  rfl

theorem State.touchBank_active {s : State} {b : Nat} (h : s.activeBank b = true) (scope index source : Nat) :
    s.touchBank b scope index source = (none, (s.abortSeal b).corrected scope index source) := by
  unfold State.touchBank
  dsimp only
  rw [s.abortSeal_activeBank, h, if_pos rfl]

theorem State.bankOpened_mem (s : State) (b : Nat) : (s.bankOpened b).mem = s.mem := by
  rw [State.bankOpened, State.set_mem, State.unseal_mem, State.abortSeal_mem]

theorem State.bankOpened_arm (s : State) (b : Nat) : (s.bankOpened b).get TICK_PHASE.ARM = 0 := by
  rw [State.bankOpened, State.get_set_same, Nat.zero_mod]

theorem State.bankOpened_sealed (s : State) (b : Nat) : (s.bankOpened b).get (sealedF b) = 0 := by
  rw [State.bankOpened, State.get_set_other _ _ (sealedF_key_ne (by decide) b).symm, State.get_unseal_same]

/-- A write that reaches the active bank is counted, and nothing else of what it names changes. -/
theorem State.logged_facts (s : State) (b scope index source : Nat) :
    ((s.abortSeal b).corrected scope index source).okay.mem = s.mem ∧
      ((s.abortSeal b).corrected scope index source).okay.get ERR_COUNT0.CORRECTED =
        min (s.get ERR_COUNT0.CORRECTED + 1) (2 ^ 32 - 1) := by
  constructor
  · rw [State.okay_mem, State.corrected_mem, State.abortSeal_mem]
  · rw [State.get_okay, State.corrected_count, s.get_abortSeal b (by decide)]

/-! ### Descriptor pointers (R26, R33) -/

/-- Every field at an address lies in its word, and no two fields share a bit place. -/
structure Laid (a : Nat) : Prop where
  addr : ∀ f ∈ fieldsAt a, f.addr = a
  lo : ∀ f ∈ fieldsAt a, f.lo < 64
  apart : ((fieldsAt a).map Fld.lo).Nodup

theorem fieldsAt_cluster {p o : Nat} (hp : p < nPhys) (ho : o < 0x10000) (h8 : o % 8 = 0) :
    fieldsAt (arrBase p + o) = if o < 0x4000 then fieldsARR p o else if o < 0x8000 then fieldsACC p (o - 0x4000)
      else if o < 0xC000 then fieldsFIN p (o - 0x8000) else fieldsGAU p (o - 0xC000) := by
  have : nPhys = 2176 := rfl
  unfold fieldsAt arrBase
  rw [if_neg (by omega), if_neg (by omega), if_pos (by omega)]
  dsimp only
  rw [show (0x030010000000 + p * 0x10000 + o - 0x030010000000) / 0x10000 = p by omega,
    show (0x030010000000 + p * 0x10000 + o - 0x030010000000) % 0x10000 = o by omega]

theorem fieldsAt_row {r o : Nat} (hr : r < 64) (ho : o < 0x10000) (h8 : o % 8 = 0) :
    fieldsAt (exnBase r + o) = fieldsEXN r o := by
  unfold fieldsAt exnBase
  rw [if_neg (by omega), if_neg (by omega), if_neg (by omega), if_pos (by omega)]
  rw [show (0x030020000000 + r * 0x10000 + o - 0x030020000000) / 0x10000 = r by omega,
    show (0x030020000000 + r * 0x10000 + o - 0x030020000000) % 0x10000 = o by omega]

/-- Where descriptor pointers stand: in every cluster's blocks, every row's, and seven for each bank of the device's. -/
theorem pointerAt_cases {a : Nat} {x : Nat × Nat × Nat × Nat} (h : pointerAt a = some x) :
    (∃ p < nPhys, ∃ o ∈ [8, 0x10, 0x8008, 0x8010, 0xC008, 0xC010], a = arrBase p + o) ∨
      (∃ r < 64, ∃ o ∈ [8, 0x10], a = exnBase r + o) ∨ a ∈ (pointersOf 0 ++ pointersOf 1).map (·.1) := by
  unfold pointerAt at h
  split at h
  next hc =>
    left
    simp only [arrBase, nPhys] at hc
    refine ⟨(a - arrBase 0) / 0x10000, by simp only [arrBase, nPhys]; omega, (a - arrBase 0) % 0x10000, ?_,
      by simp only [arrBase]; omega⟩
    dsimp only at h
    split at h
    case h_7 => cases h
    all_goals next e => rw [e]; decide
  next =>
    split at h
    next hr =>
      right; left
      simp only [exnBase] at hr
      refine ⟨(a - exnBase 0) / 0x10000, by simp only [exnBase]; omega, (a - exnBase 0) % 0x10000, ?_,
        by simp only [exnBase]; omega⟩
      split at h
      case h_3 => cases h
      all_goals next e => rw [e]; decide
    next =>
      right; right
      obtain ⟨e, he, hx⟩ := List.exists_of_findSome?_eq_some h
      split at hx
      next ha =>
        rw [← ha]
        simp only [List.mem_append, List.mem_map] at he ⊢
        rcases he with ⟨y, hy, rfl⟩ | ⟨y, hy, rfl⟩
        · exact ⟨y, .inl hy, rfl⟩
        · exact ⟨y, .inr hy, rfl⟩
      next => cases hx

theorem laid_of {a : Nat} {l : List Fld} {n : Nat} {los : List Nat} (h : fieldsAt a = l)
    (ha : l.map Fld.addr = List.replicate n a) (hl : l.map Fld.lo = los) (hn : los.Nodup) (hlt : ∀ x ∈ los, x < 64) : Laid a := by
  subst h hl
  exact ⟨fun f hf => List.eq_of_mem_replicate (ha ▸ List.mem_map_of_mem hf), fun f hf => hlt _ (List.mem_map_of_mem hf), hn⟩

/-- The fields of a descriptor pointer are laid out in its word. -/
theorem pointerAt_laid {a : Nat} {x : Nat × Nat × Nat × Nat} (h : pointerAt a = some x) : Laid a := by
  rcases pointerAt_cases h with ⟨p, hp, o, ho, rfl⟩ | ⟨r, hr, o, ho, rfl⟩ | hm
  · have fin (o : Nat) : finBase p + o = arrBase p + (0x8000 + o) := by unfold finBase arrBase; omega
    have gau (o : Nat) : gauBase p + o = arrBase p + (0xC000 + o) := by unfold gauBase arrBase; omega
    simp only [List.mem_cons, List.not_mem_nil, or_false] at ho
    rcases ho with rfl | rfl | rfl | rfl | rfl | rfl
    · exact laid_of (n := 3) (los := [6, 32, 41]) (fieldsAt_cluster hp (by decide) (by decide)) rfl rfl (by decide) (by decide)
    · exact laid_of (n := 3) (los := [6, 32, 41]) (fieldsAt_cluster hp (by decide) (by decide)) rfl rfl (by decide) (by decide)
    · exact laid_of (n := 3) (los := [6, 32, 41]) (fieldsAt_cluster hp (by decide) (by decide)) (fin 8 ▸ rfl) rfl (by decide)
        (by decide)
    · exact laid_of (n := 3) (los := [6, 32, 41]) (fieldsAt_cluster hp (by decide) (by decide)) (fin 0x10 ▸ rfl) rfl (by decide)
        (by decide)
    · exact laid_of (n := 2) (los := [5, 32]) (fieldsAt_cluster hp (by decide) (by decide)) (gau 8 ▸ rfl) rfl (by decide)
        (by decide)
    · exact laid_of (n := 2) (los := [5, 32]) (fieldsAt_cluster hp (by decide) (by decide)) (gau 0x10 ▸ rfl) rfl (by decide)
        (by decide)
  · simp only [List.mem_cons, List.not_mem_nil, or_false] at ho
    rcases ho with rfl | rfl
    · exact laid_of (n := 2) (los := [3, 32]) (fieldsAt_row hr (by decide) (by decide)) rfl rfl (by decide) (by decide)
    · exact laid_of (n := 2) (los := [3, 32]) (fieldsAt_row hr (by decide) (by decide)) rfl rfl (by decide) (by decide)
  · have all : ∀ a ∈ (pointersOf 0 ++ pointersOf 1).map (·.1),
        (∀ f ∈ fieldsAt a, f.addr = a) ∧ (∀ f ∈ fieldsAt a, f.lo < 64) ∧ ((fieldsAt a).map Fld.lo).Nodup := by decide
    obtain ⟨haddr, hlo, hn⟩ := all a hm
    exact ⟨haddr, hlo, hn⟩

theorem Laid.nodup {a : Nat} (h : Laid a) : ((fieldsAt a).map Fld.key).Nodup :=
  List.pairwise_map.2 ((List.pairwise_map.1 h.apart).imp_of_mem fun {f g} hf hg hne hk => hne (by
    simp only [Fld.key, h.addr f hf, h.addr g hg] at hk
    omega))

/-- A field of a descriptor pointer is no field of a register that holds no descriptor pointer. -/
theorem key_ne_of_pointerAt {a : Nat} {x : Nat × Nat × Nat × Nat} (h : pointerAt a = some x) {f g : Fld} (hf : f ∈ fieldsAt a)
    (hg : pointerAt (g.key / 64) = none) : f.key ≠ g.key := by
  intro e
  have place : f.key / 64 = a := by
    rw [Fld.key, (pointerAt_laid h).addr f hf]
    have := (pointerAt_laid h).lo f hf
    omega
  rw [← e, place, h] at hg
  cases hg

/-- The fields that a write to a bank may change beside its own word. -/
theorem pointerAt_logged : ∀ g ∈ [TICK_STATUS.SEALED_A, TICK_STATUS.SEALED_B, TICK_PHASE.ARM] ++ abortFields ++ correctedFields,
    pointerAt (g.key / 64) = none := by decide

theorem bits_field (v lo w : Nat) : bits v (lo + w - 1) lo % 2 ^ w = v / 2 ^ lo % 2 ^ w := by
  unfold bits
  rcases Nat.eq_zero_or_pos w with rfl | hw
  · simp [Nat.mod_one]
  · rw [show lo + w - 1 + 1 - lo = w by omega, Nat.mod_mod]

/-- What `putFields` does to a list of fields. -/
def putAll (s : State) (v : Nat) (l : List Fld) : State :=
  l.foldl (fun s f => if f.acc = .rw then s.set f (bits v (f.lo + f.width - 1) f.lo) else s) s

theorem putAll_only (s : State) (v : Nat) (l : List Fld) : OnlyFields s (putAll s v l) l :=
  List.foldlRecOn (motive := fun t => OnlyFields s t l) l _ (OnlyFields.refl s l) fun t ht f hf => by
    split
    · exact ht.set _ hf
    · exact ht

theorem putAll_get (s : State) (v : Nat) {l : List Fld} (hn : (l.map Fld.key).Nodup) {f : Fld} (hf : f ∈ l) (hrw : f.acc = .rw) :
    (putAll s v l).get f = f.of v := by
  induction l generalizing s with
  | nil => cases hf
  | cons g l ih =>
    obtain ⟨hg, hl⟩ := List.nodup_cons.1 hn
    rcases List.mem_cons.1 hf with rfl | hf
    · refine ((putAll_only _ v l).2 f hg).trans ?_
      dsimp only
      rw [if_pos hrw, State.get_set_same, bits_field, Fld.of]
    · exact ih _ hl hf

/-- A list memory or kernel region takes a word of the bank that the address lies in, unless that bank is active. -/
theorem execBankWrite_eq {s : State} {a v b : Nat} {c : Instr} (hs : s.accepts = true) (ha : a % 8 = 0)
    (hc : (c = .listMemoryWrite a v ∧ ∃ u i o, regionOf s.active a = .list u i o ∧ b = o / bankSize u) ∨
      (c = .kernelRegionWrite a v ∧ ∃ r o, regionOf s.active a = .rowSetup r o ∧ 0x20000 ≤ o ∧ o < 0x40000 ∧
        b = (o - 0x20000) / 0x10000)) :
    ∃ sc i src, exec c s = .next (match s.touchBank b sc i src with
      | (some s, _) => (s.wr a 8 v).okay
      | (none, s) => s.okay) := by
  rcases hc with ⟨rfl, u, i, o, hr, rfl⟩ | ⟨rfl, r, o, hr, h1, h2, rfl⟩
  · refine ⟨(unitScope u i).1, (unitScope u i).2, srcTICK, ?_⟩
    rw [show exec (.listMemoryWrite a v) s = .next (s.write fun s => s.writeList a v) from rfl, s.write_accepts _ hs,
      State.writeList, if_pos ha, hr] <;> rfl
  · refine ⟨scRow, r, srcEXN, ?_⟩
    rw [show exec (.kernelRegionWrite a v) s = .next (s.write fun s => s.writeKernel a v) from rfl, s.write_accepts _ hs,
      State.writeKernel, if_pos ha, hr]
    dsimp only
    rw [if_pos ⟨h1, h2⟩] <;> rfl

theorem execPointerWrite_eq {s : State} {a b sc i src : Nat} (v : Nat) (hs : s.accepts = true)
    (hp : pointerAt a = some (b, sc, i, src)) :
    exec (.descriptorPointerWrite a v) s = .next (match s.touchBank b sc i src with
      | (some s, _) => (putAll s v (fieldsAt a)).okay
      | (none, s) => s.okay) := by
  rw [show exec (.descriptorPointerWrite a v) s = .next (s.write fun s => s.writePointer a v) from rfl, s.write_accepts _ hs,
    State.writePointer, hp]
  rfl

theorem State.rd_okay (s : State) (a n : Nat) : s.okay.rd a n = s.rd a n := by
  unfold State.rd
  rw [State.okay_mem]

/-- Settles O12: a write opens a bank that is not active, and is logged where it reaches the active one. -/
theorem bankWritesUnsealOrAreLogged : Obligations.BankWritesUnsealOrAreLogged := by
  intro s a v b hs ha hb
  refine ⟨fun c hc => ?_, fun sc i src hp => ⟨fun h => ?_, fun h => ?_⟩⟩
  · obtain ⟨sc, i, src, run⟩ := execBankWrite_eq hs ha hc
    refine ⟨fun h => ?_, fun h => ?_⟩
    · rw [State.touchBank_open h] at run
      refine ⟨_, run, rfl, ?_, fun x hx => ?_, ?_, ?_⟩
      · rw [State.rd_okay, State.rd_wr]
      · rw [State.okay_mem]
        exact ((s.bankOpened b).wr_kept a 8 v x hx).trans (by rw [s.bankOpened_mem])
      · rw [State.get_okay, State.get_wr, s.bankOpened_sealed]
      · rw [State.get_okay, State.get_wr, s.bankOpened_arm]
    · rw [State.touchBank_active h] at run
      exact ⟨_, run, s.logged_facts b sc i src⟩
  · have run := execPointerWrite_eq v hs hp
    rw [State.touchBank_open h] at run
    have only := putAll_only (s.bankOpened b) v (fieldsAt a)
    have apart {g : Fld} (hg : pointerAt (g.key / 64) = none) : g.key ∉ (fieldsAt a).map Fld.key := fun hm => by
      obtain ⟨f, hf, e⟩ := List.mem_map.1 hm
      exact key_ne_of_pointerAt hp hf hg e
    refine ⟨_, run, rfl, ?_, ?_, ?_, fun f hf hrw => ?_⟩
    · rw [State.okay_mem]
      exact (congrArg State.mem only.1 :).trans (s.bankOpened_mem b)
    · rw [State.get_okay, only.2 _ (apart ?_), s.bankOpened_sealed]
      rcases sealedF_cases b with ⟨-, e⟩ | ⟨-, e⟩ <;> rw [e] <;> decide
    · rw [State.get_okay, only.2 _ (apart (by decide)), s.bankOpened_arm]
    · rw [State.get_okay, putAll_get _ v (pointerAt_laid hp).nodup hf hrw]
  · have run := execPointerWrite_eq v hs hp
    rw [State.touchBank_active h] at run
    obtain ⟨hmem, hcount⟩ := s.logged_facts b sc i src
    refine ⟨_, run, hmem, fun f hf => ?_, hcount⟩
    have apart (l : List Fld) (hl : ∀ g ∈ l, pointerAt (g.key / 64) = none) : f.key ∉ l.map Fld.key := fun hm => by
      obtain ⟨g, hg, e⟩ := List.mem_map.1 hm
      exact key_ne_of_pointerAt hp hf (hl g hg) e.symm
    rw [State.get_okay, State.corrected_get _ _ _ _ (apart _ fun g hg => pointerAt_logged g (List.mem_append_right _ hg)),
      s.get_abortSeal b (apart _ fun g hg => pointerAt_logged g (List.mem_append_left _ (List.mem_append_right _ hg)))]

end Sys2Proof.Machine

namespace Sys2Proof.Machine
open Reg

/-! ### Completions (R17, R25, R75, R136, R149, R228, R264, R277) -/

theorem State.runningRec_of {s : State} (h : s.tick.freeze = 0) (u : UnitKind) (idx eng : Nat) :
    s.runningRec u idx eng = s.busyRec u idx eng := if_pos h

theorem Waiting.runs {s : State} {u : UnitKind} {idx eng : Nat} {info : List Nat} (h : Waiting s u idx eng info) :
    ∃ b, s.runningRec u idx eng = some b ∧ b.waits = true ∧ b.info = info := by
  obtain ⟨hz, b, hb, hw⟩ := h
  exact ⟨b, (State.runningRec_of hz _ _ _).trans hb, hw⟩

/-- An entry that completes and then sets fields alone has freed its engine. -/
theorem OnlyFields.ofDone {s t : State} {u : UnitKind} {idx eng cc : Nat} {l : List Fld}
    (h : OnlyFields (s.engineDone u idx eng cc) t l) :
    t.busyRec u idx eng = none ∧ OnlyFields { s with tick := t.tick } t l := by
  obtain ⟨x, hx⟩ := h.eq_flds
  refine ⟨?_, ?_, h.2⟩
  · rw [hx]
    exact s.engineDone_idle u idx eng cc
  · rw [hx]
    rfl

/-- What a completed operation of the array counts. -/
def State.opCounted (s : State) (p : Nat) (info : List Nat) : State :=
  let s := ((s.inc (ARR_OPS.ENTRIES p)).inc (ARR_OPS.PASSES p) (info.getD 2 0)).inc (ARR_MACS.MACS p) (info.getD 3 0)
  s.setAll [(ARR_LAST.DESC p, info.getD 0 0), (ARR_LAST.QUAD p, info.getD 1 0),
    (ARR_LAST.AT_TICK p, s.get TICK_COUNT.COUNT % 2 ^ 48)]

/-- The fields of a completed operation. -/
def opFields (p : Nat) : List Fld :=
  [ARR_OPS.ENTRIES p, ARR_OPS.PASSES p, ARR_MACS.MACS p, ARR_LAST.DESC p, ARR_LAST.QUAD p, ARR_LAST.AT_TICK p, ARR_BUSY.BUSY_CC p]

theorem State.opCounted_only (s : State) (p : Nat) (info : List Nat) : OnlyFields s (s.opCounted p info) (opFields p) :=
  ((((OnlyFields.refl s _).inc _ (by simp [opFields])).inc _ (by simp [opFields])).inc _ (by simp [opFields])).setAll
    (by simp [opFields])

theorem State.opCounted_entries (s : State) (p : Nat) (info : List Nat) :
    (s.opCounted p info).get (ARR_OPS.ENTRIES p) = sat (ARR_OPS.ENTRIES p) (s.get (ARR_OPS.ENTRIES p) + 1) := by
  unfold State.opCounted
  rw [State.get_setAll_other, State.get_inc_other, State.get_inc_other, State.get_inc_same, sat]
  all_goals simp [Fld.key, ARR_OPS.ENTRIES, ARR_OPS.PASSES, ARR_MACS.MACS, ARR_LAST.DESC, ARR_LAST.QUAD, ARR_LAST.AT_TICK] <;> omega

theorem State.opCounted_desc (s : State) (p : Nat) (info : List Nat) :
    (s.opCounted p info).get (ARR_LAST.DESC p) = info.getD 0 0 % 2 ^ (ARR_LAST.DESC p).width := by
  unfold State.opCounted
  refine State.get_setAll_at _ ?_ (List.mem_cons_self ..)
  simp [Fld.key, ARR_LAST.DESC, ARR_LAST.QUAD, ARR_LAST.AT_TICK]

theorem State.matmulDone_eq {s : State} {p eng : Nat} {b : Busy} (hz : s.tick.freeze = 0)
    (hb : s.busyRec .cluster p eng = some b) (hw : b.waits = true) (cc : Nat) :
    s.matmulDone p eng cc = (s.engineDone .cluster p eng cc).opCounted p b.info ∨
      ∃ n a, s.matmulDone p eng cc =
        { ((s.engineDone .cluster p eng cc).opCounted p b.info).inc (ARR_BUSY.BUSY_CC p) n with arr := a } := by
  unfold State.matmulDone
  rw [State.runningRec_of hz, hb]
  dsimp only
  rw [hw, Bool.not_true, if_neg Bool.false_ne_true]
  split
  · exact .inl rfl
  · split
    · exact .inr ⟨_, _, rfl⟩
    · exact .inl rfl

theorem State.matmulDone_done {s : State} {p eng : Nat} {b : Busy} (hz : s.tick.freeze = 0)
    (hb : s.busyRec .cluster p eng = some b) (hw : b.waits = true) (cc : Nat) {t : State} (ht : t = s.matmulDone p eng cc) :
    t.busyRec .cluster p eng = none ∧ t.mem = s.mem ∧
      t.get (ARR_OPS.ENTRIES p) = sat (ARR_OPS.ENTRIES p) (s.get (ARR_OPS.ENTRIES p) + 1) ∧
      t.get (ARR_LAST.DESC p) = b.info.getD 0 0 % 2 ^ (ARR_LAST.DESC p).width ∧
      OnlyFields { s with tick := t.tick, arr := t.arr } t (opFields p) := by
  have idle := s.engineDone_idle .cluster p eng cc
  have hent := (s.engineDone .cluster p eng cc).opCounted_entries p b.info
  have hdesc := (s.engineDone .cluster p eng cc).opCounted_desc p b.info
  obtain ⟨x, hx⟩ := ((s.engineDone .cluster p eng cc).opCounted_only p b.info).eq_flds
  have only := (s.engineDone .cluster p eng cc).opCounted_only p b.info
  rcases State.matmulDone_eq hz hb hw cc with e | ⟨n, a, e⟩ <;> rw [ht, e]
  · refine ⟨?_, ?_, hent, hdesc, ?_⟩
    · rw [hx]; exact idle
    · rw [hx]; rfl
    · exact ⟨by rw [hx]; rfl, only.2⟩
  · have apart (f : Fld) (hf : f ∈ [ARR_OPS.ENTRIES p, ARR_LAST.DESC p]) : f.key ≠ (ARR_BUSY.BUSY_CC p).key := by
      rcases List.mem_pair.1 hf with rfl | rfl <;> simp [Fld.key, ARR_OPS.ENTRIES, ARR_LAST.DESC, ARR_BUSY.BUSY_CC]
    have kept (g : Fld) : State.get { ((s.engineDone .cluster p eng cc).opCounted p b.info).inc (ARR_BUSY.BUSY_CC p) n with
        arr := a } g = (((s.engineDone .cluster p eng cc).opCounted p b.info).inc (ARR_BUSY.BUSY_CC p) n).get g := rfl
    refine ⟨?_, ?_, ?_, ?_, ?_, fun g hg => ?_⟩
    · rw [hx]; exact idle
    · rw [hx]; rfl
    · rw [kept, State.get_inc_other _ _ (apart _ (by simp)), hent]; rfl
    · rw [kept, State.get_inc_other _ _ (apart _ (by simp)), hdesc]
    · rw [hx]; rfl
    · rw [kept]
      exact (only.inc _ (by simp [opFields])).2 g hg

/-- What a completed chain sets. -/
def chainFields (p : Nat) : List Fld :=
  [FIN_STATUS.BUSY p, FIN_OPS.CHAINS p, FIN_GROUPS.GROUPS p, FIN_LAST.DESC p, FIN_LAST.AT_TICK p]

theorem State.chainDone (s : State) (p cc d n : Nat) {t : State}
    (ht : t = ((s.engineDone .cluster p engFin cc).set (FIN_STATUS.BUSY p) 0).chainCounts p d n) :
    t.busyRec .cluster p engFin = none ∧ t.get (FIN_STATUS.BUSY p) = 0 ∧
      t.get (FIN_OPS.CHAINS p) = sat (FIN_OPS.CHAINS p) (s.get (FIN_OPS.CHAINS p) + 1) ∧
      t.get (FIN_GROUPS.GROUPS p) = sat (FIN_GROUPS.GROUPS p) (s.get (FIN_GROUPS.GROUPS p) + n) ∧
      t.get (FIN_LAST.DESC p) = d % 2 ^ (FIN_LAST.DESC p).width ∧
      OnlyFields { s with tick := t.tick } t (chainFields p) := by
  have only : OnlyFields (s.engineDone .cluster p engFin cc) t (chainFields p) := by
    rw [ht]
    exact ((((OnlyFields.refl _ _).set _ (by simp [chainFields])).inc _ (by simp [chainFields])).inc _
      (by simp [chainFields])).setAll (by simp [chainFields])
  obtain ⟨idle, only⟩ := only.ofDone
  refine ⟨idle, ?_, ?_, ?_, ?_, only⟩ <;> rw [ht, State.chainCounts]
  · rw [State.get_setAll_other, State.get_inc_other, State.get_inc_other, State.get_set_same, Nat.zero_mod]
    all_goals simp [Fld.key, FIN_STATUS.BUSY, FIN_OPS.CHAINS, FIN_GROUPS.GROUPS, FIN_LAST.DESC, FIN_LAST.AT_TICK] <;> omega
  · rw [State.get_setAll_other, State.get_inc_other, State.get_inc_same, State.get_set_other]
    · rfl
    all_goals simp [Fld.key, FIN_STATUS.BUSY, FIN_OPS.CHAINS, FIN_GROUPS.GROUPS, FIN_LAST.DESC, FIN_LAST.AT_TICK] <;> omega
  · rw [State.get_setAll_other, State.get_inc_same, State.get_inc_other, State.get_set_other]
    · rfl
    all_goals simp [Fld.key, FIN_STATUS.BUSY, FIN_OPS.CHAINS, FIN_GROUPS.GROUPS, FIN_LAST.DESC, FIN_LAST.AT_TICK] <;> omega
  · exact State.get_setAll_at _ (by simp [Fld.key, FIN_LAST.DESC, FIN_LAST.AT_TICK]) (List.mem_cons_self ..)

theorem State.tableLoadDone (s : State) (p cc : Nat) {t : State}
    (ht : t = ((s.engineDone .cluster p engFin cc).set (FIN_STATUS.BUSY p) 0).inc (FIN_OPS.TABLE_LOADS p)) :
    t.busyRec .cluster p engFin = none ∧ t.get (FIN_STATUS.BUSY p) = 0 ∧
      t.get (FIN_OPS.TABLE_LOADS p) = sat (FIN_OPS.TABLE_LOADS p) (s.get (FIN_OPS.TABLE_LOADS p) + 1) ∧
      OnlyFields { s with tick := t.tick } t [FIN_STATUS.BUSY p, FIN_OPS.TABLE_LOADS p] := by
  have only : OnlyFields (s.engineDone .cluster p engFin cc) t [FIN_STATUS.BUSY p, FIN_OPS.TABLE_LOADS p] := by
    rw [ht]
    exact ((OnlyFields.refl _ _).set _ (by simp)).inc _ (by simp)
  obtain ⟨idle, only⟩ := only.ofDone
  have apart : (FIN_STATUS.BUSY p).key ≠ (FIN_OPS.TABLE_LOADS p).key := by
    simp [Fld.key, FIN_STATUS.BUSY, FIN_OPS.TABLE_LOADS]
    omega
  refine ⟨idle, ?_, ?_, only⟩ <;> rw [ht]
  · rw [State.get_inc_other _ _ apart, State.get_set_same, Nat.zero_mod]
  · rw [State.get_inc_same, State.get_set_other _ _ apart.symm]
    rfl

theorem State.tapDone (s : State) (p cc d n : Nat) {t : State}
    (ht : t = ((s.engineDone .cluster p engTap cc).set (GAU_STATUS.TAPPING p) 0).setAll
      [(GAU_LAST.DESC p, d), (GAU_LAST.AT_TICK p, n)]) :
    t.busyRec .cluster p engTap = none ∧ t.get (GAU_STATUS.TAPPING p) = 0 ∧
      t.get (GAU_LAST.DESC p) = d % 2 ^ (GAU_LAST.DESC p).width ∧
      OnlyFields { s with tick := t.tick } t [GAU_STATUS.TAPPING p, GAU_LAST.DESC p, GAU_LAST.AT_TICK p] := by
  have only : OnlyFields (s.engineDone .cluster p engTap cc) t [GAU_STATUS.TAPPING p, GAU_LAST.DESC p, GAU_LAST.AT_TICK p] := by
    rw [ht]
    exact ((OnlyFields.refl _ _).set _ (by simp)).setAll (by simp)
  obtain ⟨idle, only⟩ := only.ofDone
  refine ⟨idle, ?_, ?_, only⟩ <;> rw [ht]
  · rw [State.get_setAll_other, State.get_set_same, Nat.zero_mod]
    simp [Fld.key, GAU_STATUS.TAPPING, GAU_LAST.DESC, GAU_LAST.AT_TICK]
    omega
  · exact State.get_setAll_at _ (by simp [Fld.key, GAU_LAST.DESC, GAU_LAST.AT_TICK]) (List.mem_cons_self ..)

theorem State.moveDone (s : State) (p cc n : Nat) (x : List (Nat × Nat)) {t : State}
    (ht : t = { ((s.engineDone .port p engMover cc).inc VNR_MOVES.MOVES).inc VNR_MOVES.KIB n with tallies := x }) :
    t.busyRec .port p engMover = none ∧ t.get VNR_MOVES.MOVES = sat VNR_MOVES.MOVES (s.get VNR_MOVES.MOVES + 1) ∧
      OnlyFields { s with tick := t.tick, tallies := t.tallies } t [VNR_MOVES.MOVES, VNR_MOVES.KIB] := by
  have only := ((OnlyFields.refl (s.engineDone .port p engMover cc) _).inc 1
    (by simp : VNR_MOVES.MOVES ∈ [VNR_MOVES.MOVES, VNR_MOVES.KIB])).inc n (by simp : VNR_MOVES.KIB ∈ _)
  obtain ⟨y, hy⟩ := only.eq_flds
  have moved := (State.get_inc_other ((s.engineDone .port p engMover cc).inc VNR_MOVES.MOVES) n
    (by decide : VNR_MOVES.MOVES.key ≠ VNR_MOVES.KIB.key)).trans (State.get_inc_same _ _ _)
  generalize ((s.engineDone .port p engMover cc).inc VNR_MOVES.MOVES).inc VNR_MOVES.KIB n = u at ht only hy moved
  have kept (g : Fld) : t.get g = u.get g := by rw [ht]; rfl
  refine ⟨?_, (kept _).trans moved, ?_, fun g hg => (kept g).trans (only.2 g hg)⟩
  · rw [ht, hy]
    exact s.engineDone_idle ..
  · rw [ht, hy]
    rfl

/-- What a completed entry of an update unit sets. -/
def updFields (u : Nat) : List Fld := [UPD_STATUS.BUSY u, UPD_STATUS.OP u, UPD_LAST.OP u, UPD_LAST.AT_TICK u]

theorem State.updDone_done {s : State} {u n : Nat} (hr : (s.runningRec .update u engUpd).isSome) (hop : s.get (UPD_STATUS.OP u) = n)
    (hn : n < 4) (cc : Nat) {t : State} (ht : t = s.updDone u n cc) :
    t.busyRec .update u engUpd = none ∧ t.get (UPD_STATUS.BUSY u) = 0 ∧ t.get (UPD_LAST.OP u) = n ∧
      OnlyFields { s with tick := t.tick } t (updFields u) := by
  rw [State.updDone, if_pos ⟨hr, hop⟩] at ht
  have only : OnlyFields (s.engineDone .update u engUpd cc) t (updFields u) := by
    rw [ht]
    exact (OnlyFields.refl _ _).setAll (by simp [updFields])
  obtain ⟨idle, only⟩ := only.ofDone
  have apart (x : Nat) : ([(UPD_STATUS.BUSY u, 0), (UPD_STATUS.OP u, 0), (UPD_LAST.OP u, n), (UPD_LAST.AT_TICK u, x)].map
      fun e => e.1.key).Nodup := by
    simp [Fld.key, UPD_STATUS.BUSY, UPD_STATUS.OP, UPD_LAST.OP, UPD_LAST.AT_TICK]
    omega
  refine ⟨idle, ?_, ?_, only⟩ <;> rw [ht]
  · exact (State.get_setAll_at _ (apart _) (List.mem_cons_self ..)).trans (Nat.zero_mod _)
  · exact (State.get_setAll_at _ (apart _) (by simp)).trans (Nat.mod_eq_of_lt hn)

/-! ### A SEND's frames leave (R277, R282, R283) -/

theorem State.link_eq (s : State) (p : Nat) : s.link p = Store.get s.links Link.reset p := by
  unfold State.link Store.get
  induction s.links with
  | nil => rfl
  | cons e l ih =>
    rw [List.find?_cons, Store.find?]
    by_cases h : e.1 = p
    · rw [if_pos h, beq_iff_eq.2 h]
      rfl
    · rw [if_neg h, beq_eq_false_iff_ne.2 h]
      exact ih

theorem State.link_setLink_same (s : State) (p : Nat) (l : Link) : (s.setLink p l).link p = l := by
  rw [State.link_eq]
  exact Store.get_put_same s.links Link.reset p l

theorem State.link_setLink_other (s : State) {p q : Nat} (l : Link) (h : q ≠ p) : (s.setLink p l).link q = s.link q := by
  rw [State.link_eq, State.link_eq]
  exact Store.get_put_other s.links Link.reset Link.reset l h

/-- What sending a frame keeps: memory, the job state, and the frames that have not left. -/
structure Sent (s t : State) : Prop where
  mem : t.mem = s.mem
  job : t.job = s.job
  due : ∀ p, (t.link p).due = (s.link p).due

theorem Sent.refl (s : State) : Sent s s := ⟨rfl, rfl, fun _ => rfl⟩

theorem Sent.trans {s t u : State} (h : Sent s t) (k : Sent t u) : Sent s u :=
  ⟨k.mem.trans h.mem, k.job.trans h.job, fun p => (k.due p).trans (h.due p)⟩

theorem Sent.of_reports {s t : State} (h : Reports s t) : Sent s t :=
  ⟨h.mem, h.job, fun p => congrArg (fun x => (x.link p).due) h.rest⟩

theorem Sent.set (s : State) {f : Fld} (v : Nat) (hf : TICK_STATUS.STATE.key ≠ f.key) : Sent s (s.set f v) :=
  ⟨rfl, State.get_set_other s v hf, fun _ => rfl⟩

theorem Sent.setLink (s : State) (p : Nat) (l : Link) (hl : l.due = (s.link p).due) : Sent s (s.setLink p l) :=
  ⟨rfl, rfl, fun q => by
    by_cases h : q = p
    · subst h
      rw [State.link_setLink_same, hl]
    · rw [State.link_setLink_other _ _ h]⟩

theorem Sent.emit (s : State) (m : Msg) : Sent s (s.emit m) := .of_reports ((Reports.refl s).emit m)

theorem Sent.transmit (s : State) (p : Nat) (f : Frame) : Sent s (s.transmit p f) := by
  unfold State.transmit
  dsimp only
  split
  · exact .setLink _ _ _ rfl
  · refine ((Sent.setLink _ _ _ ?_).trans (.set _ _ ?_)).trans (.emit _ _)
    · rfl
    · simp only [Fld.key, TICK_STATUS.STATE, LNK_TX_BYTES.BYTES, tickBase, lnkBase]
      omega

theorem Sent.raise_corrected (s : State) (e : Err) (he : e.cls = 0) : Sent s (s.raise e) := by
  have counted := Sent.set s (min (s.get ERR_COUNT0.CORRECTED + 1) (2 ^ 32 - 1))
    (by decide : TICK_STATUS.STATE.key ≠ ERR_COUNT0.CORRECTED.key)
  rw [s.raise_corrected e he]
  split
  · exact counted.trans (.of_reports ((Reports.refl _).log _ _ _ _))
  · exact counted

theorem Sent.raiseOpen_corrected (s : State) (scope index source code : Nat) : Sent s (s.raiseOpen 0 scope index source code) :=
  Sent.trans (t := s.draw.2) ⟨rfl, rfl, fun _ => rfl⟩ (Sent.raise_corrected s.draw.2 ⟨0, scope, index, source, code, s.draw.1 % 2 ^ 48⟩ rfl)

theorem Sent.foreign (s : State) (p : Nat) : Sent s (s.foreign p) := by
  have dropped := (Sent.set s (min (s.get (LNK_DROP.FOREIGN p) + 1) (2 ^ 16 - 1)) (f := LNK_DROP.FOREIGN p) (by
    simp only [Fld.key, TICK_STATUS.STATE, LNK_DROP.FOREIGN, tickBase, lnkBase]
    omega)).trans (.set _ 1 (by decide : TICK_STATUS.STATE.key ≠ FAB_FLAGS.FOREIGN.key))
  exact dropped.trans (.raiseOpen_corrected _ _ _ _ _)

theorem Sent.noRoute (s : State) (p : Nat) : Sent s (s.noRoute p) := by
  have dropped := (Sent.set s (min (s.get (LNK_DROP.NOROUTE p) + 1) (2 ^ 16 - 1)) (f := LNK_DROP.NOROUTE p) (by
    simp only [Fld.key, TICK_STATUS.STATE, LNK_DROP.NOROUTE, tickBase, lnkBase]
    omega)).trans (.set _ 1 (by decide : TICK_STATUS.STATE.key ≠ FAB_FLAGS.NOROUTE.key))
  exact dropped.trans ⟨rfl, rfl, fun _ => rfl⟩

theorem Sent.sendVia (s : State) (p q alt : Nat) (f : Frame) : Sent s (s.sendVia p q alt f) := by
  unfold State.sendVia
  split
  · exact .noRoute s p
  · split
    · split
      · exact .refl s
      · exact .transmit s _ f
    · split
      · exact .transmit s _ f
      · exact .foreign s _

/-- The frames that have not left of a port leave all. -/
theorem State.leaveAll_sent (s : State) (p : Nat) :
    (s.leaveAll p).mem = s.mem ∧ (s.leaveAll p).job = s.job ∧ ((s.leaveAll p).link p).due = [] := by
  have late (l : List (Nat × Frame)) (m : Nat) : m ≤ l.foldl (fun m d => max m d.1) m ∧
      ∀ d ∈ l, d.1 ≤ l.foldl (fun m d => max m d.1) m := by
    induction l generalizing m with
    | nil => exact ⟨Nat.le_refl m, nofun⟩
    | cons e l ih =>
      obtain ⟨hm, hd⟩ := ih (max m e.1)
      refine ⟨(Nat.le_max_left ..).trans hm, fun d hd' => ?_⟩
      rcases List.mem_cons.1 hd' with rfl | hd'
      · exact (Nat.le_max_right ..).trans hm
      · exact hd d hd'
  have none : ((s.link p).due.filter fun d => !decide (d.1 ≤ (s.link p).due.foldl (fun m d => max m d.1) 0)) = [] :=
    List.filter_eq_nil_iff.2 fun d hd => by simp [(late (s.link p).due 0).2 d hd]
  unfold State.leaveAll State.leave
  dsimp only
  rw [none]
  have sent := List.foldlRecOn (motive := Sent (s.setLink p { s.link p with due := [] }))
    (((s.link p).due.filter fun d => decide (d.1 ≤ (s.link p).due.foldl (fun m d => max m d.1) 0)).map (·.2))
    (fun s f => s.sendOwn p f) (.refl _) fun t ht f _ => ht.trans (Sent.sendVia ..)
  exact ⟨sent.mem, sent.job, (sent.due p).trans (by rw [State.link_setLink_same])⟩

/-- Settles O21: each completion frees its engine and counts, case by case. -/
theorem completionsFreeTheEngine : Obligations.CompletionsFreeTheEngine := by
  intro s p cc hz
  refine ⟨fun q eng b hp heng hb hw => ?_, fun d n hp h => ?_, fun hp h => ?_, fun d hp h => ?_, fun l hp h => ?_,
    fun n hp h => ?_, fun c n b hc hp hb hop => ?_⟩
  · refine ⟨_, show execMatmulComplete p q cc s = _ from if_pos hp, State.matmulDone_done hz hb hw cc ?_⟩
    rw [heng, State.runningRec_of hz]
  · obtain ⟨b, hb, hw, hi⟩ := h.runs
    refine ⟨_, show execChainComplete p cc s = _ from if_pos hp, s.chainDone p cc d n ?_⟩
    rw [hb]
    simp [hw, hi]
  · obtain ⟨b, hb, hw, hi⟩ := h.runs
    refine ⟨_, show execTableLoadComplete p cc s = _ from if_pos hp, s.tableLoadDone p cc ?_⟩
    rw [hb]
    simp [hw, hi]
  · obtain ⟨b, hb, hw, hi⟩ := h.runs
    refine ⟨_, show execTapComplete p cc s = _ from if_pos hp,
      s.tapDone p cc d (((s.engineDone .cluster p engTap cc).set (GAU_STATUS.TAPPING p) 0).get TICK_COUNT.COUNT % 2 ^ 48) ?_⟩
    rw [hb]
    simp only [hi]
  · obtain ⟨b, hb, hw, -⟩ := h.runs
    obtain ⟨hmem, hjob, hdue⟩ := s.leaveAll_sent p
    have run : exec (.sendComplete p cc) s = .next ((s.leaveAll p).engineDone .port p engEgress cc) := by
      rw [show exec (.sendComplete p cc) s = execSendComplete p cc s from rfl, execSendComplete, State.forUnit, if_pos hp, hb]
      dsimp only
      rw [if_pos hw]
    exact ⟨_, run, State.engineDone_idle _ _ _ _ _, hmem, hjob, hdue⟩
  · obtain ⟨b, hb, hw, hi⟩ := h.runs
    refine ⟨_, show execMoveComplete p cc s = _ from if_pos hp,
      s.moveDone p cc ((Store.get s.tallies 0 kibTally + b.info.headD 0) / 1024)
        (Store.put s.tallies 0 kibTally ((Store.get s.tallies 0 kibTally + b.info.headD 0) % 1024)) ?_⟩
    rw [hb]
    exact if_pos hw
  · have hr : (s.runningRec .update p engUpd).isSome := by rw [State.runningRec_of hz, hb]; rfl
    rcases hc with ⟨rfl, rfl⟩ | ⟨rfl, rfl⟩ | ⟨rfl, rfl⟩
    · exact ⟨_, show execNormComplete p cc s = _ from if_pos hp, State.updDone_done hr hop (by decide) cc rfl⟩
    · exact ⟨_, show execNormSumComplete p cc s = _ from if_pos hp, State.updDone_done hr hop (by decide) cc rfl⟩
    · exact ⟨_, show execApplyComplete p cc s = _ from if_pos hp, State.updDone_done hr hop (by decide) cc rfl⟩

end Sys2Proof.Machine

namespace Sys2Proof.Machine
open Reg

/-! ### Bindings (R161, R227) -/

/-- `t` is `s` but for bytes above LPDDR and what is reported at the next glue-up; no word is uncorrectable. -/
structure Bound (s t : State) : Prop where
  rest : { t with mem := s.mem, err := s.err, freeCtr := s.freeCtr } = s
  clean : t.poison = []
  low : ∀ x, x < veneerBase 0 → Memory.read t.mem x = Memory.read s.mem x

theorem Bound.refl {s : State} (h : s.poison = []) : Bound s s := ⟨rfl, h, fun _ _ => rfl⟩

section
variable {s t : State} (h : Bound s t)
include h

theorem Bound.flds : t.flds = s.flds := (congrArg State.flds h.rest :)
theorem Bound.tick : t.tick = s.tick := (congrArg State.tick h.rest :)
theorem Bound.get (g : Fld) : t.get g = s.get g := congrArg (fun x => Store.get x g.reset g.key) h.flds

theorem Bound.trans {u : State} (k : Bound t u) : Bound s u := by
  refine ⟨?_, k.clean, fun x hx => (k.low x hx).trans (h.low x hx)⟩
  rw [← h.rest, ← k.rest]

end

/-- With no uncorrectable word, a write meets none. -/
theorem State.noteWrite_clean {s : State} (h : s.poison = []) (f : Err → Err) (rs : List (Nat × Nat)) (v : Nat) :
    s.noteWrite f rs v = s := by
  obtain ⟨_, _, _, poison⟩ := s
  subst h
  rfl

theorem Bound.wr {s : State} (h : s.poison = []) {a : Nat} (ha : veneerBase 0 ≤ a) (n v : Nat) : Bound s (s.wr a n v) := by
  refine ⟨?_, ?_, fun x hx => Memory.read_writeBytes_other _ _ _ (.inl (by omega))⟩
  · obtain ⟨_, _, _, poison⟩ := s
    subst h
    rfl
  · show s.poison.filter _ = []
    rw [h]
    rfl

theorem Bound.writeSlot {s : State} (h : s.poison = []) (v : Nat) {oob : State → State} (ho : ∀ t, t.poison = [] → Bound t (oob t))
    (e : ApplyEntry) (slot : Nat) : Bound s (s.writeSlot v oob e slot) := by
  unfold State.writeSlot
  split
  · exact .refl h
  · dsimp only
    split
    · exact ho s h
    · rw [State.noteWrite_clean h]
      exact .wr h (by unfold veneerBase; omega) _ _

theorem Bound.foldl {α : Type} {s : State} (h : s.poison = []) {f : State → α → State}
    (hf : ∀ t a, t.poison = [] → Bound t (f t a)) (l : List α) : Bound s (l.foldl f s) :=
  List.foldlRecOn (motive := Bound s) l f (.refl h) fun t ht a _ => ht.trans (hf t a ht.clean)

theorem State.updOob_bound {s : State} (h : s.poison = []) (u : Nat) : Bound s (s.updOob u) := ⟨rfl, h, fun _ _ => rfl⟩
theorem State.rootOob_bound {s : State} (h : s.poison = []) : Bound s s.rootOob := ⟨rfl, h, fun _ _ => rfl⟩

theorem State.bindAll_bound {s : State} (h : s.poison = []) (slot : Nat) : Bound s (s.bindAll slot) := by
  unfold State.bindAll
  exact .foldl h (fun _ _ ht => .foldl ht (fun _ _ hu => .writeSlot hu _ (fun _ hv => State.updOob_bound hv _) _ _) _) _

theorem State.rootBind_bound {s : State} (h : s.poison = []) (d : Nat) : Bound s (s.rootBind d) := by
  unfold State.rootBind
  exact .foldl h (fun _ _ ht => .writeSlot ht _ (fun _ hv => State.rootOob_bound hv) _ _) _

theorem State.rootBindAll_bound {s : State} (h : s.poison = []) : Bound s s.rootBindAll :=
  .foldl h (fun _ _ ht => State.rootBind_bound ht _) _

/-! ### Requests wait for the square-up (R34, R35, R287) -/

theorem State.trySquareUp_waits {s : State} (h : s.allGathered = false) : s.trySquareUp = s := by
  have h : s.children.all (fun p => s.tick.gathers.any fun g => g.1 == p) = false := h
  rw [State.trySquareUp, h]
  simp

theorem State.evalSchedule_only (s : State) :
    OnlyFields s s.evalSchedule [UPD_SCHED_VAL0.LR, UPD_SCHED_VAL0.WD, UPD_SCHED_VAL1.EMA_DECAY, UPD_SCHED_VAL1.CLIP] :=
  (OnlyFields.refl s _).setAll (by simp)

/-- Gathers count as before where the children and the gathers are the same. -/
theorem allGathered_congr {s t : State} (hc : t.get FAB_TREE.CHILDREN = s.get FAB_TREE.CHILDREN) (hg : t.tick.gathers = s.tick.gathers) :
    t.allGathered = s.allGathered := by
  simp only [State.allGathered, State.children, hc, hg]

/-- A start that has written its bindings, before the square-up. -/
def State.startAsked (s : State) : State :=
  (((s.updTick fun t => { t with startPend := true }).bindAll ((s.get TICK_STEP.STEP + 1) % 2)).rootBindAll).evalSchedule

theorem State.startAsked_kept {s : State} (h : s.poison = []) :
    s.startAsked.tick = { s.tick with startPend := true } ∧ s.startAsked.job = s.job ∧
      s.startAsked.get FAB_TREE.CHILDREN = s.get FAB_TREE.CHILDREN := by
  have bound := State.bindAll_bound (s := s.updTick fun t => { t with startPend := true }) h ((s.get TICK_STEP.STEP + 1) % 2)
  have bound := bound.trans (State.rootBindAll_bound bound.clean)
  have tick (u : State) : u.evalSchedule.tick = u.tick := State.setAll_tick _ _
  unfold State.startAsked
  generalize State.rootBindAll _ = t at bound
  have hget := t.evalSchedule_only.2
  refine ⟨?_, ?_, ?_⟩
  · rw [tick, bound.tick]
    rfl
  · rw [State.job, hget _ (by decide), bound.get]
    rfl
  · rw [hget _ (by decide), bound.get]
    rfl

/-- Settles O11: with a gather missing, neither request goes further than its mark. -/
theorem startAndDryFitWaitForTheSquareUp : Obligations.StartAndDryFitWaitForTheSquareUp := by
  intro s hs hg
  refine ⟨fun hok hclean => ?_, fun b hb hok hseal => ?_⟩
  · obtain ⟨htick, hjob, hch⟩ := State.startAsked_kept hclean
    have waits : s.startAsked.allGathered = false := (allGathered_congr hch (by rw [htick])).trans hg
    have run : exec .tickCtrlStart s = .next s.startAsked.okay := by
      rw [show exec .tickCtrlStart s = .next (s.write State.actStart) from rfl, s.write_accepts _ hs, State.actStart, if_pos hok]
      exact congrArg (fun x : State => Host.Outcome.next x.okay) (State.trySquareUp_waits waits)
    refine ⟨_, run, rfl, ?_, ?_, ?_, ?_⟩
    · rw [State.okay_tick, htick]
    · rw [State.job_okay, hjob]
    · rw [State.okay_tick, htick]
    · rw [State.okay_tick, htick]
  · have hbank : (s.set TICK_DRY.BANK b).get TICK_DRY.BANK = b := (State.get_set_same _ _ _).trans (Nat.mod_eq_of_lt hb)
    have sealed : (s.set TICK_DRY.BANK b).is (sealedF b) = true := by
      rw [State.is, State.get_set_other _ _ (by rcases sealedF_cases b with ⟨-, e⟩ | ⟨-, e⟩ <;> rw [e] <;> decide)]
      exact hseal
    generalize hu : (s.set TICK_DRY.BANK b).updTick (fun t => { t with dryPend := true, dryBank := b }) = u
    have waits : u.allGathered = false := by
      rw [← hg]
      refine allGathered_congr ?_ ?_ <;> rw [← hu]
      · exact State.get_set_other s b (by decide)
      · rfl
    have run : exec (.tickDryStart b) s = .next u.okay := by
      rw [show exec (.tickDryStart b) s = .next (s.write fun s => (s.set TICK_DRY.BANK b).actDry) from rfl,
        s.write_accepts _ hs, State.actDry, hok, Bool.not_true, if_neg Bool.false_ne_true, hbank, if_pos sealed, hu,
        State.trySquareUp_waits waits]
    refine ⟨_, run, rfl, ?_, ?_, ?_, ?_, ?_⟩
    · rw [State.okay_tick, ← hu]; rfl
    · rw [State.get_okay, ← hu]; exact hbank
    · rw [State.job_okay, ← hu]; exact State.get_set_other s b (by decide)
    · rw [State.okay_mem, ← hu]; rfl
    · rw [State.okay_tick, ← hu]; rfl

end Sys2Proof.Machine

namespace Sys2Proof.Machine
open Reg

/-! ### The census snapshot (R63, R64) -/

/-- The fields that a snapshot sets, but for the traffic counts of the memory controllers. -/
def snapshotFields : List Fld :=
  [DEV_CENSUS_HEAD.NEXT_SLOT, DEV_CENSUS_HEAD.WRITTEN, DEV_CENSUS_LAST.STEP] ++ reportFields

/-- A field outside the blocks of the memory controllers. -/
def Fld.offMem (g : Fld) : Prop := g.key < memBase 0 * 64 ∨ memBase 17 * 64 ≤ g.key

/-- `t` is `s` with a part of a snapshot in the slot at `a`. -/
structure Snapped (a : Nat) (s t : State) : Prop where
  rest : { t.unreported with mem := s.mem, poison := s.poison, freeCtr := s.freeCtr, census := s.census } = s.unreported
  get : ∀ g : Fld, g.key ∉ snapshotFields.map Fld.key → g.offMem → t.get g = s.get g
  kept : BytesKept s t [(a, censusBytes)]
  clean : s.poison = [] → t.poison = []

theorem Snapped.refl (a : Nat) (s : State) : Snapped a s s := ⟨rfl, fun _ _ _ => rfl, .refl s _, id⟩

/-- Counting the bytes that a controller moves changes fields of its block. -/
theorem State.memBytes_get (s : State) {c : Nat} (hc : c ≤ 16) (n : Nat) {g : Fld} (hg : g.offMem) :
    (s.memBytes c n).get g = s.get g := by
  have apart (f : Fld) (hf : f ∈ [MEM_BYTES.BYTES c, MEM_REQ.MAX_INFLIGHT c]) : g.key ≠ f.key := by
    have : memBase 0 * 64 ≤ f.key ∧ f.key < memBase 17 * 64 := by
      rcases List.mem_pair.1 hf with rfl | rfl <;> simp only [Fld.key, MEM_BYTES.BYTES, MEM_REQ.MAX_INFLIGHT, memBase] <;> omega
    unfold Fld.offMem at hg
    omega
  unfold State.memBytes
  dsimp only
  rw [State.get_set_other _ _ (apart _ (by simp)), State.get_inc_other _ _ (apart _ (by simp))]
  rfl

/-- Traffic is a number of counts at the controllers. -/
theorem State.memTraffic_counts (s : State) (rs : List (Nat × Nat)) {P : State → Prop} (h : P s)
    (hc : ∀ u c n, c ≤ 16 → P u → P (u.memBytes c n)) : P (s.memTraffic rs) := by
  refine List.foldlRecOn (motive := P) rs _ h fun u hu r _ => ?_
  split
  · exact hu
  · next hr =>
    have low : r.1 / lpddrWindow ≤ 15 := by
      have : r.1 < lpddrEnd := by omega
      unfold lpddrEnd at this
      unfold lpddrWindow
      omega
    dsimp only
    split
    · exact hc _ _ _ (by omega) (hc _ _ _ (by omega) hu)
    · exact hc _ _ _ (by omega) hu

section
variable {a : Nat} {s t : State} (h : Snapped a s t)
include h

theorem Snapped.tick : t.tick = s.tick := (congrArg State.tick h.rest :)
theorem Snapped.xr : t.xr = s.xr := (congrArg State.xr h.rest :)
theorem Snapped.root : t.root = s.root := (congrArg State.root h.rest :)
theorem Snapped.sol : t.sol = s.sol := (congrArg State.sol h.rest :)
theorem Snapped.upd : t.upd = s.upd := (congrArg State.upd h.rest :)
theorem Snapped.pushes : t.host.pushes = s.host.pushes := (congrArg (fun u => u.host.pushes) h.rest :)
theorem Snapped.inbox : t.host.inbox = s.host.inbox := (congrArg (fun u => u.host.inbox) h.rest :)

theorem Snapped.set {f : Fld} (v : Nat) (hf : f.key ∈ snapshotFields.map Fld.key := by decide) : Snapped a s (t.set f v) :=
  ⟨h.rest, fun g hg hm => (State.get_set_other t v fun e => hg (by rwa [e])).trans (h.get g hg hm), h.kept, h.clean⟩

theorem Snapped.wrBytes {x : Nat} {bs : List Nat} (hlo : a ≤ x) (hhi : x + bs.length ≤ a + censusBytes) :
    Snapped a s (t.wrBytes x bs) := by
  refine ⟨h.rest, fun g hg hm => h.get g hg hm, fun y hy => ?_, fun hp => ?_⟩
  · have hout : y < a ∨ a + censusBytes ≤ y := by simpa using hy
    exact (Memory.read_writeBytes_other _ _ _ (by omega)).trans (h.kept y hy)
  · show t.poison.filter _ = []
    rw [h.clean hp]
    rfl

theorem Snapped.zeroRange : Snapped a s (t.zeroRange a censusBytes) := by
  refine ⟨h.rest, fun g hg hm => h.get g hg hm, fun y hy => ?_, fun hp => ?_⟩
  · exact (Memory.read_eraseRange_other _ (by simpa using hy)).trans (h.kept y hy)
  · show t.poison.filter _ = []
    rw [h.clean hp]
    rfl

theorem Snapped.memBytes {c : Nat} (hc : c ≤ 16) (n : Nat) : Snapped a s (t.memBytes c n) :=
  ⟨h.rest, fun g hg hm => (t.memBytes_get hc n hm).trans (h.get g hg hm), h.kept, h.clean⟩

theorem Snapped.memTraffic (rs : List (Nat × Nat)) : Snapped a s (t.memTraffic rs) :=
  t.memTraffic_counts rs h fun _ _ n hc hu => hu.memBytes hc n

theorem Snapped.report {u : State} (k : Reports t u) : Snapped a s u := by
  refine ⟨?_, fun g hg hm => ?_, fun x hx => ?_, fun hp => ?_⟩
  · rw [k.rest]
    exact h.rest
  · exact (k.get g fun hk => hg (by simp only [snapshotFields, List.map_append, List.mem_append]; exact .inr hk)).trans (h.get g hg hm)
  · rw [k.mem]
    exact h.kept x hx
  · exact (congrArg State.poison k.rest :).trans (h.clean hp)

theorem Snapped.emptyCensus : Snapped a s { t with census := [] } := ⟨h.rest, h.get, h.kept, h.clean⟩

theorem Snapped.writeCensusEntries : Snapped a s (t.writeCensusEntries a) := by
  refine List.foldlRecOn (motive := Snapped a s) _ _ h.zeroRange fun u hu e _ => ?_
  split
  · refine hu.wrBytes (by omega) ?_
    rw [length_leBytes]
    unfold censusBytes
    omega
  · exact hu

end

theorem State.length_censusHeader (s : State) (n : Nat) : (s.censusHeader n).length = 64 := by
  simp [State.censusHeader]

/-- A snapshot with no error at the memory writes its slot and moves on to the next. -/
theorem State.snapshot_snapped (s : State) : Snapped s.censusSlot s (s.snapshot []) := by
  unfold State.snapshot
  split
  · exact (Snapped.refl _ s).emptyCensus
  · have next : Snapped s.censusSlot s s.nextCensusSlot := ((Snapped.refl _ s).set _).set _
    have written := ((next.writeCensusEntries.wrBytes (bs := s.censusHeader (s.nextCensusSlot.get DEV_CENSUS_HEAD.WRITTEN))
      (Nat.le_refl _) (by rw [State.length_censusHeader]; unfold censusBytes; omega)).memTraffic
        [(s.censusSlot, censusBytes)]).set (f := DEV_CENSUS_LAST.STEP) (s.get TICK_STEP.STEP)
    dsimp only [List.findSome?]
    split
    · exact (written.report ((Reports.refl _).event _ _)).emptyCensus
    · exact written.emptyCensus

/-! ### The end of a dry fit (R31, R34) -/

theorem State.stopTicks_host (s : State) : s.stopTicks.host = s.host := by
  have dropped (u : State) : u.arrSingle.dropDue.host = u.host := by
    obtain ⟨l, hl⟩ := u.arrSingle.dropDue_eq
    rw [hl]
    simp [State.arrSingle]
  unfold State.stopTicks
  rw [State.setAll_host]
  refine (dropped _).trans ?_
  split
  · rfl
  · exact State.setAll_host _ _

/-- The fields that the stop of a step's ticks sets, but for those of every cluster. -/
def stopFields : List Fld := [TICK_STATUS.DRY, TICK_STATUS.STRETCHING, SOL_STATUS.ACTIVE, SOL_STATUS.GATED]

theorem State.get_stopTicks (s : State) {g : Fld} (hg : g.key ∉ stopFields.map Fld.key) (ht : touches [] g.key = false) :
    s.stopTicks.get g = s.get g := by
  obtain ⟨hdry, hsol⟩ : g.key ∉ [TICK_STATUS.DRY.key, TICK_STATUS.STRETCHING.key] ∧
      g.key ∉ [SOL_STATUS.ACTIVE.key, SOL_STATUS.GATED.key] := by
    simpa [stopFields, and_assoc] using hg
  have dropped (u : State) : u.arrSingle.dropDue.get g = u.get g := by
    obtain ⟨l, hl⟩ := u.arrSingle.dropDue_eq
    rw [hl]
    exact u.get_arrSingle ht
  unfold State.stopTicks
  rw [State.get_setAll_other _ _ (by simpa using hdry)]
  refine (dropped _).trans ?_
  split
  · rfl
  · exact State.get_setAll_other _ _ (by simpa using hsol)

/-- The fields that the end of a dry fit sets, but for those of every cluster. -/
def dryEndFields : List Fld :=
  stopFields ++ [TICK_DRY.DONE, TICK_DRY.PASS, ERR_STATUS.HANDLING, ERR_STATUS.PENDING, ERR_STATUS.QDEPTH]

theorem State.endDry_get (s : State) {g : Fld} (hg : g.key ∉ dryEndFields.map Fld.key) (ht : touches [] g.key = false) :
    (s.endDry []).get g = (s.snapshot []).get g := by
  obtain ⟨hstop, hdry, herr⟩ : g.key ∉ stopFields.map Fld.key ∧ g.key ∉ [TICK_DRY.DONE.key, TICK_DRY.PASS.key] ∧
      g.key ∉ [ERR_STATUS.HANDLING.key, ERR_STATUS.PENDING.key, ERR_STATUS.QDEPTH.key] := by
    simpa [dryEndFields, not_or, and_assoc] using hg
  unfold State.endDry State.endHandling
  dsimp only
  rw [State.get_setAll_other _ _ (by simpa using herr), State.get_updErr, State.get_setAll_other _ _ (by simpa using hdry),
    State.get_stopTicks _ hstop ht]

theorem State.stopTicks_dry (s : State) : s.stopTicks.get TICK_STATUS.DRY = 0 := by
  unfold State.stopTicks
  exact State.get_setAll_at _ (by decide) (List.mem_cons_self ..)

theorem State.stopTicks_mem (s : State) : s.stopTicks.mem = s.mem :=
  ((Upset.refl haltFields s).stopTicks fun _ h => h).mem

/-- What the end of a dry fit reports, and that it stops the ticks. -/
theorem State.endDry_ends (s : State) :
    (s.endDry []).get TICK_STATUS.DRY = 0 ∧ (s.endDry []).get TICK_DRY.DONE = 1 ∧
      (s.endDry []).get TICK_DRY.PASS = ofBool (!(s.snapshot []).tick.dryFault) ∧ (s.endDry []).tick.glue = 0 ∧
      (s.endDry []).host = (s.snapshot []).host ∧ (s.endDry []).mem = (s.snapshot []).mem := by
  have bit (b : Bool) : ofBool b % 2 ^ TICK_DRY.PASS.width = ofBool b := by cases b <;> rfl
  unfold State.endDry State.endHandling
  dsimp only
  generalize s.snapshot [] = u
  refine ⟨?_, ?_, ?_, ?_, ?_, ?_⟩
  · rw [State.get_setAll_other _ _ (by decide), State.get_updErr, State.get_setAll_other, State.stopTicks_dry]
    simp only [List.map_cons, List.map_nil, List.mem_cons, List.not_mem_nil, or_false, not_or]
    exact ⟨by decide, by decide⟩
  · rw [State.get_setAll_other _ _ (by decide), State.get_updErr]
    exact State.get_setAll_at _ (by simp [Fld.key, TICK_DRY.DONE, TICK_DRY.PASS]) (List.mem_cons_self ..)
  · rw [State.get_setAll_other _ _ (by decide), State.get_updErr]
    exact (State.get_setAll_at _ (by simp [Fld.key, TICK_DRY.DONE, TICK_DRY.PASS])
      (List.mem_cons_of_mem _ (List.mem_cons_self ..))).trans (bit _)
  · rw [State.setAll_tick, State.updErr_tick, State.setAll_tick, State.stopTicks_glue]
  · rw [State.setAll_host, State.updErr_host, State.setAll_host, State.stopTicks_host]
  · rw [State.setAll_mem, State.updErr_mem, State.setAll_mem, State.stopTicks_mem]

/-- Settles O30: the end of a dry fit is a snapshot and the stop of its ticks. -/
theorem dryFitCommitsNothing : Obligations.DryFitCommitsNothing := by
  intro s hdry hjob hglue hact
  have run : exec (.commit []) s = .next (s.endDry []) := by
    have hr : s.running = true := by simp [State.running, hdry]
    rw [show exec (.commit []) s = execCommit [] s from rfl, execCommit, hr, hglue, hact, if_pos (by decide), if_pos hdry]
  have snap := s.snapshot_snapped
  have kept (g : Fld) (hg : g.key ∉ dryEndFields.map Fld.key) (ht : touches [] g.key = false)
      (hs : g.key ∉ snapshotFields.map Fld.key) (hm : g.offMem) : (s.endDry []).get g = s.get g :=
    (s.endDry_get hg ht).trans (snap.get g hs hm)
  obtain ⟨dry, done, pass, glue, host, mem⟩ := s.endDry_ends
  refine ⟨_, run, ?_, ?_, ?_, dry, glue, ?_, done, ?_, ?_, fun x hx => ?_⟩
  · exact kept _ (by decide) (by decide) (by decide) (.inl (by decide))
  · rw [host, snap.pushes]
  · rw [host, snap.inbox]
  · exact (kept TICK_STATUS.STATE (by decide) (by decide) (by decide) (.inl (by decide))).trans hjob
  · rw [pass, snap.tick]
  · exact kept _ (by decide) (by decide) (by decide) (.inl (by decide))
  · rw [mem]
    exact snap.kept x hx

end Sys2Proof.Machine

namespace Sys2Proof.Machine
open Reg

/-! ### Barriers that wait (R289) -/

/-- A child's gather of the action is missing. -/
def State.awaitsChild (s : State) : Prop := ∃ q ∈ s.children, ∀ b ∈ s.tick.barriers, b.1 ≠ q

theorem State.awaitsChild.all {s : State} (h : s.awaitsChild) :
    s.children.all (fun p => s.tick.barriers.any fun b => b.1 == p) = false := by
  obtain ⟨q, hq, hb⟩ := h
  exact List.all_eq_false.2 ⟨q, hq, by simpa using fun v hm => hb (q, v) hm rfl⟩

theorem State.awaitsChild.congr {s t : State} (h : s.awaitsChild) (hc : t.get FAB_TREE.CHILDREN = s.get FAB_TREE.CHILDREN)
    (hb : t.tick.barriers = s.tick.barriers) : t.awaitsChild := by
  simpa only [State.awaitsChild, State.children, hc, hb] using h

theorem State.gatherOnce_waits {s : State} (h : s.awaitsChild) : s.gatherOnce = s := by
  rw [State.gatherOnce, h.all]
  simp

theorem State.glueAdvance_waits {s : State} (h : s.awaitsChild) (hg : s.tick.glue ≠ 2) : s.glueAdvance = s := by
  rw [State.glueAdvance, State.gatherOnce_waits h]
  simp [hg]

/-! ### The phase change (R32, R33) -/

/-- The fields that a run abandoned by the root engine sets. -/
def abandonFields : List Fld := [ROOT_FAULTS.ABANDONED, ROOT_FLAGS.ABANDONED]

theorem State.rootAbandon_only (s : State) : ∃ r, OnlyFields { s with root := r } s.rootAbandon abandonFields := by
  refine List.foldlRecOn (motive := fun t : State => ∃ r, OnlyFields { s with root := r } t abandonFields) s.root.recs _
    ⟨s.root, .refl _ _⟩ ?_
  rintro t ⟨r, ht⟩ e -
  split
  · obtain ⟨x, hx⟩ := ht.eq_flds
    have dropped : OnlyFields { s with root := { r with recs := Store.insert r.recs e.1 { e.2 with run := false, outcome := 4 } } }
        (t.setRootRec e.1 { e.2 with run := false, outcome := 4 }) abandonFields := by
      refine ⟨by rw [hx]; rfl, fun g hg => (ht.2 g hg :)⟩
    exact ⟨_, (dropped.inc 1 (by simp [abandonFields])).set 1 (by simp [abandonFields])⟩
  · exact ⟨r, ht⟩

/-- The fields that a swap of the banks sets, but for those of reports. -/
def swapFields : List Fld :=
  [TICK_STATUS.BANK, TICK_ABI.MAJOR, TICK_ABI.MINOR, TICK_ABI.STEP_TICKS, TICK_PHASE.ARM] ++ abandonFields

/-- The banks swap, and the change is no longer due. -/
theorem State.swapBanks_done (s : State) :
    s.swapBanks.get TICK_STATUS.BANK = 1 - s.get TICK_STATUS.BANK ∧ s.swapBanks.get TICK_PHASE.ARM = 0 ∧
      s.swapBanks.tick = { s.tick with phaseOk := false } ∧ s.swapBanks.mem = s.mem ∧
      ∀ g : Fld, g.key ∉ swapFields.map Fld.key → g.key ∉ reportFields.map Fld.key → s.swapBanks.get g = s.get g := by
  unfold State.swapBanks
  extract_lets at' b m h u
  have tick : u.tick = { s.tick with phaseOk := false } := by
    show { (s.setAll _).tick with phaseOk := false } = _
    rw [State.setAll_tick]
  have mem : u.mem = s.mem := State.setAll_mem _ _
  have nodup : ([(TICK_STATUS.BANK, b), (TICK_ABI.MAJOR, bits h 7 0), (TICK_ABI.MINOR, bits h 15 8),
      (TICK_ABI.STEP_TICKS, bits h 47 32), (TICK_PHASE.ARM, 0)].map fun e => e.1.key).Nodup := by
    simp only [List.map_cons, List.map_nil]
    decide
  have set (f : Fld) (v : Nat) (hm : (f, v) ∈ [(TICK_STATUS.BANK, b), (TICK_ABI.MAJOR, bits h 7 0), (TICK_ABI.MINOR, bits h 15 8),
      (TICK_ABI.STEP_TICKS, bits h 47 32), (TICK_PHASE.ARM, 0)]) : u.get f = v % 2 ^ f.width := State.get_setAll_at s nodup hm
  have other (g : Fld) (hg : g.key ∉ swapFields.map Fld.key) : u.get g = s.get g := State.get_setAll_other s _ (by
    simp only [swapFields, abandonFields, List.map_append, List.mem_append, not_or] at hg
    exact hg.1)
  clear_value u
  obtain ⟨r, only⟩ := u.rootAbandon_only
  have rep := (Reports.refl u.rootAbandon).event 0x06 (leBytes 8 at' ++ [0])
  have kept (g : Fld) (h1 : g.key ∉ abandonFields.map Fld.key) (h2 : g.key ∉ reportFields.map Fld.key) :
      (u.rootAbandon.event 0x06 (leBytes 8 at' ++ [0])).get g = u.get g := (rep.get g h2).trans (only.2 g h1)
  refine ⟨?_, ?_, ?_, ?_, fun g h1 h2 => ?_⟩
  · rw [kept _ (by decide) (by decide), set _ b (by simp)]
    exact Nat.mod_eq_of_lt (show 1 - _ < 2 by omega)
  · rw [kept _ (by decide) (by decide), set _ 0 (by simp)]
    rfl
  · rw [rep.tick, ← tick]
    exact (congrArg State.tick only.1 :)
  · rw [rep.mem, ← mem]
    exact (congrArg State.mem only.1 :)
  · rw [kept g (fun hm => h1 (by simp only [swapFields, List.map_append, List.mem_append]; exact .inr hm)) h2, other g h1]

/-- The fields that a missed phase change sets, with those of the schedule of the step to come. -/
def missFields : List Fld :=
  [TICK_PHASE.ARM, TICK_PHASE.MISSED, UPD_SCHED_VAL0.LR, UPD_SCHED_VAL0.WD, UPD_SCHED_VAL1.EMA_DECAY, UPD_SCHED_VAL1.CLIP]

/-- A missed phase change goes on to action 7. -/
theorem State.phaseMiss_toSeven (s : State) :
    s.phaseMiss.toSeven.get TICK_PHASE.ARM = 0 ∧ s.phaseMiss.toSeven.get TICK_PHASE.MISSED = 1 ∧
      s.phaseMiss.toSeven.tick.glue = 7 ∧ s.phaseMiss.toSeven.mem = s.mem ∧
      ∀ g : Fld, g.key ∉ missFields.map Fld.key → g.key ∉ reportFields.map Fld.key → s.phaseMiss.toSeven.get g = s.get g := by
  unfold State.phaseMiss State.toSeven
  extract_lets at'
  generalize hu : (s.setAll [(TICK_PHASE.ARM, 0), (TICK_PHASE.MISSED, 1)]).updTick
    (fun t => { t with phaseOk := false, phaseLost := false }) = u
  have rep := (Reports.refl u).event 0x06 (leBytes 8 at' ++ [1])
  have tick (v : State) : v.evalSchedule.tick = v.tick := State.setAll_tick _ _
  have mem (v : State) : v.evalSchedule.mem = v.mem := State.setAll_mem _ _
  generalize u.event 0x06 (leBytes 8 at' ++ [1]) = v at rep
  have kept (g : Fld) (h1 : g.key ∉ [UPD_SCHED_VAL0.LR, UPD_SCHED_VAL0.WD, UPD_SCHED_VAL1.EMA_DECAY, UPD_SCHED_VAL1.CLIP].map
      Fld.key) (h2 : g.key ∉ reportFields.map Fld.key) : ((v.toGlue 7).evalSchedule).get g = u.get g :=
    ((v.toGlue 7).evalSchedule_only.2 g h1).trans (rep.get g h2)
  refine ⟨?_, ?_, ?_, ?_, fun g h1 h2 => ?_⟩
  · rw [kept _ (by decide) (by decide), ← hu, State.get_updTick]
    exact State.get_setAll_at _ (by decide) (List.mem_cons_self ..)
  · rw [kept _ (by decide) (by decide), ← hu, State.get_updTick]
    exact State.get_setAll_at _ (by decide) (List.mem_cons_of_mem _ (List.mem_cons_self ..))
  · rw [tick]
    rfl
  · rw [mem, State.toGlue, State.updTick_mem, rep.mem, ← hu, State.updTick_mem, State.setAll_mem]
  · obtain ⟨ha, hs⟩ : g.key ∉ [TICK_PHASE.ARM.key, TICK_PHASE.MISSED.key] ∧ g.key ∉ [UPD_SCHED_VAL0.LR, UPD_SCHED_VAL0.WD,
        UPD_SCHED_VAL1.EMA_DECAY, UPD_SCHED_VAL1.CLIP].map Fld.key := by
      simpa [missFields, and_assoc] using h1
    rw [kept g hs h2, ← hu, State.get_updTick, State.get_setAll_other _ _ (by simpa using ha)]

/-! ### Action 7 (R36, R367, R368) -/

/-- A missing input holds the glue-up: counted once, and the mark stays whether or not a push holds it too. -/
theorem State.holdInput_holds (s : State) (hh : s.tick.held = false) :
    (s.holdInput.tick = { s.tick with held := true } ∧ s.holdInput.mem = s.mem ∧ s.holdInput.job = s.job ∧
      s.holdInput.get TICK_GLUE.HOLDS = sat TICK_GLUE.HOLDS (s.get TICK_GLUE.HOLDS + 1)) := by
  have rep := (Reports.refl (s.inc TICK_GLUE.HOLDS)).event 0x08 [0]
  rw [State.holdInput, hh, if_neg Bool.false_ne_true]
  refine ⟨?_, ?_, ?_, ?_⟩
  · rw [show State.tick _ = { ((s.inc TICK_GLUE.HOLDS).event 0x08 [0]).tick with held := true } from rfl, rep.tick]
    rfl
  · rw [State.updTick_mem, rep.mem]
    rfl
  · rw [State.job_updTick, rep.job, State.job, State.get_inc_other _ _ (by decide)]
    rfl
  · rw [State.get_updTick, rep.get _ (by decide), State.get_inc_same]
    rfl

theorem State.holdPush_kept (s : State) :
    s.holdPush.tick.glue = s.tick.glue ∧ s.holdPush.tick.held = s.tick.held ∧ s.holdPush.mem = s.mem ∧ s.holdPush.job = s.job ∧
      s.holdPush.get TICK_GLUE.HOLDS = s.get TICK_GLUE.HOLDS := by
  have rep := (Reports.refl (s.inc BCP_OUTBOX_STAT.HOLDS)).event 0x08 [1]
  unfold State.holdPush
  split
  · exact ⟨rfl, rfl, rfl, rfl, rfl⟩
  · have tick : ((s.inc BCP_OUTBOX_STAT.HOLDS).event 0x08 [1]).tick = s.tick := rep.tick
    refine ⟨?_, ?_, ?_, ?_, ?_⟩
    · exact (congrArg TickSt.glue tick :)
    · exact (congrArg TickSt.held tick :)
    · rw [State.updTick_mem, rep.mem]
      rfl
    · rw [State.job_updTick, rep.job, State.job, State.get_inc_other _ _ (by decide)]
      rfl
    · rw [State.get_updTick, rep.get _ (by decide), State.get_inc_other _ _ (by decide)]

/-- Settles O32: the three ways of action 6 and 7 by the branches of their definitions. -/
theorem phaseChangeAndActionSeven : Obligations.PhaseChangeAndActionSeven := by
  intro s hjob
  have hr : s.running = true := by simp [State.running, hjob]
  refine ⟨fun hglue hact => ⟨fun hok hall _ wait => ?_, fun miss => ?_⟩,
    fun hglue => ⟨fun hpend => ?_, fun hpend hres hheld => ?_, fun hpend hres hdue hgath => ?_⟩⟩
  · obtain ⟨bank, arm, tick, mem, get⟩ := s.swapBanks_done
    have run : exec .phaseChange s = .next (s.swapBanks.updTick fun t => { t with actDone := true }) := by
      rw [show exec .phaseChange s = execPhaseChange s from rfl, execPhaseChange, hr, hglue, hact, hok, hall,
        if_pos (by decide), if_pos (by decide), State.glueAdvance_waits]
      · refine State.awaitsChild.congr wait (get FAB_TREE.CHILDREN (by decide) (by decide)) ?_
        rw [show State.tick _ = { s.swapBanks.tick with actDone := true } from rfl, tick]
      · rw [show State.tick _ = { s.swapBanks.tick with actDone := true } from rfl, tick, hglue]
        decide
    refine ⟨_, run, bank, arm, rfl, ?_, mem, get _ (by decide) (by decide), get _ (by decide) (by decide)⟩
    rw [show State.tick _ = { s.swapBanks.tick with actDone := true } from rfl, tick]
  · obtain ⟨arm, missed, glue, mem, get⟩ := s.phaseMiss_toSeven
    have no : (s.tick.phaseOk && s.tick.sealedAll) = false := by
      rcases miss with h | h <;> simp [h]
    have run : exec .phaseChange s = .next s.phaseMiss.toSeven := by
      rw [show exec .phaseChange s = execPhaseChange s from rfl, execPhaseChange, hr, hglue, hact, no, if_pos (by decide),
        if_neg Bool.false_ne_true]
    exact ⟨_, run, get _ (by decide) (by decide), arm, missed, glue, mem, get _ (by decide) (by decide)⟩
  all_goals
    have run : exec .inputResidencyCheck s = .next s.residencyCheck := rfl
    have at7 : (s.running && s.tick.glue == 7) = true := by rw [hr, hglue]; rfl
    rw [State.residencyCheck, if_pos at7, hpend] at run
  · rw [if_pos rfl] at run
    have halted := (Upset.refl haltFields s).enterHalt (fun _ h => h) 0
    exact ⟨_, run, State.enterHalt_job hr 0, halted.mem, halted.get _ (by decide)⟩
  · obtain ⟨tick, mem, job, holds⟩ := s.holdInput_holds hheld
    rw [if_neg Bool.false_ne_true, hres] at run
    dsimp only at run
    rw [Bool.false_and, if_neg Bool.false_ne_true, if_neg Bool.false_ne_true] at run
    refine ⟨_, run, ?_⟩
    obtain ⟨glue', held', mem', job', holds'⟩ := s.holdInput.holdPush_kept
    split
    · refine ⟨?_, ?_, job'.trans (job.trans hjob), mem'.trans mem, holds'.trans holds⟩
      · rw [glue', tick, ← hglue]
      · rw [held', tick]
    · refine ⟨?_, ?_, job.trans hjob, mem, holds⟩
      · rw [tick, ← hglue]
      · rw [tick]
  · rw [if_neg Bool.false_ne_true, hres, hdue] at run
    dsimp only at run
    rw [Bool.not_false, Bool.and_true, if_pos rfl, State.trySquareUp_waits] at run
    · exact ⟨_, run, rfl, rfl⟩
    · exact hgath

end Sys2Proof.Machine

namespace Sys2Proof.Machine
open Reg

/-! ### What every block keeps at the commit (R30, R341) -/

/-- The fields that the commit of the blocks keeps. -/
def commitKeep : List Fld :=
  [TICK_STATUS.STATE, TICK_STEP.STEP, UPD_EXPORT_CHK.ADDR, DET_PROV_BASE.ADDR, FAB_TREE.CHILDREN]

/-- `t` is `s` after part of a commit that writes LPDDR in the ranges `rs` alone. -/
structure Commits (rs : List (Nat × Nat)) (s t : State) : Prop where
  get : ∀ g ∈ commitKeep, t.get g = s.get g
  clean : t.poison = []
  xr : t.xr = s.xr
  glue : t.tick.glue = s.tick.glue
  barriers : t.tick.barriers = s.tick.barriers
  runs : s.root.runs = [] → t.root.runs = []
  sols : s.sol.runs = [] → t.sol.runs = []
  still : s.upd.exporting = false → t.upd.exporting = false
  low : ∀ x, x < veneerBase 0 → (∀ r ∈ rs, x < r.1 ∨ r.1 + r.2 ≤ x) → Memory.read t.mem x = Memory.read s.mem x

theorem Commits.refl (rs : List (Nat × Nat)) {s : State} (h : s.poison = []) : Commits rs s s :=
  ⟨fun _ _ => rfl, h, rfl, rfl, rfl, id, id, id, fun _ _ _ => rfl⟩

theorem commitKeep_apart : ∀ g ∈ commitKeep, g.key ∉ reportFields.map Fld.key ∧ g.offMem := by
  simp only [commitKeep, List.forall_mem_cons, Fld.offMem]
  decide

section
variable {rs : List (Nat × Nat)} {s t : State} (h : Commits rs s t)
include h

theorem Commits.trans {u : State} (k : Commits rs t u) : Commits rs s u :=
  ⟨fun g hg => (k.get g hg).trans (h.get g hg), k.clean, k.xr.trans h.xr, k.glue.trans h.glue, k.barriers.trans h.barriers,
    fun e => k.runs (h.runs e), fun e => k.sols (h.sols e), fun e => k.still (h.still e),
    fun x hx hr => (k.low x hx hr).trans (h.low x hx hr)⟩

theorem Commits.foldl {α : Type} {f : State → α → State} (hf : ∀ u a, Commits rs s u → Commits rs s (f u a)) (l : List α) :
    Commits rs s (l.foldl f t) :=
  List.foldlRecOn (motive := Commits rs s) l f h fun _ hu a _ => hf _ a hu

theorem Commits.set {f : Fld} (v : Nat) (hf : f.key ∉ commitKeep.map Fld.key := by decide) : Commits rs s (t.set f v) :=
  { h with get := fun g hg => (State.get_set_other t v fun e => hf (e ▸ List.mem_map_of_mem hg)).trans (h.get g hg) }

theorem Commits.inc {f : Fld} (n : Nat) (hf : f.key ∉ commitKeep.map Fld.key := by decide) : Commits rs s (t.inc f n) := h.set _ hf

theorem Commits.setAll (l : List (Fld × Nat)) (hl : ∀ e ∈ l, e.1.key ∉ commitKeep.map Fld.key) : Commits rs s (t.setAll l) :=
  List.foldlRecOn (motive := Commits rs s) l _ h fun _ hu e he => hu.set _ (hl e he)

theorem Commits.ite {u : State} {c : Prop} [Decidable c] (k : Commits rs s u) : Commits rs s (if c then u else t) := by
  split <;> assumption

theorem Commits.updErr (f : ErrSt → ErrSt) : Commits rs s (t.updErr f) := { h with }
theorem Commits.updHost (f : HostSt → HostSt) : Commits rs s (t.updHost f) := { h with }
theorem Commits.updDet (f : DetSt → DetSt) : Commits rs s (t.updDet f) := { h with }
theorem Commits.pass (n : Nat) : Commits rs s (t.pass n) := { h with }
theorem Commits.setRootRec (d : Nat) (r : RootRec) : Commits rs s (t.setRootRec d r) := { h with }

theorem Commits.updUpd (f : UpdSt → UpdSt) (hf : ∀ x, x.exporting = false → (f x).exporting = false) : Commits rs s (t.updUpd f) :=
  { h with still := fun e => hf _ (h.still e) }

theorem Commits.report {u : State} (k : Reports t u) : Commits rs s u := by
  have tick := k.tick
  refine ⟨fun g hg => (k.get g (commitKeep_apart g hg).1).trans (h.get g hg), ?_, ?_, ?_, ?_, ?_, ?_, ?_, ?_⟩
  · exact (congrArg State.poison k.rest :).trans h.clean
  · exact (congrArg State.xr k.rest :).trans h.xr
  · rw [tick, h.glue]
  · rw [tick, h.barriers]
  · rw [show u.root = t.root from (congrArg State.root k.rest :)]
    exact h.runs
  · rw [show u.sol = t.sol from (congrArg State.sol k.rest :)]
    exact h.sols
  · rw [show u.upd = t.upd from (congrArg State.upd k.rest :)]
    exact h.still
  · rw [k.mem]
    exact h.low

theorem Commits.event (code : Nat) (body : List Nat) : Commits rs s (t.event code body) := h.report ((Reports.refl t).event _ _)

theorem Commits.bound {u : State} (k : Bound t u) : Commits rs s u := by
  have tick := k.tick
  refine ⟨fun g hg => (k.get g).trans (h.get g hg), k.clean, (congrArg State.xr k.rest :).trans h.xr, ?_, ?_, ?_, ?_, ?_,
    fun x hx hr => (k.low x hx).trans (h.low x hx hr)⟩
  · rw [tick, h.glue]
  · rw [tick, h.barriers]
  · rw [show u.root = t.root from (congrArg State.root k.rest :)]
    exact h.runs
  · rw [show u.sol = t.sol from (congrArg State.sol k.rest :)]
    exact h.sols
  · rw [show u.upd = t.upd from (congrArg State.upd k.rest :)]
    exact h.still

theorem Commits.wrBytes {r : Nat × Nat} (hr : r ∈ rs) {a : Nat} {bs : List Nat} (hlo : r.1 ≤ a) (hhi : a + bs.length ≤ r.1 + r.2) :
    Commits rs s (t.wrBytes a bs) :=
  { h with
    clean := by
      show t.poison.filter _ = []
      rw [h.clean]
      rfl
    low := fun x hx ho => (Memory.read_writeBytes_other _ _ _ (by have := ho r hr; omega)).trans (h.low x hx ho) }

theorem Commits.memBytes {c : Nat} (hc : c ≤ 16) (n : Nat) : Commits rs s (t.memBytes c n) :=
  { h with get := fun g hg => (t.memBytes_get hc n (commitKeep_apart g hg).2).trans (h.get g hg) }

theorem Commits.memTraffic (l : List (Nat × Nat)) : Commits rs s (t.memTraffic l) :=
  t.memTraffic_counts l h fun _ _ n hc hu => hu.memBytes hc n

end

/-! ### The update units (R227, R237, R242) -/

theorem length_readBytes (m : List Host.Cell) (a n : Nat) : (Memory.readBytes m a n).length = n := by
  induction n generalizing a with
  | zero => rfl
  | succ n ih => rw [Memory.readBytes, List.length_cons, ih]

/-- The copy of the checksum table stays within its place. -/
theorem Commits.copyChks {rs : List (Nat × Nat)} {s t : State} (h : Commits rs s t) {a : Nat}
    (ha : t.get UPD_EXPORT_CHK.ADDR * 64 = a) (hr : (a, 0x10000) ∈ rs) : Commits rs s t.copyChks := by
  unfold State.copyChks
  rw [ha]
  dsimp only
  split
  · exact h.wrBytes hr (Nat.le_refl _) (by rw [State.rdBytes, length_readBytes])
  · refine List.foldlRecOn (motive := Commits rs s) _ _ (h.bound (State.updOob_bound h.clean 0)) fun u hu k hk => ?_
    have hk := List.mem_range.1 hk
    split
    · refine hu.wrBytes hr (by omega) ?_
      split
      · rw [State.rdBytes, length_readBytes]
        omega
      · rw [List.length_replicate]
        omega
    · exact hu

/-- No counter of an update unit is a field that the commit keeps. -/
theorem updCounts_apart (u : Nat) :
    (UPD_PARAMS.PARAMS u).key ∉ commitKeep.map Fld.key ∧ (UPD_BYTES.LPDDR u).key ∉ commitKeep.map Fld.key := by
  simp only [commitKeep, List.map_cons, List.map_nil, List.mem_cons, List.not_mem_nil, or_false, not_or, Fld.key, UPD_PARAMS.PARAMS,
    UPD_BYTES.LPDDR, TICK_STATUS.STATE, TICK_STEP.STEP, UPD_EXPORT_CHK.ADDR, DET_PROV_BASE.ADDR, FAB_TREE.CHILDREN, tickBase,
    updBase, updCommon, detBase, fabBase]
  omega

theorem Commits.updCommit {rs : List (Nat × Nat)} {s t : State} (h : Commits rs s t) {a : Nat}
    (ha : t.get UPD_EXPORT_CHK.ADDR * 64 = a) (hr : (a, 0x10000) ∈ rs) (n : Nat) :
    Commits rs s (t.updCommit n).1 ∧ (t.updCommit n).1.upd.exporting = false := by
  refine ⟨?_, rfl⟩
  unfold State.updCommit
  extract_lets s1 s2 s3 s4 s5 s6 done s7
  have h1 : Commits rs s s1 := h.bound (State.bindAll_bound h.clean (n % 2))
  have h2 : Commits rs s s2 := h1.foldl (fun _ p hu => hu.inc _ (updCounts_apart p.1).1) _
  have h3 : Commits rs s s3 := h2.foldl (fun _ p hu => hu.inc _ (updCounts_apart p.1).2) _
  have h4 : Commits rs s s4 := h3.ite (h3.inc _)
  have h5 : Commits rs s s5 := h4.ite (h4.inc _)
  have h6 : Commits rs s s6 := by
    show Commits rs s (match s5.upd.ssq with | some v => s5.set UPD_GNORM.SSQ v | none => s5)
    split
    · exact h5.set _
    · exact h5
  have h7 : Commits rs s s7 := by
    refine h6.ite (Commits.event (Commits.set (Commits.set (h6.copyChks ?_ hr) _) _) _ _)
    rw [← ha, h6.get _ (by simp [commitKeep]), h.get _ (by simp [commitKeep])]
  dsimp only
  exact h7.updUpd _ fun _ _ => rfl

/-! ### The root engine, the solver and the input chain (R161, R213, R323) -/

theorem Commits.rootLast {rs : List (Nat × Nat)} {s t : State} (h : Commits rs s t) (d k v : Nat) : Commits rs s (t.rootLast d k v) :=
  h.setAll _ (by simp only [List.forall_mem_cons]; decide)

theorem Commits.rootBind {rs : List (Nat × Nat)} {s t : State} (h : Commits rs s t) (d : Nat) : Commits rs s (t.rootBind d) :=
  h.bound (State.rootBind_bound h.clean d)

theorem Commits.rootOutcome {rs : List (Nat × Nat)} {s t : State} (h : Commits rs s t) (o : RootOutcome) :
    Commits rs s (t.rootOutcome o) := by
  unfold State.rootOutcome
  dsimp only
  split
  · exact ((((h.setRootRec _ _).inc _).rootBind _).pass _).rootLast _ _ _
  · exact (((h.setRootRec _ _).inc _).set _).rootLast _ _ _
  · exact (((h.setRootRec _ _).inc _).set _).rootLast _ _ _
  · exact h.inc _
  · exact ((h.inc _).inc _).set _
  · exact h.setRootRec _ _
  · exact h.setRootRec _ _

theorem Commits.rootCommit {rs : List (Nat × Nat)} {s t : State} (h : Commits rs s t) :
    Commits rs s t.rootCommit ∧ t.rootCommit.root.runs = [] := by
  refine ⟨?_, rfl⟩
  have h1 : Commits rs s { t with root := { t.root with commits := t.root.commits + 1 } } := { h with }
  have h2 := h1.foldl (fun _ o hu => hu.rootOutcome o) t.root.outcomes
  exact { h2 with runs := fun _ => rfl }

theorem Commits.solCount {rs : List (Nat × Nat)} {s t : State} (h : Commits rs s t) (r : SolveRun) : Commits rs s (t.solCount r) := by
  unfold State.solCount
  extract_lets s1 s2 s3 s4 s5 s6 s7
  have h1 : Commits rs s s1 := by
    show Commits rs s (match r.status with
      | 1 => t.inc SOL_OUTCOMES_A.CONVERGED
      | 2 => (t.inc SOL_OUTCOMES_A.CAPPED).set SOL_FLAGS.CAPPED 1
      | 3 => (t.inc SOL_OUTCOMES_B.BREAKDOWN).set SOL_FLAGS.BREAKDOWN 1
      | _ => (t.inc SOL_OUTCOMES_B.NONFINITE).set SOL_FLAGS.NONFINITE 1)
    split
    · exact h.inc _
    · exact (h.inc _).set _
    · exact (h.inc _).set _
    · exact (h.inc _).set _
  have h2 : Commits rs s s2 := h1.ite ((h1.inc _).set _)
  have h3 : Commits rs s s3 := h2.ite ((h2.inc _).set _)
  have h4 : Commits rs s s4 := h3.ite (h3.set _)
  have h5 : Commits rs s s5 := h4.ite ((h4.inc _).set _)
  have h6 : Commits rs s s6 := h5.ite ((h5.inc _).set _)
  exact ((h6.inc _).inc _).setAll _ (by simp only [List.forall_mem_cons]; decide)

theorem Commits.solCommit {rs : List (Nat × Nat)} {s t : State} (h : Commits rs s t) :
    Commits rs s t.solCommit ∧ t.solCommit.sol.runs = [] := by
  refine ⟨?_, rfl⟩
  have h1 := h.foldl (fun _ r hu => hu.solCount r) t.sol.ended
  exact { h1 with sols := fun _ => rfl }

theorem Commits.setDigest {rs : List (Nat × Nat)} {s t : State} (h : Commits rs s t) {fs : List Fld} (d : List Nat)
    (hf : ∀ f ∈ fs, f.key ∉ commitKeep.map Fld.key) : Commits rs s (t.setDigest fs d) := by
  refine h.setAll _ fun e he => ?_
  obtain ⟨p, hp, rfl⟩ := List.mem_map.1 he
  exact hf _ (List.of_mem_zip hp).1

theorem Commits.chainInput {rs : List (Nat × Nat)} {s t : State} (h : Commits rs s t) (n : Nat) : Commits rs s (t.chainInput n) :=
  (h.setDigest _ (by simp only [inputLastRegs, List.forall_mem_cons]; decide)).setDigest _
    (by simp only [inputDigestRegs, List.forall_mem_cons]; decide)

/-! ### The outbox (R366, R368) -/

theorem Commits.emitEth {rs : List (Nat × Nat)} {s t : State} (h : Commits rs s t) (d : Nat) (m : EthMsg) :
    Commits rs s (t.emitEth d m) := h.report ((Reports.refl t).emitEth d m)

theorem Commits.sendPart {rs : List (Nat × Nat)} {s t : State} (h : Commits rs s t) (q : Qp) (b : OutBind) (x : Push)
    (parts : List (Nat × Nat × Nat)) (k psn : Nat) : Commits rs s (t.sendPart q b x parts k psn) := by
  have none (a n : Nat) : t.poisonIn a n = [] := by rw [State.poisonIn, h.clean]; rfl
  unfold State.sendPart
  split
  · next p _ =>
    rw [none]
    exact ((h.memTraffic _).inc _).emitEth _ _
  · exact h.emitEth _ _

theorem Commits.transmitPush {rs : List (Nat × Nat)} {s t : State} (h : Commits rs s t) (q : Qp) (b : OutBind) (x : Push) :
    Commits rs s (t.transmitPush q b x) := by
  unfold State.transmitPush State.setQp
  exact Commits.updHost (Commits.updHost (Commits.foldl h (fun _ e hu => hu.sendPart q b x _ e.2 e.1) _) _) _

theorem Commits.queuePush {rs : List (Nat × Nat)} {s t : State} (h : Commits rs s t) (n : Nat) (r : Bool) :
    Commits rs s (t.queuePush n r) := by
  unfold State.queuePush
  split
  · exact h
  · have h1 := (h.updHost fun x => { x with pushes := x.pushes ++ [⟨n, ofBool r, none, []⟩] }).set (f := BCP_OUTBOX_STAT.PENDING) 1
    unfold State.startPush
    split
    · split
      · exact Commits.ite (h1.transmitPush _ _ _) h1
      · exact h1
    · exact h1

/-! ### Provenance records (R320, R324) -/

theorem length_shake256 (m : List Nat) : (shake256 m).length ≤ 32 := by
  unfold shake256
  generalize takeUp _ _ = l
  have : ((l.take 4).flatMap (leBytes 8)).length = (l.take 4).length * 8 := by
    induction l.take 4 with
    | nil => rfl
    | cons x xs ih => rw [List.flatMap_cons, List.length_append, ih, length_leBytes, List.length_cons]; omega
  rw [this, List.length_take]
  omega

theorem State.length_provRecord (s : State) : s.provRecord.length = 192 := by
  unfold State.provRecord
  simp only [List.length_append, length_leBytes, List.length_cons, List.length_nil, List.length_replicate]
  split <;> simp [State.digestOf, imageRegs, mapDigestRegs, stateDigestRegs, inputDigestRegs]

theorem Commits.formRecord {rs : List (Nat × Nat)} {s t : State} (h : Commits rs s t) {a : Nat} (ha : t.provBase = a)
    (hr : (a, 0x8000) ∈ rs) : Commits rs s t.formRecord := by
  unfold State.formRecord
  split
  · exact h
  · extract_lets n slot b r s1 s2 s3 s4 s5
    have hb : b = a + slot * 2048 := congrArg (· + slot * 2048) ha
    have hs : slot < 16 := Nat.mod_lt _ (by decide)
    have hlen : r.length = 192 := t.length_provRecord
    have hdig := length_shake256 r
    have h1 : Commits rs s s1 := by
      refine h.wrBytes hr (by show a ≤ b; omega) ?_
      simp only [List.length_append, length_leBytes, List.length_replicate, hlen]
      omega
    have h2 : Commits rs s s2 := by
      refine h1.wrBytes hr (by show a ≤ b + 1536; omega) ?_
      rw [List.length_replicate]
      show b + 1536 + 512 ≤ a + 0x8000
      omega
    have h3 : Commits rs s s3 := h2.inc _
    have h4 : Commits rs s s4 := by
      show Commits rs s (match s3.det.signing with
        | some p => if p.1 = slot then (s3.updDet fun d => { d with signing := none }).set DET_PROV_STATUS.SIGNING 0 else s3
        | none => s3)
      split
      · exact h3.ite ((h3.updDet _).set _)
      · exact h3
    have h5 : Commits rs s s5 := h4.event _ _
    split
    · split
      · exact h5.inc _
      · exact (h5.updDet _).set _
    · exact h5

theorem Commits.provAtCommit {rs : List (Nat × Nat)} {s t : State} (h : Commits rs s t) {a : Nat} (ha : t.provBase = a)
    (hr : (a, 0x8000) ∈ rs) (e : Bool) : Commits rs s (t.provAtCommit e) :=
  h.ite ((h.updDet _).formRecord ha hr)

/-! ### The sample of a committed step (R369) -/

/-- Where no word is uncorrectable, a read of a word counts traffic at most. -/
theorem State.readAt_state {s : State} (h : s.poison = []) (a : Nat) :
    (s.readAt a).2 = s ∨ (s.readAt a).2 = s.memTraffic [(a, 8)] := by
  have none (n : Nat) : s.poisonIn a n = [] := by rw [State.poisonIn, h]; rfl
  unfold State.readAt
  split
  · exact .inl rfl
  · split
    · split
      · exact .inl rfl
      · dsimp only
        split <;> exact .inl rfl
    · rw [none]
      exact .inr rfl
    · rw [none]
      exact .inl rfl
    · exact .inl rfl
    · exact .inl rfl
    · exact .inl rfl

theorem State.sampleEvent_snapped {s : State} (h : s.poison = []) (a n : Nat) : Snapped a s (s.sampleEvent n) := by
  unfold State.sampleEvent
  split
  · exact .refl a s
  · next b _ =>
    split
    · extract_lets r
      have read : Snapped a s r.2 := by
        refine List.foldlRecOn (motive := fun r : List Nat × State => Snapped a s r.2) b.args.addrs _ (.refl a s) fun r hr x _ => ?_
        rcases State.readAt_state (hr.clean h) x with e | e <;> dsimp only <;> rw [e]
        · exact hr
        · exact hr.memTraffic _
      exact read.report ((Reports.refl _).event _ _)
    · exact .refl a s

/-! ### The commit (R30, R341) -/

/-- The ranges of LPDDR that the blocks write at a commit. -/
def State.commitRanges (s : State) : List (Nat × Nat) := [(s.get UPD_EXPORT_CHK.ADDR * 64, 0x10000), (s.provBase, 0x8000)]

/-- `t` is `s` after the commit of its step. -/
structure Committed (s t : State) : Prop where
  step : t.get TICK_STEP.STEP = sat TICK_STEP.STEP (s.get TICK_STEP.STEP + 1)
  attempt : t.get ERR_LADDER.ATTEMPT = 0
  ready : t.get ERR_STATUS.COMMIT_READY = 0
  job : t.job = s.job
  children : t.get FAB_TREE.CHILDREN = s.get FAB_TREE.CHILDREN
  xr : t.xr = s.xr
  glue : t.tick.glue = s.tick.glue
  barriers : t.tick.barriers = s.tick.barriers
  runs : t.root.runs = []
  sols : t.sol.runs = []
  still : t.upd.exporting = false
  low : ∀ x, x < veneerBase 0 → (x < s.censusSlot ∨ s.censusSlot + censusBytes ≤ x) →
    (∀ r ∈ s.commitRanges, x < r.1 ∨ r.1 + r.2 ≤ x) → Memory.read t.mem x = Memory.read s.mem x

/-- What the update units, the root engine, the solver, the inbox and the outbox do at a commit. -/
def State.blocksDone (s : State) (n : Nat) (replayed : Bool) : State :=
  (((s.updCommit n).1.rootCommit.solCommit.chainInput n).releaseInputs n).queuePush n replayed

theorem Commits.releaseInputs {rs : List (Nat × Nat)} {s t : State} (h : Commits rs s t) (n : Nat) :
    Commits rs s (t.releaseInputs n) := h.updHost _

theorem State.blocksDone_commits {s : State} (h : s.poison = []) {rs : List (Nat × Nat)}
    (hr : (s.get UPD_EXPORT_CHK.ADDR * 64, 0x10000) ∈ rs) (n : Nat) (replayed : Bool) :
    Commits rs s (s.blocksDone n replayed) ∧ (s.blocksDone n replayed).root.runs = [] ∧ (s.blocksDone n replayed).sol.runs = [] ∧
      (s.blocksDone n replayed).upd.exporting = false := by
  unfold State.blocksDone
  obtain ⟨h1, still⟩ := (Commits.refl rs h).updCommit rfl hr n
  generalize (s.updCommit n).1 = u1 at h1 still
  obtain ⟨h2, runs⟩ := (Commits.refl rs h1.clean).rootCommit
  generalize u1.rootCommit = u2 at h2 runs
  obtain ⟨h3, sols⟩ := (Commits.refl rs h2.clean).solCommit
  generalize u2.solCommit = u3 at h3 sols
  have h4 := (((Commits.refl rs h3.clean).chainInput n).releaseInputs n).queuePush n replayed
  exact ⟨((h1.trans h2).trans h3).trans h4, h4.runs (h3.runs runs), h4.sols sols, h4.still (h3.still (h2.still still))⟩

/-- The state at the end of a commit, before the sample of the step. -/
def State.ladderCleared (s : State) : State :=
  (s.setAll [(ERR_LADDER.ATTEMPT, 0), (ERR_STATUS.COMMIT_READY, 0)]).updErr fun x => { x with ueSeen := [], ueSeenPrev := [] }

theorem State.commit_eq (s : State) : s.commit [] =
    ((((s.snapshot []).inc TICK_STEP.STEP).blocksDone (s.get TICK_STEP.STEP) (decide (0 < s.get ERR_LADDER.ATTEMPT))).provAtCommit
      (((s.snapshot []).inc TICK_STEP.STEP).updCommit (s.get TICK_STEP.STEP)).2).ladderCleared.sampleEvent (s.get TICK_STEP.STEP) := rfl

theorem State.ladderCleared_get (s : State) {g : Fld} (hg : g.key ∉ [ERR_LADDER.ATTEMPT, ERR_STATUS.COMMIT_READY].map Fld.key) :
    s.ladderCleared.get g = s.get g := State.get_setAll_other s _ (by simpa using hg)

/-- From the snapshot to the record of provenance. -/
theorem State.stepCommits {s : State} (h : s.poison = []) (e : Bool) (n : Nat) (replayed : Bool) {u v : State}
    (hu : u = (s.snapshot []).inc TICK_STEP.STEP) (hv : v = (u.blocksDone n replayed).provAtCommit e) :
    Commits s.commitRanges u v ∧ v.root.runs = [] ∧ v.sol.runs = [] ∧ v.upd.exporting = false := by
  have snap := s.snapshot_snapped
  have clean : u.poison = [] := by rw [hu]; exact snap.clean h
  have same (g : Fld) (hs : g.key ∉ snapshotFields.map Fld.key) (hm : g.offMem) (hn : g.key ≠ TICK_STEP.STEP.key) :
      u.get g = s.get g := by
    rw [hu, State.get_inc_other _ _ hn]
    exact snap.get g hs hm
  have chk : u.get UPD_EXPORT_CHK.ADDR = s.get UPD_EXPORT_CHK.ADDR := same _ (by decide) (.inl (by decide)) (by decide)
  have prov : u.provBase = s.provBase := by
    rw [State.provBase, same _ (by decide) (.inr (by decide)) (by decide), State.provBase]
  obtain ⟨h1, runs, sols, still⟩ := State.blocksDone_commits clean (rs := s.commitRanges) (by simp [State.commitRanges, chk]) n replayed
  generalize u.blocksDone n replayed = w at h1 runs sols still hv
  have base : w.provBase = s.provBase := by
    rw [← prov, State.provBase, State.provBase, h1.get _ (by simp [commitKeep])]
  have h2 := (Commits.refl s.commitRanges h1.clean).provAtCommit base (by simp [State.commitRanges]) e
  rw [← hv] at h2
  exact ⟨h1.trans h2, h2.runs runs, h2.sols sols, h2.still still⟩

theorem State.commit_committed {s : State} (h : s.poison = []) : Committed s (s.commit []) := by
  have snap := s.snapshot_snapped
  rw [State.commit_eq]
  generalize (((s.snapshot []).inc TICK_STEP.STEP).updCommit (s.get TICK_STEP.STEP)).2 = e
  obtain ⟨blocks, runs, sols, still⟩ := State.stepCommits h e (s.get TICK_STEP.STEP) (decide (0 < s.get ERR_LADDER.ATTEMPT)) rfl rfl
  generalize State.provAtCommit _ e = v at blocks runs sols still
  have sample := State.sampleEvent_snapped (s := v.ladderCleared) blocks.clean s.censusSlot (s.get TICK_STEP.STEP)
  generalize v.ladderCleared.sampleEvent (s.get TICK_STEP.STEP) = t at sample
  have kept (g : Fld) (hg : g ∈ commitKeep) (hs : g.key ∉ snapshotFields.map Fld.key)
      (he : g.key ∉ [ERR_LADDER.ATTEMPT, ERR_STATUS.COMMIT_READY].map Fld.key) :
      t.get g = ((s.snapshot []).inc TICK_STEP.STEP).get g :=
    ((sample.get g hs (commitKeep_apart g hg).2).trans (v.ladderCleared_get he)).trans (blocks.get g hg)
  have same (g : Fld) (hg : g ∈ commitKeep) (hs : g.key ∉ snapshotFields.map Fld.key)
      (he : g.key ∉ [ERR_LADDER.ATTEMPT, ERR_STATUS.COMMIT_READY].map Fld.key) (hn : g.key ≠ TICK_STEP.STEP.key) :
      t.get g = s.get g := by
    rw [kept g hg hs he, State.get_inc_other _ _ hn]
    exact snap.get g hs (commitKeep_apart g hg).2
  have tick : t.tick = v.tick := sample.tick.trans (by rw [State.ladderCleared, State.updErr_tick, State.setAll_tick])
  have mem : v.ladderCleared.mem = v.mem := by rw [State.ladderCleared, State.updErr_mem, State.setAll_mem]
  refine ⟨?_, ?_, ?_, ?_, ?_, ?_, ?_, ?_, ?_, ?_, ?_, fun x hx hslot hr => ?_⟩
  · rw [kept _ (by simp [commitKeep]) (by decide) (by decide), State.get_inc_same, snap.get _ (by decide) (.inl (by decide))]
    rfl
  · rw [sample.get _ (by decide) (.inr (by decide))]
    exact State.get_setAll_at v (by decide) (List.mem_cons_self ..)
  · rw [sample.get _ (by decide) (.inr (by decide))]
    exact State.get_setAll_at v (by decide) (List.mem_cons_of_mem _ (List.mem_cons_self ..))
  · exact same TICK_STATUS.STATE (by simp [commitKeep]) (by decide) (by decide) (by decide)
  · exact same FAB_TREE.CHILDREN (by simp [commitKeep]) (by decide) (by decide) (by decide)
  · rw [sample.xr, State.ladderCleared, State.updErr_xr, State.setAll_xr, blocks.xr]
    exact snap.xr
  · rw [tick, blocks.glue]
    exact congrArg TickSt.glue snap.tick
  · rw [tick, blocks.barriers]
    exact congrArg TickSt.barriers snap.tick
  · rw [sample.root, State.ladderCleared, State.updErr_root, State.setAll_root, runs]
  · rw [sample.sol, State.ladderCleared, State.updErr_sol, State.setAll_sol, sols]
  · rw [sample.upd, State.ladderCleared, State.updErr_upd, State.setAll_upd, still]
  · have here : ∀ r ∈ [(s.censusSlot, censusBytes)], x < r.1 ∨ r.1 + r.2 ≤ x := by simpa using hslot
    rw [sample.kept x here, mem, blocks.low x hx hr]
    exact snap.kept x here

theorem Committed.okay {s t : State} (h : Committed s t) : Committed s t.okay := { h with }
theorem Committed.actDone {s t : State} (h : Committed s t) : Committed s (t.updTick fun t => { t with actDone := true }) :=
  { h with }

/-- The glue-up stays at action 4 while a child's gather is missing. -/
theorem Committed.waits {s t : State} (h : Committed s t) (wait : s.awaitsChild) (hg : s.tick.glue = 4) : t.glueAdvance = t :=
  State.glueAdvance_waits (wait.congr h.children h.barriers) (by rw [h.glue, hg]; decide)

/-- Action 4 on a device whose children are not all in. -/
theorem execCommit_waits {s t : State} (h : Committed s t) (ht : t = (s.commit []).updTick fun t => { t with actDone := true })
    (hjob : s.job = 2) (hglue : s.tick.glue = 4) (hact : s.tick.actDone = false) (hdry : s.is TICK_STATUS.DRY = false)
    (wait : s.awaitsChild) : exec (.commit []) s = .next t := by
  have hr : s.running = true := by simp [State.running, hjob]
  rw [show exec (.commit []) s = execCommit [] s from rfl, execCommit, hr, hglue, hact, if_pos (by decide), hdry,
    if_neg Bool.false_ne_true, show s.recHw [] = s from rfl]
  dsimp only
  rw [if_pos hr, ← ht, h.waits wait hglue]

/-- Settles O29: the commit of every block, alone in HALT or as action 4 while a child's gather is missing. -/
theorem commitAdvancesTheStep : Obligations.CommitAdvancesTheStep := by
  intro s c hc hclean
  have done := State.commit_committed hclean
  obtain ⟨t, run, done⟩ : ∃ t, exec c s = .next t ∧ Committed s t := by
    rcases hc with ⟨rfl, hjob, hglue, hact, hdry, wait⟩ | ⟨rfl, hs, hjob, hready⟩
    · exact ⟨_, execCommit_waits done.actDone rfl hjob hglue hact hdry wait, done.actDone⟩
    · refine ⟨_, ?_, done.okay⟩
      rw [show exec (.errCtrlCommit []) s = .next (s.write fun s => s.actCommit []) from rfl, s.write_accepts _ hs,
        State.actCommit, if_pos ⟨hjob, hready⟩, show s.recHw [] = s from rfl]
  exact ⟨t, run, done.step, done.attempt, done.ready, done.job, done.xr, done.runs, done.sols, done.still,
    fun x hx h1 h2 h3 => done.low x hx h1 (by simpa [State.commitRanges] using ⟨h2, h3⟩)⟩

end Sys2Proof.Machine

namespace Sys2Proof.Machine
open Reg

/-! ### Barriers (R289) -/

theorem State.advanceMismatch_waits {s : State} (h : s.gatherOnce = s) : s.advanceMismatch = s := by
  unfold State.advanceMismatch
  rw [h, ite_self]

theorem State.gatherOnce_sent {s : State} (h : s.tick.sent = true) : s.gatherOnce = s := by
  unfold State.gatherOnce
  simp [h]

theorem State.gatherOnce_notDone {s : State} (h : s.tick.actDone = false) : s.gatherOnce = s := by
  unfold State.gatherOnce
  simp [h]

/-- A child's gather is kept, and the glue-up advances if it can. -/
theorem execBarrierGather_takes {s : State} {p act : Nat} {v : Verdict} (hr : s.running = true) (hp : p < 8) (hc : p ∈ s.children)
    (hb : ∀ b ∈ s.tick.barriers, b.1 ≠ p) (hv : v.err = none) (ha : act = s.tick.glue) {t : State}
    (ht : t = s.updTick fun t => { t with barriers := t.barriers ++ [(p, v)] }) :
    exec (.barrierGather p act v) s = .next t.glueAdvance.advanceMismatch := by
  have child : s.children.any (· == p) = true := by simpa using hc
  have new : (s.tick.barriers.any fun b => b.1 == p) = false := by simpa using fun c v' hm => hb (c, v') hm
  rw [show exec (.barrierGather p act v) s = execBarrierGather p act v s from rfl, execBarrierGather, if_pos hp, hr, child, new, ha,
    if_pos (by simp), hv, ht]
  rfl

/-- With its own part and every child's in, the device sends its gather to its parent. -/
theorem State.gatherOnce_sends {s : State} {q : Nat} (hn : s.inReset = false) (hp : s.parent = some q)
    (hd : s.tick.actDone = true) (hs : s.tick.sent = false) (hr : s.tick.released = none) (h0 : s.tick.glue ≠ 0)
    (h7 : s.tick.glue < 7) (hall : s.children.all (fun p => s.tick.barriers.any fun b => b.1 == p) = true) :
    ∃ w, s.gatherOnce.out = s.out ++ [Msg.barrier q s.tick.glue w] ∧ s.gatherOnce.tick = { s.tick with sent := true } ∧
      s.gatherOnce.mem = s.mem ∧ s.gatherOnce.flds = s.flds := by
  unfold State.gatherOnce
  extract_lets act parts w u
  rw [if_neg (by simp [hd, hs, hr, hall, act]; omega)]
  have hup : u.parent = some q := hp
  have hun : u.inReset = false := hn
  rw [hup]
  refine ⟨w, ?_⟩
  dsimp only
  rw [State.emit, hun, Bool.false_and, if_neg Bool.false_ne_true]
  exact ⟨rfl, rfl, rfl, rfl⟩

/-- Outside reset every message leaves. -/
theorem State.emitAll {s : State} (hn : s.inReset = false) (m : Nat → Msg) (l : List Nat) :
    l.foldl (fun s p => s.emit (m p)) s = { s with out := s.out ++ l.map m } := by
  induction l generalizing s with
  | nil => rw [List.foldl_nil, List.map_nil, List.append_nil]
  | cons p l ih =>
    have step : s.emit (m p) = { s with out := s.out ++ [m p] } := if_neg (by simp [hn])
    rw [List.foldl_cons, step, ih (by exact hn)]
    simp

/-! ### The rollback of an attempt (R116, R137, R213, R333) -/

/-- The fields that a rollback sets as it discards the attempt, but for those of every cluster and row. -/
def discardFields : List Fld :=
  [SOL_STATUS.ACTIVE, SOL_STATUS.GATED, ERR_STATUS.HANDLING, ERR_STATUS.PENDING, ERR_STATUS.QDEPTH, ERR_STATUS.COMMIT_READY]

/-- The ranges that a rollback zeroes. -/
def totalsRanges : List (Nat × Nat) := [(accumBase 0, nPhys * 0x40000), (ftabBase 0, nPhys * 0x10000)]

/-- The state whose totals and table memories are zeroed. -/
def State.zeroedTotals (s : State) : State := (s.zeroRange (accumBase 0) (nPhys * 0x40000)).zeroRange (ftabBase 0) (nPhys * 0x10000)

theorem State.zeroedTotals_kept (s : State) : BytesKept s s.zeroedTotals totalsRanges := fun x hx => by
  obtain ⟨haccum, htable, -⟩ := by simpa only [totalsRanges, List.forall_mem_cons] using hx
  exact (Memory.read_eraseRange_other _ htable).trans (Memory.read_eraseRange_other _ haccum)

theorem State.zeroedTotals_accum (s : State) {x : Nat} (hx : x < nPhys * 0x40000) :
    Memory.read s.zeroedTotals.mem (accumBase 0 + x) = 0 := by
  by_cases h : ftabBase 0 ≤ accumBase 0 + x ∧ accumBase 0 + x < ftabBase 0 + nPhys * 0x10000
  · exact Memory.read_eraseRange_in _ h.1 h.2
  · exact (Memory.read_eraseRange_other _ (by omega)).trans (Memory.read_eraseRange_in _ (by omega) (by omega))

theorem State.zeroedTotals_tables (s : State) {x : Nat} (hx : x < nPhys * 0x10000) :
    Memory.read s.zeroedTotals.mem (ftabBase 0 + x) = 0 := Memory.read_eraseRange_in _ (by omega) (by omega)

/-- The state of a rollback once the attempt is discarded and its handling has ended. -/
def State.attemptGone (s : State) : State := s.discardAttempt.endAttempt.pass 4096

theorem State.discardAttempt_upset (s : State) : Upset discardFields s.zeroedTotals s.discardAttempt := by
  have single := (Upset.refl discardFields s.zeroedTotals).arrSingle
  have dropped : Upset discardFields s.zeroedTotals s.zeroTotals.solDrop :=
    (Upset.set (t := { s.zeroTotals with sol := ⟨[], []⟩ }) ⟨single.rest, single.get⟩ _ (by decide)).set _ (by decide)
  have stopped := dropped.stopRows.dropDue
  exact ⟨stopped.rest, stopped.get⟩

/-- Fields that `l` covers may change beside an upset. -/
theorem Upset.onlyFields {l m : List Fld} {s t u : State} (h : Upset l s t) (k : OnlyFields t u m)
    (hm : ∀ f ∈ m, touches l f.key = true) : Upset l s u := by
  obtain ⟨x, hx⟩ := k.eq_flds
  refine ⟨by rw [hx]; exact h.rest, fun g hg => (k.2 g fun hk => ?_).trans (h.get g hg)⟩
  obtain ⟨f, hf, e⟩ := List.mem_map.1 hk
  rw [← e, hm f hf] at hg
  cases hg

theorem State.endAttempt_only (s : State) : ∃ e, OnlyFields { s with err := e } s.endAttempt
    [ERR_STATUS.HANDLING, ERR_STATUS.PENDING, ERR_STATUS.QDEPTH, ERR_STATUS.COMMIT_READY] := by
  unfold State.endAttempt State.updErr
  exact ⟨_, (OnlyFields.refl _ _).setAll (by simp)⟩

theorem State.attemptGone_upset (s : State) : Upset discardFields s.zeroedTotals s.attemptGone := by
  have h := s.discardAttempt_upset
  unfold State.attemptGone
  generalize s.discardAttempt = u at h
  obtain ⟨e, only⟩ := u.endAttempt_only
  have ended : Upset discardFields s.zeroedTotals { u with err := e } := ⟨h.rest, h.get⟩
  exact (ended.onlyFields only (by simp only [List.forall_mem_cons]; decide)).updTick _

theorem State.attemptGone_tick (s : State) : s.attemptGone.tick = { s.tick with now := s.tick.now + 4096 } := by
  have tick : s.discardAttempt.tick = s.tick := by
    obtain ⟨l, hl⟩ := s.zeroTotals.solDrop.stopRows.dropDue_eq
    show s.zeroTotals.solDrop.stopRows.dropDue.tick = s.tick
    rw [hl]
    exact State.stopRows_tick _
  obtain ⟨e, only⟩ := s.discardAttempt.endAttempt_only
  have ended : s.discardAttempt.endAttempt.tick = s.tick := (congrArg State.tick only.1 :).trans tick
  unfold State.attemptGone
  generalize s.discardAttempt.endAttempt = u at ended
  rw [← ended]
  rfl

theorem State.attemptGone_lands (s : State) : s.attemptGone.lands = [] := by
  obtain ⟨e, only⟩ := s.discardAttempt.endAttempt_only
  exact (congrArg State.lands only.1 :)

theorem State.failedBy_only (s : State) (es : List Err) (v : Option CarriedErr) :
    OnlyFields s (s.failedBy es v) [ERR_LADDER.LAST_SCOPE, ERR_LADDER.LAST_INDEX] := by
  unfold State.failedBy
  split
  · exact (OnlyFields.refl s _).setAll (by simp)
  · exact (OnlyFields.refl s _).setAll (by simp)
  · exact .refl s _

/-- The fields that a rollback sets before the ladder. -/
def ladderFields : List Fld := [ERR_LADDER.ATTEMPT, ERR_LADDER.REPLAYS, ERR_LADDER.LAST_SCOPE, ERR_LADDER.LAST_INDEX]

/-- The state of a rollback before the ladder acts. -/
def State.rolledBack (s : State) (v : Option CarriedErr) : State :=
  (((s.attemptGone.updTick fun t =>
    { t with glue := 8, actDone := false, sent := false, barriers := [], mismatch := false, released := none, busy := [] }).inc
      ERR_LADDER.ATTEMPT).inc ERR_LADDER.REPLAYS).failedBy s.attemptErrors v

/-- What the first failed attempt leaves. -/
theorem State.rolledBack_first {s : State} (h : s.get ERR_LADDER.ATTEMPT = 0) (v : Option CarriedErr) :
    (s.rolledBack v).get ERR_LADDER.ATTEMPT = 1 ∧
      (s.rolledBack v).get ERR_LADDER.REPLAYS = sat ERR_LADDER.REPLAYS (s.get ERR_LADDER.REPLAYS + 1) ∧
      (s.rolledBack v).mem = s.zeroedTotals.mem ∧ (s.rolledBack v).lands = [] ∧
      (s.rolledBack v).tick = { s.tick with now := s.tick.now + 4096, glue := 8, actDone := false, sent := false, barriers := [],
                                            mismatch := false, released := none, busy := [] } ∧
      ∀ g : Fld, touches discardFields g.key = false → g.key ∉ ladderFields.map Fld.key → (s.rolledBack v).get g = s.get g := by
  have gone := s.attemptGone_upset
  have tick := s.attemptGone_tick
  have lands := s.attemptGone_lands
  have attempt : s.attemptGone.get ERR_LADDER.ATTEMPT = 0 := (gone.get _ (by decide)).trans h
  have replays : s.attemptGone.get ERR_LADDER.REPLAYS = s.get ERR_LADDER.REPLAYS := gone.get _ (by decide)
  unfold State.rolledBack
  generalize s.attemptGone = u at *
  generalize hw : u.updTick _ = w
  have last := ((w.inc ERR_LADDER.ATTEMPT).inc ERR_LADDER.REPLAYS).failedBy_only s.attemptErrors v
  have only : OnlyFields w _ ladderFields := (((OnlyFields.refl w _).inc 1 (by simp [ladderFields] : ERR_LADDER.ATTEMPT ∈ _)).inc 1
    (by simp [ladderFields] : ERR_LADDER.REPLAYS ∈ _)).trans (last.mono (by decide))
  have wget (g : Fld) : w.get g = u.get g := by rw [← hw, State.get_updTick]
  refine ⟨?_, ?_, ?_, ?_, ?_, fun g h1 h2 => ?_⟩
  · rw [last.2 _ (by decide), State.get_inc_other _ _ (by decide), State.get_inc_same, wget, attempt]
    rfl
  · rw [last.2 _ (by decide), State.get_inc_same, State.get_inc_other _ _ (by decide), wget, replays]
    rfl
  · rw [← gone.mem, show State.mem _ = w.mem from (congrArg State.mem only.1 :), ← hw, State.updTick_mem]
  · rw [show State.lands _ = w.lands from (congrArg State.lands only.1 :), ← hw, State.updTick_lands, lands]
  · rw [show State.tick _ = w.tick from (congrArg State.tick only.1 :), ← hw]
    show { u.tick with glue := 8, actDone := false, sent := false, barriers := [], mismatch := false, released := none, busy := [] } = _
    rw [tick]
  · rw [only.2 g h2, wget, gone.get g h1]
    rfl

/-- The first failed attempt waits at the square-up, its gathers not all in. -/
theorem State.rollback_first {s : State} (h : s.get ERR_LADDER.ATTEMPT = 0) (hg : s.allGathered = false)
    (v : Option CarriedErr) : s.rollback v = s.rolledBack v := by
  obtain ⟨attempt, -, -, -, tick, get⟩ := State.rolledBack_first h v
  have ladder : (s.rolledBack v).ladder s.attemptErrors = s.rolledBack v := by
    simp only [State.ladder, attempt]
  have waits : (s.rolledBack v).allGathered = false :=
    (allGathered_congr (get _ (by decide) (by decide)) (by rw [tick])).trans hg
  have unfolded : s.rollback v = if ((s.rolledBack v).ladder s.attemptErrors).running then
      ((s.rolledBack v).ladder s.attemptErrors).trySquareUp else (s.rolledBack v).ladder s.attemptErrors := rfl
  rw [unfolded, ladder, State.trySquareUp_waits waits, ite_self]

/-! ### The halt after a rollback (R426) -/

/-- The state of a rollback that halts, before it does. -/
def State.rolledBackHere (s : State) (v : Option CarriedErr) : State :=
  let t := (s.attemptGone.inc ERR_LADDER.REPLAYS).failedBy s.attemptErrors v
  if s.err.parityHere then t.unseal (t.get TICK_STATUS.BANK) else t

/-- A rollback with the mark of a parity failure. -/
theorem State.rolledBackHere_kept (s : State) (v : Option CarriedErr) :
    (s.rolledBackHere v).mem = s.zeroedTotals.mem ∧
      (s.err.parityHere = true → (s.rolledBackHere v).get (sealedF (s.get TICK_STATUS.BANK)) = 0) ∧
      ∀ g : Fld, touches discardFields g.key = false → g.key ∉ ladderFields.tail.map Fld.key →
        g.key ∉ [TICK_STATUS.SEALED_A, TICK_STATUS.SEALED_B].map Fld.key → (s.rolledBackHere v).get g = s.get g := by
  have gone := s.attemptGone_upset
  have last := (s.attemptGone.inc ERR_LADDER.REPLAYS).failedBy_only s.attemptErrors v
  have only : OnlyFields s.attemptGone _ ladderFields.tail := ((OnlyFields.refl s.attemptGone _).inc 1
    (by simp [ladderFields] : ERR_LADDER.REPLAYS ∈ _)).trans (last.mono (by decide))
  unfold State.rolledBackHere
  generalize (s.attemptGone.inc ERR_LADDER.REPLAYS).failedBy s.attemptErrors v = t at only
  have mem : t.mem = s.zeroedTotals.mem := (congrArg State.mem only.1 :).trans gone.mem
  have get (g : Fld) (h1 : touches discardFields g.key = false) (h2 : g.key ∉ ladderFields.tail.map Fld.key) : t.get g = s.get g :=
    (only.2 g h2).trans (gone.get g h1)
  have bank : t.get TICK_STATUS.BANK = s.get TICK_STATUS.BANK := get _ (by decide) (by decide)
  dsimp only
  split
  · refine ⟨by rw [State.unseal_mem, mem], fun _ => by rw [← bank]; exact State.get_unseal_same _ _, fun g h1 h2 h3 => ?_⟩
    rw [State.get_unseal_other _ _ (sealedF_key_ne h3 _), get g h1 h2]
  · exact ⟨mem, fun h => absurd h (by assumption), fun g h1 h2 _ => get g h1 h2⟩

/-! ### The error check of action 2 (R333, R426) -/

/-- The error check takes the verdict that was released. -/
def State.verdictTaken (s : State) : State := s.updTick fun t => { t with released := none }

theorem execPendingErrorCheck_eq {s : State} {v : Verdict} (hr : s.running = true) (hg : s.tick.glue = 2)
    (hv : s.tick.released = some v) :
    exec .pendingErrorCheck s = .next (if 2 ≤ v.cls then s.verdictTaken.enterHalt s.verdictTaken.lastSeq
      else if v.cls = 0 ∨ s.is TICK_STATUS.DRY = true then s.verdictTaken.toGlue 3
      else s.verdictTaken.rollbackBy v.err) := by
  rw [show exec .pendingErrorCheck s = execPendingErrorCheck s from rfl, execPendingErrorCheck, hr, hg, hv, if_pos (by decide)]
  rfl

theorem gather_waits {s : State} {p act : Nat} {v : Verdict} (hr : s.running = true) (hp : p < 8) (hc : p ∈ s.children)
    (hb : ∀ b ∈ s.tick.barriers, b.1 ≠ p) (hv : v.err = none) (ha : act = s.tick.glue) (h2 : act ≠ 2)
    (hq : ∃ q ∈ s.children, q ≠ p ∧ ∀ b ∈ s.tick.barriers, b.1 ≠ q) :
    exec (.barrierGather p act v) s = .next (s.updTick fun t => { t with barriers := t.barriers ++ [(p, v)] }) := by
  rw [execBarrierGather_takes hr hp hc hb hv ha rfl]
  generalize ht : s.updTick (fun t => { t with barriers := t.barriers ++ [(p, v)] }) = t
  have waits : t.awaitsChild := by
    obtain ⟨q, hqc, hqp, hqb⟩ := hq
    rw [← ht]
    refine ⟨q, hqc, fun b hm => ?_⟩
    rcases List.mem_append.1 hm with hm | hm
    · exact hqb b hm
    · rw [List.mem_singleton.1 hm]
      exact hqp.symm
  have glue : t.tick.glue ≠ 2 := by
    rw [← ht, ha] at *
    exact h2
  rw [State.glueAdvance_waits waits glue, State.advanceMismatch_waits (State.gatherOnce_waits waits)]

theorem gather_sends {s : State} {p act q : Nat} {v : Verdict} (hr : s.running = true) (hp : p < 8) (hc : p ∈ s.children)
    (hb : ∀ b ∈ s.tick.barriers, b.1 ≠ p) (hv : v.err = none) (ha : act = s.tick.glue) (h0 : 1 ≤ act) (h6 : act ≤ 6)
    (hn : s.inReset = false) (hall : ∀ c ∈ s.children, c = p ∨ ∃ b ∈ s.tick.barriers, b.1 = c) (hd : s.tick.actDone = true)
    (hs : s.tick.sent = false) (hrel : s.tick.released = none) (hpar : s.parent = some q) :
    ∃ t w, exec (.barrierGather p act v) s = .next t ∧ t.out = s.out ++ [Msg.barrier q act w] ∧ t.tick.sent = true ∧
      t.mem = s.mem ∧ t.flds = s.flds := by
  rw [execBarrierGather_takes hr hp hc hb hv ha rfl]
  generalize ht : s.updTick (fun t => { t with barriers := t.barriers ++ [(p, v)] }) = t
  have all : t.children.all (fun p => t.tick.barriers.any fun b => b.1 == p) = true := by
    refine List.all_eq_true.2 fun c hcm => List.any_eq_true.2 ?_
    rw [← ht] at hcm ⊢
    rcases hall c hcm with rfl | ⟨b, hbm, rfl⟩
    · exact ⟨(c, v), List.mem_append_right _ (List.mem_singleton.2 rfl), by simp⟩
    · exact ⟨b, List.mem_append_left _ hbm, by simp⟩
  have tick : t.tick = { s.tick with barriers := s.tick.barriers ++ [(p, v)] } := by rw [← ht]; rfl
  have glue : t.tick.glue = act := by rw [tick, ha]
  obtain ⟨w, out, sent, mem, flds⟩ := State.gatherOnce_sends (s := t) (q := q) (by rw [← ht]; exact hn) (by rw [← ht]; exact hpar)
    (by rw [tick]; exact hd) (by rw [tick]; exact hs) (by rw [tick]; exact hrel) (by omega) (by omega) all
  have settled : t.glueAdvance.advanceMismatch = t.gatherOnce := by
    have advanced : t.glueAdvance = t.gatherOnce := by
      rw [State.glueAdvance, sent]
      simp [glue]
    rw [advanced, State.advanceMismatch_waits (State.gatherOnce_sent (by rw [sent]))]
  refine ⟨_, w, congrArg Host.Outcome.next settled, ?_, by rw [sent], ?_, ?_⟩
  · rw [out, glue, ← ht]
    rfl
  · rw [mem, ← ht]
    rfl
  · rw [flds, ← ht]
    rfl

/-- The release of action 2 leaves its verdict to the error check. -/
theorem release_waits {s : State} {v : Verdict} (hr : s.running = true) (hn : s.inReset = false) (hp : s.parent.isSome = true)
    (hg : s.tick.glue = 2) (hs : s.tick.sent = true) (hrel : s.tick.released = none) (hv : v.err = none) :
    exec (.barrierRelease 2 v) s = .next ({ s with out := s.out ++ s.children.map fun q => Msg.release q 2 v }.updTick fun t =>
      { t with released := some v, actDone := false, sent := false, barriers := [] }) := by
  have released : s.release' 2 v = { s with out := s.out ++ s.children.map fun q => Msg.release q 2 v }.updTick fun t =>
      { t with released := some v, actDone := false, sent := false, barriers := [] } := by
    unfold State.release'
    rw [State.emitAll hn, hv]
    rfl
  rw [show exec (.barrierRelease 2 v) s = execBarrierRelease 2 v s from rfl, execBarrierRelease, hr, hp, hg, hs, hrel,
    if_pos (by decide), released]
  generalize ht : State.updTick _ _ = t
  have tick : t.tick = { s.tick with released := some v, actDone := false, sent := false, barriers := [] } := by rw [← ht]; rfl
  have once : t.gatherOnce = t := State.gatherOnce_notDone (by rw [tick])
  have advanced : t.glueAdvance = t := by
    rw [State.glueAdvance, once, tick]
    simp
  rw [advanced, State.advanceMismatch_waits once]

/-- A contained error without the mark rolls the first attempt back. -/
theorem check_rollsBack {s : State} {v : Verdict} (hr : s.running = true) (hg : s.tick.glue = 2) (hv : s.tick.released = some v)
    (hc : v.cls = 1) (hd : s.is TICK_STATUS.DRY = false) (hm : (v.err.map (·.halts)).getD false = false)
    (ha : s.get ERR_LADDER.ATTEMPT = 0) (hw : s.allGathered = false) :
    exec .pendingErrorCheck s = .next (s.verdictTaken.rolledBack v.err) := by
  rw [execPendingErrorCheck_eq hr hg hv, if_neg (by omega), if_neg (by simp [hc, hd]), State.rollbackBy, hm,
    if_neg Bool.false_ne_true, State.rollback_first]
  · exact ha
  · exact hw

/-- A contained error with the mark halts the device after the rollback. -/
theorem check_halts {s : State} {v : Verdict} (hr : s.running = true) (hg : s.tick.glue = 2) (hv : s.tick.released = some v)
    (hc : v.cls = 1) (hd : s.is TICK_STATUS.DRY = false) (hm : (v.err.map (·.halts)).getD false = true) :
    ∃ c, exec .pendingErrorCheck s = .next ((s.verdictTaken.rolledBackHere v.err).enterHalt c) := by
  rw [execPendingErrorCheck_eq hr hg hv, if_neg (by omega), if_neg (by simp [hc, hd]), State.rollbackBy, if_pos hm]
  exact ⟨_, rfl⟩

/-- Settles O26: the barriers by what is still missing, the error check by the class of the verdict. -/
theorem barriersAndTheErrorCheck : Obligations.BarriersAndTheErrorCheck := by
  refine ⟨fun s p act v hr => ⟨fun hp hc hb hv ha h1 h6 h2 => ⟨fun hq => ?_, fun q hn hall hd hs hrel hpar => ?_⟩,
    fun hn hp hg hs hrel hv => ?_⟩, fun s v hr hg hv => ⟨fun hc => ?_, fun hc => ?_, fun hc hd hm ha hw => ?_, fun hc hd hm => ?_⟩⟩
  · exact ⟨_, gather_waits hr hp hc hb hv ha h2 hq, rfl, rfl, rfl⟩
  · exact gather_sends hr hp hc hb hv ha h1 h6 hn hall hd hs hrel hpar
  · exact ⟨_, release_waits hr hn hp hg hs hrel hv, rfl, rfl, rfl⟩
  · have run := execPendingErrorCheck_eq hr hg hv
    rw [if_neg (by omega), if_pos (hc.imp id And.right)] at run
    exact ⟨_, run, rfl, rfl, rfl⟩
  · have run := execPendingErrorCheck_eq hr hg hv
    rw [if_pos hc] at run
    have taken : s.verdictTaken.running = true := hr
    have halted := (Upset.refl haltFields s.verdictTaken).enterHalt (fun _ h => h) s.verdictTaken.lastSeq
    refine ⟨_, run, State.enterHalt_job taken _, halted.mem, ?_, halted.get _ (by decide)⟩
    rw [State.enterHalt_tick taken, State.stopTicks_inTick]
  · obtain ⟨attempt, replays, mem, lands, tick, get⟩ := State.rolledBack_first (s := s.verdictTaken) ha v.err
    have run := check_rollsBack hr hg hv hc hd hm ha hw
    generalize s.verdictTaken.rolledBack v.err = t at *
    refine ⟨t, run, get TICK_STATUS.STATE (by decide) (by decide), by rw [tick], attempt, get _ (by decide) (by decide), by rw [tick],
      lands, replays, fun x hx => ?_, fun x hx => ?_, fun x hx => ?_⟩
    · rw [mem, State.zeroedTotals_accum _ hx]
    · rw [mem, State.zeroedTotals_tables _ hx]
    · rw [mem]
      exact s.verdictTaken.zeroedTotals_kept x hx
  · obtain ⟨c, run⟩ := check_halts hr hg hv hc hd hm
    obtain ⟨mem, opened, get⟩ := s.verdictTaken.rolledBackHere_kept v.err
    generalize s.verdictTaken.rolledBackHere v.err = t at *
    have here : t.running = true := by
      simp only [State.running, State.job, State.is, get TICK_STATUS.STATE (by decide) (by decide) (by decide),
        get TICK_STATUS.DRY (by decide) (by decide) (by decide)]
      exact hr
    have halted := (Upset.refl haltFields t).enterHalt (fun _ h => h) c
    refine ⟨_, run, State.enterHalt_job here c, ?_, ?_, fun h => ?_, fun x hx => ?_⟩
    · rw [halted.get _ (by decide), get _ (by decide) (by decide) (by decide)]
      rfl
    · rw [halted.get _ (by decide), get _ (by decide) (by decide) (by decide)]
      rfl
    · rw [halted.is (by rcases sealedF_cases (s.get TICK_STATUS.BANK) with ⟨-, e⟩ | ⟨-, e⟩ <;> rw [e] <;> decide), State.is,
        show t.get (sealedF (s.get TICK_STATUS.BANK)) = 0 from opened h]
      rfl
    · rw [halted.mem, mem]
      exact s.verdictTaken.zeroedTotals_kept x hx

end Sys2Proof.Machine

namespace Sys2Proof.Machine
open Reg

/-! ### Calls that end (R170) -/

theorem State.row_setRow_same (s : State) (r : Nat) (v : RowSt) : (s.setRow r v).row r = v := Store.get_put_same s.rows _ r v

theorem State.row_setRow_other (s : State) {r q : Nat} (v : RowSt) (h : r ≠ q) : (s.setRow q v).row r = s.row r :=
  Store.get_put_other s.rows _ _ v h

theorem State.endCall_eq (s : State) (r : Nat) : s.endCall r = match (s.row r).call with
    | none => s
    | some c => (s.setRow r { s.row r with call := none }).set (EXN_STATUS.CTX r)
        (if c.svcWasRunning || !(s.row r).events.isEmpty then 3 else 0) := rfl

theorem State.endCall_idle {s : State} {r : Nat} (h : (s.row r).call = none) : s.endCall r = s := by
  rw [State.endCall_eq, h]

theorem State.endCall_ends {s : State} {r : Nat} {c : CallRec} (h : (s.row r).call = some c) :
    s.endCall r = (s.setRow r { s.row r with call := none }).set (EXN_STATUS.CTX r)
      (if c.svcWasRunning || !(s.row r).events.isEmpty then 3 else 0) := by
  rw [State.endCall_eq, h]

/-- A row that runs no kernel runs none after another has ended its own. -/
theorem State.endCall_quiet {s : State} {r : Nat} (q : Nat) (h : (s.row r).call = none) : ((s.endCall q).row r).call = none := by
  by_cases e : r = q
  · subst e
    rw [State.endCall_idle h, h]
  · cases hq : (s.row q).call with
    | none => rw [State.endCall_idle hq, h]
    | some c =>
      rw [State.endCall_ends hq]
      exact (congrArg RowSt.call (s.row_setRow_other _ e)).trans h

theorem State.stopRows_quiet {s : State} {r : Nat} (h : (s.row r).call = none) : (s.stopRows.row r).call = none :=
  List.foldlRecOn (motive := fun t : State => (t.row r).call = none) _ _ h fun _ ht q _ => State.endCall_quiet q.1 ht

theorem State.stopTicks_rows (s : State) : s.stopTicks.rows = s.rows := by
  have dropped (u : State) : u.arrSingle.dropDue.rows = u.rows := by
    obtain ⟨l, hl⟩ := u.arrSingle.dropDue_eq
    rw [hl]
    simp [State.arrSingle]
  unfold State.stopTicks
  rw [State.setAll_rows]
  refine (dropped _).trans ?_
  split
  · rfl
  · exact State.setAll_rows _ _

theorem State.setJob_rows (s : State) (j c : Nat) : (s.setJob j c).rows = s.rows := by
  unfold State.setJob
  split
  · rfl
  · exact ((Reports.refl _).event _ _).rows

theorem State.enterHalt_quiet {s : State} {r : Nat} (h : (s.row r).call = none) (c : Nat) : ((s.enterHalt c).row r).call = none := by
  have ended (u : State) : u.endHandling.row r = u.row r := by
    rw [State.row, State.row, State.endHandling, State.setAll_rows, State.updErr_rows]
  unfold State.enterHalt
  split
  · rw [ended, State.row, State.setJob_rows]
    refine State.stopRows_quiet ?_
    rw [State.row, State.stopTicks_rows]
    exact h
  · rw [ended, h]

/-- A fatal-to-slice error starts no kernel. -/
theorem State.raise_fatal_quiet {s : State} {r : Nat} {e : Err} (he : e.cls = 2) (hh : s.err.handling = none)
    (h : (s.row r).call = none) : ((s.raise e).row r).call = none := by
  have rows : (s.fatalInHand e).rows = s.rows := by
    have noted : ((s.countErr 2).noteFirst e).rows = s.rows := by
      unfold State.noteFirst
      split <;> rfl
    exact (((Reports.refl _).log e false false false).rows).trans noted
  have hand : ((s.fatalInHand e).row r).call = none := by
    rw [State.row, rows]
    exact h
  rw [s.raise_fatal he hh]
  generalize s.fatalInHand e = u at hand
  unfold State.fatalSlice
  split
  · exact hand
  · refine State.enterHalt_quiet ?_ _
    rw [State.row, State.updTick_rows, State.haltNotice, ((Reports.refl u).emitTree _ _).rows]
    exact hand

theorem State.schedFault_quiet {s : State} {r : Nat} (hh : s.err.handling = none) (h : (s.row r).call = none) (code : Nat)
    (u : UnitKind) (idx entry : Nat) : ((s.schedFault 2 code u idx entry).row r).call = none := by
  have frame := s.recordFault_frame code u.code idx entry s.runBank (s.get TICK_COUNT.COUNT)
  rw [State.schedFault_eq]
  generalize s.recordFault code u.code idx entry s.runBank (s.get TICK_COUNT.COUNT) = f at *
  have handling : f.err.handling = none := (congrArg (fun x => x.err.handling) frame :).trans hh
  have quiet : (f.row r).call = none := by
    rw [State.row, show f.rows = s.rows from (congrArg State.rows frame :)]
    exact h
  exact State.raise_fatal_quiet (s := f.draw.2) (e := ⟨2, (unitScope u idx).1, (unitScope u idx).2, srcTICK, code, f.draw.1 % 2 ^ 48⟩)
    rfl handling quiet

/-! ### The deadline of a call (R17, R27) -/

/-- The state of a call that is stopped at its deadline, before the fault. -/
def State.callStopped (s : State) (r cc : Nat) : State := (s.endCall r).engineDone .row r engCall cc

theorem State.callStopped_kept {s : State} {r : Nat} {c : CallRec} (hc : (s.row r).call = some c) (cc : Nat) :
    (((s.callStopped r cc).row r).call = none ∧ (s.callStopped r cc).busyRec .row r engCall = none ∧ (s.callStopped r cc).mem = s.mem ∧
      (s.callStopped r cc).err = s.err ∧ ∀ g : Fld, g.key ≠ (EXN_STATUS.CTX r).key → (s.callStopped r cc).get g = s.get g) := by
  refine ⟨?_, State.engineDone_idle _ _ _ _ _, ?_, ?_, fun g hg => ?_⟩ <;> rw [State.callStopped, State.endCall_ends hc]
  · exact congrArg RowSt.call (s.row_setRow_same r _)
  · rfl
  · rfl
  · exact State.get_set_other _ _ hg

/-- A key of the tick controller or the error block is no key of a row. -/
theorem ctx_apart {g : Fld} (hg : g.key < exnBase 0 * 64 ∨ exnBase 64 * 64 ≤ g.key) {r : Nat} (hr : r < 64) {f : Fld}
    (hf : exnBase r * 64 ≤ f.key ∧ f.key < exnBase (r + 1) * 64) : g.key ≠ f.key := by
  unfold exnBase at *
  omega

theorem exnStatus_block {r : Nat} {f : Fld} (hf : f ∈ [EXN_STATUS.CTX r, EXN_STATUS.SUSPENDED r, EXN_STATUS.SVC_OVF r, EXN_STATUS.PENDING r,
    EXN_STATUS.LAST_DESC r, EXN_ENTRIES.CALLS r, EXN_ENTRIES.SUSPENDS r]) : exnBase r * 64 ≤ f.key ∧ f.key < exnBase (r + 1) * 64 := by
  simp only [List.mem_cons, List.not_mem_nil, or_false] at hf
  rcases hf with rfl | rfl | rfl | rfl | rfl | rfl | rfl <;>
    simp only [Fld.key, EXN_STATUS.CTX, EXN_STATUS.SUSPENDED, EXN_STATUS.SVC_OVF, EXN_STATUS.PENDING, EXN_STATUS.LAST_DESC,
      EXN_ENTRIES.CALLS, EXN_ENTRIES.SUSPENDS, exnBase] <;> omega

/-- A deadline that passes with no cause that excuses it stops the kernel and halts the slice. -/
theorem callDeadline_halts {s : State} {r : Nat} {c : CallRec} {b : Busy} (hr : r < 64) (hc : (s.row r).call = some c)
    (hb : s.busyRec .row r engCall = some b) (hj : s.job = 2) (hz : s.tick.freeze = 0) (hx : s.excused = false)
    (hh : s.err.handling = none) (hw : s.is ERR_SWAP.BUSY = false) (hv : s.is TICK_FAULT.VALID = false) :
    exec (.callDeadline r) s = .next ((s.callStopped r c.endCc).schedFault 2 fBUSY .row r b.entry) ∧
      FaultHits (s.callStopped r c.endCc) := by
  obtain ⟨-, -, -, err, get⟩ := State.callStopped_kept hc c.endCc
  have apart (g : Fld) (hg : g.key < exnBase 0 * 64 ∨ exnBase 64 * 64 ≤ g.key) : (s.callStopped r c.endCc).get g = s.get g :=
    get g (ctx_apart hg hr (exnStatus_block (by simp)))
  refine ⟨?_, ?_, ?_, ?_, ?_⟩
  · rw [show exec (.callDeadline r) s = execCallDeadline r s from rfl, execCallDeadline, State.forUnit, if_pos hr, hc,
      State.runningRec_of hz, hb]
    dsimp only
    rw [hx, if_neg Bool.false_ne_true]
    rfl
  · exact (apart TICK_STATUS.STATE (.inl (by decide))).trans hj
  · rw [err, hh]
  · rw [State.is, apart _ (.inr (by decide))]
    exact hw
  · rw [State.is, apart _ (.inl (by decide))]
    exact hv

/-! ### RET (R170, R171) -/

/-- The fields that the end of a call sets. -/
def retFields (r : Nat) : List Fld := [EXN_STATUS.CTX r, EXN_ENTRIES.CALLS r, EXN_ENTRY_MAX.MAX_CC r, EXN_ENTRY_MAX.DESC r]

theorem retFields_nodup (r : Nat) : ((retFields r).map Fld.key).Nodup := by
  simp [retFields, Fld.key, EXN_STATUS.CTX, EXN_ENTRIES.CALLS, EXN_ENTRY_MAX.MAX_CC, EXN_ENTRY_MAX.DESC]
  omega

theorem State.callStopped_ctx {s : State} {r : Nat} {c : CallRec} (hc : (s.row r).call = some c) (cc : Nat) :
    (s.callStopped r cc).get (EXN_STATUS.CTX r) = if c.svcWasRunning || !(s.row r).events.isEmpty then 3 else 0 := by
  rw [State.callStopped, State.endCall_ends hc]
  refine (State.get_set_same _ _ _).trans ?_
  split <;> rfl

theorem State.callStopped_only {s : State} {r : Nat} {c : CallRec} (hc : (s.row r).call = some c) (cc : Nat) :
    ∃ k w, OnlyFields { s with tick := k, rows := w } (s.callStopped r cc) (retFields r) := by
  rw [State.callStopped, State.endCall_ends hc]
  have only := (OnlyFields.refl (s.setRow r { s.row r with call := none }) (retFields r)).set
    (if c.svcWasRunning || !(s.row r).events.isEmpty then 3 else 0) (List.mem_cons_self .. : EXN_STATUS.CTX r ∈ retFields r)
  generalize State.set _ _ _ = u at only
  obtain ⟨x, hx⟩ := only.eq_flds
  refine ⟨(u.engineDone .row r engCall cc).tick, (s.setRow r { s.row r with call := none }).rows, ?_, only.2⟩
  rw [hx]
  rfl

/-- A call that returns in time has ended, is counted, and may be the longest. -/
theorem State.retList_done {s : State} {r : Nat} {c : CallRec} (hc : (s.row r).call = some c) (cc : Nat) :
    ((s.retList r cc c).row r).call = none ∧ (s.retList r cc c).busyRec .row r engCall = none ∧
      (s.retList r cc c).get (EXN_STATUS.CTX r) = (if c.svcWasRunning || !(s.row r).events.isEmpty then 3 else 0) ∧
      (s.retList r cc c).get (EXN_ENTRIES.CALLS r) = sat (EXN_ENTRIES.CALLS r) (s.get (EXN_ENTRIES.CALLS r) + 1) ∧
      (s.get (EXN_ENTRY_MAX.MAX_CC r) < cc - c.startCc →
        (s.retList r cc c).get (EXN_ENTRY_MAX.MAX_CC r) = (cc - c.startCc) % 2 ^ (EXN_ENTRY_MAX.MAX_CC r).width ∧
        (s.retList r cc c).get (EXN_ENTRY_MAX.DESC r) = c.desc % 2 ^ (EXN_ENTRY_MAX.DESC r).width) ∧
      OnlyFields { s with tick := (s.retList r cc c).tick, rows := (s.retList r cc c).rows } (s.retList r cc c) (retFields r) := by
  obtain ⟨call, idle, -, -, get⟩ := State.callStopped_kept hc cc
  have ctx := State.callStopped_ctx hc cc
  obtain ⟨k, w, only⟩ := State.callStopped_only hc cc
  have nodup := retFields_nodup r
  simp only [retFields, List.map_cons, List.map_nil, List.nodup_cons, List.mem_cons, List.not_mem_nil, or_false, not_or,
    List.nodup_nil, and_true, not_false_eq_true] at nodup
  obtain ⟨⟨ctxCalls, ctxMax, ctxDesc⟩, ⟨callsMax, callsDesc⟩, maxDesc⟩ := nodup
  have max : ((s.callStopped r cc).inc (EXN_ENTRIES.CALLS r)).get (EXN_ENTRY_MAX.MAX_CC r) = s.get (EXN_ENTRY_MAX.MAX_CC r) := by
    rw [State.get_inc_other _ _ (Ne.symm callsMax), get _ (Ne.symm ctxMax)]
  have calls : ((s.callStopped r cc).inc (EXN_ENTRIES.CALLS r)).get (EXN_ENTRIES.CALLS r) =
      sat (EXN_ENTRIES.CALLS r) (s.get (EXN_ENTRIES.CALLS r) + 1) := by
    rw [State.get_inc_same, get _ (Ne.symm ctxCalls)]
    rfl
  have ctx' : ((s.callStopped r cc).inc (EXN_ENTRIES.CALLS r)).get (EXN_STATUS.CTX r) =
      if c.svcWasRunning || !(s.row r).events.isEmpty then 3 else 0 := by
    rw [State.get_inc_other _ _ ctxCalls, ctx]
  have only' := only.inc 1 (by simp [retFields] : EXN_ENTRIES.CALLS r ∈ retFields r)
  have call' : (((s.callStopped r cc).inc (EXN_ENTRIES.CALLS r)).row r).call = none := call
  have idle' : ((s.callStopped r cc).inc (EXN_ENTRIES.CALLS r)).busyRec .row r engCall = none := idle
  have eq : s.retList r cc c = if s.get (EXN_ENTRY_MAX.MAX_CC r) < cc - c.startCc then
      ((s.callStopped r cc).inc (EXN_ENTRIES.CALLS r)).setAll
        [(EXN_ENTRY_MAX.MAX_CC r, cc - c.startCc), (EXN_ENTRY_MAX.DESC r, c.desc)]
      else (s.callStopped r cc).inc (EXN_ENTRIES.CALLS r) := by
    rw [← max]
    rfl
  rw [eq]
  generalize (s.callStopped r cc).inc (EXN_ENTRIES.CALLS r) = u at *
  have frame {t : State} (h : OnlyFields { s with tick := k, rows := w } t (retFields r)) :
      OnlyFields { s with tick := t.tick, rows := t.rows } t (retFields r) := by
    obtain ⟨x, rfl⟩ := h.eq_flds
    exact ⟨rfl, h.2⟩
  split
  · have only'' : OnlyFields { s with tick := k, rows := w } _ (retFields r) := only'.setAll
      (fs := [(EXN_ENTRY_MAX.MAX_CC r, cc - c.startCc), (EXN_ENTRY_MAX.DESC r, c.desc)]) (by simp [retFields])
    refine ⟨?_, ?_, ?_, ?_, fun _ => ⟨?_, ?_⟩, frame only''⟩
    · rw [State.row, State.setAll_rows]
      exact call'
    · rw [State.busyRec, State.setAll_tick]
      exact idle'
    · rw [State.get_setAll_other _ _ (by simp [ctxMax, ctxDesc]), ctx']
    · rw [State.get_setAll_other _ _ (by simp [callsMax, callsDesc]), calls]
    · exact State.get_setAll_at _ (by simp [maxDesc]) (List.mem_cons_self ..)
    · exact State.get_setAll_at _ (by simp [maxDesc]) (List.mem_cons_of_mem _ (List.mem_cons_self ..))
  · exact ⟨call', idle', ctx', calls, fun h => absurd h (by assumption), frame only'⟩

theorem execRet_list {s : State} {r : Nat} {c : CallRec} (h : RowRuns s r 0) (hc : (s.row r).call = some c) (cc : Nat) :
    exec (.ret r cc []) s = .next (if cc ≤ c.endCc || s.excused then s.retList r cc c else s) := by
  rw [show exec (.ret r cc []) s = execRet r cc s [] from rfl, execRet, s.instr_runs _ h, if_neg (by decide), hc]
  rfl

theorem execRet_service {s : State} {r : Nat} (h : RowRuns s r 1) (cc : Nat) :
    exec (.ret r cc []) s = .next (s.setPc r 1 (s.get (EXC_INFO.EPC r 1))) := by
  rw [show exec (.ret r cc []) s = execRet r cc s [] from rfl, execRet, s.instr_runs _ h, if_pos rfl]
  rfl

theorem State.pc_setPc (s : State) (r x v : Nat) : (s.setPc r x v).pc r x = v % 2 ^ 18 := by
  rw [State.pc, State.setPc, State.xGet_xSet_same, if_neg (by decide)]
  rfl

theorem State.setPc_only (s : State) (r x v : Nat) : OnlyRowRegs s (s.setPc r x v) [xKey r x kPC 0] := by
  have eq : s.setPc r x v = { s with xr := Store.put s.xr 0 (xKey r x kPC 0) (v % 2 ^ xBits kPC) } := by
    unfold State.setPc State.xSet
    exact if_neg (by decide)
  rw [eq]
  exact ⟨rfl, fun k hk => Store.get_put_other s.xr 0 0 _ (by simpa using hk)⟩

/-! ### Service events (R171) -/

theorem serviceResume_runs {s : State} {r : Nat} (hr : r < 64) (hc : s.get (EXN_STATUS.CTX r) = 3) :
    exec (.serviceResume r) s = .next ((s.setAll [(EXN_STATUS.CTX r, 2), (EXN_STATUS.SUSPENDED r, 0), (EXN_STATUS.PENDING r, 0)]).setRow r
      { s.row r with events := [] }) := by
  rw [show exec (.serviceResume r) s = execServiceResume r s from rfl, execServiceResume, State.forUnit, if_pos hr, if_pos hc]

/-- What a resumed service context reads. -/
theorem State.resumed_get (s : State) (r : Nat) (v : RowSt) {f : Fld} {n : Nat}
    (hf : (f, n) ∈ [(EXN_STATUS.CTX r, 2), (EXN_STATUS.SUSPENDED r, 0), (EXN_STATUS.PENDING r, 0)]) :
    ((s.setAll [(EXN_STATUS.CTX r, 2), (EXN_STATUS.SUSPENDED r, 0), (EXN_STATUS.PENDING r, 0)]).setRow r v).get f =
      n % 2 ^ f.width :=
  State.get_setAll_at s (by simp [Fld.key, EXN_STATUS.CTX, EXN_STATUS.SUSPENDED, EXN_STATUS.PENDING]) hf

/-- A service event that reaches the row, by what its contexts run. -/
theorem serviceEvent_runs {s : State} {r : Nat} (ev : Nat) (hr : r < 64) (hs : s.accepts = true) (hb : s.boot.configuring = false) :
    exec (.serviceEvent r ev) s = .next (if s.get (EXN_STATUS.CTX r) = 0 then s.set (EXN_STATUS.CTX r) 2
      else if s.get (EXN_STATUS.CTX r) = 2 then s
      else if (s.row r).events.length < 64 then
        (s.setRow r { s.row r with events := (s.row r).events ++ [ev] }).set (EXN_STATUS.PENDING r) ((s.row r).events.length + 1)
      else (s.set (EXN_STATUS.SVC_OVF r) 1).rowError 0 r 3) := by
  have here : (s.dead || !s.awake || s.boot.configuring) = false := by
    simp only [State.accepts, Bool.and_eq_true, Bool.not_eq_true'] at hs
    simp [hs, hb]
  rw [show exec (.serviceEvent r ev) s = execServiceEvent r ev s from rfl, execServiceEvent, State.forUnit, if_pos hr, here,
    if_neg Bool.false_ne_true]
  refine congrArg Host.Outcome.next ?_
  split
  · next h => rw [if_pos h]
  · next h => rw [if_neg (by omega), if_pos h]
  · next h0 h2 => rw [if_neg h0, if_neg h2]

/-- An event that finds 64 latched is lost: the row says so, and a corrected error is counted. -/
theorem State.eventLost {s : State} {r : Nat} (hr : r < 64) :
    ((s.set (EXN_STATUS.SVC_OVF r) 1).rowError 0 r 3).get (EXN_STATUS.SVC_OVF r) = 1 ∧
      ((s.set (EXN_STATUS.SVC_OVF r) 1).rowError 0 r 3).row r = s.row r ∧
      ((s.set (EXN_STATUS.SVC_OVF r) 1).rowError 0 r 3).get ERR_COUNT0.CORRECTED =
        min (s.get ERR_COUNT0.CORRECTED + 1) (2 ^ 32 - 1) := by
  have off : ∀ g ∈ correctedFields, g.key < exnBase 0 * 64 ∨ exnBase 64 * 64 ≤ g.key := by
    simp only [correctedFields, List.forall_mem_cons]
    decide
  have apart (g : Fld) (hg : g ∈ correctedFields) : g.key ≠ (EXN_STATUS.SVC_OVF r).key :=
    ctx_apart (off g hg) hr (exnStatus_block (by simp))
  generalize hu : s.set (EXN_STATUS.SVC_OVF r) 1 = u
  have count : u.get ERR_COUNT0.CORRECTED = s.get ERR_COUNT0.CORRECTED := by
    rw [← hu]
    exact State.get_set_other _ _ (apart _ (List.mem_cons_self ..))
  have ovf : u.get (EXN_STATUS.SVC_OVF r) = 1 := by
    rw [← hu]
    exact State.get_set_same _ _ _
  have rows : u.row r = s.row r := by rw [← hu]; rfl
  have raised : u.rowError 0 r 3 = u.draw.2.raise ⟨0, scRow, r, srcEXN, 3, u.draw.1 % 2 ^ 48⟩ := rfl
  have kept := State.raise_corrected u.draw.2 ⟨0, scRow, r, srcEXN, 3, u.draw.1 % 2 ^ 48⟩ rfl
  rw [raised]
  refine ⟨?_, ?_, ?_⟩
  · rw [State.raise_corrected_get _ _ rfl fun hm => ?_]
    · exact ovf
    · obtain ⟨g, hg, e⟩ := List.mem_map.1 hm
      exact apart g hg e
  · rw [← rows, kept, State.row]
    split
    · rw [((Reports.refl _).log _ _ _ _).rows]
      rfl
    · rfl
  · rw [State.raise_corrected_count _ _ rfl, ← count]
    rfl

end Sys2Proof.Machine

namespace Sys2Proof.Machine
open Reg

/-! ### Row registers -/

theorem State.xSet_only (s : State) (r x k i v : Nat) : OnlyRowRegs s (s.xSet r x k i v) [xKey r x k i] := by
  unfold State.xSet
  split
  · exact ⟨rfl, fun _ _ => rfl⟩
  · exact ⟨rfl, fun q hq => Store.get_put_other s.xr 0 0 _ (by simpa using hq)⟩

theorem OnlyRowRegs.trans {s t u : State} {l m : List Nat} (h : OnlyRowRegs s t l) (k : OnlyRowRegs t u m) :
    OnlyRowRegs s u (l ++ m) := by
  refine ⟨?_, fun q hq => ?_⟩
  · rw [← h.1, ← k.1]
  · rw [List.mem_append, not_or] at hq
    rw [k.2 q hq.2, h.2 q hq.1]

/-! ### CALL (R170, R171) -/

/-- The fields that the suspension of a service context sets. -/
def suspendFields (r : Nat) : List Fld :=
  [EXN_STATUS.SUSPENDED r, EXN_ENTRIES.SUSPENDS r, EXC_INFO.CAUSE r 1, EXC_INFO.EPC r 1, EXC_ADDR.ADDR r 1]

/-- The fields that a call sets. -/
def callFields (r : Nat) : List Fld := EXN_STATUS.LAST_DESC r :: EXN_STATUS.CTX r :: suspendFields r

theorem callFields_nodup {r : Nat} (hr : r < 64) : ((callFields r).map Fld.key).Nodup := by
  simp [callFields, suspendFields, Fld.key, EXN_STATUS.LAST_DESC, EXN_STATUS.CTX, EXN_STATUS.SUSPENDED, EXN_ENTRIES.SUSPENDS, EXC_INFO.CAUSE,
    EXC_INFO.EPC, EXC_ADDR.ADDR, exnBase, csrBase]
  omega

theorem not_suspendFields {r : Nat} {k : Nat} (h : k ∉ (callFields r).map Fld.key) : k ∉ (suspendFields r).map Fld.key :=
  fun hm => h (List.mem_cons_of_mem _ (List.mem_cons_of_mem _ hm))

/-- What runs a step and names its bank is not set by a call, nor is a row's kernel table. -/
theorem callFields_apart {r : Nat} (hr : r < 64) {g : Fld}
    (hg : g.key < exnBase 0 * 64 ∨ g ∈ [EXN_KTBL_A.OFF r, EXN_KTBL_B.OFF r]) : g.key ∉ (callFields r).map Fld.key := by
  intro hm
  obtain ⟨f, hf, e⟩ := List.mem_map.1 hm
  have block : (exnBase r * 64 ≤ f.key ∧ f.key < exnBase r * 64 + 64) ∨ (exnBase r + 0x28) * 64 ≤ f.key := by
    simp only [callFields, suspendFields, List.mem_cons, List.not_mem_nil, or_false] at hf
    rcases hf with rfl | rfl | rfl | rfl | rfl | rfl | rfl <;>
      simp only [Fld.key, EXN_STATUS.LAST_DESC, EXN_STATUS.CTX, EXN_STATUS.SUSPENDED, EXN_ENTRIES.SUSPENDS, EXC_INFO.CAUSE,
        EXC_INFO.EPC, EXC_ADDR.ADDR, exnBase, csrBase] <;> omega
  rcases hg with hg | hg
  · unfold exnBase at *
    omega
  · have : g.key = (exnBase r + 0x8) * 64 + 3 ∨ g.key = (exnBase r + 0x10) * 64 + 3 :=
      (List.mem_pair.1 hg).imp (congrArg Fld.key) (congrArg Fld.key)
    omega

/-- The first instruction of a kernel is the same where the running bank, its seal and the kernel table are. -/
theorem kernelPc_congr {s t : State} {r : Nat} (hr : r < 64) (hA : t.sealA = s.sealA) (hB : t.sealB = s.sealB) (hm : t.mem = s.mem)
    (hd : t.tick.dryBank = s.tick.dryBank) (hg : ∀ g : Fld, g.key ∉ (callFields r).map Fld.key → t.get g = s.get g) (d : Nat) :
    t.kernelPc r d = s.kernelPc r d := by
  have bank : t.runBank = s.runBank := by
    rw [State.runBank, State.is, hg _ (callFields_apart hr (.inl (by decide))), hg _ (callFields_apart hr (.inl (by decide))), hd,
      State.runBank, State.is]
  have copy : t.copy = s.copy := by rw [State.copy, bank, hA, hB, State.copy]
  have mem : t.sealedMem = s.sealedMem := by simp only [State.sealedMem, copy, hm]
  have table : t.bankGet (EXN_KTBL_A.OFF r) (EXN_KTBL_B.OFF r) = s.bankGet (EXN_KTBL_A.OFF r) (EXN_KTBL_B.OFF r) := by
    have same : t.get (if s.runBank = 0 then EXN_KTBL_A.OFF r else EXN_KTBL_B.OFF r) =
        s.get (if s.runBank = 0 then EXN_KTBL_A.OFF r else EXN_KTBL_B.OFF r) :=
      hg _ (callFields_apart hr (.inr (by split <;> simp)))
    simp only [State.bankGet, State.sealedGet, bank, copy, same]
  simp only [State.kernelPc, State.sealedRd, State.ktblAt, bank, mem, table]

/-- The service context of a row, suspended by a call where it runs. -/
def State.suspendedFor (s : State) (r : Nat) : State :=
  if s.get (EXN_STATUS.CTX r) = 2 then ((s.set (EXN_STATUS.SUSPENDED r) 1).inc (EXN_ENTRIES.SUSPENDS r)).suspend r 1 else s

theorem State.suspendedFor_only (s : State) (r : Nat) : OnlyFields s (s.suspendedFor r) (suspendFields r) := by
  unfold State.suspendedFor
  split
  · exact (((OnlyFields.refl s _).set _ (by simp [suspendFields])).inc _ (by simp [suspendFields])).setAll (by simp [suspendFields])
  · exact .refl s _

/-- What a suspended service context records. -/
theorem State.suspendedFor_get {s : State} {r : Nat} (hr : r < 64) (h : s.get (EXN_STATUS.CTX r) = 2) :
    (s.suspendedFor r).get (EXN_STATUS.SUSPENDED r) = 1 ∧ (s.suspendedFor r).get (EXC_INFO.CAUSE r 1) = 6 ∧
      (s.suspendedFor r).get (EXC_INFO.EPC r 1) = s.pc r 1 % 2 ^ 18 ∧ (s.suspendedFor r).get (EXC_ADDR.ADDR r 1) = 0 := by
  have nodup := callFields_nodup hr
  simp only [callFields, suspendFields, List.map_cons, List.map_nil, List.nodup_cons, List.mem_cons, List.not_mem_nil, or_false, not_or,
    List.nodup_nil, and_true, not_false_eq_true] at nodup
  obtain ⟨-, -, ⟨suspends, cause, epc, addr⟩, -, ⟨causeEpc, causeAddr⟩, epcAddr⟩ := nodup
  have records (x : Nat) : ([(EXC_INFO.CAUSE r 1, cSUSPEND), (EXC_INFO.EPC r 1, x), (EXC_ADDR.ADDR r 1, 0)].map
      fun e => e.1.key).Nodup := by simp [causeEpc, causeAddr, epcAddr]
  rw [State.suspendedFor, if_pos h, State.suspend]
  refine ⟨?_, ?_, ?_, ?_⟩
  · rw [State.get_setAll_other _ _ (by simp [cause, epc, addr]), State.get_inc_other _ _ suspends, State.get_set_same]
    rfl
  · exact State.get_setAll_at _ (records _) (List.mem_cons_self ..)
  · exact State.get_setAll_at _ (records _) (List.mem_cons_of_mem _ (List.mem_cons_self ..))
  · exact State.get_setAll_at _ (records _) (List.mem_cons_of_mem _ (List.mem_cons_of_mem _ (List.mem_cons_self ..)))

/-- The arguments of a call. -/
def State.callArgs (s : State) (r : Nat) (i : Issue) : State :=
  (((s.xSet r 0 kG 1 i.tag).xSet r 0 kG 2 i.arg).xSet r 0 kG 3 i.tick).xSet r 0 kG 4 (s.get TICK_STEP.STEP)

theorem State.callArgs_only (s : State) (r : Nat) (i : Issue) :
    OnlyRowRegs s (s.callArgs r i) [xKey r 0 kG 1, xKey r 0 kG 2, xKey r 0 kG 3, xKey r 0 kG 4] :=
  (((s.xSet_only r 0 kG 1 i.tag).trans (State.xSet_only _ r 0 kG 2 i.arg)).trans (State.xSet_only _ r 0 kG 3 i.tick)).trans
    (State.xSet_only _ r 0 kG 4 _)

/-- The arguments stand in g1 to g4. -/
theorem State.callArgs_get (s : State) (r : Nat) (i : Issue) :
    (s.callArgs r i).xGet r 0 kG 1 = i.tag % 2 ^ 64 ∧ (s.callArgs r i).xGet r 0 kG 2 = i.arg % 2 ^ 64 ∧
      (s.callArgs r i).xGet r 0 kG 3 = i.tick % 2 ^ 64 ∧ (s.callArgs r i).xGet r 0 kG 4 = s.get TICK_STEP.STEP % 2 ^ 64 := by
  have apart {a b : Nat} (h : a % 32 ≠ b % 32) : xKey r 0 kG a ≠ xKey r 0 kG b := by
    unfold xKey
    omega
  have same (u : State) {k : Nat} (v : Nat) (hk : k ≠ 0) : (u.xSet r 0 kG k v).xGet r 0 kG k = v % 2 ^ 64 := by
    rw [State.xGet_xSet_same, if_neg fun h => hk h.2]
    rfl
  unfold State.callArgs
  refine ⟨?_, ?_, ?_, same _ _ (by decide)⟩
  · rw [State.xGet_xSet_other _ (apart (by decide)), State.xGet_xSet_other _ (apart (by decide)),
      State.xGet_xSet_other _ (apart (by decide)), same _ _ (by decide)]
  · rw [State.xGet_xSet_other _ (apart (by decide)), State.xGet_xSet_other _ (apart (by decide)), same _ _ (by decide)]
  · rw [State.xGet_xSet_other _ (apart (by decide)), same _ _ (by decide)]

/-- The call record that an entry leaves in its row, and the arguments in its registers. -/
def State.callSet (s : State) (r : Nat) (i : Issue) (svc : Bool) : State :=
  (s.setRow r { s.row r with call := some ⟨i.desc, i.startCc, i.startCc + i.busyCc, svc⟩ }).callArgs r i

theorem State.enterCall_eq (s : State) (r : Nat) (i : Issue) :
    s.enterCall r i = (((s.suspendedFor r).callSet r i (decide (2 ≤ s.get (EXN_STATUS.CTX r)))).set (EXN_STATUS.CTX r) 1).setPc r 0
      (((s.suspendedFor r).callSet r i (decide (2 ≤ s.get (EXN_STATUS.CTX r)))).kernelPc r i.desc) := rfl

/-- A call has begun in a row. -/
structure CallBegun (s t : State) (r : Nat) (i : Issue) : Prop where
  tick : t.tick = s.tick
  mem : t.mem = s.mem
  ctx : t.get (EXN_STATUS.CTX r) = 1
  get : ∀ g : Fld, g.key ≠ (EXN_STATUS.CTX r).key → t.get g = (s.suspendedFor r).get g
  g1 : t.xGet r 0 kG 1 = i.tag % 2 ^ 64
  g2 : t.xGet r 0 kG 2 = i.arg % 2 ^ 64
  g3 : t.xGet r 0 kG 3 = i.tick % 2 ^ 64
  g4 : t.xGet r 0 kG 4 = s.get TICK_STEP.STEP % 2 ^ 64
  pc : t.pc r 0 = s.kernelPc r i.desc % 2 ^ 18
  call : ∃ c, (t.row r).call = some c ∧ c.desc = i.desc ∧ c.startCc = i.startCc ∧ c.endCc = i.startCc + i.busyCc
  regs : ∀ q, q ∉ [xKey r 0 kG 1, xKey r 0 kG 2, xKey r 0 kG 3, xKey r 0 kG 4, xKey r 0 kPC 0] →
    Store.get t.xr 0 q = Store.get s.xr 0 q

/-- The state of a call with its record and arguments differs from the one before in the fields of a suspension, the row and its
registers. -/
structure CallSet (s w : State) (r : Nat) (i : Issue) : Prop where
  rest : { w with flds := s.flds, rows := s.rows, xr := s.xr } = s
  get : ∀ g : Fld, w.get g = (s.suspendedFor r).get g
  args : w.xGet r 0 kG 1 = i.tag % 2 ^ 64 ∧ w.xGet r 0 kG 2 = i.arg % 2 ^ 64 ∧ w.xGet r 0 kG 3 = i.tick % 2 ^ 64 ∧
    w.xGet r 0 kG 4 = s.get TICK_STEP.STEP % 2 ^ 64
  call : ∃ c, (w.row r).call = some c ∧ c.desc = i.desc ∧ c.startCc = i.startCc ∧ c.endCc = i.startCc + i.busyCc
  regs : ∀ q, q ∉ [xKey r 0 kG 1, xKey r 0 kG 2, xKey r 0 kG 3, xKey r 0 kG 4] → Store.get w.xr 0 q = Store.get s.xr 0 q

theorem State.callSet_set (s : State) {r : Nat} (hr : r < 64) (i : Issue) (svc : Bool) :
    CallSet s ((s.suspendedFor r).callSet r i svc) r i := by
  have sus := s.suspendedFor_only r
  have step : (s.suspendedFor r).get TICK_STEP.STEP = s.get TICK_STEP.STEP := 
    sus.2 _ (not_suspendFields (callFields_apart hr (.inl (by decide))))
  unfold State.callSet
  have hrow := (s.suspendedFor r).row_setRow_same r { (s.suspendedFor r).row r with
    call := some ⟨i.desc, i.startCc, i.startCc + i.busyCc, svc⟩ }
  generalize hv : (s.suspendedFor r).setRow r _ = v at hrow ⊢
  have vget (g : Fld) : v.get g = (s.suspendedFor r).get g := by rw [← hv]; rfl
  have frame : { v with flds := s.flds, rows := s.rows } = s := by
    obtain ⟨x, hx⟩ := sus.eq_flds
    rw [← hv, hx]
    rfl
  have only := v.callArgs_only r i
  have args := v.callArgs_get r i
  rw [vget, step] at args
  generalize v.callArgs r i = w at only args ⊢
  have sameFlds : w.flds = v.flds := (congrArg State.flds only.1 :)
  have sameRows : w.rows = v.rows := (congrArg State.rows only.1 :)
  refine ⟨?_, fun g => ?_, args, ⟨⟨i.desc, i.startCc, i.startCc + i.busyCc, svc⟩, ?_, rfl, rfl, rfl⟩, fun q hq => ?_⟩
  · rw [← frame, ← only.1]
  · rw [← vget, State.get, sameFlds, State.get]
  · rw [State.row, sameRows]
    exact congrArg RowSt.call hrow
  · rw [only.2 q (by simpa using hq), show v.xr = s.xr from (congrArg State.xr frame :)]

theorem State.enterCall_begun (s : State) {r : Nat} (hr : r < 64) (i : Issue) : CallBegun s (s.enterCall r i) r i := by
  rw [State.enterCall_eq]
  have set := s.callSet_set hr i (decide (2 ≤ s.get (EXN_STATUS.CTX r)))
  generalize (s.suspendedFor r).callSet r i (decide (2 ≤ s.get (EXN_STATUS.CTX r))) = w at set ⊢
  have tick : w.tick = s.tick := (congrArg State.tick set.rest :)
  have mem : w.mem = s.mem := (congrArg State.mem set.rest :)
  have sealA : w.sealA = s.sealA := (congrArg State.sealA set.rest :)
  have sealB : w.sealB = s.sealB := (congrArg State.sealB set.rest :)
  have kernel : w.kernelPc r i.desc = s.kernelPc r i.desc :=
    kernelPc_congr (s := s) (t := w) hr sealA sealB mem (by rw [tick])
      (fun g hg => (set.get g).trans ((s.suspendedFor_only r).2 g (not_suspendFields hg))) i.desc
  rw [kernel]
  have jump := (w.set (EXN_STATUS.CTX r) 1).setPc_only r 0 (s.kernelPc r i.desc)
  have pc := (w.set (EXN_STATUS.CTX r) 1).pc_setPc r 0 (s.kernelPc r i.desc)
  generalize (w.set (EXN_STATUS.CTX r) 1).setPc r 0 (s.kernelPc r i.desc) = t at jump pc ⊢
  have sameFlds : t.flds = (w.set (EXN_STATUS.CTX r) 1).flds := (congrArg State.flds jump.1 :)
  have get (g : Fld) : t.get g = (w.set (EXN_STATUS.CTX r) 1).get g := by rw [State.get, sameFlds, State.get]
  have reg {k : Nat} (hk : k ≠ 0) : t.xGet r 0 kG k = w.xGet r 0 kG k := by
    have apart : xKey r 0 kG k ∉ [xKey r 0 kPC 0] := by
      simp only [List.mem_singleton, xKey, kG, kPC]
      omega
    rw [State.xGet, if_neg fun h => hk h.2, jump.2 _ apart, State.xGet, if_neg fun h => hk h.2]
    rfl
  obtain ⟨a1, a2, a3, a4⟩ := set.args
  refine ⟨?_, ?_, ?_, fun g hg => ?_, (reg (by decide)).trans a1, (reg (by decide)).trans a2, (reg (by decide)).trans a3,
    (reg (by decide)).trans a4, pc, ?_, fun q hq => ?_⟩
  · exact (congrArg State.tick jump.1 :).trans tick
  · exact (congrArg State.mem jump.1 :).trans mem
  · rw [get, State.get_set_same]
    rfl
  · rw [get, State.get_set_other _ _ hg, set.get]
  · rw [State.row, show t.rows = w.rows from (congrArg State.rows jump.1 :)]
    exact set.call
  · simp only [List.mem_cons, List.not_mem_nil, or_false, not_or] at hq
    obtain ⟨h1, h2, h3, h4, h5⟩ := hq
    refine (jump.2 q (by simpa using h5)).trans (set.regs q ?_)
    simp only [List.mem_cons, List.not_mem_nil, or_false, not_or]
    exact ⟨h1, h2, h3, h4⟩

/-- A row whose turn it is exists. -/
theorem Ready.row_lt {s : State} {eng : Nat} {i : Issue} (h : Ready s .row eng i) : i.idx < 64 := h.1.1

/-- The state in which a call that has issued does its work. -/
def State.calling (s : State) (i : Issue) : State := (s.entered .row engCall i true).set (EXN_STATUS.LAST_DESC i.idx) i.desc

theorem State.calling_get (s : State) (i : Issue) {g : Fld} (hg : g.key ≠ (EXN_STATUS.LAST_DESC i.idx).key) :
    (s.calling i).get g = s.get g := State.get_set_other _ _ hg

/-- A call that issues begins, unless the row has faulted in this step: then it returns at once. -/
theorem execKernelCall_ready {s : State} {i : Issue} (h : Ready s .row engCall i) :
    exec (.kernelCall i []) s = .next (if (s.row i.idx).faulted then (s.calling i).engineDone .row i.idx engCall i.startCc
      else (s.calling i).enterCall i.idx i) := by
  have low {g : Fld} (hg : g.key < exnBase 0 * 64) : (s.calling i).get g = s.get g :=
    s.calling_get i (ctx_apart (.inl hg) h.row_lt (exnStatus_block (by simp)))
  have running : (s.calling i).running = true := by
    rw [State.running, State.job, State.is, low (by decide), low (by decide)]
    exact h.1.2.2.1
  rw [show exec (.kernelCall i []) s = execKernelCall i [] s from rfl, execKernelCall, s.issue_ready true _ h]
  refine congrArg Host.Outcome.next ?_
  show (if !(s.calling i).running then s.calling i else if (s.row i.idx).faulted then
    (s.calling i).engineDone .row i.idx engCall i.startCc else (s.calling i).enterCall i.idx i) = _
  rw [running]
  rfl

/-- A call that returns at once leaves its engine idle. -/
theorem State.calling_returns (s : State) (i : Issue) :
    ((s.calling i).engineDone .row i.idx engCall i.startCc).busyRec .row i.idx engCall = none ∧
      OnlyFields { s with tick := ((s.calling i).engineDone .row i.idx engCall i.startCc).tick }
        ((s.calling i).engineDone .row i.idx engCall i.startCc) [EXN_STATUS.LAST_DESC i.idx] :=
  ⟨State.engineDone_idle _ _ _ _ _, rfl, fun _ hg => State.get_set_other _ _ (by simpa using hg)⟩

/-- What a call that begins leaves. -/
theorem execKernelCall_begins {s : State} {i : Issue} (h : Ready s .row engCall i) (hf : (s.row i.idx).faulted = false) :
    ∃ t, exec (.kernelCall i []) s = .next t ∧ CallBegun (s.calling i) t i.idx i := by
  have run := execKernelCall_ready h
  rw [hf, if_neg Bool.false_ne_true] at run
  exact ⟨_, run, (s.calling i).enterCall_begun h.row_lt i⟩

/-- What a call that begins when its entry issues takes from the state it found. -/
theorem CallBegun.issued {s t : State} {i : Issue} (begun : CallBegun (s.calling i) t i.idx i) (h : Ready s .row engCall i) :
    t.get (EXN_STATUS.LAST_DESC i.idx) = i.desc % 2 ^ (EXN_STATUS.LAST_DESC i.idx).width ∧
      t.xGet i.idx 0 kG 4 = s.get TICK_STEP.STEP % 2 ^ 64 ∧ t.pc i.idx 0 = s.kernelPc i.idx i.desc % 2 ^ 18 ∧
      (s.get (EXN_STATUS.CTX i.idx) = 2 → t.get (EXN_STATUS.SUSPENDED i.idx) = 1 ∧ t.get (EXC_INFO.CAUSE i.idx 1) = 6 ∧
        t.get (EXC_INFO.EPC i.idx 1) = s.pc i.idx 1 % 2 ^ 18 ∧ t.get (EXC_ADDR.ADDR i.idx 1) = 0) := by
  have sus := (s.calling i).suspendedFor_only i.idx
  have nodup := callFields_nodup h.row_lt
  simp only [callFields, List.map_cons, List.nodup_cons, List.mem_cons, not_or] at nodup
  obtain ⟨⟨last, descKept⟩, ctxKept, -⟩ := nodup
  have descApart {g : Fld} (hg : g.key < exnBase 0 * 64 ∨ g ∈ [EXN_KTBL_A.OFF i.idx, EXN_KTBL_B.OFF i.idx]) :
      (EXN_STATUS.LAST_DESC i.idx).key ≠ g.key := fun e => callFields_apart h.row_lt hg (e ▸ List.mem_cons_self ..)
  have ctxApart (f : Fld) (hm : f ∈ suspendFields i.idx) : f.key ≠ (EXN_STATUS.CTX i.idx).key :=
    fun e => ctxKept (e ▸ List.mem_map_of_mem hm)
  have kernel : (s.calling i).kernelPc i.idx i.desc = s.kernelPc i.idx i.desc :=
    kernelPc_congr (s := s) (t := s.calling i) h.row_lt rfl rfl rfl rfl
      (fun g hg => s.calling_get i fun e => hg (e ▸ List.mem_cons_self ..)) i.desc
  refine ⟨?_, ?_, ?_, fun hc => ?_⟩
  · rw [begun.get _ last, sus.2 _ descKept]
    exact State.get_set_same _ _ _
  · rw [begun.g4, s.calling_get i (Ne.symm (descApart (.inl (by decide))))]
  · rw [begun.pc, kernel]
  · have running : (s.calling i).get (EXN_STATUS.CTX i.idx) = 2 := (s.calling_get i (Ne.symm last)).trans hc
    obtain ⟨suspended, cause, epc, addr⟩ := State.suspendedFor_get h.row_lt running
    have kept (f : Fld) (hm : f ∈ suspendFields i.idx) : t.get f = ((s.calling i).suspendedFor i.idx).get f := begun.get f (ctxApart f hm)
    exact ⟨(kept _ (by simp [suspendFields])).trans suspended, (kept _ (by simp [suspendFields])).trans cause,
      (kept _ (by simp [suspendFields])).trans epc, (kept _ (by simp [suspendFields])).trans addr⟩

/-- Settles O59: CALL, RET, the deadline and the service events, each by what its command does. -/
theorem callsAndTheServiceContext : Obligations.CallsAndTheServiceContext := by
  intro s
  refine ⟨fun i r hri h hf => ?_, fun i h hf => ?_, fun r cc c h hc => ⟨fun hin => ?_, fun hcc hx => ?_⟩, fun r cc h => ?_,
    fun r c b hr hc hb hj hz hx hh hw hv => ?_, fun r hr hc => ?_, fun r hr hx => ?_,
    fun r ev c hr hs hb hc => ⟨fun h0 => ?_, fun h13 hlen => ?_, fun h13 hlen => ?_⟩⟩
  · subst hri
    obtain ⟨t, run, begun⟩ := execKernelCall_begins h hf
    obtain ⟨desc, step, pc, suspended⟩ := begun.issued h
    exact ⟨t, run, (s.entered_occupied _ _ _ _).of_tick begun.tick, begun.mem, begun.ctx, desc, begun.g1, begun.g2, begun.g3,
      step, pc, begun.call, suspended, begun.regs⟩
  · have run := execKernelCall_ready h
    rw [hf, if_pos rfl] at run
    exact ⟨_, run, s.calling_returns i⟩
  · have run := execRet_list h hc cc
    rw [if_pos (by simpa using hin)] at run
    exact ⟨_, run, State.retList_done hc cc⟩
  · rw [execRet_list h hc cc, if_neg (by simp [hx]; omega)]
  · exact ⟨_, execRet_service h cc, State.pc_setPc _ _ _ _, State.setPc_only _ _ _ _⟩
  · obtain ⟨run, hits⟩ := callDeadline_halts hr hc hb hj hz hx hh hw hv
    obtain ⟨quiet, -, mem, -, -⟩ := State.callStopped_kept hc c.endCc
    have halted := State.schedFault_halts hits fBUSY .row r b.entry
    have stopped := State.schedFault_quiet hits.handling quiet fBUSY .row r b.entry
    exact ⟨_, run, halted.job, halted.mem.trans mem, stopped, halted.named.code, 
      halted.named.idx.trans (Nat.mod_eq_of_lt (Nat.lt_of_lt_of_le hr (by decide))), halted.named.entry⟩
  · refine ⟨_, serviceResume_runs hr hc, s.resumed_get r _ (f := EXN_STATUS.CTX r) (n := 2) (by simp),
      s.resumed_get r _ (f := EXN_STATUS.SUSPENDED r) (n := 0) (by simp),
      s.resumed_get r _ (f := EXN_STATUS.PENDING r) (n := 0) (by simp), ?_, ?_, ?_⟩
    · exact congrArg RowSt.events (State.row_setRow_same _ _ _)
    · exact State.setAll_mem _ _
    · exact State.setAll_xr _ _
  · rw [show exec (.callDeadline r) s = execCallDeadline r s from rfl, execCallDeadline, State.forUnit, if_pos hr]
    refine congrArg Host.Outcome.next ?_
    split
    · rw [if_pos hx]
    · rfl
  · subst hc
    have run := serviceEvent_runs ev hr hs hb
    rw [if_pos h0] at run
    exact ⟨_, run, State.get_set_same _ _ _, (OnlyFields.refl s _).set _ (by simp)⟩
  · subst hc
    have run := serviceEvent_runs ev hr hs hb
    rw [if_neg (by omega), if_neg (by omega), if_pos hlen] at run
    refine ⟨_, run, ?_, ?_, (OnlyFields.refl _ _).set _ (by simp)⟩
    · exact congrArg RowSt.events (s.row_setRow_same r _)
    · exact (State.get_set_same _ _ _).trans (Nat.mod_eq_of_lt (show _ < 256 by omega))
  · subst hc
    have run := serviceEvent_runs ev hr hs hb
    rw [if_neg (by omega), if_neg (by omega), if_neg (by omega)] at run
    obtain ⟨ovf, row, count⟩ := State.eventLost (s := s) hr
    exact ⟨_, run, ovf, congrArg RowSt.events row, count⟩

end Sys2Proof.Machine

/-! SUPPORT. Exeno-L loads and stores (O58): a poisoned place that is not the start of a 64-bit word refutes the clause of
stores. -/

namespace Sys2Proof.Machine
open Reg

/-- One element of 64 bits: the count register g2 holds 1. -/
def oneDouble : VArgs := ⟨64, 2, none, none⟩

/-- Row 5 runs a kernel whose g3 names the second word of cluster 0's veneer region, and poison is noted at byte 4 of the
region, amid its first word. No run reaches this state, since what an error poisons is noted by the starts of its words
(R252). -/
def strayPoison : State := { rs 0 [(kG, 2, 1), (kG, 3, veneerBase 0 + 8)] [] with poison := [veneerBase 0 + 4] }

theorem strayPoison_runs : VecRuns strayPoison 5 0 oneDouble :=
  ⟨rowRuns_of (by decide +kernel), by decide, .inl rfl⟩

/-- The element reaches memory: the word that the noted place lies in ends where the element begins. -/
theorem strayPoison_reaches : strayPoison.allReach 5 0 oneDouble (vMax 64) 8 true
    (fun k => strayPoison.unitAt 5 0 3 k 8) (fun k => veneerBase 0 + 8 + 8 * k) :=
  allReach_of (by decide +kernel)

/-- The uncorrectable veneer errors that a device has counted after a command. -/
def veneerErrorsAfter : Host.Outcome State Fault Refusal → Nat
  | .next t => t.get VNR_ECC.UE
  | _ => 0

/-- The store counts an uncorrectable error: the eight bytes from the noted place on are covered in part. -/
theorem strayPoison_counted : veneerErrorsAfter (exec (.vst 5 oneDouble 9 3 []) strayPoison) = 1 := by decide +kernel

/-- Refutes O58: where an access meets poison, the model rounds the noted places down to words, and the read half of a
store (R252) takes them as they are. A store to the word after a place noted amid a word reaches memory, but raises an
error, where the statement keeps VNR_ECC.UE. The statement lacks the hypothesis that every noted place starts a word. -/
theorem not_vectorLoadsAndStores : ¬ Obligations.VectorLoadsAndStores := by
  intro h
  obtain ⟨-, -, -, stores, -⟩ := h strayPoison 5 0 oneDouble 9 3 0 8 _ strayPoison_runs rfl
  obtain ⟨t, run, ⟨-, -, -, -, -, kept⟩, -⟩ := stores _ _ _ (.inl ⟨rfl, rfl, rfl⟩) strayPoison_reaches
  have silent : t.get VNR_ECC.UE = strayPoison.get VNR_ECC.UE :=
    kept.2 VNR_ECC.UE (by decide) (by decide) (by decide) (by decide) (by decide)
  have counted := strayPoison_counted
  rw [run] at counted
  exact absurd (silent.symm.trans counted) (by decide +kernel)

end Sys2Proof.Machine

/-! SUPPORT. Array operations (O20): whole numbers in the array's number formats; the frame of an operation, by its stages; and the
exact product that a plain operation leaves in C. -/

namespace Sys2Proof.Machine
open Reg

/-! ### Whole numbers as values (R45, R100) -/

/-- The rational number of a finite value. -/
def finRat (neg : Bool) (m : Nat) (e : Int) : ℚ := (Val.sgn neg m : ℚ) * 2 ^ e

theorem Val.isWhole_fin {neg : Bool} {m : Nat} {e z : Int} : (Val.fin neg m e).isWhole z ↔ finRat neg m e = z := by
  have parts : (2 : ℚ) ^ e = 2 ^ e.toNat / 2 ^ (-e).toNat := by
    rw [eq_div_iff (by positivity), ← zpow_natCast, ← zpow_natCast, ← zpow_add₀ (by norm_num)]
    congr 1
    omega
  have value : finRat neg m e = z ↔ (Val.sgn neg m : ℚ) * 2 ^ e.toNat = z * 2 ^ (-e).toNat := by
    rw [finRat, parts, mul_div_assoc', div_eq_iff (by positivity)]
  rw [value]
  constructor
  · rintro ⟨_, _, _, h, eq⟩
    cases h
    exact_mod_cast eq
  · intro eq
    exact ⟨neg, m, e, rfl, by exact_mod_cast eq⟩

theorem Val.isWhole.fin {v : Val} {z : Int} (h : v.isWhole z) : ∃ neg m e, v = .fin neg m e ∧ finRat neg m e = z := by
  obtain ⟨neg, m, e, rfl, eq⟩ := h
  exact ⟨neg, m, e, rfl, Val.isWhole_fin.1 ⟨neg, m, e, rfl, eq⟩⟩

theorem finRat_zero (neg : Bool) (e : Int) : finRat neg 0 e = 0 := by cases neg <;> simp [finRat, Val.sgn]

/-- A significand moved to a lower exponent. -/
theorem finRat_scaled (neg : Bool) (m : Nat) {e q : Int} (h : q ≤ e) : finRat neg (Val.scaled m e q) q = finRat neg m e := by
  have shift : (2 : ℚ) ^ e = 2 ^ (e - q).toNat * 2 ^ q := by
    rw [← zpow_natCast, ← zpow_add₀ (by norm_num)]
    congr 1
    omega
  cases neg <;> simp only [finRat, Val.sgn, Val.scaled, shift] <;> push_cast <;> ring

/-- An integer written as a sign and a magnitude. -/
theorem sgn_natAbs (i : Int) : Val.sgn (decide (i < 0)) i.natAbs = i := by
  simp only [Val.sgn, decide_eq_true_eq]
  split <;> omega

theorem finRat_natAbs (i q : Int) : finRat (decide (i < 0)) i.natAbs q = i * 2 ^ q := by rw [finRat, sgn_natAbs]

theorem Val.isWhole.mul {a b : Val} {x y : Int} (ha : a.isWhole x) (hb : b.isWhole y) : (a.mul b).isWhole (x * y) := by
  obtain ⟨s, m, e, rfl, hx⟩ := ha.fin
  obtain ⟨t, n, f, rfl, hy⟩ := hb.fin
  refine Val.isWhole_fin.2 ?_
  have sign : (Val.sgn (s != t) (m * n) : ℚ) = Val.sgn s m * Val.sgn t n := by cases s <;> cases t <;> simp [Val.sgn]
  push_cast
  rw [← hx, ← hy, finRat, finRat, finRat, sign, zpow_add₀ (by norm_num)]
  ring

theorem Val.isWhole.add {a b : Val} {x y : Int} (ha : a.isWhole x) (hb : b.isWhole y) : (a.add b).isWhole (x + y) := by
  obtain ⟨s, m, e, rfl, hx⟩ := ha.fin
  obtain ⟨t, n, f, rfl, hy⟩ := hb.fin
  have sum : finRat s (scaled m e (min e f)) (min e f) + finRat t (scaled n f (min e f)) (min e f) = (x + y : Int) := by
    rw [finRat_scaled _ _ (Int.min_le_left e f), finRat_scaled _ _ (Int.min_le_right e f), hx, hy]
    push_cast
    rfl
  have total : ((sgn s (scaled m e (min e f)) + sgn t (scaled n f (min e f)) : Int) : ℚ) * 2 ^ min e f = (x + y : Int) := by
    rw [← sum, finRat, finRat]
    push_cast
    ring
  show Val.isWhole (if m = 0 ∧ n = 0 then _ else _) _
  split
  next zero =>
    obtain ⟨rfl, rfl⟩ := zero
    rw [finRat_zero] at hx hy
    exact Val.isWhole_fin.2 (by push_cast; rw [finRat_zero, ← hx, ← hy, add_zero])
  next =>
    split
    next zero =>
      rw [zero] at total
      exact Val.isWhole_fin.2 (by rw [finRat_zero, ← total]; simp)
    next => exact Val.isWhole_fin.2 ((finRat_natAbs _ _).trans total)

/-- The zero of a whole number's significand says that the number is 0. -/
theorem finRat_eq_zero {neg : Bool} {m : Nat} {e : Int} : finRat neg m e = 0 ↔ m = 0 := by
  cases neg <;> simp [finRat, Val.sgn, zpow_ne_zero]

theorem finRat_abs (neg : Bool) (m : Nat) (e : Int) : |finRat neg m e| = m * 2 ^ e := by
  cases neg <;> simp [finRat, Val.sgn, abs_mul, abs_of_pos (zpow_pos (by norm_num : (0 : ℚ) < 2) e)]

/-- A whole number is a multiple of every unit of at most 1: below its own exponent the significand leaves no rest. -/
theorem pow_dvd_of_whole {neg : Bool} {m : Nat} {e z q : Int} (h : finRat neg m e = z) (hq : q ≤ 0) (he : e ≤ q) :
    2 ^ (q - e).toNat ∣ m := by
  have magnitude : (m : ℚ) = z.natAbs * 2 ^ (-e).toNat := by
    have := (finRat_abs neg m e).symm.trans (congrArg abs h)
    rw [← Int.cast_abs, Int.abs_eq_natAbs, Int.cast_natCast] at this
    rw [← this, mul_assoc, ← zpow_natCast, ← zpow_add₀ (by norm_num), show e + ((-e).toNat : Int) = 0 by omega, zpow_zero, mul_one]
  have value : m = z.natAbs * 2 ^ (-e).toNat := by exact_mod_cast magnitude
  rw [value]
  exact (pow_dvd_pow 2 (by omega)).mul_left _

/-! ### The chunk register on whole numbers (R100, R101, R103) -/

theorem sgn_mul (neg : Bool) (m n : Nat) : Val.sgn neg (m * n) = Val.sgn neg m * n := by cases neg <;> simp [Val.sgn]

/-- A product enters the register exactly: it is cut to no unit coarser than 1. -/
theorem truncUnits_whole {neg : Bool} {m : Nat} {e z q : Int} (h : finRat neg m e = z) (hq : q ≤ 0) :
    truncUnits neg m e q = z * 2 ^ (-q).toNat := by
  have unit : (2 : ℚ) ^ q * 2 ^ (-q).toNat = 1 := by
    rw [← zpow_natCast, ← zpow_add₀ (by norm_num), show q + ((-q).toNat : Int) = 0 by omega, zpow_zero]
  have value : ((truncUnits neg m e q : Int) : ℚ) * 2 ^ q = z := by
    unfold truncUnits
    split
    next le => exact (finRat_scaled neg m le).trans h
    next gt =>
      obtain ⟨k, rfl⟩ := pow_dvd_of_whole h hq (by omega)
      have quotient : (Val.sgn neg (2 ^ (q - e).toNat * k)).fdiv (2 ^ (q - e).toNat) = Val.sgn neg k := by
        rw [Nat.mul_comm, sgn_mul, Nat.cast_pow, Nat.cast_ofNat]
        exact Int.mul_fdiv_cancel _ (by positivity)
      rw [quotient]
      exact (finRat_scaled neg k (by omega : e ≤ q)).symm.trans ((congrArg (finRat neg · e) (Nat.mul_comm _ _)).trans h)
  have : ((truncUnits neg m e q : Int) : ℚ) = z * 2 ^ (-q).toNat := by rw [← value, mul_assoc, unit, mul_one]
  exact_mod_cast this

/-- Nor does it leave a sticky bit. -/
theorem whole_not_sticky {neg : Bool} {m : Nat} {e z q : Int} (h : finRat neg m e = z) (hq : q ≤ 0) :
    (decide (e < q) && (m % 2 ^ (q - e).toNat != 0)) = false := by
  by_cases he : e < q
  · simp [Nat.mod_eq_zero_of_dvd (pow_dvd_of_whole h hq (by omega))]
  · simp [he]

theorem two_pow_bitLen_le {m : Nat} (h : m ≠ 0) : 2 ^ (bitLen m - 1) ≤ m := by
  rw [bitLen, if_neg h]
  exact Nat.log2_self_le h

theorem lt_two_pow_bitLen (m : Nat) : m < 2 ^ bitLen m := by
  unfold bitLen
  split
  next h => simp [h]
  next => exact Nat.lt_log2_self

/-- A magnitude below a power of two has its leading bit below that power. -/
theorem leadExp_lt {neg : Bool} {m : Nat} {e z : Int} {k : Nat} (h : finRat neg m e = z) (hm : m ≠ 0) (hz : z.natAbs < 2 ^ k) :
    leadExp m e < k := by
  have low : (2 : ℚ) ^ leadExp m e ≤ m * 2 ^ e := by
    have : 0 < bitLen m := by rw [bitLen, if_neg hm]; omega
    have lead : leadExp m e = ((bitLen m - 1 : Nat) : Int) + e := by unfold leadExp; omega
    rw [lead, zpow_add₀ (by norm_num), zpow_natCast]
    exact mul_le_mul_of_nonneg_right (by exact_mod_cast two_pow_bitLen_le hm) (by positivity)
  have high : (m : ℚ) * 2 ^ e < 2 ^ (k : Int) := by
    rw [← finRat_abs neg, h, ← Int.cast_abs, Int.abs_eq_natAbs, Int.cast_natCast, zpow_natCast]
    exact_mod_cast hz
  exact (zpow_lt_zpow_iff_right₀ (by norm_num)).1 (low.trans_lt high)

theorem maxLead_le {l : List (Bool × Nat × Int)} {k : Int} (hk : 0 ≤ k) (h : ∀ p ∈ l, leadExp p.2.1 p.2.2 ≤ k) : maxLead l ≤ k := by
  fun_induction maxLead l with
  | case1 => exact hk
  | case2 p => exact h p (by simp)
  | case3 p l _ ih => exact max_le (h p (by simp)) (ih fun q hq => h q (List.mem_cons_of_mem _ hq))

section
variable {α : Type} {ks : List α} {f : α → Val} {z : α → Int} (h : ∀ k ∈ ks, (f k).isWhole (z k))
include h

/-- The finite parts of whole numbers are those of the whole numbers that are not 0. -/
theorem mem_finParts {p : Bool × Nat × Int} (hp : p ∈ finParts (ks.map f)) :
    p.2.1 ≠ 0 ∧ ∃ k ∈ ks, finRat p.1 p.2.1 p.2.2 = z k := by
  induction ks with
  | nil => simp [finParts] at hp
  | cons k ks ih =>
    obtain ⟨neg, m, e, eq, value⟩ := (h k List.mem_cons_self).fin
    have rest (hp : p ∈ finParts (ks.map f)) : p.2.1 ≠ 0 ∧ ∃ j ∈ k :: ks, finRat p.1 p.2.1 p.2.2 = z j :=
      (ih (fun j hj => h j (List.mem_cons_of_mem _ hj)) hp).imp_right fun ⟨j, hj, eq⟩ => ⟨j, List.mem_cons_of_mem k hj, eq⟩
    rw [List.map_cons, eq, finParts] at hp
    split at hp
    next => exact rest hp
    next nonzero =>
      rcases List.mem_cons.1 hp with rfl | hp
      · exact ⟨nonzero, k, List.mem_cons_self, value⟩
      · exact rest hp

/-- The register adds whole numbers exactly. -/
theorem foldl_truncUnits {q : Int} (hq : q ≤ 0) (a : Int) :
    (finParts (ks.map f)).foldl (fun a p => a + truncUnits p.1 p.2.1 p.2.2 q) a = a + (ks.map z).sum * 2 ^ (-q).toNat := by
  induction ks generalizing a with
  | nil => simp [finParts]
  | cons k ks ih =>
    have ih := ih fun j hj => h j (List.mem_cons_of_mem _ hj)
    obtain ⟨neg, m, e, eq, value⟩ := (h k List.mem_cons_self).fin
    rw [List.map_cons, eq, finParts]
    split
    next zero =>
      have : z k = 0 := by rw [zero, finRat_zero] at value; exact_mod_cast value.symm
      rw [ih, List.map_cons, List.sum_cons, this, Int.zero_add]
    next =>
      rw [List.foldl_cons, ih, truncUnits_whole value hq, List.map_cons, List.sum_cons]
      ring

/-- The register's value of whole products of at most 256 is their sum. -/
theorem registerValue_whole (hz : ∀ k ∈ ks, (z k).natAbs ≤ 256) :
    (registerValue 64 (finParts (ks.map f))).isWhole (ks.map z).sum := by
  have lead : maxLead (finParts (ks.map f)) ≤ 8 := maxLead_le (by decide) fun p hp => by
    obtain ⟨nonzero, k, mem, value⟩ := mem_finParts h hp
    have := leadExp_lt (k := 9) value nonzero (Nat.lt_of_le_of_lt (hz k mem) (by decide))
    omega
  have sum (a : Int) := foldl_truncUnits h (q := maxLead (finParts (ks.map f)) - 56) (by omega) a
  have clean : ((finParts (ks.map f)).any fun p => decide (p.2.2 < maxLead (finParts (ks.map f)) - 56) &&
      (p.2.1 % 2 ^ (maxLead (finParts (ks.map f)) - 56 - p.2.2).toNat != 0)) = false := by
    rw [List.any_eq_false]
    intro p hp
    obtain ⟨-, k, -, value⟩ := mem_finParts h hp
    rw [whole_not_sticky value (by omega)]
    exact Bool.false_ne_true
  unfold registerValue
  split
  next none =>
    have : (ks.map z).sum = 0 := by simpa [none, Int.mul_eq_zero] using (sum 0).symm
    exact Val.isWhole_fin.2 (by rw [finRat_zero, this]; simp)
  next =>
    simp only [show maxLead (finParts (ks.map f)) - (((64 : Nat) : Int) - 8) = maxLead (finParts (ks.map f)) - 56 by omega, clean,
      sum, Bool.false_eq_true, if_false, Int.zero_add]
    refine Val.isWhole_fin.2 ?_
    rw [finRat_natAbs]
    push_cast
    rw [mul_assoc, ← zpow_natCast, ← zpow_add₀ (by norm_num), Int.toNat_of_nonneg (by omega), neg_add_cancel, zpow_zero, mul_one]

theorem chunkValue_whole (hz : ∀ k ∈ ks, (z k).natAbs ≤ 256) : (chunkValue 64 (ks.map f)).1.isWhole (ks.map z).sum := by
  have finite (v : Val) (hv : v ∈ ks.map f) : v.isFin = true := by
    obtain ⟨k, hk, rfl⟩ := List.mem_map.1 hv
    obtain ⟨neg, m, e, eq, -⟩ := (h k hk).fin
    rw [eq]
    rfl
  have noNan : (ks.map f).find? Val.isNan = none := List.find?_eq_none.2 fun v hv => by
    have := finite v hv
    cases v <;> simp_all [Val.isFin, Val.isNan]
  have noInf (s : Bool) : ((ks.map f).any fun v => v == Val.inf s) = false := List.any_eq_false.2 fun v hv => by
    have := finite v hv
    cases v <;> simp_all [Val.isFin]
  simpa [chunkValue, noNan, noInf] using registerValue_whole h hz

end

/-! ### Whole numbers in FP32 (R42, R50, R54) -/

/-- The code of an FP32 number with a full significand, by its sign, exponent field and mantissa. -/
theorem packFp_normal (neg : Bool) {n : Nat} {q : Int} (low : 2 ^ 23 ≤ n) (high : n < 2 ^ 24) :
    packFp fFP32 neg n q = ofBool neg * 2 ^ 31 + ((q + 149).toNat + 1) * 2 ^ 23 + (n - 2 ^ 23) := by
  have len : bitLen n = 24 := by
    rw [bitLen, if_neg (by omega), (Nat.log2_eq_iff (by omega)).2 ⟨low, high⟩]
  show (if n = 0 then ofBool neg * 2 ^ 31 else _) = _
  have up : (fmtInfo fFP32).mb + 1 - min (bitLen n) ((fmtInfo fFP32).mb + 1) = 0 := by rw [len]; rfl
  have down : bitLen n - ((fmtInfo fFP32).mb + 1) = 0 := by rw [len]; rfl
  have grid : q - (fmtInfo fFP32).qmin = q + 149 := by show q - (1 - 127 - 23) = _; omega
  rw [if_neg (by omega)]
  simp only [up, Nat.zero_min, Nat.pow_zero, Nat.mul_one, down, Nat.div_one, Nat.cast_zero, Int.sub_zero, Int.add_zero, grid]
  exact if_neg (Nat.not_lt.2 low)

/-- The number that a code with an exponent field between the least and the greatest stands for. -/
theorem decodeFp_normal (neg : Bool) {k m : Nat} (hk : k < 254) (hm : m < 2 ^ 23) :
    decodeFp fFP32 (ofBool neg * 2 ^ 31 + (k + 1) * 2 ^ 23 + m) = .fin neg (2 ^ 23 + m) (k - 149) := by
  have sign : ofBool neg ≤ 1 := by cases neg <;> decide
  have hs : bit (ofBool neg * 2 ^ 31 + (k + 1) * 2 ^ 23 + m) 31 = neg := by
    have : (ofBool neg * 2 ^ 31 + (k + 1) * 2 ^ 23 + m) / 2 ^ 31 % 2 = ofBool neg := by omega
    rw [bit, this]
    cases neg <;> rfl
  have he : bits (ofBool neg * 2 ^ 31 + (k + 1) * 2 ^ 23 + m) 30 23 = k + 1 := by
    simp only [bits]
    omega
  have hr : (ofBool neg * 2 ^ 31 + (k + 1) * 2 ^ 23 + m) % 2 ^ 23 = m := by omega
  generalize ofBool neg * 2 ^ 31 + (k + 1) * 2 ^ 23 + m = x at hs he hr
  show (if bits x 30 23 = 255 ∧ true then _ else if fFP32 = fE4M3 ∧ _ then _ else if bits x 30 23 = 0 then _ else
    Val.fin (bit x 31) (2 ^ 23 + x % 2 ^ 23) ((bits x 30 23 : Int) - 1 + (1 - 127 - 23))) = _
  rw [hs, he, hr, if_neg (by omega), if_neg fun h => absurd h.1 (by decide), if_neg (by omega)]
  congr 1
  omega

theorem decode_fp32 (x : Nat) : decode fFP32 x = decodeFp fFP32 x := by
  rw [decode, if_neg (by decide), if_neg (by decide)]

/-- A number with a full significand is its own FP32 code. -/
theorem decode_packFp (neg : Bool) {n : Nat} {q : Int} (low : 2 ^ 23 ≤ n) (high : n < 2 ^ 24) (hq : -149 ≤ q) (hq' : q ≤ 0) :
    packFp fFP32 neg n q < 2 ^ 32 ∧ decode fFP32 (packFp fFP32 neg n q) = .fin neg n q := by
  have sign : ofBool neg ≤ 1 := by cases neg <;> decide
  rw [packFp_normal neg low high]
  refine ⟨by omega, ?_⟩
  rw [decode_fp32, decodeFp_normal neg (k := (q + 149).toNat) (m := n - 2 ^ 23) (by omega) (by omega), Nat.add_sub_cancel' low]
  congr 1
  omega

/-- A whole number that is not 0 has its leading bit at or above the unit. -/
theorem bitLen_pos_of_whole {neg : Bool} {m : Nat} {e z : Int} (h : finRat neg m e = z) (hm : m ≠ 0) : 0 < e + bitLen m := by
  have nonzero : z ≠ 0 := fun h0 => hm (finRat_eq_zero.1 (h.trans (by rw [h0, Int.cast_zero])))
  have one : (1 : ℚ) ≤ m * 2 ^ e := by
    rw [← finRat_abs neg, h, ← Int.cast_abs]
    exact_mod_cast Int.one_le_abs nonzero
  have top : (m : ℚ) * 2 ^ e < 2 ^ (e + bitLen m) := by
    rw [add_comm, zpow_add₀ (by norm_num), zpow_natCast]
    exact mul_lt_mul_of_pos_right (by exact_mod_cast lt_two_pow_bitLen m) (by positivity)
  exact (one_lt_zpow_iff_right₀ (by norm_num : (1 : ℚ) < 2)).1 (one.trans_lt top)

/-- Rounding to a unit of at most 1 keeps a whole number. -/
theorem roundAt_whole {neg : Bool} {m : Nat} {e z q : Int} (h : finRat neg m e = z) (hq : q ≤ 0) :
    finRat neg (roundAt .rne neg m e q) q = z := by
  unfold roundAt
  split
  next le => exact (finRat_scaled neg m le).trans h
  next gt =>
    obtain ⟨k, rfl⟩ := pow_dvd_of_whole h hq (by omega)
    have positive : 0 < 2 ^ (q - e).toNat := Nat.two_pow_pos _
    have value : finRat neg k q = z := by
      rw [← h, Nat.mul_comm]
      exact (finRat_scaled neg k (by omega)).symm
    simp only [Nat.mul_div_cancel_left k positive, Nat.mul_mod_right]
    rw [if_neg (by omega)]
    exact value

/-- Rounding to 24 bits keeps a whole number below 2^24, with a full significand. -/
theorem roundP_whole {neg : Bool} {m : Nat} {e z : Int} (h : finRat neg m e = z) (hm : m ≠ 0) (hz : z.natAbs < 2 ^ 24) :
    ∃ n q, roundP .rne neg m e 24 (-149) = (n, q) ∧ 2 ^ 23 ≤ n ∧ n < 2 ^ 24 ∧ -149 ≤ q ∧ q ≤ 0 ∧ finRat neg n q = z := by
  have lead := leadExp_lt h hm hz
  have pos := bitLen_pos_of_whole h hm
  have len : 0 < bitLen m := by rw [bitLen, if_neg hm]; omega
  unfold leadExp at lead
  obtain ⟨q, unit⟩ : ∃ q : Int, q = e + bitLen m - 24 := ⟨_, rfl⟩
  have value := roundAt_whole h (q := q) (by omega)
  refine ⟨roundAt .rne neg m e q, q, by rw [roundP, show max (e + bitLen m - (24 : Nat)) (-149) = q by omega], ?_⟩
  generalize roundAt .rne neg m e q = n at value
  have same : (n : ℚ) * 2 ^ q = m * 2 ^ e := by rw [← finRat_abs neg n, ← finRat_abs neg m, value, h]
  have positive : (0 : ℚ) < 2 ^ q := by positivity
  have low : (2 : ℚ) ^ 23 * 2 ^ q ≤ n * 2 ^ q := by
    rw [same, ← zpow_natCast, ← zpow_add₀ (by norm_num), show ((23 : Nat) : Int) + q = (bitLen m - 1 : Nat) + e by omega,
      zpow_add₀ (by norm_num), zpow_natCast]
    exact mul_le_mul_of_nonneg_right (by exact_mod_cast two_pow_bitLen_le hm) (by positivity)
  have high : (n : ℚ) * 2 ^ q < 2 ^ 24 * 2 ^ q := by
    rw [same, ← zpow_natCast (2 : ℚ) 24, ← zpow_add₀ (by norm_num), show ((24 : Nat) : Int) + q = bitLen m + e by omega,
      zpow_add₀ (by norm_num), zpow_natCast]
    exact mul_lt_mul_of_pos_right (by exact_mod_cast lt_two_pow_bitLen m) (by positivity)
  exact ⟨by exact_mod_cast le_of_mul_le_mul_right low positive, by exact_mod_cast lt_of_mul_lt_mul_right high positive.le,
    by omega, by omega, value⟩

/-- A whole number below 2^24 in magnitude is an FP32 number. -/
theorem conv_whole {v : Val} {z : Int} (h : v.isWhole z) (hz : z.natAbs < 2 ^ 24) (ovf ftz : Bool) :
    (conv fFP32 .rne ovf ftz v).1 < 2 ^ 32 ∧ (decode fFP32 (conv fFP32 .rne ovf ftz v).1).isWhole z ∧
      (conv fFP32 .rne ovf ftz v).2 = .plain := by
  obtain ⟨neg, m, e, rfl, value⟩ := h.fin
  rw [conv, if_neg (by decide), if_neg (by decide)]
  by_cases hm : m = 0
  · subst hm
    rw [finRat_zero] at value
    obtain rfl : z = 0 := by exact_mod_cast value.symm
    show packFp fFP32 neg 0 0 < 2 ^ 32 ∧ (decode fFP32 (packFp fFP32 neg 0 0)).isWhole 0 ∧ _
    cases neg
    · exact ⟨by decide, ⟨false, 0, -149, by decide, by decide⟩, rfl⟩
    · exact ⟨by decide, ⟨true, 0, -149, by decide, by decide⟩, rfl⟩
  · obtain ⟨n, q, round, low, high, hq, hq', value'⟩ := roundP_whole value hm hz
    obtain ⟨code, back⟩ := decode_packFp neg low high hq hq'
    have within : exceeds n q (fmtInfo fFP32).maxM (fmtInfo fFP32).maxE = false := by
      show exceeds n q (2 ^ 24 - 1) 104 = false
      rw [exceeds, decide_eq_false_iff_not, Int.min_eq_left (by omega), Val.scaled, Val.scaled, Int.sub_self, Int.toNat_zero,
        Nat.pow_zero, Nat.mul_one, Nat.not_lt]
      calc n ≤ (2 ^ 24 - 1) * 1 := by omega
        _ ≤ _ := Nat.mul_le_mul_left _ (Nat.two_pow_pos _)
    have normal : decide (n < 2 ^ (fmtInfo fFP32).mb) = false := decide_eq_false (Nat.not_lt.2 low)
    have result : convFp fFP32 .rne ovf ftz (.fin neg m e) = (packFp fFP32 neg n q, .plain) := by
      have round : roundP .rne neg m e ((fmtInfo fFP32).mb + 1) (fmtInfo fFP32).qmin = (n, q) := round
      simp only [convFp, if_neg hm, round, within, if_neg (by omega : n ≠ 0), normal, Bool.false_and, Bool.false_eq_true, if_false]
    rw [result]
    exact ⟨code, by rw [back]; exact Val.isWhole_fin.2 value', rfl⟩

/-! ### Totals of whole products (R98 to R104) -/

/-- Promotion keeps a whole total below 2^24. -/
theorem promote_whole {t : Total} {v : Val} {x y : Int} (ht : t.val.isWhole x) (hv : v.isWhole y) (small : (x + y).natAbs < 2 ^ 24)
    (negs : Bool) : (promote fFP32 t v negs).1.val.isWhole (x + y) := by
  obtain ⟨s, m, e, sum, -⟩ := (ht.add hv).fin
  have rounded := (conv_whole (ht.add hv) small false false).2.1
  rw [sum] at rounded
  obtain ⟨_, _, _, tv, -⟩ := ht.fin
  obtain ⟨_, _, _, vv, -⟩ := hv.fin
  rw [tv, vv] at sum
  simp only [promote, tv, vv, sum]
  split
  next zero =>
    have value := Val.isWhole_fin.1 (sum ▸ tv ▸ vv ▸ ht.add hv)
    rw [zero, finRat_zero] at value
    exact Val.isWhole_fin.2 ((finRat_zero _ _).trans value)
  next => exact rounded

/-- The first `n` terms of an element of a matrix product. -/
def dotTo (a b : Nat → Nat → Int) (c : Nat × Nat) (n : Nat) : Int := ((List.range n).map fun k => a c.1 k * b k c.2).sum

/-- The elements of A and B that a cell's first `n` products take are whole numbers of magnitude at most 16. -/
structure SmallOperands (A B : Nat → Nat → Val) (a b : Nat → Nat → Int) (c : Nat × Nat) (n : Nat) : Prop where
  left : ∀ k < n, (a c.1 k).natAbs ≤ 16 ∧ (A c.1 k).isWhole (a c.1 k)
  right : ∀ k < n, (b k c.2).natAbs ≤ 16 ∧ (B k c.2).isWhole (b k c.2)

section
variable {A B : Nat → Nat → Val} {a b : Nat → Nat → Int} {c : Nat × Nat} {n : Nat}

theorem SmallOperands.mono {j : Nat} (h : SmallOperands A B a b c n) (hj : j ≤ n) : SmallOperands A B a b c j :=
  ⟨fun k hk => h.left k (by omega), fun k hk => h.right k (by omega)⟩

theorem SmallOperands.product (h : SmallOperands A B a b c n) {k : Nat} (hk : k < n) :
    (a c.1 k * b k c.2).natAbs ≤ 256 ∧ ((A c.1 k).mul (B k c.2)).isWhole (a c.1 k * b k c.2) := by
  refine ⟨?_, (h.left k hk).2.mul (h.right k hk).2⟩
  rw [Int.natAbs_mul]
  exact Nat.mul_le_mul (h.left k hk).1 (h.right k hk).1

theorem dotTo_add (a b : Nat → Nat → Int) (c : Nat × Nat) (n j : Nat) :
    dotTo a b c (n + j) = dotTo a b c n + (((List.range j).map (· + n)).map fun k => a c.1 k * b k c.2).sum := by
  simp only [dotTo, List.range_add, List.map_append, List.sum_append, List.map_map, Function.comp_def, Nat.add_comm]

theorem SmallOperands.dotTo_le (h : SmallOperands A B a b c n) : (dotTo a b c n).natAbs ≤ 256 * n := by
  induction n with
  | zero => simp [dotTo]
  | succ n ih =>
    have := ih (h.mono (Nat.le_succ n))
    have := (h.product (Nat.lt_succ_self n)).1
    have step : dotTo a b c (n + 1) = dotTo a b c n + a c.1 n * b n c.2 := by simp [dotTo_add]
    omega

/-- One chunk of products, promoted into a total of those before it. -/
theorem SmallOperands.promote_chunk {j : Nat} (h : SmallOperands A B a b c (n + j)) (hn : n + j ≤ 4096) {t : Total}
    (ht : t.val.isWhole (dotTo a b c n)) (negs : Bool) :
    (promote fFP32 t (chunkValue 64 (((List.range j).map (· + n)).map fun k => (A c.1 k).mul (B k c.2))).1 negs).1.val.isWhole
      (dotTo a b c (n + j)) := by
  have within (k : Nat) (hk : k ∈ (List.range j).map (· + n)) : k < n + j := by
    obtain ⟨i, hi, rfl⟩ := List.mem_map.1 hk
    have := List.mem_range.1 hi
    omega
  have chunk := chunkValue_whole (fun k hk => (h.product (within k hk)).2) (fun k hk => (h.product (within k hk)).1)
  have small := h.dotTo_le
  rw [dotTo_add] at small ⊢
  exact promote_whole ht chunk (by omega) negs

/-- A block holds in FP32, for each of its cells, the sum of the first `n` products. -/
structure BlockOut.Holds (o : BlockOut) (a b : Nat → Nat → Int) (cells : List (Nat × Nat)) (n : Nat) : Prop where
  fmt : o.fmt = fFP32
  totals : List.Forall₂ (fun c t => t.val.isWhole (dotTo a b c n)) cells o.totals

theorem BlockOut.Holds.fresh (a b : Nat → Nat → Int) (cells : List (Nat × Nat)) :
    (BlockOut.fresh fFP32 cells.length).Holds a b cells 0 := by
  refine ⟨rfl, ?_⟩
  have zero : Total.init.val.isWhole 0 := ⟨false, 0, 0, rfl, rfl⟩
  induction cells with
  | nil => exact .nil
  | cons c cells ih => exact .cons zero ih

/-- What holds of every pair of related members holds along the zipped lists. -/
theorem forall₂_map_zip {α β γ : Type} {R : α → β → Prop} {S : α → γ → Prop} {f : α × β → γ} {l : List α} {m : List β}
    (h : List.Forall₂ R l m) (hf : ∀ x ∈ l, ∀ y, R x y → S x (f (x, y))) : List.Forall₂ S l ((l.zip m).map f) := by
  induction h with
  | nil => exact .nil
  | cons hxy _ ih => exact .cons (hf _ List.mem_cons_self _ hxy) (ih fun x hx => hf x (List.mem_cons_of_mem _ hx))

theorem BlockOut.Holds.chunkStep {o : BlockOut} {cells : List (Nat × Nat)} {j last : Nat} (h : o.Holds a b cells n)
    (small : ∀ c ∈ cells, SmallOperands A B a b c (n + j)) (hn : n + j ≤ 4096) (hl : last < 65536) :
    (chunkStep 64 A B cells ((List.range j).map (· + n)) last o).Holds a b cells (n + j) := by
  have narrow : (o.fmt == fFP32 && decide (65536 ≤ last)) = false := by rw [decide_eq_false (by omega), Bool.and_false]
  have single : (o.fmt == fFP64 && decide (2 ^ 20 ≤ last)) = false := by rw [h.fmt]; rfl
  simp only [Machine.chunkStep, narrow, single, Bool.false_eq_true, if_false]
  refine ⟨h.fmt, ?_⟩
  rw [List.map_map, h.fmt]
  exact forall₂_map_zip h.totals fun c hc t ht => (small c hc).promote_chunk hn ht _

theorem le_ceilDiv_mul (n : Nat) {d : Nat} (hd : 0 < d) : n ≤ ceilDiv n d * d := by
  have := Nat.lt_mul_div_succ (n + d - 1) hd
  rw [Nat.mul_succ] at this
  rw [ceilDiv, Nat.mul_comm]
  omega

theorem div_lt_ceilDiv {n d k : Nat} (hd : 0 < d) (h : k < n) : k / d < ceilDiv n d := by
  rw [Nat.div_lt_iff_lt_mul hd]
  exact h.trans_le (le_ceilDiv_mul n hd)

theorem mul_lt_of_lt_ceilDiv {n d k : Nat} (hd : 0 < d) (h : k < ceilDiv n d) : k * d < n := by
  have := (Nat.le_div_iff_mul_le hd).1 (show k + 1 ≤ (n + d - 1) / d from h)
  rw [Nat.succ_mul] at this
  omega

/-- The totals of a block of whole products are the elements of the exact product. -/
theorem blockTotals_holds {o : BlockOut} {cells : List (Nat × Nat)} {L K : Nat} (hL : 0 < L) (h : o.Holds a b cells 0)
    (small : ∀ c ∈ cells, SmallOperands A B a b c K) (hK : K ≤ 4096) : (blockTotals L 64 K 0 A B cells o).Holds a b cells K := by
  have chunks (c : Nat) (hc : c ≤ ceilDiv K L) : ((List.range c).foldl (fun o c =>
      Machine.chunkStep 64 A B cells ((List.range (min K ((c + 1) * L) - c * L)).map (· + c * L)) (0 + min K ((c + 1) * L) - 1) o)
      o).Holds a b cells (min K (c * L)) := by
    induction c with
    | zero => simpa using h
    | succ c ih =>
      have below : c * L < K := mul_lt_of_lt_ceilDiv hL hc
      have before := ih (by omega)
      rw [Nat.min_eq_right below.le] at before
      have reach : min K ((c + 1) * L) = c * L + (min K ((c + 1) * L) - c * L) := by
        rw [Nat.succ_mul]
        omega
      rw [List.range_succ, List.foldl_append]
      have step := before.chunkStep (j := min K ((c + 1) * L) - c * L) (last := 0 + min K ((c + 1) * L) - 1)
        (fun x hx => (small x hx).mono (by omega)) (by omega) (by omega)
      rwa [← reach] at step
  simpa [blockTotals, Nat.min_eq_left (le_ceilDiv_mul K hL)] using chunks _ (Nat.le_refl _)

end

/-! ### What the work of an array operation changes (R70 to R119) -/

/-- A field of a cluster's own blocks (R247). -/
def Fld.ofCluster (f : Fld) : Prop := f.lo < 64 ∧ 0x030010000000 ≤ f.addr ∧ f.addr < 0x030018800000

/-- A field outside the clusters' blocks and the record of nondeterministic features. -/
def Fld.aside (g : Fld) : Prop := g.lo < 64 ∧ (g.addr < 0x030010000000 ∨ 0x030018800000 ≤ g.addr) ∧ g.addr ≠ DET_ND_USED.SRE.addr

theorem Fld.aside.key_ne {f g : Fld} (hg : g.aside) (hf : f.lo < 64) (h : g.addr ≠ f.addr) : g.key ≠ f.key := fun e => by
  have := hg.1
  unfold Fld.key at e
  omega

/-- `t` is `s` after work of an array operation that wrote at most the bytes of `K`: no word is uncorrectable, the engines are
occupied as they were, and no field aside has changed. -/
structure ArrayWork (K : Nat → Prop) (s t : State) : Prop where
  clean : t.poison = []
  active : t.active = s.active
  xr : t.xr = s.xr
  busy : t.tick.busy = s.tick.busy
  get : ∀ g : Fld, g.aside → t.get g = s.get g
  mem : ∀ x, ¬K x → Memory.read t.mem x = Memory.read s.mem x

theorem ArrayWork.refl (K : Nat → Prop) {s : State} (h : s.poison = []) : ArrayWork K s s :=
  ⟨h, rfl, rfl, rfl, fun _ _ => rfl, fun _ _ => rfl⟩

section
variable {K : Nat → Prop} {s t : State} (h : ArrayWork K s t)
include h

theorem ArrayWork.trans {u : State} (k : ArrayWork K t u) : ArrayWork K s u :=
  ⟨k.clean, k.active.trans h.active, k.xr.trans h.xr, k.busy.trans h.busy, fun g hg => (k.get g hg).trans (h.get g hg),
    fun x hx => (k.mem x hx).trans (h.mem x hx)⟩

theorem ArrayWork.mono {L : Nat → Prop} (hK : ∀ x, K x → L x) : ArrayWork L s t :=
  { h with mem := fun x hx => h.mem x fun hk => hx (hK x hk) }

theorem ArrayWork.set {f : Fld} (hf : f.ofCluster) (v : Nat) : ArrayWork K s (t.set f v) :=
  { h with
    get := fun g hg => (State.get_set_other t v (hg.key_ne hf.1 (by have := hg.2.1; have := hf.2; omega))).trans (h.get g hg) }

theorem ArrayWork.inc {f : Fld} (hf : f.ofCluster) (n : Nat) : ArrayWork K s (t.inc f n) := h.set hf _

theorem ArrayWork.setAll {l : List (Fld × Nat)} (hl : ∀ e ∈ l, e.1.ofCluster) : ArrayWork K s (t.setAll l) :=
  List.foldlRecOn (motive := ArrayWork K s) l _ h fun _ hu e he => hu.set (hl e he) _

theorem ArrayWork.noteSre (g : Gate) (n : Nat) : ArrayWork K s (t.noteSre g n) := by
  have record {u : State} (hu : ArrayWork K s u) {f : Fld} (hf : f.lo < 64) (ha : f.addr = DET_ND_USED.SRE.addr) (v : Nat) :
      ArrayWork K s (u.set f v) :=
    { hu with get := fun g hg => (State.get_set_other u v (hg.key_ne hf (ha ▸ hg.2.2))).trans (hu.get g hg) }
  unfold State.noteSre
  split
  · unfold State.ndUsed
    dsimp only
    split
    · exact record (record h (f := DET_ND_USED.FIRST_STEP) (by decide) rfl _) (by decide) rfl _
    · exact record h (by decide) rfl _
  · exact h

theorem ArrayWork.arr (x : ArrSt) : ArrayWork K s { t with arr := x } := { h with }

theorem ArrayWork.dropPre (eng tick start : Nat) : ArrayWork K s (t.dropPre eng tick start) := h.arr _

theorem ArrayWork.countGate (cls fmt : Nat) (os : List Outcome5) : ArrayWork K s (t.countGate cls fmt os) := { h with }

theorem ArrayWork.gateAll (cls : Nat) (g : Gate) (tensor : Nat) (xs : List (Nat × Val)) :
    ArrayWork K s (t.gateAll cls g tensor xs).2 :=
  (h.countGate _ _ _).noteSre _ _

theorem ArrayWork.wrBytes {a : Nat} {bs : List Nat} (hK : ∀ x, a ≤ x → x < a + bs.length → K x) : ArrayWork K s (t.wrBytes a bs) :=
  { h with
    clean := by rw [State.wrBytes, h.clean]; rfl
    mem := fun x hx => (Memory.read_writeBytes_other t.mem a bs (by
      by_contra inside
      exact hx (hK x (by omega) (by omega)))).trans (h.mem x hx) }

theorem ArrayWork.stopOnSat : ArrayWork K s t.stopOnSat := by
  unfold State.stopOnSat
  split
  · exact { h with }
  · exact h

/-- Steps that keep to the bytes of `K` do so together. -/
theorem ArrayWork.foldl {α : Type} {f : State → α → State} (l : List α)
    (hf : ∀ u, ArrayWork K s u → ∀ a ∈ l, ArrayWork K s (f u a)) : ArrayWork K s (l.foldl f t) :=
  List.foldlRecOn (motive := ArrayWork K s) l f h hf

end

theorem ArrayWork.ite {K : Nat → Prop} {s u v : State} {c : Prop} [Decidable c] (hu : ArrayWork K s u) (hv : ArrayWork K s v) :
    ArrayWork K s (if c then u else v) := by
  split
  · exact hu
  · exact hv

/-- The fields that an operation on quadrant `q` of cluster `p` sets in the cluster's blocks. -/
def arrayFields (p q : Nat) : List Fld :=
  [ARR_QFLAGS.NAN_IN p q, ARR_QFLAGS.INF_IN p q, ARR_QFLAGS.NAN_MADE p q, ARR_QFLAGS.SAT p q, ARR_QFLAGS.LONGSUM p q,
    ARR_QFLAGS.OOB p q, ARR_STATUS.HOLDING p, ACC_STATUS.HALF0_FMT p, ACC_STATUS.HALF1_FMT p, ACC_LONGSUM.TO_FP64 p,
    ACC_LONGSUM.TO_DD128 p, ACC_COUNTS.SAT_TOTALS p, ACC_COUNTS.NONFINITE_TOTALS p, ACC_TILE.DESC p q, ACC_TILE.ITEM p q,
    ACC_TILE.M_BLOCK p q, ACC_TILE.N_TILE p q, ACC_TILE.SAT p q, ACC_TILE.NONFINITE p q, ACC_TILE.VALID p q]

theorem arrayFields_ofCluster {p q : Nat} (hp : p < nPhys) (hq : q < 4) : ∀ f ∈ arrayFields p q, f.ofCluster := by
  unfold nPhys at hp
  simp only [arrayFields, List.forall_mem_cons, Fld.ofCluster, ARR_QFLAGS.NAN_IN, ARR_QFLAGS.INF_IN, ARR_QFLAGS.NAN_MADE,
    ARR_QFLAGS.SAT, ARR_QFLAGS.LONGSUM, ARR_QFLAGS.OOB, ARR_STATUS.HOLDING, ACC_STATUS.HALF0_FMT, ACC_STATUS.HALF1_FMT,
    ACC_LONGSUM.TO_FP64, ACC_LONGSUM.TO_DD128, ACC_COUNTS.SAT_TOTALS, ACC_COUNTS.NONFINITE_TOTALS, ACC_TILE.DESC, ACC_TILE.ITEM,
    ACC_TILE.M_BLOCK, ACC_TILE.N_TILE, ACC_TILE.SAT, ACC_TILE.NONFINITE, ACC_TILE.VALID, arrBase, accBase,
    List.not_mem_nil, false_implies, implies_true, and_true]
  and_intros <;> omega

section
variable {K : Nat → Prop} {s t : State} (h : ArrayWork K s t) {p q : Nat} (hp : p < nPhys) (hq : q < 4)
include h hp hq

theorem ArrayWork.setOf {f : Fld} (hf : f ∈ arrayFields p q) (v : Nat) : ArrayWork K s (t.set f v) :=
  h.set (arrayFields_ofCluster hp hq f hf) v

theorem ArrayWork.arrOob : ArrayWork K s (t.arrOob p q) :=
  { h.setOf hp hq (f := ARR_QFLAGS.OOB p q) (by simp [arrayFields]) 1 with }

theorem ArrayWork.incOf {f : Fld} (hf : f ∈ arrayFields p q) (n : Nat) : ArrayWork K s (t.inc f n) := h.setOf hp hq hf _

theorem ArrayWork.noteTotals (desc item blk tile : Nat) (ts : List Total) :
    ArrayWork K s (t.noteTotals p q desc item blk tile ts) := by
  have counted (x y : Nat) : ArrayWork K s ((t.inc (ACC_COUNTS.SAT_TOTALS p) x).inc (ACC_COUNTS.NONFINITE_TOTALS p) y) :=
    (h.incOf hp hq (by simp [arrayFields]) _).incOf hp hq (by simp [arrayFields]) _
  unfold State.noteTotals
  exact .ite (counted _ _) ((counted _ _).setAll fun e he => arrayFields_ofCluster hp hq _ (by
    simp only [List.mem_cons, List.not_mem_nil, or_false] at he
    rcases he with rfl | rfl | rfl | rfl | rfl | rfl | rfl <;> simp [arrayFields]))

end

section
variable {K : Nat → Prop} {s t : State} {p q : Nat} (hp : p < nPhys) (hq : q < 4)
include hp hq

/-- Once its totals stand, a formed block leaves flags alone. -/
theorem ArrayWork.noteOut {half rows cols stride : Nat} {b : BlockOut}
    (h : ArrayWork K s (t.putTotals (accOff p q half) b.fmt rows cols stride b.totals)) :
    ArrayWork K s (t.noteOut p q half rows cols stride b) := by
  have fmt : halfFmt p half ∈ arrayFields p q := by unfold halfFmt; split <;> simp [arrayFields]
  have flag {u : State} (hu : ArrayWork K s u) {f : Fld} (hf : f ∈ arrayFields p q) {c : Prop} [Decidable c] :
      ArrayWork K s (if c then u.set f 1 else u) := .ite (hu.setOf hp hq hf _) hu
  have count {u : State} (hu : ArrayWork K s u) {f : Fld} (hf : f ∈ arrayFields p q) {c : Prop} [Decidable c] :
      ArrayWork K s (if c then u.inc f else u) := .ite (hu.incOf hp hq hf _) hu
  have stored := h.setOf hp hq fmt (fmtCode b.fmt)
  have made := flag (c := b.nanMade = true) (f := ARR_QFLAGS.NAN_MADE p q) stored (by simp [arrayFields])
  have to64 := count (c := b.to64 = true) (f := ACC_LONGSUM.TO_FP64 p) made (by simp [arrayFields])
  have to128 := count (c := b.to128 = true) (f := ACC_LONGSUM.TO_DD128 p) to64 (by simp [arrayFields])
  have flagged := flag (c := (b.to64 || b.to128) = true) (f := ARR_QFLAGS.LONGSUM p q) to128 (by simp [arrayFields])
  unfold State.noteOut
  exact .ite (flagged.setOf hp hq (by simp [arrayFields]) _).stopOnSat flagged

end

/-! ### Bytes that are read back -/

theorem Memory.readBytes_congr {m m' : List Host.Cell} {a n : Nat}
    (h : ∀ x, a ≤ x → x < a + n → Memory.read m x = Memory.read m' x) :
    Memory.readBytes m a n = Memory.readBytes m' a n := by
  induction n generalizing a with
  | zero => rfl
  | succ n ih => rw [Memory.readBytes, Memory.readBytes, h a (by omega) (by omega), ih fun x hx hx' => h x (by omega) (by omega)]

theorem Memory.readBytes_writeBytes (m : List Host.Cell) (a : Nat) {bs : List Nat} (h : ∀ b ∈ bs, b < 256) :
    Memory.readBytes (Memory.writeBytes m a bs) a bs.length = bs := by
  induction bs generalizing m a with
  | nil => rfl
  | cons b bs ih =>
    have first : Memory.read (Memory.writeBytes (Memory.write m a (BitVec.ofNat 8 b)) (a + 1) bs) a = BitVec.ofNat 8 b :=
      (Memory.read_writeBytes_other _ _ _ (.inl (Nat.lt_succ_self a))).trans (Memory.read_write_same _ _ _)
    rw [Memory.writeBytes, List.length_cons, Memory.readBytes, first, ih _ _ fun x hx => h x (List.mem_cons_of_mem _ hx),
      BitVec.toNat_ofNat, Nat.mod_eq_of_lt (h b List.mem_cons_self)]

theorem leBytes_lt {n v b : Nat} (h : b ∈ leBytes n v) : b < 256 := by
  induction n generalizing v with
  | zero => simp [leBytes] at h
  | succ n ih =>
    rcases List.mem_cons.1 h with rfl | h
    · exact Nat.mod_lt _ (by decide)
    · exact ih h

theorem ArrayWork.rdBytes {K : Nat → Prop} {s t : State} (h : ArrayWork K s t) {a n : Nat} (hK : ∀ x, a ≤ x → x < a + n → ¬K x) :
    t.rdBytes a n = s.rdBytes a n := Memory.readBytes_congr fun x hx hx' => h.mem x (hK x hx hx')

/-- What one member of a list brings about and no member spoils stands once all have acted, where what all need, `I`, is kept. -/
theorem foldl_settles {σ α : Type} {I P : σ → Prop} {f : σ → α → σ} {l : List α} {a : α} (ha : a ∈ l)
    (inv : ∀ u, I u → ∀ b ∈ l, I (f u b)) (make : ∀ u, I u → P (f u a)) (keep : ∀ u, I u → P u → ∀ b ∈ l, P (f u b)) {u : σ}
    (hu : I u) : P (l.foldl f u) := by
  obtain ⟨before, after, rfl⟩ := List.append_of_mem ha
  rw [List.foldl_append, List.foldl_cons]
  have reached := List.foldlRecOn (motive := I) before f hu fun v hv b hb => inv v hv b (by simp [hb])
  exact (List.foldlRecOn (motive := fun v => I v ∧ P v) after f ⟨inv _ reached a ha, make _ reached⟩ fun v hv b hb =>
    ⟨inv v hv.1 b (by simp [hb]), keep v hv.1 hv.2 b (by simp [hb])⟩).2

/-! ### The totals of a block in the accumulators (R107, R116) -/

theorem length_totalsBytes (fmt : Nat) (ts : List Total) : (totalsBytes fmt ts).length = ts.length * totalBytes fmt := by
  simp [totalsBytes, List.length_flatMap]

theorem totalsBytes_lt {fmt b : Nat} {ts : List Total} (h : b ∈ totalsBytes fmt ts) : b < 256 := by
  obtain ⟨t, -, hb⟩ := List.mem_flatMap.1 h
  exact leBytes_lt hb

/-- A row of totals, no wider than the pitch of the rows. -/
theorem length_totalsRow (fmt : Nat) (ts : List Total) (r : Nat) {cols stride : Nat} (h : cols ≤ stride) :
    (totalsBytes fmt ((ts.drop (r * cols)).take cols)).length ≤ stride * totalBytes fmt := by
  rw [length_totalsBytes, List.length_take]
  exact Nat.mul_le_mul_right _ ((Nat.min_le_left _ _).trans h)

theorem State.putTotals_work {s : State} (hc : s.poison = []) (a fmt rows : Nat) {cols stride : Nat} (ts : List Total)
    (hw : cols ≤ stride) :
    ArrayWork (fun x => a ≤ x ∧ x < a + rows * (stride * totalBytes fmt)) s (s.putTotals a fmt rows cols stride ts) := by
  refine (ArrayWork.refl _ hc).foldl _ fun u hu r hr => hu.wrBytes fun x hx hx' => ?_
  have width := length_totalsRow fmt ts r hw
  have row : (r + 1) * (stride * totalBytes fmt) ≤ rows * (stride * totalBytes fmt) := Nat.mul_le_mul_right _ (List.mem_range.1 hr)
  rw [Nat.mul_assoc] at hx hx'
  rw [Nat.succ_mul] at row
  omega

/-- Every row of totals reads back. -/
theorem State.putTotals_stands (s : State) (a fmt : Nat) {rows r cols stride : Nat} (ts : List Total) (hw : cols ≤ stride)
    (hr : r < rows) {l : List Nat} (hl : l = totalsBytes fmt ((ts.drop (r * cols)).take cols)) :
    (s.putTotals a fmt rows cols stride ts).rdBytes (a + r * (stride * totalBytes fmt)) l.length = l := by
  have written (u : State) :
      (u.wrBytes (a + r * stride * totalBytes fmt) l).rdBytes (a + r * (stride * totalBytes fmt)) l.length = l := by
    rw [Nat.mul_assoc]
    exact Memory.readBytes_writeBytes _ _ fun b hb => totalsBytes_lt (hl ▸ hb)
  refine foldl_settles (I := fun _ => True) (P := fun u : State => u.rdBytes (a + r * (stride * totalBytes fmt)) l.length = l)
    (List.mem_range.2 hr) (fun _ _ _ _ => trivial) (fun u _ => by rw [← hl]; exact written u) (fun u _ hu k _ => ?_)
    (u := s) trivial
  by_cases same : k = r
  · rw [same, ← hl]
    exact written u
  · refine (Memory.readBytes_congr fun x hx hx' => Memory.read_writeBytes_other _ _ _ ?_).trans hu
    have mine := length_totalsRow fmt ts r hw
    have other := length_totalsRow fmt ts k hw
    rw [← hl] at mine
    rw [Nat.mul_assoc]
    rcases Nat.lt_or_gt_of_ne same with lt | gt
    · have := Nat.mul_le_mul_right (stride * totalBytes fmt) lt
      rw [Nat.succ_mul] at this
      omega
    · have := Nat.mul_le_mul_right (stride * totalBytes fmt) gt
      rw [Nat.succ_mul] at this
      omega

/-! ### The blocks of an operation (R70, R93) -/

/-- The columns of a tile are consecutive, lie in the matrix and fit the tile's width. -/
theorem filterMap_range_lt (a n k : Nat) :
    ((List.range k).filterMap fun c => if a + c < n then some (a + c) else none) = List.range' a (min k (n - a)) := by
  induction k with
  | zero => simp
  | succ k ih =>
    rw [List.range_succ, List.filterMap_append, ih]
    by_cases h : a + k < n
    · rw [Nat.min_eq_left (by omega), Nat.min_eq_left (by omega), List.range'_concat]
      simp [h]
    · rw [Nat.min_eq_right (by omega), Nat.min_eq_right (by omega)]
      simp [h]

/-- The number of columns of a tile that a member drains. -/
def Op.tileWidth (o : Op) : Nat := Machine.tileWidth (opClass o.me.d.aFmt) o.me.d.shape

theorem Op.tileWidth_pos (o : Op) : 0 < o.tileWidth := by
  unfold Op.tileWidth Machine.tileWidth
  dsimp only
  split_ifs <;> omega

theorem Op.mem_tiles {o : Op} {t : Nat × List Nat} (h : t ∈ o.tiles) :
    ∃ a < o.me.d.n, t.2 = List.range' a (min o.tileWidth (o.me.d.n - a)) := by
  obtain ⟨mem, nonempty⟩ := List.mem_filter.1 h
  obtain ⟨a, cols⟩ : ∃ a, t.2 = List.range' a (min o.tileWidth (o.me.d.n - a)) := by
    obtain ⟨k, -, rfl⟩ := List.mem_map.1 mem
    exact ⟨_, filterMap_range_lt _ _ _⟩
  refine ⟨a, ?_, cols⟩
  by_contra beyond
  rw [cols, show o.me.d.n - a = 0 by omega] at nonempty
  simp at nonempty

theorem Op.mem_blocks {o : Op} {b : Nat × List Nat} (h : b ∈ o.blocks) : b.2.Nodup ∧ ∀ m ∈ b.2, m < o.me.d.m := by
  obtain ⟨k, -, rfl⟩ := List.mem_map.1 h
  refine ⟨List.nodup_range.map fun i j hij => by simpa using hij, fun m hm => ?_⟩
  obtain ⟨i, hi, rfl⟩ := List.mem_map.1 hm
  have := List.mem_range.1 hi
  omega

/-- The cells of a drained block by row and by place among the block's columns. -/
def Drained.slots (b : Drained) : List (Nat × Nat) := b.rows.flatMap fun m => (List.range b.cols.length).map fun j => (m, j)

/-- A drained block is one of an item, a tile and rows; where it continues no chain, its totals are those of its products. -/
theorem State.mem_formBlocks {s : State} {o : Op} {b : Drained} (h : b ∈ s.formBlocks o) :
    b.item < o.me.d.batch ∧ (b.tile, b.cols) ∈ o.tiles ∧ (b.blk, b.rows) ∈ o.blocks ∧ (o.me.d.accIn = false →
      b.out = blockTotals (chunkLen o.me.d.shape) (chunkBits (opClass o.me.d.aFmt)) o.me.d.k 0
        (matAt ((s.opA o b.item).map fun r => r.map (·.val))) (matAt ((s.opB o b.item b.cols).map fun r => r.map (·.val))) b.slots
        (BlockOut.fresh (startFmt (opClass o.me.d.aFmt) o.me.d.wide) b.slots.length)) := by
  obtain ⟨⟨⟨item, t, r, A, B⟩, k⟩, mem, rfl⟩ := List.mem_map.1 h
  obtain ⟨item', hi, mem⟩ := List.mem_flatMap.1 (List.of_mem_zip mem).1
  obtain ⟨t', ht, mem⟩ := List.mem_flatMap.1 mem
  obtain ⟨r', hr, eq⟩ := List.mem_map.1 mem
  cases eq
  refine ⟨List.mem_range.1 hi, ht, hr, fun fresh => ?_⟩
  simp only [fresh, Bool.false_eq_true, if_false]
  rfl

/-- A row of totals is no wider than the accumulators' rows. -/
theorem State.formBlocks_width {s : State} {o : Op} {b : Drained} (h : b ∈ s.formBlocks o) :
    b.cols.length ≤ min o.me.d.n o.tileWidth := by
  obtain ⟨a, -, eq⟩ := Op.mem_tiles (State.mem_formBlocks h).2.1
  have eq : b.cols = _ := eq
  rw [eq, List.length_range']
  omega

/-- The bytes of a block's totals in the accumulators. -/
def Op.totalsPlace (o : Op) (b : Drained) (x : Nat) : Prop :=
  accOff o.me.p o.quad b.half ≤ x ∧ x < accOff o.me.p o.quad b.half + b.rows.length * o.rowPitch b

/-- An operation of a cluster and a quadrant that the device has. -/
structure Op.Fits (o : Op) : Prop where
  cluster : o.me.p < nPhys
  quad : o.quad < 4

/-! ### The places of C (R80, R94) -/

/-- The bytes that an operation stores through C's space. -/
def State.cPlace (s : State) (o : Op) (x : Nat) : Prop := ∃ off, o.stores off ∧ s.spaceAddr o.me.p o.me.d.cSpace off 1 = some x

theorem State.spaceAddr_of_active {s t : State} (h : t.active = s.active) (p space off n : Nat) :
    t.spaceAddr p space off n = s.spaceAddr p space off n := by
  simp only [State.spaceAddr, State.pairOf, h]

/-- Where a range of an operand space that lies in one place stands (R80, R94). -/
theorem State.spaceAddr_cases {s : State} {p space off n a : Nat} (h : s.spaceAddr p space off n = some a) :
    (space = 0 ∧ off + n ≤ veneerSize ∧ a = veneerBase p + off) ∨
    (∃ m, space = 1 ∧ s.pairOf p = some m ∧ ((off + n ≤ veneerSize ∧ a = veneerBase m.1 + off) ∨
      (veneerSize ≤ off ∧ ¬off + n ≤ veneerSize ∧ off + n ≤ 2 * veneerSize ∧ a = veneerBase m.2 + (off - veneerSize)))) ∨
    (space = 2 ∧ off + n ≤ 0x40000 ∧ a = opbufBase p + off) := by
  unfold State.spaceAddr at h
  split at h
  case h_1 =>
    split at h
    next le => exact .inl ⟨rfl, le, (Option.some.inj h).symm⟩
    · cases h
  case h_2 =>
    split at h
    · cases h
    next m _ pair =>
      refine .inr (.inl ⟨_, rfl, pair, ?_⟩)
      split at h
      next le => exact .inl ⟨le, (Option.some.inj h).symm⟩
      next gt =>
        split at h
        next le => exact .inr ⟨le.1, gt, le.2, (Option.some.inj h).symm⟩
        · cases h
  case h_3 =>
    split at h
    next le => exact .inr (.inr ⟨rfl, le, (Option.some.inj h).symm⟩)
    · cases h
  case h_4 => cases h

/-- A byte of the even and of the odd half of the pair view. -/
theorem State.pairAddr_even {s : State} {p off : Nat} {m : Nat × Nat} (h : s.pairOf p = some m) (hoff : off < veneerSize) :
    s.spaceAddr p 1 off 1 = some (veneerBase m.1 + off) := by
  simp only [State.spaceAddr, h]
  rw [if_pos (by omega)]

theorem State.pairAddr_odd {s : State} {p off : Nat} {m : Nat × Nat} (h : s.pairOf p = some m) (low : veneerSize ≤ off)
    (high : off < 2 * veneerSize) : s.spaceAddr p 1 off 1 = some (veneerBase m.2 + (off - veneerSize)) := by
  simp only [State.spaceAddr, h]
  rw [if_neg (by omega), if_pos ⟨low, by omega⟩]

/-- The bytes of a range that lies in one place follow one another. -/
theorem State.spaceAddr_byte {s : State} {p space off n a k : Nat} (h : s.spaceAddr p space off n = some a) (hk : k < n) :
    s.spaceAddr p space (off + k) 1 = some (a + k) := by
  rcases State.spaceAddr_cases h with ⟨rfl, fits, rfl⟩ | ⟨m, rfl, pair, ⟨fits, rfl⟩ | half⟩ | ⟨rfl, fits, rfl⟩
  · exact (if_pos (by omega)).trans (congrArg some (Nat.add_assoc _ _ _).symm)
  · exact (State.pairAddr_even pair (by omega)).trans (congrArg some (Nat.add_assoc _ _ _).symm)
  · obtain ⟨low, -, high, place⟩ := half
    rw [place]
    exact (State.pairAddr_odd pair (by omega) (by omega)).trans (congrArg some (by omega))
  · exact (if_pos (by omega)).trans (congrArg some (Nat.add_assoc _ _ _).symm)

/-- Every byte of an operand's ranges is the byte at one of its offsets. -/
theorem State.spaceParts_byte {s : State} {p space off n x : Nat} {l : List (Nat × Nat)} (h : s.spaceParts p space off n = some l)
    {r : Nat × Nat} (hr : r ∈ l) (hx : r.1 ≤ x) (hx' : x < r.1 + r.2) : ∃ k < n, s.spaceAddr p space (off + k) 1 = some x := by
  unfold State.spaceParts at h
  split at h
  next a one =>
    obtain rfl := Option.some.inj h
    obtain rfl := List.mem_singleton.1 hr
    exact ⟨x - a, by omega, (State.spaceAddr_byte one (by omega)).trans (congrArg some (by omega))⟩
  next =>
    split at h
    next both =>
      obtain ⟨rfl, low, high, fits⟩ := both
      obtain ⟨m, pair, rfl⟩ := Option.map_eq_some_iff.1 h
      simp only [List.mem_cons, List.not_mem_nil, or_false] at hr
      rcases hr with rfl | rfl <;> dsimp only at hx hx'
      · exact ⟨x - (veneerBase m.1 + off), by omega, (State.pairAddr_even pair (by omega)).trans (congrArg some (by omega))⟩
      · exact ⟨x - veneerBase m.2 + (veneerSize - off), by omega,
          (State.pairAddr_odd pair (by omega) (by omega)).trans (congrArg some (by omega))⟩
    · cases h

theorem physOf_lt {map l p : Nat} (h : physOf map l = some p) : p < nPhys := by
  unfold physOf at h
  split at h
  next =>
    obtain ⟨c, hc, rfl⟩ := Option.map_eq_some_iff.1 h
    have := List.mem_range.1 (List.mem_of_mem_filter (List.mem_of_getElem? hc))
    unfold nPhys
    omega
  · cases h

theorem State.partner_lt {s : State} {p m : Nat} (h : s.partner p = some m) : m < nPhys := by
  obtain ⟨r, hr, rfl⟩ := Option.map_eq_some_iff.1 h
  unfold scarfOf at hr
  split at hr
  · cases hr
  · dsimp only at hr
    split at hr
    · cases hr
    next mate =>
      cases hr
      exact physOf_lt mate

theorem State.pairOf_lt {s : State} {p : Nat} {m : Nat × Nat} (hp : p < nPhys) (h : s.pairOf p = some m) :
    m.1 < nPhys ∧ m.2 < nPhys := by
  obtain ⟨r, hr, rfl⟩ := Option.map_eq_some_iff.1 h
  have mate : r.2.2 < nPhys := State.partner_lt (p := p) (s := s) (by rw [State.partner, hr]; rfl)
  split
  · exact ⟨hp, mate⟩
  · exact ⟨mate, hp⟩

/-- Operand spaces lie below the accumulators. -/
theorem State.spaceAddr_lt {s : State} {p space off x : Nat} (hp : p < nPhys) (h : s.spaceAddr p space off 1 = some x) :
    x < accumBase 0 := by
  unfold accumBase
  rcases State.spaceAddr_cases h with ⟨-, fits, rfl⟩ | ⟨m, -, pair, half⟩ | ⟨-, fits, rfl⟩
  · unfold nPhys veneerBase veneerSize at *
    omega
  · have members := State.pairOf_lt hp pair
    unfold nPhys veneerBase veneerSize at *
    omega
  · unfold nPhys opbufBase at *
    omega

theorem State.cPlace_lt {s : State} {o : Op} (ho : o.Fits) {x : Nat} (hx : s.cPlace o x) : x < accumBase 0 :=
  let ⟨_, _, addr⟩ := hx
  State.spaceAddr_lt ho.cluster addr

/-! ### Stores through C's space (R72, R73, R81, R252) -/

section
variable {s t : State}

theorem ArrayWork.wrParts {K : Nat → Prop} {l : List (Nat × Nat)} (h : ArrayWork K s t)
    (hK : ∀ r ∈ l, ∀ x, r.1 ≤ x → x < r.1 + r.2 → K x) (bs : List Nat) : ArrayWork K s (t.wrParts l bs) := by
  induction l generalizing t bs with
  | nil => exact h
  | cons r l ih =>
    refine ih (h.wrBytes fun x hx hx' => hK r List.mem_cons_self x hx ?_) (fun q hq => hK q (List.mem_cons_of_mem _ hq)) _
    rw [List.length_take] at hx'
    omega

theorem ArrayWork.wrC {K : Nat → Prop} {l : List (Nat × Nat)} (h : ArrayWork K s t)
    (hK : ∀ r ∈ l, ∀ x, r.1 ≤ x → x < r.1 + r.2 → K x) (o : Op) (bs : List Nat) : ArrayWork K s (t.wrC o l bs) := by
  rw [State.wrC, State.noteWrite_clean h.clean]
  exact h.wrParts hK bs

/-- A store of bytes that C takes keeps to C's places, whether or not all are in range. -/
theorem ArrayWork.writeC {o : Op} (h : ArrayWork (s.cPlace o) s t) {off : Nat} {bs : List Nat}
    (hoff : ∀ k < bs.length, o.stores (off + k)) (unit : Nat) : ArrayWork (s.cPlace o) s (t.writeC o off unit bs).1 := by
  have place {u : State} (hu : ArrayWork (s.cPlace o) s u) {j n : Nat} (hn : ∀ k < n, o.stores (off + j + k)) {l : List (Nat × Nat)}
      (hl : u.spaceParts o.me.p o.me.d.cSpace (off + j) n = some l) (r) (hr : r ∈ l) (x : Nat) (hx : r.1 ≤ x)
      (hx' : x < r.1 + r.2) : s.cPlace o x := by
    obtain ⟨k, hk, addr⟩ := State.spaceParts_byte hl hr hx hx'
    exact ⟨off + j + k, hn k hk, (State.spaceAddr_of_active hu.active _ _ _ _).symm.trans addr⟩
  unfold State.writeC
  split
  next l hl => exact h.wrC (place h (j := 0) hoff hl) o bs
  next =>
    refine h.foldl _ fun u hu i hi => ?_
    split
    next l hl =>
      refine hu.wrC (place hu (fun k hk => ?_) hl) o _
      have inside : (i + 1) * unit ≤ bs.length :=
        (Nat.mul_le_mul_right _ (List.mem_range.1 hi)).trans (Nat.div_mul_le_self _ _)
      rw [Nat.succ_mul] at inside
      rw [Nat.add_assoc]
      exact hoff _ (by omega)
    next => exact hu

/-- A row that leaves the gate: its item, its row, and its columns with their values. -/
abbrev OutRow := Nat × Nat × List (Nat × Val)

/-- A row leaves the gate with consecutive columns of the matrix; an MX row leaves whole. -/
structure Op.RowFits (o : Op) (x : OutRow) : Prop where
  item : x.1 < o.me.d.batch
  row : x.2.1 < o.me.d.m
  cols : isMx (gateOf o.me.d.gate).fmt = false → ∃ a, x.2.2.map (·.1) = List.range' a x.2.2.length ∧ a + x.2.2.length ≤ o.me.d.n

theorem length_codesBytes (f : Nat) (cs : List Nat) : (codesBytes f cs).length = cs.length * fmtBytes f := by
  simp [codesBytes, List.length_flatMap]

/-- The offset of an item of C. -/
def Op.cBase (o : Op) (item : Nat) : Nat := o.me.d.cOff + item * o.me.d.cBstr * 64

section
variable {o : Op} {item m : Nat} (hitem : item < o.me.d.batch) (hm : m < o.me.d.m)
include hitem hm

theorem Op.stores_row (mx : isMx (gateOf o.me.d.gate).fmt = false) {k : Nat}
    (hk : k < o.me.d.n * fmtBytes (gateOf o.me.d.gate).fmt) : o.stores (o.cBase item + m * o.me.d.ldc + k) := by
  refine ⟨item, hitem, m, hm, .inl ?_⟩
  rw [mx]
  exact ⟨Nat.le_add_right _ _, Nat.add_lt_add_left hk _⟩

theorem Op.stores_mxBlock (mx : isMx (gateOf o.me.d.gate).fmt = true) {j k : Nat} (hj : j < ceilDiv o.me.d.n 32)
    (hk : k < 4 * fmtBits (gateOf o.me.d.gate).fmt) :
    o.stores (o.cBase item + m * o.me.d.ldc + j * (4 * fmtBits (gateOf o.me.d.gate).fmt) + k) := by
  refine ⟨item, hitem, m, hm, .inl ?_⟩
  have inside := Nat.mul_le_mul_right (4 * fmtBits (gateOf o.me.d.gate).fmt) hj
  rw [Nat.succ_mul] at inside
  rw [mx, if_pos rfl]
  unfold Op.cBase
  omega

theorem Op.stores_mxScale (mx : isMx (gateOf o.me.d.gate).fmt = true) {j : Nat} (hj : j < ceilDiv o.me.d.n 32) :
    o.stores (mxScaleOff (o.cBase item) o.me.d.m o.me.d.n o.me.d.ldc (gateOf o.me.d.gate).fmt + m * ceilDiv o.me.d.n 32 + j) := by
  refine ⟨item, hitem, m, hm, .inr ⟨mx, ?_⟩⟩
  rw [Nat.succ_mul]
  unfold Op.cBase
  omega

end

/-- A drained row keeps to C's places. -/
theorem ArrayWork.drainRow {o : Op} (h : ArrayWork (s.cPlace o) s t) {x : OutRow} (fits : o.RowFits x) :
    ArrayWork (s.cPlace o) s (t.drainRow o x.1 x.2.1 x.2.2).1 := by
  obtain ⟨item, m, xs⟩ := x
  obtain ⟨hitem, hm, hcols⟩ := fits
  dsimp only at *
  unfold State.drainRow
  extract_lets d g base ix w r
  split
  next mx =>
    refine List.foldlRecOn (motive := fun r : State × Bool => ArrayWork (s.cPlace o) s r.1) _ _ h fun r hr j hj => ?_
    have hj := List.mem_range.1 hj
    dsimp only
    split
    · exact hr
    · refine (((hr.countGate _ _ _).noteSre _ _).writeC (fun k hk => ?_) _).writeC (fun k hk => ?_) _
      · rw [length_leBytes] at hk
        exact Op.stores_mxBlock hitem hm mx hj hk
      · obtain rfl : k = 0 := by simpa using hk
        exact Op.stores_mxScale hitem hm mx hj
  next plain =>
    have mx : isMx g.fmt = false := by simpa using plain
    obtain ⟨a, cols, within⟩ := hcols mx
    split
    · exact h
    next x xs =>
      refine (h.gateAll _ _ _ _).writeC (fun k hk => ?_) _
      obtain rfl : x.1 = a := by simpa [List.range'_succ] using (List.cons.inj cols).1
      rw [Nat.add_assoc]
      refine Op.stores_row hitem hm mx ?_
      have inside := Nat.mul_le_mul_right (fmtBytes g.fmt) within
      rw [Nat.add_mul] at inside
      have hk : k < (x :: xs).length * fmtBytes g.fmt := by simpa [length_codesBytes, r, State.gateAll] using hk
      exact Nat.lt_of_lt_of_le (Nat.add_lt_add_left hk _) inside

end

/-! ### The rows of a drained block (R72, R73) -/

/-- The cells of a drained block, row by row. -/
def Drained.cells (b : Drained) : List (Nat × Nat) := b.rows.flatMap fun m => b.cols.map fun n => (m, n)

theorem map_fst_zip_prefix {α β : Type} (l : List α) (m : List β) : (l.zip m).map Prod.fst <+: l := by
  induction l generalizing m with
  | nil => exact List.nil_prefix
  | cons x l ih =>
    cases m with
    | nil => exact List.nil_prefix
    | cons y m => exact (List.cons_prefix_cons).2 ⟨rfl, ih m⟩

/-- The cells of one row are the columns in that row. -/
theorem filter_cells {rows cols : List Nat} {m : Nat} (nodup : rows.Nodup) (hm : m ∈ rows) :
    ((rows.flatMap fun m => cols.map fun n => (m, n)).filter fun c => c.1 == m) = cols.map fun n => (m, n) := by
  have row (k : Nat) : ((cols.map fun n => (k, n)).filter fun c => c.1 == m) = if k = m then cols.map fun n => (k, n) else [] := by
    rw [List.filter_map]
    split
    next h => simp [h, Function.comp_def]
    next h => simp [h, Function.comp_def]
  rw [List.filter_flatMap]
  simp only [row]
  induction rows with
  | nil => cases hm
  | cons k rows ih =>
    obtain ⟨new, nodup⟩ := List.nodup_cons.1 nodup
    rw [List.flatMap_cons]
    rcases List.mem_cons.1 hm with rfl | hm
    · have rest : (rows.flatMap fun k => if k = m then cols.map fun n => (k, n) else []) = [] :=
        List.flatMap_eq_nil_iff.2 fun k hk => if_neg fun h : k = m => new (h ▸ hk)
      rw [if_pos rfl, rest, List.append_nil]
    · rw [if_neg fun h : k = m => new (h ▸ hm), List.nil_append]
      exact ih nodup hm

section
variable {s : State} {o : Op} {b : Drained}

theorem State.results_cells (s : State) (o : Op) (b : Drained) : (s.results o b).map (fun x => (x.1, x.2.1)) <+: b.cells := by
  rw [State.results, List.map_map]
  exact map_fst_zip_prefix b.cells b.out.totals

/-- The results of a block in row `m`: columns and values. -/
def State.rowOf (s : State) (o : Op) (b : Drained) (m : Nat) : List (Nat × Val) :=
  ((s.results o b).filter fun x => x.1 == m).map (·.2)

theorem State.rowOf_cols {m : Nat} (nodup : b.rows.Nodup) (hm : m ∈ b.rows) : (s.rowOf o b m).map (·.1) <+: b.cols := by
  have row := ((s.results_cells o b).filter fun c => c.1 == m).map Prod.snd
  rw [Drained.cells, filter_cells nodup hm, List.filter_map, List.map_map, List.map_map] at row
  rw [State.rowOf, List.map_map]
  simpa [Function.comp_def] using row

/-- The rows that leave a gate that is not MX: those of each block. -/
theorem State.mem_drainRows {bs : List Drained} (mx : isMx (gateOf o.me.d.gate).fmt = false) {x : OutRow} :
    x ∈ s.drainRows o bs ↔ ∃ b ∈ bs, ∃ m ∈ b.rows, (b.item, m, s.rowOf o b m) = x := by
  unfold State.drainRows
  dsimp only
  rw [mx, if_neg (by decide), List.flatMap_map]
  simp only [List.mem_flatMap, List.mem_map]
  rfl

/-- Every row that leaves the gate fits C. -/
theorem State.drainRows_fit {bs : List Drained} (hb : ∀ b ∈ bs, b ∈ s.formBlocks o) {x : OutRow}
    (hx : x ∈ s.drainRows o bs) : o.RowFits x := by
  cases mx : isMx (gateOf o.me.d.gate).fmt with
  | true =>
    unfold State.drainRows at hx
    dsimp only at hx
    rw [mx, if_pos rfl] at hx
    obtain ⟨item, hitem, hx⟩ := List.mem_flatMap.1 hx
    obtain ⟨m, hm, rfl⟩ := List.mem_map.1 hx
    exact ⟨List.mem_range.1 hitem, List.mem_range.1 hm, fun plain => absurd (mx.symm.trans plain) (by decide)⟩
  | false =>
    obtain ⟨b, mem, m, hm, rfl⟩ := (State.mem_drainRows mx).1 hx
    obtain ⟨item, tile, block, -⟩ := State.mem_formBlocks (hb b mem)
    obtain ⟨nodup, within⟩ := Op.mem_blocks block
    obtain ⟨a, inside, cols⟩ := Op.mem_tiles tile
    refine ⟨item, within m hm, fun _ => ⟨a, ?_⟩⟩
    obtain ⟨rest, parts⟩ := State.rowOf_cols (s := s) (o := o) nodup hm
    rw [show b.cols = _ from cols] at parts
    obtain ⟨k, hk, eq, -⟩ := List.range'_eq_append_iff.1 parts.symm
    have len : (s.rowOf o b m).length = k := by simpa using congrArg List.length eq
    rw [← len] at eq hk
    exact ⟨eq, show a + (s.rowOf o b m).length ≤ o.me.d.n by omega⟩

end

/-! ### The stages of an operation (R70 to R113) -/

/-- No byte. -/
def noByte (_ : Nat) : Prop := False

/-- With no uncorrectable word, reads meet none. -/
theorem State.arrPoison_clean {s : State} (h : s.poison = []) (o : Op) (reads : List (Nat × Nat)) : s.arrPoison o reads = s := by
  rw [State.arrPoison, h]
  rfl

section
variable {s : State} {o : Op} (ho : o.Fits)
include ho

theorem State.noteBlock_work {b : Drained} (hc : s.poison = []) (hb : b.cols.length ≤ min o.me.d.n o.tileWidth) :
    ArrayWork (o.totalsPlace b) s (s.noteBlock o b) :=
  ArrayWork.noteOut ho.cluster ho.quad (State.putTotals_work hc _ _ _ _ hb)

/-- The totals of a block that was just noted stand in the accumulators. -/
theorem State.noteBlock_stands {b : Drained} (hc : s.poison = []) (hb : b.cols.length ≤ min o.me.d.n o.tileWidth) {r : Nat}
    (hr : r < b.rows.length) {l : List Nat}
    (hl : l = totalsBytes b.out.fmt ((b.out.totals.drop (r * b.cols.length)).take b.cols.length)) :
    (s.noteBlock o b).rdBytes (accOff o.me.p o.quad b.half + r * o.rowPitch b) l.length = l :=
  have clean := (State.putTotals_work hc (accOff o.me.p o.quad b.half) b.out.fmt b.rows.length b.out.totals hb).clean
  ((ArrayWork.noteOut ho.cluster ho.quad (.refl noByte clean)).rdBytes fun _ _ _ => id).trans
    (State.putTotals_stands s _ _ _ hb hr hl)

theorem ArrayWork.noteTile {K : Nat → Prop} {t : State} (h : ArrayWork K s t) (b : Drained) : ArrayWork K s (t.noteTile o b) :=
  h.noteTotals ho.cluster ho.quad _ _ _ _ _

theorem ArrayWork.keepChain {K : Nat → Prop} {t : State} (h : ArrayWork K s t) (bs : List Drained) :
    ArrayWork K s (t.keepChain o bs) :=
  (h.arr _).setOf ho.cluster ho.quad (by simp [arrayFields]) _

/-- Loading a tile ahead changes nothing but the array's own state and a flag. -/
theorem ArrayWork.loadTile {K : Nat → Prop} {t : State} (h : ArrayWork K s t) (tick start : Nat) :
    ArrayWork K s (t.loadTile o tick start) := by
  unfold State.loadTile
  extract_lets d eng cols els s1 s2 t1 s3
  have clean : s1 = t := by simp only [s1, State.arrPoison_clean h.clean]
  clear_value s1
  have flagged : ArrayWork K s s2 := .ite (by rw [clean]; exact h.arrOob ho.cluster ho.quad) (by rw [clean]; exact h)
  exact (flagged.dropPre eng tick start).arr _

end

/-- A row of C leaves the gate; whether any row so far was out of range. -/
def Op.drainStep (o : Op) (r : State × Bool) (x : OutRow) : State × Bool :=
  ((r.1.drainRow o x.1 x.2.1 x.2.2).1, r.2 || (r.1.drainRow o x.1 x.2.1 x.2.2).2)

/-- Rows of C leave the gate one after another. -/
def Op.drainAll (o : Op) (l : List OutRow) (r : State × Bool) : State × Bool := l.foldl o.drainStep r

/-- What an operation stores in C from `v` on, by the operands that `s` holds, with what happens `ahead` of the last block. -/
def State.opStored (s : State) (o : Op) (bs : List Drained) (ahead : State → State) (v : State) : State × Bool :=
  if o.me.d.accHold || !o.drains then (ahead v, false)
  else
    let r := o.drainAll (lastRows bs (s.drainRows o bs)).1 (v, false)
    o.drainAll (lastRows bs (s.drainRows o bs)).2 (ahead r.1, r.2)

theorem ArrayWork.drainAll {s : State} {o : Op} {l : List OutRow} (hl : ∀ x ∈ l, o.RowFits x) {r : State × Bool}
    (h : ArrayWork (s.cPlace o) s r.1) : ArrayWork (s.cPlace o) s (o.drainAll l r).1 :=
  List.foldlRecOn (motive := fun r : State × Bool => ArrayWork (s.cPlace o) s r.1) l o.drainStep h fun _ hr x hx =>
    hr.drainRow (hl x hx)

theorem State.cPlace_of_active {s t : State} (h : t.active = s.active) (o : Op) : t.cPlace o = s.cPlace o := by
  unfold State.cPlace
  simp only [State.spaceAddr_of_active h]

section
variable {s : State} {o : Op} {bs : List Drained} (hb : ∀ b ∈ bs, b ∈ s.formBlocks o) {ahead : State → State}
  (ha : ∀ v, v.poison = [] → ArrayWork noByte v (ahead v))
include hb ha

/-- What an operation stores keeps to C's places. -/
theorem State.opStored_work {v : State} (hc : v.poison = []) (hv : v.active = s.active) :
    ArrayWork (s.cPlace o) v (s.opStored o bs ahead v).1 := by
  have fits := fun x hx => State.drainRows_fit (x := x) hb hx
  have aheadWork {t : State} (ht : ArrayWork (v.cPlace o) v t) : ArrayWork (v.cPlace o) v (ahead t) :=
    ht.trans ((ha t ht.clean).mono fun _ => False.elim)
  have start : ArrayWork (v.cPlace o) v v := .refl _ hc
  rw [← State.cPlace_of_active hv]
  unfold State.opStored
  split
  · exact aheadWork start
  · exact .drainAll (fun x hx => fits x (List.mem_of_mem_drop hx))
      (aheadWork (.drainAll (r := (v, false)) (fun x hx => fits x (List.mem_of_mem_take hx)) start))

end

/-- The bytes of the accumulators that blocks leave totals in. -/
def Op.blocksPlace (o : Op) (bs : List Drained) (x : Nat) : Prop := ∃ b ∈ bs, o.totalsPlace b x

/-- Blocks leave their totals in their places. -/
theorem ArrayWork.noteBlocks {s t : State} {o : Op} (ho : o.Fits) (h : ArrayWork noByte s t) {bs : List Drained}
    (hb : ∀ b ∈ bs, b.cols.length ≤ min o.me.d.n o.tileWidth) :
    ArrayWork (o.blocksPlace bs) s (bs.foldl (fun s b => s.noteBlock o b) t) :=
  (h.mono fun _ => False.elim).foldl _ fun _ hu b hm =>
    hu.trans ((State.noteBlock_work ho hu.clean (hb b hm)).mono fun _ hx => ⟨b, hm, hx⟩)

section
variable {s : State} {o : Op} (ho : o.Fits) (hc : s.poison = []) {bs : List Drained} (hb : ∀ b ∈ bs, b ∈ s.formBlocks o)
  {ahead : State → State} (ha : ∀ v, v.poison = [] → ArrayWork noByte v (ahead v))
include ho hc hb ha

/-- The stages of an operation that meets no error: the flags of what it reads, its blocks, the records of its tiles, its stores
in C, and what it holds. -/
theorem State.runOp_stages (hr : s.running = true) (hbs : bs = if o.drains then s.formBlocks o else []) :
    ∃ u v, ArrayWork noByte s u ∧ ArrayWork noByte (bs.foldl (fun s b => s.noteBlock o b) u) v ∧
      ArrayWork noByte (s.opStored o bs ahead v).1 (s.runOp o [] ahead) := by
  unfold State.runOp
  rw [← hbs]
  extract_lets reads blocks s0 p q s1 s2 s3 s4 rows s5 s6 drain r6 r s7
  have same : s1 = s := State.arrPoison_clean hc _ _
  have flag {K : Nat → Prop} {t u : State} (hu : ArrayWork K t u) {f : Fld} (hf : f ∈ arrayFields p q) {c : Prop} [Decidable c] :
      ArrayWork K t (if c then u.set f 1 else u) := .ite (hu.setOf ho.cluster ho.quad hf _) hu
  have h1 : ArrayWork noByte s s1 := by rw [same]; exact .refl _ hc
  have h3 : ArrayWork noByte s s3 := flag (flag h1 (by simp [arrayFields])) (by simp [arrayFields])
  have h4 : ArrayWork _ s s4 := h3.noteBlocks ho fun b h => State.formBlocks_width (hb b h)
  have h6 : ArrayWork noByte s4 s6 := (flag (.refl _ h4.clean) (by simp [arrayFields])).foldl _ fun _ hu b _ => hu.noteTile ho b
  have close {x : State × Bool} (hx : x.1.poison = []) : ArrayWork noByte x.1
      (if x.2 || reads.2.any (·.oob) then (if o.drains then x.1.keepChain o bs else x.1).arrOob p q
        else if o.drains then x.1.keepChain o bs else x.1) := by
    have kept : ArrayWork noByte x.1 (if o.drains then x.1.keepChain o bs else x.1) :=
      .ite ((ArrayWork.refl _ hx).keepChain ho bs) (.refl _ hx)
    exact .ite (kept.arrOob ho.cluster ho.quad) kept
  have run : ¬(!s1.running) = true := by simp [same, hr]
  rw [if_neg run]
  by_cases hold : (o.me.d.accHold || !o.drains) = true
  · have result : r = s.opStored o bs ahead s4 := by simp only [r, State.opStored, if_pos hold]
    refine ⟨s3, s4, h3, .refl _ h4.clean, ?_⟩
    have clean := (State.opStored_work hb ha h4.clean h4.active).clean
    rw [← result] at clean ⊢
    exact close clean
  · have result : r = s.opStored o bs ahead s6 := by simp only [r, State.opStored, if_neg hold]; rfl
    refine ⟨s3, s6, h3, h6, ?_⟩
    have clean := (State.opStored_work hb ha h6.clean (h6.active.trans h4.active)).clean
    rw [← result] at clean ⊢
    exact close clean

/-- An operation that meets no error writes the totals of its blocks and what it stores in C. -/
theorem State.runOp_work (hr : s.running = true) (hbs : bs = if o.drains then s.formBlocks o else []) :
    ArrayWork (fun x => o.blocksPlace bs x ∨ s.cPlace o x) s (s.runOp o [] ahead) := by
  obtain ⟨u, v, hu, hv, ht⟩ := State.runOp_stages ho hc hb ha hr hbs
  have blocks := hu.noteBlocks ho fun b h => State.formBlocks_width (hb b h)
  have stores := State.opStored_work hb ha hv.clean (hv.active.trans blocks.active)
  exact (((blocks.mono fun _ => .inl).trans (hv.mono fun _ => False.elim)).trans (stores.mono fun _ => .inr)).trans
    (ht.mono fun _ => False.elim)

/-- Its last block's totals stand in the accumulators: what follows writes below them. -/
theorem State.runOp_totals (hr : s.running = true) (hbs : bs = if o.drains then s.formBlocks o else []) {b : Drained}
    (last : bs.getLast? = some b) {r : Nat} (hrow : r < b.rows.length) {l : List Nat}
    (hl : l = totalsBytes b.out.fmt ((b.out.totals.drop (r * b.cols.length)).take b.cols.length)) :
    (s.runOp o [] ahead).rdBytes (accOff o.me.p o.quad b.half + r * o.rowPitch b) l.length = l := by
  obtain ⟨u, v, hu, hv, ht⟩ := State.runOp_stages ho hc hb ha hr hbs
  have width := fun b h => State.formBlocks_width (hb b h)
  have blocks := hu.noteBlocks ho width
  have stores := State.opStored_work hb ha hv.clean (hv.active.trans blocks.active)
  obtain ⟨before, parts⟩ := List.getLast?_eq_some_iff.1 last
  have prior := hu.noteBlocks ho (bs := before) fun c hmem => width c (by rw [parts]; simp [hmem])
  have stands := State.noteBlock_stands ho prior.clean (width b (by rw [parts]; simp)) hrow hl
  rw [parts, List.foldl_append] at hv
  have after := ((hv.mono fun _ => False.elim).trans stores).trans (ht.mono fun _ => False.elim)
  refine (after.rdBytes fun x hx _ place => ?_).trans stands
  have := State.cPlace_lt ho place
  unfold accOff accumBase at *
  omega

end

/-! ### The state in which an operation does its work (R15, R75, R76) -/

/-- The state of an operation that has issued at (tick, start), before it reads. -/
def State.opEntered (s : State) (o : Op) (i : Issue) (eng : Nat) : State :=
  (((s.entered .cluster eng i true).arrBegin o.me.p).noteInfo .cluster o.me.p eng
    [o.desc, o.quad, opPasses o.me.d, o.macs]).dropPre (o.me.p * 16 + o.quad) i.tick i.startCc

/-- `t` has the registers, memory, clusters and held chains of `s`. -/
structure SameOperands (s t : State) : Prop where
  flds : t.flds = s.flds
  mem : t.mem = s.mem
  poison : t.poison = s.poison
  xr : t.xr = s.xr
  active : t.active = s.active
  chains : t.arr.chains = s.arr.chains

/-- An entry that enters finds the operands as they were. -/
theorem State.opEntered_same (s : State) (o : Op) (i : Issue) (eng : Nat) : SameOperands s (s.opEntered o i eng) := by
  unfold State.opEntered State.arrBegin
  split <;> exact ⟨rfl, rfl, rfl, rfl, rfl, rfl⟩

theorem SameOperands.get {s t : State} (h : SameOperands s t) (g : Fld) : t.get g = s.get g :=
  congrArg (fun x => Store.get x g.reset g.key) h.flds

theorem SameOperands.running {s t : State} (h : SameOperands s t) : t.running = s.running := by
  simp only [State.running, State.job, State.is, h.get]

/-- Its engine is occupied. -/
theorem State.opEntered_occupied (s : State) {o : Op} {i : Issue} (hi : o.me.p = i.idx) (eng : Nat) :
    Occupied (s.opEntered o i eng) .cluster eng i true := by
  have begun : Occupied ((s.entered .cluster eng i true).arrBegin o.me.p) .cluster eng i true := by
    unfold State.arrBegin
    split
    · exact s.entered_occupied _ _ _ _
    · exact (s.entered_occupied _ _ _ _).of_tick rfl
  unfold State.opEntered
  rw [hi] at begun ⊢
  exact (begun.noteInfo _).of_tick rfl

theorem Occupied.of_busy {t v : State} {u : UnitKind} {eng : Nat} {i : Issue} {waits : Bool} (h : Occupied t u eng i waits)
    (ht : v.tick.busy = t.tick.busy) : Occupied v u eng i waits := by
  simpa only [Occupied, State.busyRec, ht] using h

section
variable {s t : State} (hm : t.mem = s.mem) (ha : t.active = s.active)
include hm

theorem State.rdParts_of_mem (l : List (Nat × Nat)) : t.rdParts l = s.rdParts l := by
  induction l with
  | nil => rfl
  | cons r l ih => rw [State.rdParts, State.rdParts, ih, State.rd, State.rd, hm]

include ha

/-- An element is read from memory, at a place that the active clusters give. -/
theorem State.fetchElem_congr (p space fmt base row col ld rows cols : Nat) :
    t.fetchElem p space fmt base row col ld rows cols = s.fetchElem p space fmt base row col ld rows cols := by
  have parts (off n : Nat) : t.spaceParts p space off n = s.spaceParts p space off n := by
    simp only [State.spaceParts, State.spaceAddr_of_active ha, State.pairOf, ha]
  simp only [State.fetchElem, parts, State.spaceAddr_of_active ha, State.rdParts_of_mem hm, State.rd1, hm]

theorem State.opA_congr (o : Op) (item : Nat) : t.opA o item = s.opA o item := by
  simp only [State.opA, State.fetchA, State.fetchElem_congr hm ha]

theorem State.opB_congr (o : Op) (item : Nat) (cols : List Nat) : t.opB o item cols = s.opB o item cols := by
  simp only [State.opB, State.fetchB, State.fetchElem_congr hm ha]

/-- The blocks come from memory and the chains that are held. -/
theorem State.formBlocks_congr (hc : t.arr.chains = s.arr.chains) (o : Op) : t.formBlocks o = s.formBlocks o := by
  simp only [State.formBlocks, State.opA_congr hm ha, State.opB_congr hm ha, State.chainOf, hc]

end

section
variable {s : State} {o : Op} {i : Issue} {eng : Nat} (ho : o.Fits) (hi : o.me.p = i.idx) (hc : s.poison = [])
  (hr : s.running = true) {ahead : State → State} (ha : ∀ v, v.poison = [] → ArrayWork noByte v (ahead v))
include ho hi hc hr ha

/-- What the work of an entry that has issued leaves: its engine occupied, its totals and C, and no field aside changed. -/
theorem State.startOp_done {t : State}
    (ht : t = (s.entered .cluster eng i true).startOp o eng i.tick i.startCc [] ahead) :
    Occupied t .cluster eng i true ∧ OpDone s t o ∧ t.job = s.job ∧ t.xr = s.xr ∧ ∀ g : Fld, g.aside → t.get g = s.get g := by
  have same := s.opEntered_same o i eng
  have clean := same.poison.trans hc
  have formed := State.formBlocks_congr same.mem same.active same.chains o
  have run : t = (s.opEntered o i eng).runOp o [] ahead := ht
  have hb : ∀ b ∈ (if o.drains then s.formBlocks o else []), b ∈ (s.opEntered o i eng).formBlocks o := fun b h => by
    rw [formed]
    split at h
    · exact h
    · cases h
  have work := State.runOp_work ho clean hb ha (same.running.trans hr) (by rw [formed])
  rw [← run, State.cPlace_of_active same.active] at work
  have get (g : Fld) (hg : g.aside) : t.get g = s.get g := (work.get g hg).trans (same.get g)
  refine ⟨(s.opEntered_occupied hi eng).of_busy work.busy, ⟨fun b drains last r hrow l hl => ?_, fun x totals stores => ?_⟩,
    get TICK_STATUS.STATE ⟨by decide, by decide, by decide⟩, work.xr.trans same.xr, get⟩
  · rw [run]
    exact State.runOp_totals ho clean hb ha (same.running.trans hr) (by rw [formed]) (by rw [if_pos drains]; exact last) hrow hl
  · refine (work.mem x ?_).trans (by rw [same.mem])
    rintro (⟨b, hbs, low, high⟩ | ⟨off, hoff, addr⟩)
    · have inside := totals b (by rw [← formed]; exact hb b hbs)
      omega
    · exact stores off hoff addr

end

/-! ### MATMUL and SCARF_PEER (R75, R76, R88, R91) -/

theorem State.arrDesc_quad (s : State) (p d : Nat) : (s.arrDesc p d).quad < 4 := Nat.mod_lt _ (by decide)

theorem Op.fits_of {o : Op} (hp : o.me.p < nPhys) (hq : o.me.d.quad < 4) : o.Fits := by
  refine ⟨hp, ?_⟩
  unfold Op.quad
  split
  · exact hq
  · decide

theorem State.opOf_fits (s : State) {p : Nat} (hp : p < nPhys) (desc tick start : Nat) (pre : List ((Nat × Nat) × Val)) :
    (s.opOf p desc tick start pre).Fits := Op.fits_of hp (s.arrDesc_quad p desc)

theorem State.peerOp_fits (s : State) {p : Nat} (hp : p < nPhys) (desc tick start : Nat) (pre : List ((Nat × Nat) × Val)) :
    (s.peerOp p desc tick start pre).Fits := Op.fits_of hp (s.arrDesc_quad p desc)

theorem State.opOf_odd_lt (s : State) {p : Nat} (hp : p < nPhys) (desc tick start : Nat) (pre : List ((Nat × Nat) × Val)) :
    (s.opOf p desc tick start pre).odd.p < nPhys := by
  unfold State.opOf
  dsimp only
  split
  · split
    next m mate => exact State.partner_lt mate
    next => exact hp
  · exact hp

/-- A preload changes nothing but the arrays' own state and a flag. -/
theorem ArrayWork.preload {K : Nat → Prop} {s t : State} (h : ArrayWork K s t) {p : Nat} (hp : p < nPhys) (i : Issue) (eng : Nat) :
    ArrayWork K s (t.preload p i eng) := by
  unfold State.preload
  split
  · extract_lets at' o s1
    have first : ArrayWork K s s1 := .ite (h.loadTile (t.opOf_fits hp _ _ _ _) _ _) h
    exact .ite (first.loadTile (s1.peerOp_fits (t.opOf_odd_lt hp _ _ _ _) _ _ _ _) _ _) first
  · exact h

/-- MATMUL on its idle engine does the work of its operation. -/
theorem ArrReady.matmul {s : State} {i : Issue} {d : ArrDesc} {o : Op} (hd : d = s.arrDesc i.idx i.desc)
    (ho : o = s.opOf i.idx i.desc i.tick i.startCc
      (s.preFor (i.idx * 16 + (if d.shape = 1 then d.quad else 0)) i.desc i.tick i.startCc)) (h : ArrReady s (arrEng d) i) :
    exec (.matmul i []) s = .next ((s.entered .cluster (arrEng d) i true).startOp o (arrEng d) i.tick i.startCc []
      fun t => t.preload i.idx i (arrEng d)) := by
  subst hd ho
  rw [show exec (.matmul i []) s = execMatmul i [] s from rfl, execMatmul, h.issueWhen]
  rfl

/-- So does SCARF_PEER. -/
theorem ArrReady.scarfPeer {s : State} {i : Issue} {o : Op}
    (ho : o = s.peerOp i.idx i.desc i.tick i.startCc (s.preFor (i.idx * 16) i.desc i.tick i.startCc)) (h : ArrReady s 1 i) :
    exec (.scarfPeer i []) s = .next ((s.entered .cluster 1 i true).startOp o 1 i.tick i.startCc [] id) := by
  subst ho
  rw [show exec (.scarfPeer i []) s = execScarfPeer i [] s from rfl, execScarfPeer, h.issueWhen]
  rfl

/-! ### Operands and results of a plain product (R48, R67, R71, R72) -/

/-- The conditions of a plain descriptor by name. -/
structure ArrDesc.IsPlain (d : ArrDesc) : Prop where
  shape : d.shape = 0
  aFmt : opClass d.aFmt = 0
  bFmt : opClass d.bFmt = 0
  aSpace : d.aSpace = 0
  bSpace : d.bSpace = 0
  cSpace : d.cSpace = 0
  aT : d.aT = false
  bT : d.bT = false
  jig : d.jig = false
  accIn : d.accIn = false
  accHold : d.accHold = false
  wide : d.wide = false
  epi : d.epi = 0
  batch : d.batch = 1
  mBlk : 0 < d.mBlk
  k : d.k ≤ 4096
  gateFmt : (gateOf d.gate).fmt = fFP32
  gateRnd : (gateOf d.gate).rnd = 0
  lda : 2 * d.k ≤ d.lda
  ldb : 2 * d.n ≤ d.ldb
  ldc : 4 * d.n ≤ d.ldc
  aFits : d.aOff + d.m * d.lda ≤ veneerSize
  bFits : d.bOff + d.k * d.ldb ≤ veneerSize
  cFits : d.cOff + d.m * d.ldc ≤ veneerSize

theorem ArrDesc.plain.isPlain {d : ArrDesc} (h : d.plain) : d.IsPlain := by
  obtain ⟨h1, h2, h3, h4, h5, h6, h7, h8, h9, h10, h11, h12, h13, h14, h15, h16, h17, h18, h19, h20, h21, h22, h23, h24⟩ := h
  constructor <;> assumption

/-- The operation of a plain descriptor: one member, no jig and nothing loaded ahead. -/
def plainOp (p : Nat) (d : ArrDesc) (desc : Nat) : Op := ⟨⟨p, d⟩, ⟨p, d⟩, ⟨p, d⟩, desc, none, []⟩

theorem State.opOf_plain {s : State} {i : Issue} {d : ArrDesc} (hd : d = s.arrDesc i.idx i.desc) (plain : d.IsPlain)
    (hp : s.arr.preloads = []) (q : Nat) :
    s.opOf i.idx i.desc i.tick i.startCc (s.preFor (i.idx * 16 + q) i.desc i.tick i.startCc) = plainOp i.idx d i.desc := by
  subst hd
  simp [State.opOf, plainOp, State.preFor, hp, State.jigFor, plain.shape, plain.jig]

/-- Elements of a 16-bit format are stored by elements, of two bytes each. -/
theorem fmt16_of_opClass {fmt : Nat} (h : opClass fmt = 0) : isMx fmt = false ∧ fmtBytes fmt = 2 := by
  have : fmt = 2 ∨ fmt = 3 := by
    unfold opClass at h
    split at h <;> simp_all
  rcases this with rfl | rfl <;> exact ⟨rfl, rfl⟩

/-- A range of the member's own region lies in one place. -/
theorem State.spaceParts_own (s : State) (p : Nat) {off n : Nat} (fits : off + n ≤ veneerSize) :
    s.spaceParts p 0 off n = some [(veneerBase p + off, n)] := by
  simp only [State.spaceParts, State.spaceAddr, if_pos fits]

/-- An element of the member's own region is read from its place. -/
theorem State.fetchElem_own (s : State) {p fmt base row col ld rows cols : Nat} (mx : isMx fmt = false)
    (fits : base + row * ld + col * fmtBytes fmt + fmtBytes fmt ≤ veneerSize) :
    (s.fetchElem p 0 fmt base row col ld rows cols).val = s.valAt fmt (veneerBase p + base + row * ld) col := by
  simp only [State.fetchElem, mx, s.spaceParts_own p fits, Bool.false_eq_true, if_false, State.rdParts, Nat.mul_zero, Nat.add_zero,
    State.valAt, State.elemAt]
  simp only [Nat.add_assoc]

/-- An element of row `row` of a matrix of 16-bit elements lies within the region that the matrix fits. -/
theorem element_fits {base row rows ld col cols w : Nat} (hrow : row < rows) (hcol : col < cols) (width : w * cols ≤ ld)
    (fits : base + rows * ld ≤ veneerSize) : base + row * ld + col * w + w ≤ veneerSize := by
  have inRows := Nat.mul_le_mul_right ld hrow
  have inRow := Nat.mul_le_mul_left w hcol
  rw [Nat.succ_mul] at inRows
  rw [Nat.mul_succ, Nat.mul_comm w col] at inRow
  omega

theorem matAt_map {rows cols : List Nat} {f : Nat → Nat → Fetched} {i j : Nat} (hi : i < rows.length) (hj : j < cols.length) :
    matAt ((rows.map fun r => cols.map (f r)).map fun r => r.map (·.val)) i j = (f rows[i] cols[j]).val := by
  simp [matAt, hi, hj]

section
variable {s : State} {p : Nat} {d : ArrDesc} (desc : Nat) (plain : d.IsPlain)
include plain

theorem State.opA_plain {m k : Nat} (hm : m < d.m) (hk : k < d.k) :
    matAt ((s.opA (plainOp p d desc) 0).map fun r => r.map (·.val)) m k = s.valAt d.aFmt (veneerBase p + d.aOff + m * d.lda) k := by
  obtain ⟨mx, bytes⟩ := fmt16_of_opClass plain.aFmt
  have fits := element_fits hm hk plain.lda plain.aFits
  have elem (m k : Nat) : s.fetchA ((plainOp p d desc).aBy k) none 0 m k =
      s.fetchElem p 0 d.aFmt d.aOff m k d.lda d.m d.k := by
    simp [plainOp, Op.aBy, plain.shape, State.fetchA, plain.aT, plain.aSpace]
  have rows : s.opA (plainOp p d desc) 0 = (List.range d.m).map fun m => (List.range d.k).map fun k =>
      s.fetchElem p 0 d.aFmt d.aOff m k d.lda d.m d.k := by
    simp only [← elem]
    rfl
  rw [rows, matAt_map (by simpa using hm) (by simpa using hk), List.getElem_range, List.getElem_range,
    s.fetchElem_own mx (by rw [bytes]; exact fits)]

theorem State.opB_plain {cols : List Nat} {k j : Nat} (hk : k < d.k) (hj : j < cols.length) (hn : cols[j] < d.n) :
    matAt ((s.opB (plainOp p d desc) 0 cols).map fun r => r.map (·.val)) k j =
      s.valAt d.bFmt (veneerBase p + d.bOff + k * d.ldb) cols[j] := by
  obtain ⟨mx, bytes⟩ := fmt16_of_opClass plain.bFmt
  have fits := element_fits hk hn plain.ldb plain.bFits
  have elem (k n : Nat) : s.fetchB ((plainOp p d desc).bBy k) 0 k n = s.fetchElem p 0 d.bFmt d.bOff k n d.ldb d.k d.n := by
    simp [plainOp, Op.bBy, plain.shape, State.fetchB, plain.bT, plain.bSpace]
  have rows : s.opB (plainOp p d desc) 0 cols = (List.range d.k).map fun k => cols.map fun n =>
      s.fetchElem p 0 d.bFmt d.bOff k n d.ldb d.k d.n := by
    simp only [← elem]
    rfl
  rw [rows, matAt_map (by simpa using hk) hj, List.getElem_range, s.fetchElem_own mx (by rw [bytes]; exact fits)]

end

/-! ### The blocks of a plain product (R70, R93, R98) -/

theorem Drained.cells_eq (b : Drained) : b.cells = b.slots.map fun c => (c.1, b.cols.getD c.2 0) := by
  have cols : (List.range b.cols.length).map (fun j => b.cols.getD j 0) = b.cols :=
    List.ext_getElem (by simp) fun j _ hj => by simp [hj]
  unfold Drained.cells Drained.slots
  rw [List.map_flatMap]
  congr 1
  funext m
  rw [List.map_map]
  conv_lhs => rw [← cols, List.map_map]
  rfl

/-- A block for every item, tile and rows is formed. -/
theorem State.exists_formBlocks (s : State) {o : Op} {item : Nat} (hi : item < o.me.d.batch) {t : Nat × List Nat} (ht : t ∈ o.tiles)
    {r : Nat × List Nat} (hr : r ∈ o.blocks) : ∃ b ∈ s.formBlocks o, b.item = item ∧ b.cols = t.2 ∧ b.rows = r.2 := by
  unfold State.formBlocks
  extract_lets d cls held blks
  have formed : (item, t, r, (s.opA o item).map fun r => r.map (·.val), (s.opB o item t.2).map fun r => r.map (·.val)) ∈ blks :=
    List.mem_flatMap.2 ⟨item, List.mem_range.2 hi, List.mem_flatMap.2 ⟨t, ht, List.mem_map.2 ⟨r, hr, rfl⟩⟩⟩
  rw [← List.map_fst_zip (by rw [List.length_range] : blks.length ≤ (List.range blks.length).length)] at formed
  obtain ⟨⟨x, k⟩, mem, rfl⟩ := List.mem_map.1 formed
  exact ⟨_, List.mem_map_of_mem mem, rfl, rfl, rfl⟩

/-- Every column lies in a tile of a member that is no scarf's. -/
theorem Op.exists_tile {o : Op} (alone : o.me.d.shape ≠ 3) {n : Nat} (hn : n < o.me.d.n) : ∃ t ∈ o.tiles, n ∈ t.2 := by
  have pos := o.tileWidth_pos
  unfold Op.tiles
  extract_lets d nt wide first
  have hw : wide = o.tileWidth := if_neg alone
  have hf : first = 0 := if_neg fun h => alone h.1
  have mem : n ∈ (List.range nt).filterMap fun c =>
      if n / wide * wide + first + c < d.n then some (n / wide * wide + first + c) else none := by
    rw [filterMap_range_lt, List.mem_range'_1, hw, hf, show nt = o.tileWidth from rfl, show d.n = o.me.d.n from rfl]
    have := Nat.div_add_mod' n o.tileWidth
    have := Nat.mod_lt n pos
    omega
  refine ⟨_, List.mem_filter.2 ⟨List.mem_map_of_mem (List.mem_range.2 (div_lt_ceilDiv (hw ▸ pos) hn)), ?_⟩, mem⟩
  simpa using List.ne_nil_of_mem mem

theorem Op.exists_block {o : Op} (hb : 0 < o.me.d.mBlk) {m : Nat} (hm : m < o.me.d.m) : ∃ r ∈ o.blocks, m ∈ r.2 := by
  have whole := Nat.div_add_mod' m o.me.d.mBlk
  have := Nat.mod_lt m hb
  exact ⟨_, List.mem_map_of_mem (List.mem_range.2 (div_lt_ceilDiv hb hm)),
    List.mem_map.2 ⟨m % o.me.d.mBlk, List.mem_range.2 (by omega), by omega⟩⟩

/-- The whole numbers that a plain product multiplies (R67). -/
structure WholeOperands (s : State) (v : Nat) (d : ArrDesc) (a b : Nat → Nat → Int) : Prop where
  left : ∀ m k, m < d.m → k < d.k → (a m k).natAbs ≤ 16 ∧ (s.valAt d.aFmt (v + d.aOff + m * d.lda) k).isWhole (a m k)
  right : ∀ k n, k < d.k → n < d.n → (b k n).natAbs ≤ 16 ∧ (s.valAt d.bFmt (v + d.bOff + k * d.ldb) n).isWhole (b k n)

section
variable {s : State} {p : Nat} {d : ArrDesc} (desc : Nat) (plain : d.IsPlain) {a b : Nat → Nat → Int}
  (whole : WholeOperands s (veneerBase p) d a b)
include plain whole

/-- The totals of a plain block are the elements of the exact product, cell by cell. -/
theorem State.plainBlock_whole {x : Drained} (hx : x ∈ s.formBlocks (plainOp p d desc)) :
    List.Forall₂ (fun c t => t.val.isWhole (dotTo a b c d.k)) x.cells x.out.totals := by
  obtain ⟨item, tile, block, out⟩ := State.mem_formBlocks hx
  obtain ⟨start, -, cols⟩ := Op.mem_tiles tile
  have cols : x.cols = List.range' start _ := cols
  have inside (n : Nat) (hn : n ∈ x.cols) : n < d.n := by
    rw [cols, List.mem_range'_1] at hn
    have : n < start + (d.n - start) := by have : (plainOp p d desc).me.d.n = d.n := rfl; omega
    omega
  have item : x.item = 0 := by
    have : x.item < d.batch := item
    rw [plain.batch] at this
    omega
  have small (c : Nat × Nat) (hc : c ∈ x.slots) :
      SmallOperands (matAt ((s.opA (plainOp p d desc) 0).map fun r => r.map (·.val)))
        (matAt ((s.opB (plainOp p d desc) 0 x.cols).map fun r => r.map (·.val))) a (fun k j => b k (x.cols.getD j 0)) c d.k := by
    obtain ⟨m, hm, hc⟩ := List.mem_flatMap.1 hc
    obtain ⟨j, hj, rfl⟩ := List.mem_map.1 hc
    have hm : m < d.m := (Op.mem_blocks block).2 m hm
    have hj := List.mem_range.1 hj
    have hn := inside _ (List.getElem_mem hj)
    refine ⟨fun k hk => ?_, fun k hk => ?_⟩
    · rw [State.opA_plain desc plain hm hk]
      exact whole.left m k hm hk
    · dsimp only
      rw [State.opB_plain desc plain hk hj hn, List.getD_eq_getElem _ _ hj]
      exact whole.right k _ hk hn
  have out := out plain.accIn
  have cls : opClass (plainOp p d desc).me.d.aFmt = 0 := plain.aFmt
  have wide : (plainOp p d desc).me.d.wide = false := plain.wide
  have shape : (plainOp p d desc).me.d.shape = 0 := plain.shape
  rw [item, cls, wide, shape] at out
  have held := blockTotals_holds (L := 32) (by decide) (.fresh a (fun k j => b k (x.cols.getD j 0)) _) small plain.k
  rw [x.cells_eq, List.forall₂_map_left_iff, out]
  exact held.totals

/-- Every result of a plain product that leaves the gate is an element of the exact product. -/
theorem State.rowOf_whole {x : Drained} (hx : x ∈ s.formBlocks (plainOp p d desc)) {m : Nat} {y : Nat × Val}
    (hy : y ∈ s.rowOf (plainOp p d desc) x m) : y.2.isWhole (dotTo a b (m, y.1) d.k) := by
  obtain ⟨z, hz, rfl⟩ := List.mem_map.1 hy
  obtain ⟨hz, row⟩ := List.mem_filter.1 hz
  obtain ⟨c, hc, rfl⟩ := List.mem_map.1 hz
  have whole := List.forall₂_iff_zip.1 (State.plainBlock_whole desc plain whole hx) |>.2 hc
  have epi : (plainOp p d desc).me.d.epi = 0 := plain.epi
  rw [if_pos epi, ← show c.1.1 = m by simpa using row]
  exact whole

/-- And none is missing. -/
theorem State.mem_rowOf {x : Drained} (hx : x ∈ s.formBlocks (plainOp p d desc)) {m n : Nat} (hm : m ∈ x.rows) (hn : n ∈ x.cols) :
    ∃ y ∈ s.rowOf (plainOp p d desc) x m, y.1 = n := by
  have cell : (m, n) ∈ x.cells := List.mem_flatMap.2 ⟨m, hm, List.mem_map_of_mem hn⟩
  rw [← List.map_fst_zip (State.plainBlock_whole desc plain whole hx).length_eq.le] at cell
  obtain ⟨c, hc, eq⟩ := List.mem_map.1 cell
  refine ⟨_, List.mem_map_of_mem (List.mem_filter.2 ⟨List.mem_map_of_mem hc, ?_⟩), ?_⟩
  · simp [eq]
  · simp [eq]

end

/-! ### A drained row of a plain product (R48, R54, R72) -/

theorem Memory.writeBytes_append (m : List Host.Cell) (a : Nat) (xs ys : List Nat) :
    Memory.writeBytes m a (xs ++ ys) = Memory.writeBytes (Memory.writeBytes m a xs) (a + xs.length) ys := by
  induction xs generalizing m a with
  | nil => rfl
  | cons x xs ih =>
    rw [List.cons_append, Memory.writeBytes, ih, Memory.writeBytes, List.length_cons, Nat.add_assoc a 1, Nat.add_comm 1]

/-- A number reads as before where nothing was written. -/
theorem Memory.rd_writeBytes_other (m : List Host.Cell) {a b n : Nat} (bs : List Nat) (h : b + n ≤ a ∨ a + bs.length ≤ b) :
    Memory.rd (Memory.writeBytes m a bs) b n = Memory.rd m b n := by
  unfold Memory.rd
  rw [Memory.readBytes_congr fun x hx hx' => Memory.read_writeBytes_other m a bs (by omega)]

/-- Element codes that are stored one after another are read back, each cut to its bytes. -/
theorem Memory.rd_codesBytes (m : List Host.Cell) (f a : Nat) {cs : List Nat} {i : Nat} (hi : i < cs.length) :
    Memory.rd (Memory.writeBytes m a (codesBytes f cs)) (a + i * fmtBytes f) (fmtBytes f) = cs[i] % 256 ^ fmtBytes f := by
  induction cs generalizing m a i with
  | nil => cases hi
  | cons c cs ih =>
    rw [codesBytes, List.flatMap_cons, Memory.writeBytes_append, length_leBytes]
    cases i with
    | zero =>
      rw [Nat.zero_mul, Nat.add_zero, Memory.rd_writeBytes_other _ _ (.inl (Nat.le_refl _))]
      exact Memory.rd_writeBytes m a _ c
    | succ i =>
      rw [Nat.succ_mul, Nat.add_comm (i * _), ← Nat.add_assoc]
      exact ih _ _ (Nat.lt_of_succ_lt_succ hi)

/-- The FP32 codes of a row's values, rounded to nearest. -/
def rowCodes (g : Gate) (xs : List (Nat × Val)) : List Nat := xs.map fun y => (conv fFP32 .rne g.ovf g.ftz y.2).1

/-- The codes that leave an FP32 gate that rounds to nearest. -/
theorem State.gateAll_rne (s : State) {g : Gate} (fmt : g.fmt = fFP32) (rnd : g.rnd = 0) (cls tensor : Nat) (ix : Nat → Nat)
    (xs : List (Nat × Val)) : (s.gateAll cls g tensor (xs.map fun x => (ix x.1, x.2))).1 = rowCodes g xs := by
  simp [State.gateAll, State.gateOne, State.gateRnd, rowCodes, fmt, rnd]

theorem State.gateAll_mem (s : State) (cls : Nat) (g : Gate) (tensor : Nat) (xs : List (Nat × Val)) :
    (s.gateAll cls g tensor xs).2.mem = s.mem := by
  unfold State.gateAll State.noteSre State.ndUsed
  dsimp only
  split_ifs <;> rfl

/-- A store that fits the member's own region writes its bytes there. -/
theorem State.writeC_own {s : State} (hc : s.poison = []) {o : Op} (space : o.me.d.cSpace = 0) {off : Nat} {bs : List Nat}
    (fits : off + bs.length ≤ veneerSize) (unit : Nat) :
    (s.writeC o off unit bs).1.mem = Memory.writeBytes s.mem (veneerBase o.me.p + off) bs := by
  unfold State.writeC
  rw [space, s.spaceParts_own _ fits]
  dsimp only
  rw [State.wrC, State.noteWrite_clean hc, State.wrParts, List.take_length]
  rfl

/-- A row of a plain product goes to its place in C. -/
theorem State.drainRow_plain {t : State} (hc : t.poison = []) {p : Nat} {d : ArrDesc} {desc : Nat} (plain : d.IsPlain)
    {m start : Nat} {xs : List (Nat × Val)} (hm : m < d.m) (cols : xs.map (·.1) = List.range' start xs.length)
    (inside : start + xs.length ≤ d.n) :
    (t.drainRow (plainOp p d desc) 0 m xs).1.mem =
      Memory.writeBytes t.mem (veneerBase p + d.cOff + m * d.ldc + start * 4) (codesBytes fFP32 (rowCodes (gateOf d.gate) xs)) := by
  have mx : isMx (gateOf d.gate).fmt = false := by rw [plain.gateFmt]; rfl
  have bytes : fmtBytes (gateOf d.gate).fmt = 4 := by rw [plain.gateFmt]; rfl
  have row := Nat.mul_le_mul_right d.ldc hm
  rw [Nat.succ_mul] at row
  have wide := plain.ldc
  have fit := plain.cFits
  unfold State.drainRow
  extract_lets d' g base ix w r
  rw [show isMx g.fmt = false from mx]
  simp only [Bool.false_eq_true, if_false]
  cases xs with
  | nil => rfl
  | cons x xs =>
    obtain rfl : x.1 = start := by simpa [List.range'_succ] using (List.cons.inj cols).1
    have codes : r.1 = rowCodes g (x :: xs) := t.gateAll_rne plain.gateFmt plain.gateRnd _ _ _ _
    have length : (codesBytes g.fmt r.1).length = (xs.length + 1) * 4 := by
      rw [length_codesBytes, codes, show fmtBytes g.fmt = 4 from bytes, rowCodes, List.length_map, List.length_cons]
    have offset : base + m * d'.ldc + x.1 * fmtBytes g.fmt = d.cOff + m * d.ldc + x.1 * 4 := by
      rw [show fmtBytes g.fmt = 4 from bytes]
      simp [base, d', plainOp]
    rw [List.length_cons] at inside
    have written := State.writeC_own (s := r.2) (o := plainOp p d desc)
      ((ArrayWork.refl noByte hc).gateAll 0 g d'.tensor _).clean plain.cSpace
      (off := base + m * d'.ldc + x.1 * fmtBytes g.fmt) (bs := codesBytes g.fmt r.1) (by rw [length, offset]; omega)
      (fmtBytes g.fmt)
    refine written.trans ?_
    rw [offset, codes, show g.fmt = fFP32 from plain.gateFmt, ← Nat.add_assoc, ← Nat.add_assoc]
    rw [show r.2.mem = t.mem from t.gateAll_mem _ _ _ _]
    rfl

/-! ### C of a plain product (R72) -/

/-- Element (m, n) of C holds the whole number that the exact product has there. -/
def CellHolds (p : Nat) (d : ArrDesc) (a b : Nat → Nat → Int) (m n : Nat) (t : State) : Prop :=
  (t.valAt fFP32 (veneerBase p + d.cOff + m * d.ldc) n).isWhole (dotTo a b (m, n) d.k)

theorem CellHolds.of_mem {p : Nat} {d : ArrDesc} {a b : Nat → Nat → Int} {m n : Nat} {s t : State} (h : CellHolds p d a b m n s)
    (w : ArrayWork noByte s t) : CellHolds p d a b m n t := by
  have same : t.elemAt fFP32 (veneerBase p + d.cOff + m * d.ldc) n = s.elemAt fFP32 (veneerBase p + d.cOff + m * d.ldc) n :=
    congrArg leNat (w.rdBytes fun _ _ _ => id)
  unfold CellHolds State.valAt at h ⊢
  rwa [same]

/-- A row that leaves the gate of a plain product with elements of the exact product. -/
structure PlainRow (d : ArrDesc) (a b : Nat → Nat → Int) (x : OutRow) : Prop where
  item : x.1 = 0
  row : x.2.1 < d.m
  whole : ∀ y ∈ x.2.2, y.2.isWhole (dotTo a b (x.2.1, y.1) d.k)

section
variable {p : Nat} {d : ArrDesc} {desc : Nat} (plain : d.IsPlain) {x : OutRow}
  (fits : (plainOp p d desc).RowFits x)
include plain fits

theorem PlainRow.cols : ∃ start, x.2.2.map (·.1) = List.range' start x.2.2.length ∧ start + x.2.2.length ≤ d.n :=
  fits.cols (by rw [show (gateOf (plainOp p d desc).me.d.gate).fmt = fFP32 from plain.gateFmt]; rfl)

variable {a b : Nat → Nat → Int} (hx : PlainRow d a b x)
  (small : ∀ m n, m < d.m → n < d.n → (dotTo a b (m, n) d.k).natAbs < 2 ^ 24) {t : State} (hc : t.poison = [])
include hx small hc

/-- The row makes its cells. -/
theorem PlainRow.makes {n : Nat} (hn : ∃ y ∈ x.2.2, y.1 = n) :
    CellHolds p d a b x.2.1 n (t.drainRow (plainOp p d desc) x.1 x.2.1 x.2.2).1 := by
  obtain ⟨start, cols, inside⟩ := PlainRow.cols plain fits
  obtain ⟨item, m, xs⟩ := x
  obtain ⟨rfl, hm, whole⟩ := hx
  obtain ⟨y, hy, rfl⟩ := hn
  obtain ⟨i, hi, rfl⟩ := List.getElem_of_mem hy
  have hi : i < xs.length := hi
  dsimp only at *
  have column : xs[i].1 = start + i := by
    have := List.getElem_of_eq cols (i := i) (by simpa using hi)
    simpa using this
  obtain ⟨code, value, -⟩ := conv_whole (whole _ hy) (small m xs[i].1 hm (by omega)) (gateOf d.gate).ovf (gateOf d.gate).ftz
  have back := Memory.rd_codesBytes t.mem fFP32 (veneerBase p + d.cOff + m * d.ldc + start * 4)
    (cs := rowCodes (gateOf d.gate) xs) (i := i) (by simpa [rowCodes] using hi)
  have place : veneerBase p + d.cOff + m * d.ldc + start * 4 + i * fmtBytes fFP32 =
      veneerBase p + d.cOff + m * d.ldc + xs[i].1 * fmtBytes fFP32 := by
    rw [column, show fmtBytes fFP32 = 4 from rfl]
    omega
  rw [place, ← State.drainRow_plain hc plain hm cols inside] at back
  unfold CellHolds State.valAt State.elemAt State.rd
  rw [back]
  simpa [rowCodes, Nat.mod_eq_of_lt (show _ < 256 ^ fmtBytes fFP32 from code)] using value

/-- The row keeps the cells that it does not make. -/
theorem PlainRow.keeps {m n : Nat} (hm : m < d.m) (hn : n < d.n) (h : CellHolds p d a b m n t) :
    CellHolds p d a b m n (t.drainRow (plainOp p d desc) x.1 x.2.1 x.2.2).1 := by
  obtain ⟨start, cols, inside⟩ := PlainRow.cols plain fits
  by_cases mine : m = x.2.1 ∧ start ≤ n ∧ n < start + x.2.2.length
  · obtain ⟨rfl, low, high⟩ := mine
    have mem : n ∈ x.2.2.map (·.1) := by rw [cols]; exact List.mem_range'_1.2 ⟨low, high⟩
    exact PlainRow.makes plain fits hx small hc (List.mem_map.1 mem)
  · obtain ⟨item, r, xs⟩ := x
    obtain ⟨rfl, hr, -⟩ := hx
    dsimp only at *
    have wide := plain.ldc
    have length : (codesBytes fFP32 (rowCodes (gateOf d.gate) xs)).length = xs.length * 4 := by
      rw [length_codesBytes, rowCodes, List.length_map]
      rfl
    have apart : veneerBase p + d.cOff + m * d.ldc + n * 4 + 4 ≤ veneerBase p + d.cOff + r * d.ldc + start * 4 ∨
        veneerBase p + d.cOff + r * d.ldc + start * 4 + xs.length * 4 ≤ veneerBase p + d.cOff + m * d.ldc + n * 4 := by
      rcases Nat.lt_trichotomy m r with lt | rfl | gt
      · have := Nat.mul_le_mul_right d.ldc lt
        rw [Nat.succ_mul] at this
        omega
      · omega
      · have := Nat.mul_le_mul_right d.ldc gt
        rw [Nat.succ_mul] at this
        omega
    have same : Memory.rd (t.drainRow (plainOp p d desc) 0 r xs).1.mem (veneerBase p + d.cOff + m * d.ldc + n * 4) 4 =
        Memory.rd t.mem (veneerBase p + d.cOff + m * d.ldc + n * 4) 4 := by
      rw [State.drainRow_plain hc plain hr cols inside]
      exact Memory.rd_writeBytes_other _ _ (by rw [length]; exact apart)
    exact (congrArg (fun c => Val.isWhole (decode fFP32 c) (dotTo a b (m, n) d.k)) same).mpr h

end

theorem Op.drainRow_clean {o : Op} {x : OutRow} (fits : o.RowFits x) {t : State} (hc : t.poison = []) :
    (t.drainRow o x.1 x.2.1 x.2.2).1.poison = [] := ((ArrayWork.refl _ hc).drainRow fits).clean

theorem Op.drainAll_clean {o : Op} {l : List OutRow} (hl : ∀ x ∈ l, o.RowFits x) {r : State × Bool}
    (hc : r.1.poison = []) : (o.drainAll l r).1.poison = [] :=
  List.foldlRecOn (motive := fun r : State × Bool => r.1.poison = []) l o.drainStep hc fun _ hr x hx =>
    Op.drainRow_clean (hl x hx) hr

section
variable {p : Nat} {d : ArrDesc} {desc : Nat} (plain : d.IsPlain) {a b : Nat → Nat → Int}
  (small : ∀ m n, m < d.m → n < d.n → (dotTo a b (m, n) d.k).natAbs < 2 ^ 24) {l : List OutRow}
  (hl : ∀ x ∈ l, (plainOp p d desc).RowFits x ∧ PlainRow d a b x) {r : State × Bool} (hc : r.1.poison = [])
include plain small hl hc

/-- Rows of a plain product keep every cell that holds its number. -/
theorem Op.drainAll_keeps {m n : Nat} (hm : m < d.m) (hn : n < d.n) (h : CellHolds p d a b m n r.1) :
    CellHolds p d a b m n ((plainOp p d desc).drainAll l r).1 :=
  (List.foldlRecOn (motive := fun r : State × Bool => r.1.poison = [] ∧ CellHolds p d a b m n r.1) l (plainOp p d desc).drainStep
    ⟨hc, h⟩ fun _ hr x hx =>
      ⟨Op.drainRow_clean (hl x hx).1 hr.1, PlainRow.keeps plain (hl x hx).1 (hl x hx).2 small hr.1 hm hn hr.2⟩).2

/-- And make those of each row. -/
theorem Op.drainAll_makes {x : OutRow} (hx : x ∈ l) {n : Nat} (hn : n < d.n) (cell : ∃ y ∈ x.2.2, y.1 = n) :
    CellHolds p d a b x.2.1 n ((plainOp p d desc).drainAll l r).1 :=
  foldl_settles (f := (plainOp p d desc).drainStep) (I := fun r : State × Bool => r.1.poison = [])
    (P := fun r : State × Bool => CellHolds p d a b x.2.1 n r.1) hx
    (fun _ hr y hy => Op.drainRow_clean (hl y hy).1 hr)
    (fun _ hr => PlainRow.makes plain (hl x hx).1 (hl x hx).2 small hr cell)
    (fun _ hr h y hy => PlainRow.keeps plain (hl y hy).1 (hl y hy).2 small hr (hl x hx).2.row hn h) hc

end

section
variable {s : State} {p : Nat} {d : ArrDesc} {desc : Nat} (plain : d.IsPlain) {a b : Nat → Nat → Int}
  (whole : WholeOperands s (veneerBase p) d a b)
include plain

theorem ArrDesc.IsPlain.notMx : isMx (gateOf (plainOp p d desc).me.d.gate).fmt = false := by
  rw [show (gateOf (plainOp p d desc).me.d.gate).fmt = fFP32 from plain.gateFmt]
  rfl

include whole

/-- Every row that leaves the gate of a plain product holds elements of the exact product. -/
theorem State.drainRows_plain {x : OutRow}
    (hx : x ∈ s.drainRows (plainOp p d desc) (s.formBlocks (plainOp p d desc))) : PlainRow d a b x := by
  obtain ⟨bl, formed, m, hm, rfl⟩ := (State.mem_drainRows plain.notMx).1 hx
  obtain ⟨item, -, block, -⟩ := State.mem_formBlocks formed
  have item : bl.item < d.batch := item
  rw [plain.batch] at item
  exact ⟨Nat.lt_one_iff.1 item, (Op.mem_blocks block).2 m hm, fun y hy => State.rowOf_whole desc plain whole formed hy⟩

/-- Every element of C is in a row that leaves the gate. -/
theorem State.exists_drainRow {m n : Nat} (hm : m < d.m) (hn : n < d.n) :
    ∃ x ∈ s.drainRows (plainOp p d desc) (s.formBlocks (plainOp p d desc)), x.2.1 = m ∧ ∃ y ∈ x.2.2, y.1 = n := by
  obtain ⟨t, ht, col⟩ := Op.exists_tile (o := plainOp p d desc)
    (by rw [show (plainOp p d desc).me.d.shape = 0 from plain.shape]; decide) hn
  obtain ⟨r, hr, row⟩ := Op.exists_block (o := plainOp p d desc) plain.mBlk hm
  obtain ⟨bl, formed, -, cols, rows⟩ := s.exists_formBlocks (o := plainOp p d desc) (item := 0)
    (by rw [show (plainOp p d desc).me.d.batch = 1 from plain.batch]; decide) ht hr
  rw [← rows] at row
  rw [← cols] at col
  exact ⟨_, (State.mem_drainRows plain.notMx).2 ⟨bl, formed, m, row, rfl⟩, rfl, State.mem_rowOf desc plain whole formed row col⟩

/-- The elements of the exact product are below 2^24 in magnitude. -/
theorem WholeOperands.small {m n : Nat} (hm : m < d.m) (hn : n < d.n) : (dotTo a b (m, n) d.k).natAbs < 2 ^ 24 := by
  have bound := SmallOperands.dotTo_le (A := fun m k => s.valAt d.aFmt (veneerBase p + d.aOff + m * d.lda) k)
    (B := fun k n => s.valAt d.bFmt (veneerBase p + d.bOff + k * d.ldb) n) (c := (m, n))
    ⟨fun k hk => whole.left m k hm hk, fun k hk => whole.right k n hk hn⟩
  have := plain.k
  omega

/-- What a plain operation stores holds the exact product, cell by cell. -/
theorem State.opStored_plain {ahead : State → State} (ha : ∀ v, v.poison = [] → ArrayWork noByte v (ahead v)) {v : State}
    (hc : v.poison = []) {m n : Nat} (hm : m < d.m) (hn : n < d.n) :
    CellHolds p d a b m n (s.opStored (plainOp p d desc) (s.formBlocks (plainOp p d desc)) ahead v).1 := by
  obtain ⟨x, hx, rfl, cell⟩ := State.exists_drainRow (desc := desc) plain whole hm hn
  have small := fun m n hm hn => WholeOperands.small plain whole (m := m) (n := n) hm hn
  have good := fun y hy => And.intro (State.drainRows_fit (s := s) (o := plainOp p d desc) (fun _ h => h) (x := y) hy)
    (State.drainRows_plain (desc := desc) plain whole (x := y) hy)
  have stores : ¬((plainOp p d desc).me.d.accHold || !(plainOp p d desc).drains) = true := by
    simp [plainOp, Op.drains, plain.accHold, plain.shape]
  unfold State.opStored
  rw [if_neg stores]
  unfold lastRows
  dsimp only
  generalize s.drainRows (plainOp p d desc) (s.formBlocks (plainOp p d desc)) = rows at hx good
  generalize rows.length - _ = k
  have early := fun y hy => good y (List.mem_of_mem_take (i := k) hy)
  have late := fun y hy => good y (List.mem_of_mem_drop (i := k) hy)
  have clean : ((plainOp p d desc).drainAll (rows.take k) (v, false)).1.poison = [] :=
    Op.drainAll_clean (fun y hy => (early y hy).1) hc
  have ahead := ha _ clean
  rw [← List.take_append_drop k rows] at hx
  rcases List.mem_append.1 hx with hx | hx
  · have made := Op.drainAll_makes plain small early (r := (v, false)) hc hx hn cell
    exact Op.drainAll_keeps plain small late ahead.clean hm hn (made.of_mem ahead)
  · exact Op.drainAll_makes plain small late ahead.clean hx hn cell

end

/-- A plain product that has entered its engine leaves C with the exact product. -/
theorem State.startOp_plain {s : State} {i : Issue} {d : ArrDesc} (hp : i.idx < nPhys) (plain : d.IsPlain) {a b : Nat → Nat → Int}
    (whole : WholeOperands s (veneerBase i.idx) d a b) (hc : s.poison = []) (hr : s.running = true) {ahead : State → State}
    (ha : ∀ v, v.poison = [] → ArrayWork noByte v (ahead v)) {m n : Nat} (hm : m < d.m) (hn : n < d.n) :
    CellHolds i.idx d a b m n ((s.entered .cluster 1 i true).startOp (plainOp i.idx d i.desc) 1 i.tick i.startCc [] ahead) := by
  have same := s.opEntered_same (plainOp i.idx d i.desc) i 1
  have whole : WholeOperands (s.opEntered (plainOp i.idx d i.desc) i 1) (veneerBase i.idx) d a b := by
    constructor
    all_goals
      simp only [State.valAt, State.elemAt, State.rd, same.mem]
    · exact whole.left
    · exact whole.right
  have drains : (plainOp i.idx d i.desc).drains = true := by simp [plainOp, Op.drains, plain.shape]
  have fits : (plainOp i.idx d i.desc).Fits := ⟨hp, by simp [plainOp, Op.quad, plain.shape]⟩
  have clean := same.poison.trans hc
  have hb := fun x (h : x ∈ (s.opEntered (plainOp i.idx d i.desc) i 1).formBlocks (plainOp i.idx d i.desc)) => h
  obtain ⟨u, v, hu, hv, ht⟩ := State.runOp_stages fits clean hb ha (same.running.trans hr) (if_pos drains).symm
  exact (State.opStored_plain plain whole ha hv.clean hm hn).of_mem ht

/-- Settles O20: an operation's stages touch its accumulators, then what C takes, which lies below them; and whole products of
at most 4,096 terms of at most 256 pass the chunk register, the totals and the gate without rounding. -/
theorem arrayOperationsFormTheirTotals : Obligations.ArrayOperationsFormTheirTotals := by
  intro s i hc
  have preload (hp : i.idx < nPhys) (eng : Nat) (v : State) (hv : v.poison = []) : ArrayWork noByte v (v.preload i.idx i eng) :=
    (ArrayWork.refl _ hv).preload hp i eng
  refine ⟨fun d o hd ho ready => ?_, fun o ho ready => ?_, fun d v a b hd hv plain ready pre left right => ?_⟩
  · have hp : i.idx < nPhys := ready.1.1
    obtain ⟨occupied, done, job, xr, get⟩ := State.startOp_done (o := o) (by rw [ho]; exact s.opOf_fits hp _ _ _ _)
      (by rw [ho]; rfl) hc ready.1.2.2.1 (preload hp (arrEng d)) (eng := arrEng d) rfl
    exact ⟨_, ready.matmul hd ho, occupied, done, job, xr, fun g lo block nd => get g ⟨lo, block, nd⟩⟩
  · have hp : i.idx < nPhys := ready.1.1
    obtain ⟨occupied, done, job, xr, get⟩ := State.startOp_done (o := o) (by rw [ho]; exact s.peerOp_fits hp _ _ _ _)
      (by rw [ho]; rfl) hc ready.1.2.2.1 (ahead := id) (fun v hv => .refl _ hv) (eng := 1) rfl
    exact ⟨_, ready.scarfPeer ho, occupied, done, job, xr, fun g lo block nd => get g ⟨lo, block, nd⟩⟩
  · have hp : i.idx < nPhys := ready.1.1
    have shape : arrEng d = 1 := by rw [arrEng, plain.isPlain.shape]; rfl
    have issued := ArrReady.matmul hd rfl (shape.symm ▸ ready)
    rw [shape, State.opOf_plain hd plain.isPlain pre] at issued
    subst hv
    have holds (m n : Nat) (hm : m < d.m) (hn : n < d.n) := State.startOp_plain (i := i) hp plain.isPlain ⟨left, right⟩ hc
      ready.1.2.2.1 (preload hp 1) hm hn
    exact ⟨_, issued, holds⟩

end Sys2Proof.Machine

/-! SUPPORT. Debug reads and root record writes (O13): a record that is written is read back, and a write that is refused
is logged. -/

namespace Sys2Proof.Machine
open Reg

/-! ### Root records (R161) -/

theorem ofBool_bit (v i : Nat) : ofBool (bit v i) = bits v i i := by
  rcases Nat.mod_two_eq_zero_or_one (v / 2 ^ i) with h | h <;> simp [ofBool, bit, bits, h]

/-- The fields of bits 6:0 of a record: CUR, SET, RUN and OUTCOME. -/
theorem bits_record (v : Nat) : bits v 0 0 + bits v 2 1 * 2 + ofBool (bit v 3) * 8 + bits v 6 4 * 16 = bits v 6 0 := by
  rw [ofBool_bit]
  simp only [bits, Nat.reduceAdd, Nat.reduceSub, Nat.reducePow, Nat.div_one]
  omega

section
variable (s : State)

@[simp] theorem State.rootRec_setRootRec_same (d : Nat) (r : RootRec) : (s.setRootRec d r).rootRec d = r := by
  simp [State.rootRec, State.setRootRec, Store.get]

/-- AGE counts from the write: no commit has come since. -/
theorem State.rootAge_written {r : RootRec} (now : r.since = s.root.commits) (small : r.age < 2 ^ 16) : s.rootAge r = r.age := by
  rw [State.rootAge, now, Nat.sub_self]
  omega

/-- A word of a record that is written reads back, its reserved bits 0. -/
theorem State.rootRecWord_setRecWord (d w v : Nat) : (s.setRecWord d w v).rootRecWord d w =
    if w = 0 then bits v 6 0 + bits v 23 8 * 256 + bits v 63 32 * 2 ^ 32 else bits v 31 0 := by
  unfold State.setRecWord State.rootRecWord
  split
  · dsimp only
    rw [State.rootRec_setRootRec_same, State.rootAge_written _ rfl (Nat.mod_lt _ (by decide)), bits_record]
  · dsimp only
    rw [State.rootRec_setRootRec_same]

/-- A write of a record reaches the root engine's state alone. -/
theorem State.setRecWord_only (d w v : Nat) : { s.setRecWord d w v with root := s.root } = s := by
  unfold State.setRecWord
  split <;> rfl

theorem State.corrected_root (a b c : Nat) : (s.corrected a b c).root = s.root := by
  obtain ⟨e, n, class0, raised⟩ := s.corrected_eq a b c
  rw [raised, State.raise_corrected _ e class0]
  split
  · exact (congrArg State.root ((Reports.refl _).log e false false false).rest :)
  · rfl

end

/-- A write of ROOT_REC_DATA is a write of the selected record's word in IDLE and LOADED, and is logged otherwise. -/
theorem execRootRecWrite_eq {s : State} (v : Nat) (h : s.accepts = true) : exec (.rootRecWrite v) s =
    .next (if s.job = 0 ∨ s.job = 1 then (s.setRecWord (s.get ROOT_REC_INDEX.DESC) (s.get ROOT_REC_INDEX.WORD) v).okay
      else (s.corrected scSeq 1 srcROOT).okay) :=
  congrArg Host.Outcome.next (s.write_accepts _ h)

/-! ### Debug reads of the totals (R118) -/

theorem execAccDebugRead_eq (s : State) {p : Nat} (h : p < nPhys) : exec (.accDebugRead p) s = .next (s.accDebug p) :=
  State.forUnit_eq_next _ h

/-- Settles O13: a debug read by its two cases, and a record's write by the job state. -/
theorem debugReadAndRootRecordWrite : Obligations.DebugReadAndRootRecordWrite := by
  intro s
  refine ⟨fun p hp => ⟨fun enabled halted => ?_, fun refused => ?_⟩, fun v ha => ⟨fun opened => ?_, fun closed => ?_⟩⟩
  · rw [execAccDebugRead_eq s hp, State.accDebug, if_pos ⟨enabled, halted⟩]
  · have off : ¬(s.is (ACC_DEBUG.ENABLE p) = true ∧ s.job = 3) := by
      rintro ⟨enabled, halted⟩
      simp [enabled, halted] at refused
    rw [execAccDebugRead_eq s hp, State.accDebug, if_neg off]
  · refine ⟨_, (execRootRecWrite_eq v ha).trans (congrArg _ (if_pos opened)), rfl, s.rootRecWord_setRecWord _ _ v, ?_⟩
    exact congrArg (fun t : State => { t with resp := s.resp }) (s.setRecWord_only _ _ v)
  · have late : ¬(s.job = 0 ∨ s.job = 1) := by omega
    exact ⟨_, (execRootRecWrite_eq v ha).trans (congrArg _ (if_neg late)), s.corrected_root _ _ _, s.corrected_mem _ _ _⟩

end Sys2Proof.Machine

/-! SUPPORT. Finisher and tap entries (O22): what the work of an entry that is not an array operation changes; the frame of a
chain, by its stages; the table image and its directory; and the places of a capture. -/

namespace Sys2Proof.Machine
open Reg

/-! ### What the work of an entry changes -/

/-- The working map and the row registers: no error that an entry meets reaches them. -/
def State.mapAndRows (s : State) : Nat × List (Nat × Nat) := (s.active, s.xr)

/-- `t` is `s` after work that met no uncorrectable word: it wrote at most the bytes of `K` and the fields of `l`, and the
engines are occupied as they were. -/
structure Quiet (K : Nat → Prop) (l : List Fld) (s t : State) : Prop where
  clean : t.poison = []
  busy : t.tick.busy = s.tick.busy
  get : ∀ g : Fld, g.key ∉ l.map Fld.key → t.get g = s.get g
  mem : ∀ x, ¬K x → Memory.read t.mem x = Memory.read s.mem x

/-- `t` is `s` after work of an entry: the map and the row registers stay, and where no word is uncorrectable at most the
bytes of `K` and the fields of `l` change. -/
structure EntryWork (K : Nat → Prop) (l : List Fld) (s t : State) : Prop where
  kept : t.mapAndRows = s.mapAndRows
  quiet : s.poison = [] → Quiet K l s t

theorem EntryWork.refl (K : Nat → Prop) (l : List Fld) (s : State) : EntryWork K l s s :=
  ⟨rfl, fun clean => ⟨clean, rfl, fun _ _ => rfl, fun _ _ => rfl⟩⟩

theorem EntryWork.ite {K : Nat → Prop} {l : List Fld} {s u v : State} {c : Prop} [Decidable c] (hu : EntryWork K l s u)
    (hv : EntryWork K l s v) : EntryWork K l s (if c then u else v) := by
  split
  · exact hu
  · exact hv

/-- With no uncorrectable word, a read meets none. -/
theorem State.readPoison_clean {s : State} (h : s.poison = []) (rs : List (Nat × Nat)) (vsrc msrc : Nat) :
    s.readPoison rs vsrc msrc = s := by
  have none : rs.flatMap (fun r => s.poisonIn r.1 r.2) = [] := by simp [State.poisonIn, h]
  rw [State.readPoison, none, List.foldl_nil]

theorem State.ite_kept {s u v : State} {c : Prop} [Decidable c] (hu : u.mapAndRows = s.mapAndRows) (hv : v.mapAndRows = s.mapAndRows) :
    (if c then u else v).mapAndRows = s.mapAndRows := by
  split
  · exact hu
  · exact hv

theorem State.memRecord_kept (s : State) (a typ vsrc msrc : Nat) : (s.memRecord a typ vsrc msrc).mapAndRows = s.mapAndRows := by
  have recorded (l : List (Fld × Nat)) : (s.setAll l).mapAndRows = s.mapAndRows := by simp [State.mapAndRows]
  exact State.ite_kept (State.ite_kept rfl (recorded _)) (State.ite_kept rfl (recorded _))

theorem State.poisonWord_kept (s : State) (a : Nat) : (s.poisonWord a).mapAndRows = s.mapAndRows := by
  unfold State.poisonWord
  dsimp only
  split <;> rfl

theorem State.memUncorrectable_kept (s : State) (a vsrc msrc : Nat) :
    (s.memUncorrectable a vsrc msrc).mapAndRows = s.mapAndRows := by
  unfold State.memUncorrectable State.memUncorrectableAs
  extract_lets was typ s1 s2 again s3
  have counted : s2.mapAndRows = s.mapAndRows := by
    unfold s2
    split <;> exact s.poisonWord_kept a
  have raised := ((Upset.refl errorFields (s3.memRecord a typ vsrc msrc)).raise
    (e := memErr (if again = true then 2 else 1) a typ) (by unfold memErr; split <;> dsimp only <;> split <;> omega)).rest
  calc _ = (s3.memRecord a typ vsrc msrc).mapAndRows := (congrArg State.mapAndRows raised :)
    _ = s3.mapAndRows := s3.memRecord_kept _ _ _ _
    _ = s.mapAndRows := counted

theorem State.readPoison_kept (s : State) (rs : List (Nat × Nat)) (vsrc msrc : Nat) :
    (s.readPoison rs vsrc msrc).mapAndRows = s.mapAndRows :=
  List.foldlRecOn (motive := fun t : State => t.mapAndRows = s.mapAndRows) _ _ rfl fun t ht w _ =>
    (t.memUncorrectable_kept w vsrc msrc).trans ht

theorem State.noteWrite_kept (s : State) (rs : List (Nat × Nat)) (vsrc : Nat) :
    (s.noteWrite id rs vsrc).mapAndRows = s.mapAndRows :=
  List.foldlRecOn (motive := fun t : State => t.mapAndRows = s.mapAndRows) _ _ rfl fun t ht w _ =>
    (t.memUncorrectable_kept w vsrc 4).trans ht

section
variable {K : Nat → Prop} {l : List Fld} {s t : State} (h : EntryWork K l s t)
include h

theorem EntryWork.active : t.active = s.active := (congrArg Prod.fst h.kept :)
theorem EntryWork.xr : t.xr = s.xr := (congrArg Prod.snd h.kept :)

/-- A state with the same registers, memory, clusters and engines is reached by the same work. -/
theorem EntryWork.congr {u : State} (hk : u.mapAndRows = t.mapAndRows := by rfl) (hp : u.poison = t.poison := by rfl)
    (hb : u.tick.busy = t.tick.busy := by rfl) (hf : u.flds = t.flds := by rfl) (hm : u.mem = t.mem := by rfl) :
    EntryWork K l s u :=
  ⟨hk.trans h.kept, fun clean =>
    have q := h.quiet clean
    ⟨hp.trans q.clean, hb.trans q.busy, fun g hg => (congrArg (fun x => Store.get x g.reset g.key) hf).trans (q.get g hg),
      fun x hx => (congrArg (Memory.read · x) hm).trans (q.mem x hx)⟩⟩

theorem EntryWork.set {f : Fld} (hf : f ∈ l) (v : Nat) : EntryWork K l s (t.set f v) :=
  ⟨h.kept, fun clean =>
    { h.quiet clean with
      get := fun g hg => (State.get_set_other t v fun e => hg (by rw [e]; exact List.mem_map_of_mem hf)).trans
        ((h.quiet clean).get g hg) }⟩

theorem EntryWork.inc {f : Fld} (hf : f ∈ l) (n : Nat) : EntryWork K l s (t.inc f n) := h.set hf _

theorem EntryWork.wrBytes {a : Nat} {bs : List Nat} (hK : ∀ x, a ≤ x → x < a + bs.length → K x) :
    EntryWork K l s (t.wrBytes a bs) :=
  ⟨h.kept, fun clean =>
    { h.quiet clean with
      clean := by rw [State.wrBytes, (h.quiet clean).clean]; rfl
      mem := fun x hx => (Memory.read_writeBytes_other t.mem a bs (by
        by_contra inside
        exact hx (hK x (by omega) (by omega)))).trans ((h.quiet clean).mem x hx) }⟩

/-- Reads of uncorrectable words raise errors; where there are none nothing changes. -/
theorem EntryWork.readPoison (rs : List (Nat × Nat)) (vsrc msrc : Nat) : EntryWork K l s (t.readPoison rs vsrc msrc) :=
  ⟨(t.readPoison_kept rs vsrc msrc).trans h.kept, fun clean => by
    rw [State.readPoison_clean (h.quiet clean).clean]
    exact h.quiet clean⟩

/-- So do writes of a part of such a word. -/
theorem EntryWork.noteWrite (rs : List (Nat × Nat)) (vsrc : Nat) : EntryWork K l s (t.noteWrite id rs vsrc) :=
  ⟨(t.noteWrite_kept rs vsrc).trans h.kept, fun clean => by
    rw [State.noteWrite_clean (h.quiet clean).clean]
    exact h.quiet clean⟩

theorem EntryWork.draw : EntryWork K l s t.draw.2 := h.congr

theorem EntryWork.fatalAtGlue (scope index source code : Nat) : EntryWork K l s (t.fatalAtGlue scope index source code) := h.congr

theorem EntryWork.countGate (cls fmt : Nat) (os : List Outcome5) : EntryWork K l s (t.countGate cls fmt os) := h.congr

theorem EntryWork.foldl {α : Type} {f : State → α → State} (as : List α)
    (hf : ∀ u, EntryWork K l s u → ∀ a ∈ as, EntryWork K l s (f u a)) : EntryWork K l s (as.foldl f t) :=
  List.foldlRecOn (motive := EntryWork K l s) as f h hf

end

/-! ### The fields and the places of a chain (R122, R125, R135, R316) -/

/-- The fields that a chain of cluster `p` changes while it runs. -/
def finisherFields (p : Nat) : List Fld :=
  [FIN_FLAGS.NAN_IN p, FIN_FLAGS.NAN_MADE p, FIN_FLAGS.OVF_ARITH p, FIN_FLAGS.DIV_ZERO p, FIN_FLAGS.ISAT p, FIN_FLAGS.EMPTY p,
    FIN_FLAGS.OOB p, FIN_FLAGS.TBL_INVALID p, FIN_FLAGS.TBL_REJECT p, FIN_EMPTY_REDUCE.COUNT p, FIN_SCATTER.ORDERED_GROUPS p,
    FIN_SCATTER.SERIALISED p, DET_ND_USED.SCATTER_U, DET_ND_USED.SRE, DET_ND_USED.FIRST_STEP]

theorem finFlag_mem_finisherFields (p b : Nat) : finFlag p b ∈ finisherFields p := by
  unfold finFlag
  split <;> simp [finisherFields]

/-- The finisher's BUSY and the job state are none of them. -/
theorem status_notMem_finisherFields (p : Nat) : (FIN_STATUS.BUSY p).key ∉ (finisherFields p).map Fld.key ∧
    TICK_STATUS.STATE.key ∉ (finisherFields p).map Fld.key := by
  simp only [finisherFields, List.map_cons, List.map_nil, List.mem_cons, List.not_mem_nil, or_false, not_or, Fld.key,
    FIN_FLAGS.NAN_IN, FIN_FLAGS.NAN_MADE, FIN_FLAGS.OVF_ARITH, FIN_FLAGS.DIV_ZERO, FIN_FLAGS.ISAT, FIN_FLAGS.EMPTY, FIN_FLAGS.OOB,
    FIN_FLAGS.TBL_INVALID, FIN_FLAGS.TBL_REJECT, FIN_EMPTY_REDUCE.COUNT, FIN_SCATTER.ORDERED_GROUPS, FIN_SCATTER.SERIALISED,
    DET_ND_USED.SCATTER_U, DET_ND_USED.SRE, DET_ND_USED.FIRST_STEP, FIN_STATUS.BUSY, TICK_STATUS.STATE, finBase, detBase, tickBase]
  omega

/-- Every byte of a list of ranges is one of `K`. -/
def RangesIn (K : Nat → Prop) (rs : List (Nat × Nat)) : Prop := ∀ r ∈ rs, ∀ x, r.1 ≤ x → x < r.1 + r.2 → K x

/-- The space of a stream lies in `K`. -/
def Stream.In (st : Stream) (K : Nat → Prop) (s : State) (p : Nat) : Prop := ∀ off x, s.spaceAddr p st.space off 1 = some x → K x

/-- The bytes of a destination lie in `K`. -/
structure Dest.In (d : Dest) (K : Nat → Prop) : Prop where
  place : RangesIn K d.place
  scale : ∀ a, d.scale = some a → RangesIn K [(a, 1)]

section
variable {K : Nat → Prop} {s t : State} {p : Nat} {st : Stream} (hst : st.In K s p) (ha : t.active = s.active)
include hst ha

theorem Stream.In.spaceAddr {off a : Nat} (h : t.spaceAddr p st.space off 1 = some a) : RangesIn K [(a, 1)] := by
  intro r hr x hx hx'
  obtain rfl := List.mem_singleton.1 hr
  obtain rfl : a = x := by omega
  exact hst off a ((State.spaceAddr_of_active ha _ _ _ _).symm.trans h)

theorem Stream.In.spaceInt {off : Int} {n : Nat} {rs : List (Nat × Nat)} (h : t.spaceInt p st.space off n = some rs) :
    RangesIn K rs := by
  intro r hr x hx hx'
  unfold State.spaceInt at h
  split at h
  · cases h
  · obtain ⟨k, -, addr⟩ := State.spaceParts_byte h hr hx hx'
    exact hst _ x ((State.spaceAddr_of_active ha _ _ _ _).symm.trans addr)

theorem Stream.In.bitParts {c : FinCtx} (hp : c.p = p) {w : Nat} {b : Int} {rs : List (Nat × Nat)}
    (h : t.bitParts c st w b = some rs) : RangesIn K rs := by
  subst hp
  exact hst.spaceInt ha h

/-- A store's destinations lie in the space of its stream. -/
theorem Stream.In.destOf {c : FinCtx} (hp : c.p = p) {o i : Nat} {idx : Option Int} {d : Dest}
    (h : t.destOf c st o i idx = some d) : d.In K := by
  subst hp
  unfold State.destOf at h
  dsimp only at h
  split at h
  · obtain ⟨rs, parts, rfl⟩ := Option.map_eq_some_iff.1 h
    exact ⟨hst.bitParts ha rfl parts, by simp⟩
  · split at h
    · split at h
      next parts scale =>
        cases h
        exact ⟨hst.bitParts ha rfl parts, fun _ e => Option.some.inj e ▸ hst.spaceAddr ha scale⟩
      · cases h
    · obtain ⟨rs, parts, rfl⟩ := Option.map_eq_some_iff.1 h
      exact ⟨hst.spaceInt ha parts, by simp⟩

end

/-- Combining lanes that share a destination adds no destination. -/
theorem combineLanes_dest {f : Nat} {ys : List (Option Dest × Nat × Val)} {z : Dest × Nat × Res} (h : z ∈ combineLanes f ys) :
    ∃ y ∈ ys, y.1 = some z.1 := by
  fun_induction combineLanes f ys with
  | case1 => cases h
  | case2 _ l ih =>
    obtain ⟨y, hy, eq⟩ := ih h
    exact ⟨y, List.mem_cons_of_mem _ hy, eq⟩
  | case3 d i v l same sum ih =>
    rcases List.mem_cons.1 h with rfl | h
    · exact ⟨_, List.mem_cons_self, rfl⟩
    · obtain ⟨y, hy, eq⟩ := ih (List.mem_of_mem_filter h)
      exact ⟨y, List.mem_cons_of_mem _ hy, eq⟩

section
variable {K : Nat → Prop} {p : Nat} {s t : State} (h : EntryWork K (finisherFields p) s t)
include h

theorem EntryWork.ndUsed {f : Fld} (hf : f ∈ finisherFields p) : EntryWork K (finisherFields p) s (t.ndUsed f) := by
  unfold State.ndUsed
  dsimp only
  exact EntryWork.set (.ite (h.set (by simp [finisherFields]) _) h) hf _

theorem EntryWork.noteSre (g : Gate) (n : Nat) : EntryWork K (finisherFields p) s (t.noteSre g n) :=
  .ite (h.ndUsed (by simp [finisherFields])) h

theorem EntryWork.gateAll (cls : Nat) (g : Gate) (tensor : Nat) (xs : List (Nat × Val)) :
    EntryWork K (finisherFields p) s (t.gateAll cls g tensor xs).2 :=
  (h.countGate _ _ _).noteSre _ _

end

/-! ### A chain in progress (R122 to R136) -/

/-- A chain in progress in cluster `p`, begun in `s`, has written to `K` alone. -/
def FinRun.Works (K : Nat → Prop) (p : Nat) (s : State) (r : FinRun) : Prop := EntryWork K (finisherFields p) s r.s

theorem FinRun.Works.ite {K : Nat → Prop} {p : Nat} {s : State} {c : Prop} [Decidable c] {a b : FinRun} (ha : a.Works K p s)
    (hb : b.Works K p s) : (if c then a else b).Works K p s := by
  split
  · exact ha
  · exact hb

section
variable {K : Nat → Prop} {s : State} {c : FinCtx} {r : FinRun} (h : r.Works K c.p s)
include h

theorem FinRun.Works.state : EntryWork K (finisherFields c.p) s r.s := h

theorem FinRun.Works.foldl {α : Type} {f : FinRun → α → FinRun} (as : List α)
    (hf : ∀ r, r.Works K c.p s → ∀ a ∈ as, (f r a).Works K c.p s) : (as.foldl f r).Works K c.p s :=
  List.foldlRecOn (motive := FinRun.Works K c.p s) as f h hf

theorem FinRun.Works.put {rs : List (Nat × Nat)} (hrs : RangesIn K rs) (n : Nat) (bs : List Nat) :
    (FinRun.put n rs bs r).Works K c.p s := by
  induction rs generalizing r bs with
  | nil => exact h
  | cons x rs ih =>
    refine ih (r := { r with s := _, pend := _ }) (h.state.wrBytes fun y hy hy' => hrs x List.mem_cons_self y hy ?_)
      (fun q hq => hrs q (List.mem_cons_of_mem _ hq)) _
    rw [List.length_take] at hy'
    omega

theorem FinRun.Works.putDest {d : Dest} (hd : RangesIn K d.place) (n w code : Nat) : (r.putDest n w d code).Works K c.p s :=
  h.put hd _ _

theorem FinRun.Works.loadSlot (o g lanes k : Nat) (st : Stream) : (r.loadSlot c o g lanes k st).Works K c.p s :=
  h.state.readPoison _ _ _

theorem FinRun.Works.loadReady (o g lanes : Nat) : (r.loadReady c o g lanes).Works K c.p s :=
  h.foldl _ fun _ hr _ _ => .ite hr (hr.loadSlot _ _ _ _ _)

theorem FinRun.Works.loadRing (lanes k : Nat) : (r.loadRing lanes k).Works K c.p s := by
  unfold FinRun.loadRing
  extract_lets x
  have drawn : EntryWork K (finisherFields c.p) s x.2 :=
    List.foldlRecOn (motive := fun x : List Val × State => EntryWork K (finisherFields c.p) s x.2) _ _ h.state
      fun _ hx _ _ => hx.draw
  exact .ite h drawn

theorem FinRun.Works.loadAll (o g lanes : Nat) : (r.loadAll c o g lanes).Works K c.p s :=
  have begun : FinRun.Works K c.p s { r with loads := [] } := h
  (begun.foldl _ fun _ hr _ _ => hr.loadReady o g lanes).foldl _ fun _ hr _ _ => hr.loadRing lanes _

theorem FinRun.Works.loadIndex (o n : Nat) (st : Stream) : (FinRun.loadIndex c o n r st).Works K c.p s := by
  induction n generalizing st with
  | zero => exact h
  | succ n ih =>
    refine .ite ?_ h
    split
    · exact (ih _).loadSlot _ _ _ _ _
    · exact h

/-- One scatter-add writes its destination. -/
theorem FinRun.Works.addOne {d : Dest} (hd : d.In K) (st : Stream) (n o i : Nat) (v : Val) :
    (r.addOne c st n o i d v).Works K c.p s := by
  unfold FinRun.addOne
  extract_lets g s1 sum
  have met : EntryWork K (finisherFields c.p) s s1 := h.state.readPoison _ _ _
  have put {u : State} (hu : EntryWork K (finisherFields c.p) s u) (w code : Nat) :
      (FinRun.putDest n w d code { r with s := u }).Works K c.p s :=
    FinRun.Works.putDest (r := { r with s := u }) hu hd.place n w code
  split
  · exact .ite (put met _ _) (put met.draw _ _)
  · split
    next sa scale => exact (put ((met.draw.countGate _ _ _).noteSre _ _) _ _).put (hd.scale sa scale) _ _
    next => exact put (met.gateAll _ _ _ _) _ _

section
variable {st : Stream} (hst : st.In K s c.p)
include hst

theorem FinRun.Works.putBits (n w : Nat) (b : Int) (code : Nat) : (r.putBits c st n w b code).Works K c.p s := by
  unfold FinRun.putBits
  split
  next rs parts => exact h.putDest (hst.bitParts h.state.active rfl parts) _ _ _
  next => exact h

theorem FinRun.Works.storePlain (n o : Nat) (xs : List (Nat × Nat × Val)) : (r.storePlain c st n o xs).Works K c.p s := by
  refine FinRun.Works.foldl (r := { r with s := _ }) ((h.state.gateAll _ _ _ _).noteWrite _ _) _ fun r hr x _ => ?_
  split
  next rs parts => exact hr.put (hst.spaceInt hr.state.active parts) _ _
  next => exact hr

theorem FinRun.Works.scatterAddrs_in {o : Nat} {xs : List (Nat × Nat × Val)} {y : Option Dest × Nat × Val}
    (hy : y ∈ r.scatterAddrs c st o xs) {d : Dest} (hd : y.1 = some d) : d.In K := by
  obtain ⟨x, -, rfl⟩ := List.mem_map.1 hy
  exact hst.destOf h.state.active rfl hd

theorem FinRun.Works.addOrdered (n o : Nat) (xs : List (Nat × Nat × Val)) : (r.addOrdered c st n o xs).Works K c.p s := by
  have counted : EntryWork K (finisherFields c.p) s (r.s.inc (FIN_SCATTER.ORDERED_GROUPS c.p)) :=
    h.state.inc (by simp [finisherFields]) _
  refine FinRun.Works.foldl (r := { r with s := _, passOver := _ }) counted _ fun r' hr y hy => ?_
  split
  next d hd => exact hr.addOne (h.scatterAddrs_in hst hy hd) _ _ _ _ _
  next => exact hr

theorem FinRun.Works.addUnordered (n o : Nat) (xs : List (Nat × Nat × Val)) : (r.addUnordered c st n o xs).Works K c.p s := by
  have used : EntryWork K (finisherFields c.p) s (r.s.ndUsed DET_ND_USED.SCATTER_U) := h.state.ndUsed (by simp [finisherFields])
  refine FinRun.Works.foldl (r := { r with s := _, oob := _, flags := _ }) used _ fun r' hr z hz => ?_
  obtain ⟨y, hy, eq⟩ := combineLanes_dest hz
  have dest := h.scatterAddrs_in hst hy eq
  extract_lets old ups r1 r2
  have added : r1.Works K c.p s := hr.addOne dest _ _ _ _ _
  have settled : r2.Works K c.p s := by
    unfold r2
    refine .ite added ?_
    split
    · exact added.putDest dest.place _ _ _
    · exact FinRun.Works.putDest (r := { r1 with s := _ }) added.state.draw dest.place _ _ _
  exact settled

theorem FinRun.Works.storeMask (n o : Nat) (xs : List (Nat × Nat × Val)) : (r.storeMask c st n o xs).Works K c.p s :=
  FinRun.Works.foldl (r := { r with s := _ }) (h.state.noteWrite _ 2) _ fun _ hr _ _ => hr.putBits hst _ _ _ _

theorem FinRun.Works.scatterBlock (n w scale : Nat) (xs : List (Option Int × Nat)) :
    (r.scatterBlock c st n w scale xs).Works K c.p s := by
  refine h.foldl _ fun r hr x _ => ?_
  dsimp only
  split
  next rs sa parts scale =>
    exact (FinRun.Works.putBits (r := { r with s := _ }) (hr.state.noteWrite _ 2) hst _ _ _ _).put
      (hst.spaceAddr hr.state.active scale) _ _
  next => exact hr

theorem FinRun.Works.storeBlock (n o blk n1 : Nat) (xs : List (Nat × Option Int × Val)) :
    (r.storeBlock c st n o blk n1 xs).Works K c.p s := by
  unfold FinRun.storeBlock
  extract_lets g w b r1
  have gated : r1.Works K c.p s := (h.state.countGate _ _ _).noteSre _ _
  refine .ite h (.ite (gated.scatterBlock hst _ _ _ _) ?_)
  split
  next rs sa parts scale =>
    exact (FinRun.Works.put (r := { r1 with s := _ }) (gated.state.noteWrite _ 2) (hst.spaceInt gated.state.active parts) _ _).put
      (hst.spaceAddr gated.state.active scale) _ _
  next => exact gated

theorem FinRun.Works.storeMx (k n o g lanes : Nat) (xs : List (Nat × Nat × Val)) : (r.storeMx c st k n o g lanes xs).Works K c.p s :=
  FinRun.Works.foldl h _ fun _ hr _ _ => hr.storeBlock hst _ _ _ _ _

theorem FinRun.Works.storeAs (n o : Nat) (xs : List (Nat × Nat × Val)) : (r.storeAs c st n o xs).Works K c.p s := by
  unfold FinRun.storeAs
  split
  · exact h.storePlain hst _ _ _
  · exact .ite (h.addOrdered hst _ _ _) (h.addUnordered hst _ _ _)
  · exact h.addOrdered hst _ _ _

end

section
variable (hc : ∀ e ∈ c.st, e.2.In K s c.p)
include hc

omit h in
theorem FinCtx.slot_in {k : Nat} {st : Stream} (hk : c.slot k = some st) : st.In K s c.p := by
  obtain ⟨e, he, rfl⟩ := Option.map_eq_some_iff.1 hk
  exact hc e (List.mem_of_find?_eq_some he)

theorem FinRun.Works.store (k o g lanes : Nat) (xs : List (Nat × Nat × Val)) : (r.store c k o g lanes xs).Works K c.p s := by
  unfold FinRun.store
  split
  next => exact h
  next st slot =>
    have hst := FinCtx.slot_in hc slot
    exact .ite (h.storeAs hst _ _ _) (.ite (h.storeMask hst _ _ _) (.ite (h.storeMx hst _ _ _ _ _ _) (h.storeAs hst _ _ _)))

theorem FinRun.Works.reduce (k : Nat) (x : FinInstr) (o g lanes : Nat) : (r.reduce c k x o g lanes).Works K c.p s := by
  unfold FinRun.reduce
  extract_lets js row rest op y r1 r2
  have flagged : r1.Works K c.p s := h
  have counted : r2.Works K c.p s := .ite (flagged.state.inc (by simp [finisherFields]) 1) flagged
  refine .ite h ?_
  split
  next => exact counted
  next st slot =>
    have hst := FinCtx.slot_in hc slot
    have indexed := counted.loadIndex o 8 st
    exact .ite (indexed.storeBlock hst _ _ _ _ _)
      (FinRun.Works.storeAs (c := { c with d := { c.d with nInner := 1 } }) indexed hst _ _ _)

theorem FinRun.Works.instr (k : Nat) (x : FinInstr) (o g lanes : Nat) : (r.instr c k x o g lanes).Works K c.p s := by
  unfold FinRun.instr
  extract_lets js res on vs r1
  have flagged : r1.Works K c.p s := h
  exact .ite (h.reduce hc _ _ _ _ _) (.ite flagged (.ite flagged (.ite (flagged.store hc _ _ _ _ _) flagged)))

theorem FinRun.Works.group (prog : List FinInstr) (o g : Nat) : (r.group c prog o g).Works K c.p s :=
  have settled : (r.settle (c.groupNo o g)).Works K c.p s := h
  (settled.loadAll _ _ _).foldl _ fun _ hr _ _ => hr.instr hc _ _ _ _ _

end

/-- What a chain leaves: its flags, and BUSY after them where a group needed too many passes. -/
theorem FinRun.Works.finish (entry : Nat) : ∃ u, EntryWork K (finisherFields c.p) s u ∧
    (r.finish c entry = u ∨ r.finish c entry = (u.set (FIN_STATUS.PASS_OVER c.p) 1).schedFault 2 fBUSY .cluster c.p entry) := by
  unfold FinRun.finish
  extract_lets s1 s2 s3
  have flags : EntryWork K (finisherFields c.p) s s1 := h.state.foldl _ fun u hu b _ => hu.set (finFlag_mem_finisherFields _ b) _
  have oob : EntryWork K (finisherFields c.p) s s2 := .ite ((flags.set (by simp [finisherFields]) _).fatalAtGlue _ _ _ _) flags
  have invalid : EntryWork K (finisherFields c.p) s s3 := .ite (oob.fatalAtGlue _ _ _ _) oob
  refine ⟨s3, invalid, ?_⟩
  split
  · exact .inr rfl
  · exact .inl rfl

end

/-! ### CHAIN (R122 to R136) -/

/-- A chain writes the spaces that its stream slots name. -/
theorem State.runChain_work (s : State) (p ch entry : Nat) :
    ∃ u, EntryWork (s.chainSpaces p ch) (finisherFields p) s u ∧
      (s.runChain p ch entry = u ∨ s.runChain p ch entry = (u.set (FIN_STATUS.PASS_OVER p) 1).schedFault 2 fBUSY .cluster p entry) := by
  unfold State.runChain
  extract_lets d st c prog s1 s2 z r0 r
  have streams : ∀ e ∈ c.st, e.2.In (s.chainSpaces p ch) s c.p := by
    intro e he off x addr
    obtain ⟨k, hk, some⟩ := List.mem_filterMap.1 he
    split at some
    · cases some
    next used =>
      cases some
      exact ⟨k.2, (List.of_mem_zip hk).2, used, off, addr⟩
  have begun : r0.Works (s.chainSpaces p ch) c.p s :=
    ((EntryWork.refl _ _ s).readPoison _ _ _).inc (by simp [c, finisherFields]) _
  have run : r.Works (s.chainSpaces p ch) c.p s :=
    begun.foldl _ fun _ hr _ _ => hr.foldl _ fun _ hr _ _ => hr.group streams _ _ _
  exact run.finish entry

/-- The state in which an entry of the finisher does its work: it occupies the finisher, with its notes, and BUSY is set. -/
def State.finEntered (s : State) (i : Issue) (info : List Nat) : State :=
  ((s.entered .cluster engFin i true).set (FIN_STATUS.BUSY i.idx) 1).noteInfo .cluster i.idx engFin info

section
variable (s : State) (i : Issue) (info : List Nat)

theorem State.finEntered_occupied : Occupied (s.finEntered i info) .cluster engFin i true :=
  ((s.entered_occupied _ _ _ _).of_tick (State.set_tick _ _ _)).noteInfo info

theorem State.finEntered_busy : (s.finEntered i info).get (FIN_STATUS.BUSY i.idx) = 1 :=
  (State.get_set_same _ _ _ : ((s.entered .cluster engFin i true).set (FIN_STATUS.BUSY i.idx) 1).get _ = _)

theorem State.finEntered_get {g : Fld} (h : g.key ≠ (FIN_STATUS.BUSY i.idx).key) : (s.finEntered i info).get g = s.get g :=
  (State.get_set_other _ _ h : ((s.entered .cluster engFin i true).set (FIN_STATUS.BUSY i.idx) 1).get g = _)

theorem tickStatus_ne_finBusy (p : Nat) : TICK_STATUS.STATE.key ≠ (FIN_STATUS.BUSY p).key ∧
    TICK_STATUS.DRY.key ≠ (FIN_STATUS.BUSY p).key ∧ TICK_STATUS.BANK.key ≠ (FIN_STATUS.BUSY p).key := by
  simp only [Fld.key, TICK_STATUS.STATE, TICK_STATUS.DRY, TICK_STATUS.BANK, FIN_STATUS.BUSY, tickBase, finBase]
  omega

theorem State.finEntered_job : (s.finEntered i info).job = s.job := s.finEntered_get i info (tickStatus_ne_finBusy _).1

theorem State.finEntered_running : (s.finEntered i info).running = s.running := by
  obtain ⟨-, dry, -⟩ := tickStatus_ne_finBusy i.idx
  rw [State.running, State.is, s.finEntered_job, s.finEntered_get i info dry, State.running, State.is]

theorem State.finEntered_copy : (s.finEntered i info).runBank = s.runBank ∧ (s.finEntered i info).copy = s.copy := by
  obtain ⟨-, dry, bank⟩ := tickStatus_ne_finBusy i.idx
  have same : (s.finEntered i info).runBank = s.runBank := by
    rw [State.runBank, State.is, s.finEntered_get i info dry, s.finEntered_get i info bank]
    rfl
  refine ⟨same, ?_⟩
  rw [State.copy, same]
  rfl

theorem State.finEntered_sealedWords (a n : Nat) : (s.finEntered i info).sealedWords a n = s.sealedWords a n := by
  simp only [State.sealedWords, State.sealedRd, State.sealedMem, (s.finEntered_copy i info).2]
  rfl

theorem State.finEntered_bankGet {a b : Fld} (ha : a.key ≠ (FIN_STATUS.BUSY i.idx).key) (hb : b.key ≠ (FIN_STATUS.BUSY i.idx).key) :
    (s.finEntered i info).bankGet a b = s.bankGet a b := by
  obtain ⟨bank, copy⟩ := s.finEntered_copy i info
  have other : (if s.runBank = 0 then a else b).key ≠ (FIN_STATUS.BUSY i.idx).key := by
    split
    · exact ha
    · exact hb
  rw [State.bankGet, State.sealedGet, bank, copy, s.finEntered_get i info other, State.bankGet, State.sealedGet]

/-- A chain's own descriptors say the same once it has entered. -/
theorem State.finEntered_chainSpaces (ch : Nat) : (s.finEntered i info).chainSpaces i.idx ch = s.chainSpaces i.idx ch := by
  have table : (s.finEntered i info).finTbl i.idx = s.finTbl i.idx :=
    congrArg (· * 64) (s.finEntered_bankGet i info
      (by simp only [Fld.key, FIN_DESC_A.OFF, FIN_STATUS.BUSY]; omega) (by simp only [Fld.key, FIN_DESC_B.OFF, FIN_STATUS.BUSY]; omega))
  have desc : (s.finEntered i info).chainDesc i.idx ch = s.chainDesc i.idx ch := by
    rw [State.chainDesc, table, s.finEntered_sealedWords, State.chainDesc]
  have space (k : Nat) : ((s.finEntered i info).stream i.idx k).space = (s.stream i.idx k).space := by
    simp only [State.stream, table, s.finEntered_sealedWords]
  have addr (space off : Nat) : (s.finEntered i info).spaceAddr i.idx space off 1 = s.spaceAddr i.idx space off 1 :=
    State.spaceAddr_of_active rfl _ _ _ _
  funext x
  simp only [State.chainSpaces, desc, space, addr]

end

theorem State.schedFault_xr (s : State) {cls : Nat} (hc : cls ≤ 2) (code : Nat) (u : UnitKind) (idx entry : Nat) :
    (s.schedFault cls code u idx entry).xr = s.xr := by
  rw [State.schedFault_eq]
  exact (congrArg State.xr ((Upset.refl errorFields _).raiseOpen hc _ _ _ _).rest :).trans
    (congrArg State.xr (s.recordFault_frame _ _ _ _ _ _) :)

/-- BUSY leaves PASS_OVER as it was. -/
theorem State.schedFault_passOver (s : State) {cls : Nat} (hc : cls ≤ 2) (code : Nat) (u : UnitKind) (idx entry : Nat) {p : Nat}
    (hp : p < nPhys) :
    (s.schedFault cls code u idx entry).get (FIN_STATUS.PASS_OVER p) = s.get (FIN_STATUS.PASS_OVER p) := by
  have apart : ∀ k ∈ (errorFields ++ faultFields).map Fld.key, k < finBase 0 * 64 ∨ finBase nPhys * 64 ≤ k := by decide
  have place : (FIN_STATUS.PASS_OVER p).key = (finBase p + 0) * 64 + 2 := rfl
  have inside : finBase 0 * 64 ≤ (FIN_STATUS.PASS_OVER p).key ∧ (FIN_STATUS.PASS_OVER p).key < finBase nPhys * 64 ∧
      (FIN_STATUS.PASS_OVER p).key % 0x400000 = 0x200002 := by
    rw [place]
    unfold finBase
    omega
  have unlisted : (FIN_STATUS.PASS_OVER p).key ∉ (errorFields ++ faultFields).map Fld.key := fun h => by
    have := apart _ h
    omega
  rw [List.map_append, List.mem_append, not_or] at unlisted
  have untouched : touches errorFields (FIN_STATUS.PASS_OVER p).key = false := by
    simp [touches, unlisted.1, inside.2.2]
  rw [State.schedFault_eq]
  exact (((Upset.refl errorFields _).raiseOpen hc _ _ _ _).get _ untouched).trans (s.get_recordFault_other _ _ _ _ _ _ unlisted.2)

/-- A chain on its idle finisher runs. -/
theorem Ready.chain {s : State} {i : Issue} (h : Ready s .cluster engFin i) :
    exec (.chain i []) s = .next ((s.finEntered i [0x200, i.desc, (s.chainDesc i.idx i.desc).nOuter *
      (s.chainDesc i.idx i.desc).groups]).runChain i.idx i.desc i.entry) :=
  (show execChain i [] s = _ from s.issue_ready true _ h).trans
    (congrArg Host.Outcome.next (if_pos ((s.finEntered_running i _).trans h.1.2.2.1)))

/-! ### TABLE_LOAD (R137) -/

/-- An entry of a rising list is what its key holds. -/
theorem Store.find?_of_mem {α : Type} {m : List (Nat × α)} (hm : sorted m = true) {k : Nat} {v : α} (h : (k, v) ∈ m) :
    find? m k = some v := by
  rw [sorted_iff] at hm
  induction m with
  | nil => cases h
  | cons e m ih =>
    rw [List.pairwise_cons] at hm
    rcases List.mem_cons.1 h with rfl | h
    · exact if_pos rfl
    · exact (if_neg (hm.1 _ h).ne).trans (ih hm.2 h)

/-- A key that is not listed holds nothing. -/
theorem Store.find?_of_notMem {α : Type} {m : List (Nat × α)} {k : Nat} (h : k ∉ m.map Prod.fst) : find? m k = none := by
  induction m with
  | nil => rfl
  | cons e m ih =>
    simp only [List.map_cons, List.mem_cons, not_or] at h
    exact (if_neg (Ne.symm h.1)).trans (ih h.2)

/-- The listed bytes of a range, at the same places of another range. -/
def Memory.moved (m : List Host.Cell) (src dst n : Nat) : List Host.Cell :=
  (Store.range m src n).map fun e => (e.1 - src + dst, e.2)

/-- Write listed bytes. -/
def Memory.writeCells (m : List Host.Cell) (cells : List Host.Cell) : List Host.Cell :=
  cells.foldl (fun m e => Memory.write m e.1 e.2) m

/-- A range is zeroed and takes the listed bytes of another. -/
def Memory.copied (m : List Host.Cell) (src dst n : Nat) : List Host.Cell :=
  Memory.writeCells (Store.eraseRange m dst n) (Memory.moved m src dst n)

theorem Memory.read_writeCells_other {cells : List Host.Cell} {x : Nat} (h : x ∉ cells.map Prod.fst) (m : List Host.Cell) :
    Memory.read (Memory.writeCells m cells) x = Memory.read m x := by
  induction cells generalizing m with
  | nil => rfl
  | cons e cells ih =>
    simp only [List.map_cons, List.mem_cons, not_or] at h
    exact (ih h.2 _).trans (Memory.read_write_other _ _ h.1)

theorem Memory.read_writeCells_mem {cells : List Host.Cell} (hn : (cells.map Prod.fst).Nodup) {x : Nat} {b : Byte}
    (h : (x, b) ∈ cells) (m : List Host.Cell) : Memory.read (Memory.writeCells m cells) x = b := by
  induction cells generalizing m with
  | nil => cases h
  | cons e cells ih =>
    obtain ⟨he, hn⟩ := List.nodup_cons.1 hn
    rcases List.mem_cons.1 h with rfl | h
    · exact (Memory.read_writeCells_other he _).trans (Memory.read_write_same _ _ _)
    · exact ih hn h _

section
variable {m : List Host.Cell} {src dst n : Nat}

/-- A byte that is moved was listed at its source. -/
theorem Memory.mem_moved {x : Nat} {b : Byte} : (x, b) ∈ Memory.moved m src dst n ↔ ∃ k < n, (src + k, b) ∈ m ∧ x = dst + k := by
  simp only [Memory.moved, Store.range, List.mem_map, List.mem_filter, Bool.and_eq_true, decide_eq_true_eq, Prod.mk.injEq, Prod.exists]
  constructor
  · rintro ⟨a, _, ⟨hm, hx, hx'⟩, rfl, rfl⟩
    exact ⟨a - src, by omega, by rwa [Nat.add_sub_cancel' hx], by omega⟩
  · rintro ⟨k, hk, hm, rfl⟩
    exact ⟨src + k, b, ⟨hm, by omega, by omega⟩, by omega, rfl⟩

theorem Memory.nodup_moved (hm : Memory.wf m = true) : ((Memory.moved m src dst n).map Prod.fst).Nodup := by
  have rising := ((Store.sorted_iff m).1 ((Memory.wf_iff m).1 hm).1).filter fun e => decide (src ≤ e.1) && decide (e.1 < src + n)
  rw [Memory.moved, List.map_map, List.Nodup, List.pairwise_map]
  refine rising.imp_of_mem fun ha hb lt => ?_
  have := (List.mem_filter.1 ha).2
  simp only [Bool.and_eq_true, decide_eq_true_eq] at this
  simp only [Function.comp_apply]
  omega

theorem Memory.read_copied (hm : Memory.wf m = true) {k : Nat} (hk : k < n) :
    Memory.read (Memory.copied m src dst n) (dst + k) = Memory.read m (src + k) := by
  unfold Memory.copied
  by_cases listed : src + k ∈ m.map Prod.fst
  · obtain ⟨⟨_, b⟩, hb, rfl⟩ := List.mem_map.1 listed
    rw [Memory.read_writeCells_mem (Memory.nodup_moved hm) (Memory.mem_moved.2 ⟨k, hk, hb, rfl⟩), Memory.read, Store.get,
      Store.find?_of_mem ((Memory.wf_iff m).1 hm).1 hb]
    rfl
  · have absent : dst + k ∉ (Memory.moved m src dst n).map Prod.fst := by
      intro h
      obtain ⟨⟨x, b⟩, hb, rfl⟩ := List.mem_map.1 h
      obtain ⟨j, -, hj, eq⟩ := Memory.mem_moved.1 hb
      obtain rfl : k = j := by omega
      exact listed (List.mem_map.2 ⟨_, hj, rfl⟩)
    rw [Memory.read_writeCells_other absent, Memory.read_eraseRange_in _ (by omega) (by omega), Memory.read, Store.get,
      Store.find?_of_notMem listed]
    rfl

theorem Memory.read_copied_other {x : Nat} (hx : x < dst ∨ dst + n ≤ x) :
    Memory.read (Memory.copied m src dst n) x = Memory.read m x := by
  have absent : x ∉ (Memory.moved m src dst n).map Prod.fst := by
    intro h
    obtain ⟨⟨_, b⟩, hb, rfl⟩ := List.mem_map.1 h
    obtain ⟨j, hj, -, eq⟩ := Memory.mem_moved.1 hb
    dsimp only at hx
    omega
  rw [Memory.copied, Memory.read_writeCells_other absent, Memory.read_eraseRange_other _ hx]

end

/-- `t` is `s` after checks of entries of the table directory of cluster `p`: the valid bits of some are cleared, and
TBL_REJECT says so. -/
structure DirectoryChecked (p : Nat) (s t : State) : Prop where
  rest : { t with mem := s.mem, flds := s.flds } = s
  get : ∀ g : Fld, g.key ≠ (FIN_FLAGS.TBL_REJECT p).key → t.get g = s.get g
  byte : ∀ x, Memory.read t.mem x = Memory.read s.mem x ∨
    ∃ j < 8, x = ftabBase p + j * 16 ∧ t.rd1 x = s.rd1 x / 2 * 2 ∧ t.is (FIN_FLAGS.TBL_REJECT p) = true

/-- One more entry is refused. -/
theorem DirectoryChecked.refuse {p : Nat} {s t : State} (hc : s.poison = []) (h : DirectoryChecked p s t) {j : Nat} (hj : j < 8) :
    DirectoryChecked p s ((t.wr (ftabBase p + j * 16) 1 (t.rd1 (ftabBase p + j * 16) / 2 * 2)).set (FIN_FLAGS.TBL_REJECT p) 1) := by
  have flagged : ((t.wr (ftabBase p + j * 16) 1 (t.rd1 (ftabBase p + j * 16) / 2 * 2)).set (FIN_FLAGS.TBL_REJECT p) 1).is
      (FIN_FLAGS.TBL_REJECT p) = true := by
    rw [State.is, State.get_set_same]
    rfl
  have clean : t.poison = [] := (congrArg State.poison h.rest :).trans hc
  refine ⟨?_, fun g hg => (State.get_set_other _ _ hg).trans (h.get g hg), fun x => ?_⟩
  · refine Eq.trans ?_ h.rest
    simp only [State.set, State.wr, State.wrBytes, clean, List.filter_nil]
  · by_cases hx : x = ftabBase p + j * 16
    · subst hx
      have low : t.rd1 (ftabBase p + j * 16) / 2 * 2 = s.rd1 (ftabBase p + j * 16) / 2 * 2 := by
        rcases h.byte (ftabBase p + j * 16) with same | ⟨-, -, -, cleared, -⟩
        · rw [State.rd1, same, State.rd1]
        · omega
      have small : t.rd1 (ftabBase p + j * 16) < 256 := BitVec.isLt _
      refine .inr ⟨j, hj, rfl, ?_, flagged⟩
      have written : ((t.wr (ftabBase p + j * 16) 1 (t.rd1 (ftabBase p + j * 16) / 2 * 2)).set (FIN_FLAGS.TBL_REJECT p) 1).rd1
          (ftabBase p + j * 16) = t.rd1 (ftabBase p + j * 16) / 2 * 2 % 256 % 256 :=
        (congrArg BitVec.toNat (Memory.read_write_same t.mem _ _)).trans (BitVec.toNat_ofNat _ _)
      omega
    · have other : Memory.read (t.wr (ftabBase p + j * 16) 1 (t.rd1 (ftabBase p + j * 16) / 2 * 2)).mem x = Memory.read t.mem x :=
        Memory.read_write_other t.mem _ hx
      rcases h.byte x with same | ⟨k, hk, eq, cleared, -⟩
      · exact .inl (other.trans same)
      · exact .inr ⟨k, hk, eq, (congrArg BitVec.toNat other).trans cleared, flagged⟩

theorem State.foldl_write (cells : List Host.Cell) (s : State) :
    cells.foldl (fun s e => { s with mem := Memory.write s.mem e.1 e.2 }) s = { s with mem := Memory.writeCells s.mem cells } := by
  induction cells generalizing s with
  | nil => rfl
  | cons e cells ih => exact ih _

/-- Where the running bank's table image stands. -/
def State.tableSrc (s : State) (p : Nat) : Nat := veneerBase p + s.bankGet (FIN_TBL_A.OFF p) (FIN_TBL_B.OFF p) * 64

theorem State.finEntered_tableSrc (s : State) (i : Issue) (info : List Nat) : (s.finEntered i info).tableSrc i.idx = s.tableSrc i.idx := by
  rw [State.tableSrc, s.finEntered_bankGet i info (by simp only [Fld.key, FIN_TBL_A.OFF, FIN_STATUS.BUSY]; omega)
    (by simp only [Fld.key, FIN_TBL_B.OFF, FIN_STATUS.BUSY]; omega), State.tableSrc]

/-- The table memory is the image, but for the valid bits of the entries that are refused. -/
theorem State.loadTable_checked {s : State} (hc : s.poison = []) (p : Nat) :
    DirectoryChecked p { s with mem := Memory.copied s.mem (s.tableSrc p) (ftabBase p) 0x8000 } (s.loadTable p) := by
  unfold State.loadTable
  extract_lets off src met cells u
  have same : met = s := State.readPoison_clean hc _ _ _
  have copied : u = { s with mem := Memory.copied s.mem (s.tableSrc p) (ftabBase p) 0x8000 } := by
    refine (State.foldl_write cells _).trans ?_
    simp only [cells, same, State.zeroRange, hc, List.filter_nil]
    rfl
  rw [← copied]
  have clean : u.poison = [] := copied ▸ hc
  refine List.foldlRecOn (motive := DirectoryChecked p u) _ _ ⟨rfl, fun _ _ => rfl, fun _ => .inl rfl⟩ fun t ht j hj => ?_
  dsimp only
  split
  · exact ht.refuse clean (List.mem_range.1 hj)
  · exact ht

/-- TABLE_LOAD on its idle finisher copies its image. -/
theorem Ready.tableLoad {s : State} {i : Issue} (h : Ready s .cluster engFin i) :
    exec (.tableLoad i []) s = .next ((s.finEntered i [0x202]).loadTable i.idx) :=
  (show execTableLoad i [] s = _ from s.issue_ready true _ h).trans
    (congrArg Host.Outcome.next (if_pos ((s.finEntered_running i _).trans h.1.2.2.1)))

/-! ### TAP (R146 to R149) -/

/-- The operand buffers of the device. -/
def opbufs (x : Nat) : Prop := opbufBase 0 ≤ x ∧ x < accumBase 0

/-- The flags that a capture may set. -/
def captureFlags (p : Nat) : List Fld := [GAU_FLAGS.NAN_TAP p, GAU_FLAGS.INF_TAP p, GAU_FLAGS.SUB_COUNT p]

/-- The widths of a factor descriptor's fields bound a capture's size and place. -/
structure Factor.Fits (f : Factor) : Prop where
  block : f.b ≤ 2 ^ 14
  rows : f.mCap < 2 ^ 12
  place : f.capOff < 2 ^ 18

theorem State.factor_fits (s : State) (d : Nat) : (s.factor d).Fits :=
  ⟨(Nat.mul_le_mul_left 128 (Nat.pow_le_pow_right (by decide) (Nat.le_of_lt_succ (Nat.mod_lt _ (by decide : 0 < 2 ^ 3))))),
    Nat.mod_lt _ (by decide), Nat.mod_lt _ (by decide)⟩

theorem fmtBytes_le (f : Nat) : fmtBytes f ≤ 16 := by
  unfold fmtBytes fmtBits
  split <;> decide

theorem length_flatMap_le {α β : Type} {l : List α} {g : α → List β} {n : Nat} (h : ∀ a ∈ l, (g a).length ≤ n) :
    (l.flatMap g).length ≤ l.length * n := by
  rw [List.length_flatMap]
  exact (List.sum_le_card_nsmul _ n (by simpa using h)).trans_eq (by simp)

/-- A capture stands in operand buffers. -/
theorem EntryWork.writeCapture {l : List Fld} {s t : State} (h : EntryWork opbufs l s t) {f : Factor} (hf : f.Fits) {half esize : Nat}
    (hh : half < 2) (he : esize ≤ 16) {rows : List (List Nat)} (hr : rows.length < 2 ^ 12) (hb : ∀ r ∈ rows, r.length = f.b) :
    EntryWork opbufs l s (t.writeCapture f half esize rows) := by
  have size : (rows.flatMap fun r => r.flatMap fun c => leBytes esize c).length ≤ 2 ^ 12 * (2 ^ 14 * 16) :=
    (length_flatMap_le (n := 2 ^ 14 * 16) fun r hm =>
      (length_flatMap_le (n := 16) fun c _ => by simpa using he).trans (Nat.mul_le_mul_right 16 (hb r hm ▸ hf.block))).trans
      (Nat.mul_le_mul_right _ hr.le)
  have start : half * (f.mCap * f.b * esize) ≤ 1 * (2 ^ 12 * 2 ^ 14 * 16) :=
    Nat.mul_le_mul (by omega) (Nat.mul_le_mul (Nat.mul_le_mul hf.rows.le hf.block) he)
  have place := hf.place
  refine h.foldl _ fun u hu k _ => ?_
  split
  next q hq =>
    have := physOf_lt hq
    refine hu.wrBytes fun x hx hx' => ?_
    unfold opbufs opbufBase accumBase
    unfold opbufBase at hx hx'
    unfold nPhys at this
    omega
  next => exact hu

/-- The state in which a tap captures: it occupies its engine, with its note, and TAPPING is set. -/
def State.tapEntered (s : State) (i : Issue) : State :=
  ((s.entered .cluster engTap i true).setAll [(GAU_STATUS.TAPPING i.idx, 1), (GAU_STATUS.GATED i.idx, 0)]).noteInfo .cluster i.idx engTap
    [i.desc]

section
variable {s t : State} {p : Nat} (h : EntryWork opbufs (captureFlags p) s t)
include h

/-- Capturing a block writes operand buffers and sets flags. -/
theorem EntryWork.captureBlock (i : Issue) {o : Op} (ho : o.me.p = p) (fmt col0 d : Nat) {rows : List (Option Nat)}
    (hr : rows.length < 2 ^ 12) : EntryWork opbufs (captureFlags p) s (t.captureBlock i o fmt col0 d rows) := by
  subst ho
  unfold State.captureBlock
  extract_lets f els c codes s1 s2 s3 s4
  have met : EntryWork opbufs (captureFlags o.me.p) s s1 := h.readPoison _ _ _
  have nan : EntryWork opbufs (captureFlags o.me.p) s s2 := .ite (met.set (by simp [captureFlags]) _) met
  have inf : EntryWork opbufs (captureFlags o.me.p) s s3 := .ite (nan.set (by simp [captureFlags]) _) nan
  have written : EntryWork opbufs (captureFlags o.me.p) s s4 :=
    inf.writeCapture (t.factor_fits d) (Nat.mod_lt _ (by decide)) (fmtBytes_le _) (by simpa [codes, els] using hr) (by
      intro r hm
      simp only [codes, els, List.mem_map] at hm
      obtain ⟨_, ⟨_, -, rfl⟩, rfl⟩ := hm
      simp [State.capRow, f])
  exact written.congr

end

/-- What a tap leaves on a gauge step: its captures, then their counts. -/
theorem State.runTap_captures (s : State) (i : Issue) (d : TapDesc) {f : Factor} (hf : f.Fits) :
    ∃ u, EntryWork opbufs (captureFlags i.idx) s u ∧
      s.runTap i d f = (u.inc (GAU_CAPTURES.CAPTURES i.idx)).inc (GAU_CAPTURES.ROWS i.idx) f.mCap := by
  unfold State.runTap
  extract_lets p o total table sel rows s1 s2 s3
  have met : EntryWork opbufs (captureFlags i.idx) s s1 := (EntryWork.refl _ _ s).readPoison _ _ _
  have counted : EntryWork opbufs (captureFlags i.idx) s s2 :=
    .ite met ((met.set (by simp [p, captureFlags]) _).fatalAtGlue _ _ _ _)
  exact ⟨s3, counted.foldl _ fun u hu j _ => hu.captureBlock i rfl _ _ _ (by simpa [rows] using hf.rows), rfl⟩

/-- A tap on its idle engine captures on a gauge step, and is gated on any other. -/
theorem Ready.tap {s : State} {i : Issue} (h : Ready s .cluster engTap i) :
    exec (.tap i []) s = .next (
      if (s.factor (s.tapDesc i.idx i.desc).factor).gaugeStep (s.get TICK_STEP.STEP) then
        (s.tapEntered i).runTap i (s.tapDesc i.idx i.desc) (s.factor (s.tapDesc i.idx i.desc).factor)
      else (s.entered .cluster engTap i true).set (GAU_STATUS.GATED i.idx) 1) := by
  have runs : (s.entered .cluster engTap i true).running = true := h.1.2.2.1
  have goes : ¬(!(s.entered .cluster engTap i true).running) = true := by simp [runs]
  exact (show execTap i [] s = _ from s.issue_ready true _ h).trans (congrArg Host.Outcome.next (if_neg goes))

/-- The gauge's status and counts are no flags of a capture. -/
theorem gauge_notMem_captureFlags (p : Nat) : (GAU_STATUS.TAPPING p).key ∉ (captureFlags p).map Fld.key ∧
    (GAU_CAPTURES.CAPTURES p).key ∉ (captureFlags p).map Fld.key ∧ (GAU_CAPTURES.ROWS p).key ∉ (captureFlags p).map Fld.key := by
  simp only [captureFlags, List.map_cons, List.map_nil, List.mem_cons, List.not_mem_nil, or_false, not_or, Fld.key,
    GAU_STATUS.TAPPING, GAU_CAPTURES.CAPTURES, GAU_CAPTURES.ROWS, GAU_FLAGS.NAN_TAP, GAU_FLAGS.INF_TAP, GAU_FLAGS.SUB_COUNT]
  omega

/-- The gauge's status and counts are fields apart. -/
theorem gauge_apart (p : Nat) : (GAU_STATUS.TAPPING p).key ≠ (GAU_STATUS.GATED p).key ∧
    (GAU_STATUS.TAPPING p).key ≠ (GAU_CAPTURES.CAPTURES p).key ∧ (GAU_STATUS.TAPPING p).key ≠ (GAU_CAPTURES.ROWS p).key ∧
    (GAU_CAPTURES.CAPTURES p).key ≠ (GAU_STATUS.GATED p).key ∧ (GAU_CAPTURES.ROWS p).key ≠ (GAU_STATUS.GATED p).key ∧
    (GAU_CAPTURES.CAPTURES p).key ≠ (GAU_CAPTURES.ROWS p).key := by
  simp only [Fld.key, GAU_STATUS.TAPPING, GAU_STATUS.GATED, GAU_CAPTURES.CAPTURES, GAU_CAPTURES.ROWS]
  omega

section
variable (s : State) (i : Issue)

theorem State.tapEntered_occupied : Occupied (s.tapEntered i) .cluster engTap i true :=
  ((s.entered_occupied _ _ _ _).of_tick (State.setAll_tick _ _)).noteInfo _

theorem State.tapEntered_tapping : (s.tapEntered i).get (GAU_STATUS.TAPPING i.idx) = 1 :=
  (State.get_set_other _ 0 (gauge_apart i.idx).1).trans (State.get_set_same (s.entered .cluster engTap i true) _ 1)

theorem State.tapEntered_get {g : Fld} (tapping : g.key ≠ (GAU_STATUS.TAPPING i.idx).key)
    (gated : g.key ≠ (GAU_STATUS.GATED i.idx).key) : (s.tapEntered i).get g = s.get g :=
  (State.get_set_other _ 0 gated).trans (State.get_set_other (s.entered .cluster engTap i true) 1 tapping)

end

/-! ### What each of the three entries leaves (R123, R135, R137, R146, R149) -/

section
variable {s t : State} {i : Issue}

/-- A chain leaves its finisher occupied, unless a group needed too many passes, and writes its streams' spaces alone. -/
theorem State.runChain_done (hp : i.idx < nPhys) {info : List Nat} (ht : t = (s.finEntered i info).runChain i.idx i.desc i.entry) :
    t.xr = s.xr ∧
      (s.poison = [] → t.is (FIN_STATUS.PASS_OVER i.idx) = false → Occupied t .cluster engFin i true ∧
        t.get (FIN_STATUS.BUSY i.idx) = 1 ∧ t.job = s.job) ∧
      ∀ x, ¬s.chainSpaces i.idx i.desc x → s.poison = [] → Memory.read t.mem x = Memory.read s.mem x := by
  obtain ⟨u, work, done⟩ := (s.finEntered i info).runChain_work i.idx i.desc i.entry
  rw [s.finEntered_chainSpaces] at work
  rw [← ht] at done
  rcases done with rfl | rfl
  · refine ⟨work.xr, fun clean _ => ?_, fun x hx clean => (work.quiet clean).mem x hx⟩
    have quiet := work.quiet clean
    obtain ⟨busy, job⟩ := status_notMem_finisherFields i.idx
    exact ⟨(s.finEntered_occupied i info).of_busy quiet.busy, (quiet.get _ busy).trans (s.finEntered_busy i info),
      (quiet.get _ job).trans (s.finEntered_job i info)⟩
  · refine ⟨(State.schedFault_xr _ (Nat.le_refl 2) _ _ _ _).trans work.xr, fun _ under => ?_, fun x hx clean => ?_⟩
    · rw [State.is, State.schedFault_passOver _ (Nat.le_refl 2) _ _ _ _ hp, State.get_set_same] at under
      cases under
    · rw [State.schedFault_mem _ (Nat.le_refl 2)]
      exact (work.quiet clean).mem x hx

/-- TABLE_LOAD leaves the image in the table memory, the valid bits of refused directory entries cleared. -/
theorem State.loadTable_done (clean : s.poison = []) (wf : Memory.wf s.mem = true) {info : List Nat} {src : Nat}
    (hsrc : src = s.tableSrc i.idx) (ht : t = (s.finEntered i info).loadTable i.idx) :
    Occupied t .cluster engFin i true ∧
      (∀ k, 128 ≤ k → k < 0x8000 → t.rd1 (ftabBase i.idx + k) = s.rd1 (src + k)) ∧
      (∀ k, k < 128 → t.rd1 (ftabBase i.idx + k) = s.rd1 (src + k) ∨
        (k % 16 = 0 ∧ t.rd1 (ftabBase i.idx + k) = s.rd1 (src + k) / 2 * 2 ∧ t.is (FIN_FLAGS.TBL_REJECT i.idx) = true)) ∧
      BytesKept s t [(ftabBase i.idx, 0x8000)] ∧
      OnlyFields { s with tick := t.tick, mem := t.mem } t [FIN_STATUS.BUSY i.idx, FIN_FLAGS.TBL_REJECT i.idx] := by
  have checked := State.loadTable_checked (s := s.finEntered i info) clean i.idx
  rw [← ht, s.finEntered_tableSrc, ← hsrc] at checked
  clear ht
  have image {k : Nat} (hk : k < 0x8000) : Memory.read (Memory.copied s.mem src (ftabBase i.idx) 0x8000) (ftabBase i.idx + k) =
      Memory.read s.mem (src + k) := Memory.read_copied wf hk
  refine ⟨(s.finEntered_occupied i info).of_tick (congrArg State.tick checked.rest :), fun k hk hk' => ?_, fun k hk => ?_,
    fun x hx => ?_, ?_, fun g hg => ?_⟩
  · rcases checked.byte (ftabBase i.idx + k) with same | ⟨j, hj, eq, -⟩
    · exact congrArg BitVec.toNat (same.trans (image hk'))
    · omega
  · have copied := congrArg BitVec.toNat (image (by omega : k < 0x8000))
    rcases checked.byte (ftabBase i.idx + k) with same | ⟨j, -, eq, cleared, flagged⟩
    · exact .inl ((congrArg BitVec.toNat same).trans copied)
    · exact .inr ⟨by omega, cleared.trans (congrArg (· / 2 * 2) copied), flagged⟩
  · have outside := hx _ List.mem_cons_self
    rcases checked.byte x with same | ⟨j, hj, rfl, -⟩
    · exact same.trans (Memory.read_copied_other outside)
    · omega
  · exact (congrArg (fun u : State => { u with tick := t.tick, flds := s.flds, mem := t.mem }) checked.rest :)
  · simp only [List.map_cons, List.map_nil, List.mem_cons, List.not_mem_nil, or_false, not_or] at hg
    exact (checked.get g hg.2).trans (s.finEntered_get i info hg.1)

/-- A tap that captures leaves its engine occupied, its captures counted and every byte outside the operand buffers. -/
theorem State.runTap_done (clean : s.poison = []) {d : TapDesc} {f : Factor} (hf : f.Fits) (ht : t = (s.tapEntered i).runTap i d f) :
    Occupied t .cluster engTap i true ∧ t.get (GAU_STATUS.TAPPING i.idx) = 1 ∧
      t.get (GAU_CAPTURES.CAPTURES i.idx) = sat (GAU_CAPTURES.CAPTURES i.idx) (s.get (GAU_CAPTURES.CAPTURES i.idx) + 1) ∧
      t.get (GAU_CAPTURES.ROWS i.idx) = sat (GAU_CAPTURES.ROWS i.idx) (s.get (GAU_CAPTURES.ROWS i.idx) + f.mCap) ∧
      ∀ x, x < opbufBase 0 ∨ accumBase 0 ≤ x → Memory.read t.mem x = Memory.read s.mem x := by
  obtain ⟨u, work, run⟩ := (s.tapEntered i).runTap_captures i d hf
  have quiet := work.quiet clean
  obtain ⟨tapping, captures, rows⟩ := gauge_notMem_captureFlags i.idx
  obtain ⟨-, status_captures, status_rows, captures_gated, rows_gated, captures_rows⟩ := gauge_apart i.idx
  rw [ht, run]
  refine ⟨((s.tapEntered_occupied i).of_busy quiet.busy).of_tick rfl, ?_, ?_, ?_, fun x hx => quiet.mem x (by unfold opbufs; omega)⟩
  · rw [State.get_inc_other _ _ status_rows, State.get_inc_other _ _ status_captures, quiet.get _ tapping, s.tapEntered_tapping]
  · rw [State.get_inc_other _ _ captures_rows, State.get_inc_same, quiet.get _ captures,
      s.tapEntered_get i status_captures.symm captures_gated, sat]
  · rw [State.get_inc_same, State.get_inc_other _ _ captures_rows.symm, quiet.get _ rows,
      s.tapEntered_get i status_rows.symm rows_gated, sat]

end

/-- Settles O22: a chain by the stages of its run, the table by its copied image and its directory, a tap by its captures. -/
theorem finisherAndTapEntries : Obligations.FinisherAndTapEntries := by
  intro s i
  refine ⟨fun ready => ⟨_, ready.chain, State.runChain_done ready.1.1 rfl⟩,
    fun src hsrc ready clean wf => ⟨_, ready.tableLoad, State.loadTable_done clean wf hsrc rfl⟩,
    fun d f hd hf ready _ => ⟨fun step clean => ?_, fun step => ?_⟩⟩ <;> subst hd hf
  · exact ⟨_, ready.tap.trans (congrArg Host.Outcome.next (if_pos step)), State.runTap_done clean (s.factor_fits _) rfl⟩
  · exact ⟨_, ready.tap.trans (congrArg Host.Outcome.next (if_neg (by simp [step]))), (s.entered_occupied _ _ _ _).of_tick rfl,
      State.get_set_same _ _ _, (OnlyFields.refl _ _).set _ (by simp)⟩

end Sys2Proof.Machine

/-! SUPPORT. Root and solver sequences (O25): what the work of a piece leaves alone, for the root engine and for the solver; the
chains of a user preconditioner; and what a piece leaves of the sequences in progress. -/

namespace Sys2Proof.Machine
open Reg

/-! ### What the work of a piece leaves alone (R157, R203) -/

/-- The bytes above LPDDR. -/
def aboveLpddr (x : Nat) : Prop := veneerBase 0 ≤ x

/-- The root runs in progress, and the solves in progress and ended. -/
def State.sequences (s : State) : List RootRun × SolSt := (s.root.runs, s.sol)

/-- `t` is `s` after work of a sequencer's piece: it wrote nothing to LPDDR, changed fields of the clusters' blocks and the record of
nondeterministic features alone, and left the sequences as they were. -/
structure PieceWork (s t : State) : Prop where
  work : ArrayWork aboveLpddr s t
  seqs : t.sequences = s.sequences

theorem PieceWork.refl {s : State} (h : s.poison = []) : PieceWork s s := ⟨.refl _ h, rfl⟩

theorem PieceWork.ite {s u v : State} {c : Prop} [Decidable c] (hu : PieceWork s u) (hv : PieceWork s v) :
    PieceWork s (if c then u else v) := by
  split
  · exact hu
  · exact hv

theorem PieceWork.fst_ite {α : Type} {s : State} {a b : State × α} {c : Prop} [Decidable c] (ha : PieceWork s a.1)
    (hb : PieceWork s b.1) : PieceWork s (if c then a else b).1 := by
  split
  · exact ha
  · exact hb

/-- Work of this kind changes neither the job state nor whether a step runs. -/
theorem ArrayWork.job {K : Nat → Prop} {s t : State} (h : ArrayWork K s t) : t.job = s.job :=
  h.get TICK_STATUS.STATE ⟨by decide, by decide, by decide⟩

theorem ArrayWork.running {K : Nat → Prop} {s t : State} (h : ArrayWork K s t) : t.running = s.running := by
  rw [State.running, State.is, h.job, h.get TICK_STATUS.DRY ⟨by decide, by decide, by decide⟩]
  rfl

/-- The fields that a piece changes on cluster `p`, its array work in quadrant `q` (R89, R121, R124, R135). -/
def pieceFields (p q : Nat) : List Fld :=
  [ARR_QFLAGS.NAN_IN p q, ARR_QFLAGS.INF_IN p q, ARR_LAST.DESC p, ARR_LAST.QUAD p, ARR_LAST.AT_TICK p, ARR_OPS.ENTRIES p,
    ARR_OPS.PASSES p, ARR_MACS.MACS p, FIN_OPS.CHAINS p, FIN_GROUPS.GROUPS p, FIN_LAST.DESC p, FIN_LAST.AT_TICK p,
    FIN_FLAGS.NAN_IN p, FIN_FLAGS.NAN_MADE p, FIN_FLAGS.OVF_ARITH p, FIN_FLAGS.DIV_ZERO p, FIN_FLAGS.ISAT p, FIN_FLAGS.EMPTY p,
    FIN_FLAGS.OOB p, FIN_FLAGS.TBL_INVALID p, FIN_FLAGS.TBL_REJECT p, FIN_EMPTY_REDUCE.COUNT p, FIN_SCATTER.ORDERED_GROUPS p,
    FIN_SCATTER.SERIALISED p]

theorem pieceFields_ofCluster {p q : Nat} (hp : p < nPhys) (hq : q < 4) : ∀ f ∈ pieceFields p q, f.ofCluster := by
  unfold nPhys at hp
  simp only [pieceFields, List.forall_mem_cons, Fld.ofCluster, ARR_QFLAGS.NAN_IN, ARR_QFLAGS.INF_IN, ARR_LAST.DESC, ARR_LAST.QUAD,
    ARR_LAST.AT_TICK, ARR_OPS.ENTRIES, ARR_OPS.PASSES, ARR_MACS.MACS, FIN_OPS.CHAINS, FIN_GROUPS.GROUPS, FIN_LAST.DESC,
    FIN_LAST.AT_TICK, FIN_FLAGS.NAN_IN, FIN_FLAGS.NAN_MADE, FIN_FLAGS.OVF_ARITH, FIN_FLAGS.DIV_ZERO, FIN_FLAGS.ISAT,
    FIN_FLAGS.EMPTY, FIN_FLAGS.OOB, FIN_FLAGS.TBL_INVALID, FIN_FLAGS.TBL_REJECT, FIN_EMPTY_REDUCE.COUNT,
    FIN_SCATTER.ORDERED_GROUPS, FIN_SCATTER.SERIALISED, arrBase, finBase, List.not_mem_nil, false_implies, implies_true, and_true]
  and_intros <;> omega

theorem finFlag_mem_pieceFields (p b : Nat) : finFlag p b ∈ pieceFields p 0 := by
  unfold finFlag
  split <;> simp [pieceFields]

/-! What the shared operations do to the sequences: nothing. -/

theorem State.sequences_ite {s u v : State} {c : Prop} [Decidable c] (hu : u.sequences = s.sequences)
    (hv : v.sequences = s.sequences) : (if c then u else v).sequences = s.sequences := by
  split
  · exact hu
  · exact hv

theorem State.setAll_sequences (s : State) (l : List (Fld × Nat)) : (s.setAll l).sequences = s.sequences := by
  simp [State.sequences]

theorem State.noteSre_sequences (s : State) (g : Gate) (n : Nat) : (s.noteSre g n).sequences = s.sequences := by
  have used : (s.ndUsed DET_ND_USED.SRE).sequences = s.sequences :=
    State.sequences_ite (u := s.set DET_ND_USED.FIRST_STEP _) (v := s) rfl rfl
  exact State.sequences_ite used rfl

theorem State.noteOut_sequences (s : State) (p q half rows cols stride : Nat) (b : BlockOut) :
    (s.noteOut p q half rows cols stride b).sequences = s.sequences := by
  unfold State.noteOut
  extract_lets s1 s2 s3 s4 s5
  have totals : s1.sequences = s.sequences :=
    List.foldlRecOn (motive := fun t : State => t.sequences = s.sequences) _ _ rfl fun _ ht _ _ => ht
  have made : s2.sequences = s.sequences := State.sequences_ite totals totals
  have to64 : s3.sequences = s.sequences := State.sequences_ite made made
  have to128 : s4.sequences = s.sequences := State.sequences_ite to64 to64
  have flagged : s5.sequences = s.sequences := State.sequences_ite to128 to128
  exact State.sequences_ite (State.sequences_ite flagged flagged) flagged

theorem State.noteTotals_sequences (s : State) (p q desc item blk tile : Nat) (ts : List Total) :
    (s.noteTotals p q desc item blk tile ts).sequences = s.sequences :=
  State.sequences_ite (s := s) rfl (State.setAll_sequences _ _)

section
variable {s t : State} (h : PieceWork s t)
include h

theorem PieceWork.clean : t.poison = [] := h.work.clean
theorem PieceWork.active : t.active = s.active := h.work.active
theorem PieceWork.sol : t.sol = s.sol := (congrArg Prod.snd h.seqs :)

/-- Work that keeps to a piece's places, and leaves the sequences, is a piece's work. -/
theorem PieceWork.onto {u : State} (work : ArrayWork aboveLpddr s u) (seqs : u.sequences = t.sequences := by rfl) : PieceWork s u :=
  ⟨work, seqs.trans h.seqs⟩

theorem PieceWork.setAt {f : Fld} {p q : Nat} (hp : p < nPhys) (hq : q < 4) (v : Nat)
    (hf : f ∈ pieceFields p q := by simp [pieceFields]) : PieceWork s (t.set f v) :=
  h.onto (h.work.set (pieceFields_ofCluster hp hq f hf) v)

theorem PieceWork.inc {f : Fld} {p : Nat} (hp : p < nPhys) (n : Nat) (hf : f ∈ pieceFields p 0 := by simp [pieceFields]) :
    PieceWork s (t.inc f n) := h.setAt hp (by decide) _ hf

theorem PieceWork.setAll {l : List (Fld × Nat)} {p q : Nat} (hp : p < nPhys) (hq : q < 4) (hl : ∀ e ∈ l, e.1 ∈ pieceFields p q) :
    PieceWork s (t.setAll l) :=
  h.onto (h.work.setAll fun e he => pieceFields_ofCluster hp hq _ (hl e he)) (t.setAll_sequences l)

theorem PieceWork.draw : PieceWork s t.draw.2 := h.onto { h.work with }

theorem PieceWork.fatalAtGlue (scope index source code : Nat) : PieceWork s (t.fatalAtGlue scope index source code) :=
  h.onto { h.work with }

theorem PieceWork.emit (m : Msg) : PieceWork s (t.emit m) := .ite h (h.onto { h.work with })

theorem PieceWork.gateAll (cls : Nat) (g : Gate) (tensor : Nat) (xs : List (Nat × Val)) : PieceWork s (t.gateAll cls g tensor xs).2 :=
  h.onto (h.work.gateAll _ _ _ _) (State.noteSre_sequences _ _ _)

theorem PieceWork.wrBytes {a : Nat} (ha : aboveLpddr a) (bs : List Nat) : PieceWork s (t.wrBytes a bs) :=
  h.onto (h.work.wrBytes fun _ hx _ => Nat.le_trans ha hx)

/-- Where no word is uncorrectable, reads and partial writes raise nothing. -/
theorem PieceWork.poisonless (rs ws : List (Nat × Nat)) (vsrc msrc wsrc : Nat) :
    (t.readPoison rs vsrc msrc).noteWrite id ws wsrc = t := by
  rw [State.readPoison_clean h.clean, State.noteWrite_clean h.clean]

theorem PieceWork.foldl {α : Type} {f : State → α → State} (l : List α)
    (hf : ∀ u, PieceWork s u → ∀ a ∈ l, PieceWork s (f u a)) : PieceWork s (l.foldl f t) :=
  List.foldlRecOn (motive := PieceWork s) l f h hf

/-! Flags, counts and totals of a member -/

section
variable {p : Nat} (hp : p < nPhys)
include hp

theorem PieceWork.finNote (flags : List Nat) : PieceWork s (t.finNote p flags) :=
  h.foldl _ fun _ hu b _ => hu.setAt hp (by decide) _ (finFlag_mem_pieceFields p b)

theorem PieceWork.chainCounts (desc groups : Nat) : PieceWork s (t.chainCounts p desc groups) :=
  ((h.inc hp 1).inc hp groups).setAll (q := 0) hp (by decide) (by simp [pieceFields])

/-- A piece's totals stand in an accumulator, above LPDDR. -/
theorem PieceWork.noteOut {q : Nat} (hq : q < 4) (half rows cols stride : Nat) (b : BlockOut) :
    PieceWork s (t.noteOut p q half rows cols stride b) := by
  refine h.onto (ArrayWork.noteOut hp hq (h.work.foldl _ fun u hu r _ => hu.wrBytes fun x hx _ => ?_)) (t.noteOut_sequences _ _ _ _ _ _ _)
  unfold aboveLpddr veneerBase
  unfold accOff accumBase at hx
  omega

theorem PieceWork.noteTotals {q : Nat} (hq : q < 4) (desc item blk tile : Nat) (ts : List Total) :
    PieceWork s (t.noteTotals p q desc item blk tile ts) :=
  h.onto (h.work.noteTotals hp hq _ _ _ _ _) (t.noteTotals_sequences _ _ _ _ _ _ _)

theorem PieceWork.notePiece {q : Nat} (hq : q < 4) (half tile rows cols stride : Nat) (ops : List Val) (o : BlockOut) :
    PieceWork s (t.notePiece p q half tile rows cols stride ops o) := by
  have flag {u : State} (hu : PieceWork s u) {f : Fld} (hf : f ∈ pieceFields p q) (c : Bool) :
      PieceWork s (if c then u.set f 1 else u) := .ite (hu.setAt hp hq 1 hf) hu
  have nan := flag h.draw (f := ARR_QFLAGS.NAN_IN p q) (by simp [pieceFields]) (ops.any Val.isNan)
  have inf := flag nan (f := ARR_QFLAGS.INF_IN p q) (by simp [pieceFields]) (ops.any Val.isInf)
  have totals := (inf.noteOut hp hq half rows cols stride o).noteTotals hp hq (t.draw.1 % 256) 0 0 tile o.totals
  unfold State.notePiece
  exact totals.setAll hp hq (by simp [pieceFields])

end

end

/-! ### The work of the root engine's pieces (R144, R150, R158 to R160) -/

theorem aboveLpddr_of_le {p a : Nat} (h : veneerBase p ≤ a) : aboveLpddr a :=
  (Nat.add_le_add_left (Nat.mul_le_mul_right _ (Nat.zero_le p)) _).trans h

/-- A matrix's elements, spread over a group, stand in the members' regions. -/
def InMembers (addr : Nat → Nat → Option Nat) : Prop := ∀ i j a, addr i j = some a → aboveLpddr a

theorem State.groupAddr_inMembers (s : State) (f : Factor) (first n off es : Nat) : InMembers (s.groupAddr f first n off es) := by
  intro i j a h
  obtain ⟨p, -, rfl⟩ := Option.map_eq_some_iff.1 h
  exact aboveLpddr_of_le (p := p) (by omega)

theorem State.factorAddr_inMembers (s : State) (f : Factor) (g : Nat) : InMembers (s.factorAddr f g) := s.groupAddr_inMembers _ _ _ _ _
theorem State.tmpAddr_inMembers (s : State) (f : Factor) : InMembers (s.tmpAddr f) := s.groupAddr_inMembers _ _ _ _ _
theorem State.wsAddr_inMembers (s : State) (f : Factor) (k : Nat) : InMembers (s.wsAddr f k) := s.groupAddr_inMembers _ _ _ _ _

/-- The members that a piece counts on are clusters. -/
theorem State.pieceMembers_lt {u : State} {f : Factor} {g : Bool} {p : Nat} (hp : p ∈ u.pieceMembers f g) : p < nPhys := by
  obtain ⟨m, -, hm⟩ := List.mem_filterMap.1 hp
  exact physOf_lt hm

section
variable {s t : State} (h : PieceWork s t)
include h

theorem PieceWork.putOpt {a : Option Nat} (ha : ∀ x, a = some x → aboveLpddr x) (fmt code : Nat) : PieceWork s (t.putOpt fmt a code) := by
  cases a with
  | none => exact h
  | some x => exact h.wrBytes (ha x rfl) _

theorem PieceWork.elNote (f : Factor) (first n fmt : Nat) (xs : List ((Nat × Nat) × List Val × Val)) :
    PieceWork s (t.elNote f first n fmt xs) := by
  refine h.foldl _ fun u hu m _ => ?_
  split
  next p hp => exact hu.finNote (physOf_lt hp) _
  next => exact hu

theorem PieceWork.sumNote (f : Factor) (parts : List (Val × List Nat)) : PieceWork s (t.sumNote f parts) := by
  refine h.foldl _ fun u hu e _ => ?_
  split
  next p hp => exact (hu.gateAll _ _ _ _).finNote (physOf_lt hp) _
  next => exact hu

theorem PieceWork.putEls {addr : Nat → Nat → Option Nat} (ha : InMembers addr) (f : Factor) (first n fmt : Nat)
    (v : Nat → Nat → List Val × Val) : PieceWork s (t.putEls f first n fmt addr v) :=
  ((h.gateAll _ _ _ _).foldl _ fun _ hu _ _ => hu.putOpt (ha _ _) _ _).elNote _ _ _ _ _

theorem PieceWork.putWs (f : Factor) (k : Nat) (v : Nat → Nat → List Val × Val) : PieceWork s (t.putWs f k v) :=
  h.putEls (t.wsAddr_inMembers f k) _ _ _ _ _

theorem PieceWork.prodPart (f : Factor) (dst a b tile : Nat) (x : Nat × List Nat × List Nat) :
    PieceWork s (t.prodPart f dst a b tile x) := by
  unfold State.prodPart
  extract_lets cls cells o ks ops g u
  have stored : PieceWork s u := (h.gateAll _ _ _ _).foldl _ fun v hv _ _ => hv.putOpt (v.wsAddr_inMembers f dst _ _) _ _
  split
  next p hp => exact stored.notePiece (physOf_lt hp) (by split <;> omega) _ _ _ _ _ _ _
  next => exact stored

theorem PieceWork.prodTile (f : Factor) (dst a b tile : Nat) : PieceWork s (t.prodTile f dst a b tile) :=
  h.foldl _ fun _ hu _ _ => hu.prodPart _ _ _ _ _ _

theorem PieceWork.rootPrep (f : Factor) (d : Nat) : PieceWork s (t.rootPrep f d).1 := by
  unfold State.rootPrep
  extract_lets n fp F ins w lam D A q u c rc Z v
  have noted : PieceWork s u := (h.sumNote _ _).sumNote _ _
  have filled : PieceWork s v := ((noted.putWs _ _ _).putWs _ _ _).putWs _ _ _
  split
  · exact h.elNote _ _ _ _ _
  · split
    · exact noted
    · exact filled.onto { filled.work with }

theorem PieceWork.rootT (f : Factor) (set : Nat) : PieceWork s (t.rootT f set) := h.putWs _ _ _

theorem PieceWork.rootStore (f : Factor) (d entry set : Nat) : PieceWork s (t.rootStore f d entry set) := by
  unfold State.rootStore
  split
  · exact h
  next e _ =>
    split
    · exact h
    next p _ => exact ((h.elNote _ _ _ _ _).gateAll _ _ _ _).wrBytes (aboveLpddr_of_le (p := p) (Nat.le_add_right _ _)) _

theorem PieceWork.foldInit (f : Factor) : PieceWork s (t.foldInit f) := by
  unfold State.foldInit
  exact h.putEls (t.factorAddr_inMembers f _) _ _ _ _ _

theorem PieceWork.foldAdd (f : Factor) : PieceWork s (t.foldAdd f) := by
  unfold State.foldAdd
  exact h.putEls (t.factorAddr_inMembers f _) _ _ _ _ _

theorem PieceWork.foldKeep (f : Factor) : PieceWork s (t.foldKeep f) := by
  unfold State.foldKeep
  exact h.putEls (t.factorAddr_inMembers f _) _ _ _ _ _

theorem PieceWork.gramTileWork (f : Factor) (fmt c tile : Nat) : PieceWork s (t.gramTileWork f fmt c tile) := by
  unfold State.gramTileWork
  extract_lets cls w cols
  refine h.foldl _ fun u hu m _ => ?_
  extract_lets rows cells X o ops g v
  have stored : PieceWork s v := (hu.gateAll _ _ _ _).foldl _ fun y hy _ _ => hy.putOpt (y.tmpAddr_inMembers f _ _) _ _
  split
  next p hp => exact stored.notePiece (physOf_lt hp) (by decide) _ _ _ _ _ _ _
  next => exact stored

theorem PieceWork.atRootCommit (d kind val : Nat) : PieceWork s (t.atRootCommit d kind val) := h.onto { h.work with }

theorem PieceWork.runPiece (f : Factor) (fmt : Nat) (r : RootRun) (x : Piece) : PieceWork s (t.runPiece f fmt r x).1 := by
  unfold State.runPiece
  split
  · exact h
  · cases x with
    | pass => exact h
    | prep =>
      dsimp only
      split
      · exact (h.rootPrep f _).atRootCommit _ _ _
      · exact h.rootPrep f _
    | tmat c => exact h.rootT f c
    | prod dst a b tile => exact h.prodTile f dst a b tile
    | resid e => exact h.sumNote f _
    | store e c => exact .ite (h.rootStore f _ e c) h
    | outcome => exact h.atRootCommit _ _ _
    | foldInit => exact h.foldInit f
    | gram c tile => exact h.gramTileWork f fmt c tile
    | foldAdd => exact h.foldAdd f
    | foldCheck =>
      dsimp only
      split
      · exact h.foldKeep f
      · exact h
    | foldEnd => exact h.atRootCommit _ _ _

theorem PieceWork.endRun (f : Factor) (r : RootRun) : PieceWork s (t.endRun f r) :=
  .ite h (.ite (h.atRootCommit _ _ _) (.ite (h.atRootCommit _ _ _) (.ite (h.atRootCommit _ _ _) h)))

theorem PieceWork.pieceCounts (f : Factor) (g : Bool) (fmt : Nat) (x : Piece) (lead : Bool) :
    PieceWork s (t.pieceCounts f g fmt x lead) := by
  have lt {p : Nat} (hp : p ∈ t.pieceMembers f g) : p < nPhys := State.pieceMembers_lt hp
  unfold State.pieceCounts
  split
  · exact h.foldl _ fun u hu p hp => ((hu.inc (lt hp) _).inc (lt hp) _).inc (lt hp) _
  · exact h.foldl _ fun u hu p hp => ((hu.inc (lt hp) _).inc (lt hp) _).inc (lt hp) _
  · exact h
  · exact h
  · refine h.foldl _ fun u hu p hp => ?_
    split
    · exact hu.draw.chainCounts (lt hp) _ _
    · exact hu.inc (lt hp) _

theorem PieceWork.piecePoison (f : Factor) (fmt : Nat) (r : RootRun) (x : Piece) : t.piecePoison f fmt r x = t :=
  h.poisonless _ _ _ _ _

end

/-! ### A root run takes its next piece (R157, R162) -/

/-- The run is that of block `d`, its gauge sequence if `g`. -/
def RootRun.isOf (r : RootRun) (d : Nat) (g : Bool) : Bool := r.block == d && r.gauge == g

theorem RootRun.isOf_iff {r : RootRun} {d : Nat} {g : Bool} : r.isOf d g = true ↔ r.block = d ∧ r.gauge = g := by
  simp [RootRun.isOf]

/-- The runs beside that of a block. -/
def State.otherRuns (s : State) (d : Nat) (g : Bool) : List RootRun := s.root.runs.filter fun r => !r.isOf d g

/-- Which sequence a run is, and its place in it. -/
def RootRun.place (r : RootRun) : Nat × Bool × Nat := (r.block, r.gauge, r.piece)

/-- A piece's work notes its results in the run, not another place. -/
theorem State.runPiece_place (s : State) (f : Factor) (fmt : Nat) (r : RootRun) (x : Piece) :
    (s.runPiece f fmt r x).2.place = r.place := by
  unfold State.runPiece
  split
  · rfl
  · cases x with
    | prep =>
      dsimp only
      split <;> rfl
    | foldCheck =>
      dsimp only
      split <;> rfl
    | _ => rfl

/-- `t` is `s` after the sequence of block `d` has come to piece `k` or ended. -/
structure RunStepped (d : Nat) (g : Bool) (k : Nat) (s t : State) : Prop where
  work : ArrayWork aboveLpddr s t
  runs : t.root.runs = s.otherRuns d g ∨ ∃ r, r.place = (d, g, k) ∧ t.root.runs = s.otherRuns d g ++ [r]

theorem State.stepRun_stepped {s : State} (clean : s.poison = []) (running : s.running = true) (r : RootRun) (x : Piece) (lead : Bool) :
    RunStepped r.block r.gauge (r.piece + 1) s (s.stepRun r x lead) := by
  unfold State.stepRun
  extract_lets f fmt rest s1 y q r' l z done s2
  have same : s1 = s := by
    unfold s1
    split
    · rfl
    · exact (PieceWork.refl clean).piecePoison f fmt r x
  have met : PieceWork s s1 := by
    rw [same]
    exact .refl clean
  have hy : PieceWork s y.1 := PieceWork.runPiece (.ite met (met.pieceCounts _ _ _ _ _)) _ _ _ _
  have hz : PieceWork s z.1 := by
    unfold z
    split
    · exact hy.runPiece _ _ _ _
    · exact hy.runPiece _ _ _ _
    · exact hy
  have began : y.2.place = r.place := State.runPiece_place _ _ _ _ _
  have next : r'.place = (r.block, r.gauge, r.piece + 1) := by
    simp only [RootRun.place, Prod.mk.injEq] at began ⊢
    exact ⟨began.1, began.2.1, rfl⟩
  have place : z.2.place = r'.place := by
    unfold z
    split
    · exact State.runPiece_place _ _ _ _ _
    · exact State.runPiece_place _ _ _ _ _
    · rfl
  rw [if_neg (by simp [same, running])]
  split
  · exact ⟨{ (hz.endRun f z.2).work with }, .inl rfl⟩
  · exact ⟨{ hz.work with }, .inr ⟨z.2, place.trans next, rfl⟩⟩

/-- The sequence of block `d` has come to piece `k`, or none of it is in progress. -/
def State.CameTo (s : State) (d : Nat) (g : Bool) (k : Nat) : Prop :=
  (∃ r ∈ s.root.runs, r.block = d ∧ r.gauge = g ∧ r.piece = k) ∨ ∀ r ∈ s.root.runs, ¬(r.block = d ∧ r.gauge = g)

section
variable {d : Nat} {g : Bool} {k : Nat} {s t : State}

theorem RunStepped.cameTo (h : RunStepped d g k s t) : t.CameTo d g k := by
  rcases h.runs with ended | ⟨r, place, runs⟩
  · refine .inr fun r hr is => ?_
    rw [ended] at hr
    simpa [RootRun.isOf_iff.2 is] using (List.mem_filter.1 hr).2
  · simp only [RootRun.place, Prod.mk.injEq] at place
    exact .inl ⟨r, by simp [runs], place⟩

/-- The step of another block's run leaves it there. -/
theorem RunStepped.keeps_cameTo {b : Nat} {q : Bool} {j : Nat} (h : RunStepped b q j s t) (other : b ≠ d) (came : s.CameTo d g k) :
    t.CameTo d g k := by
  have kept {r : RootRun} (hr : r.block = d) : r ∈ t.root.runs ↔ r ∈ s.root.runs := by
    have filtered : r ∈ s.otherRuns b q ↔ r ∈ s.root.runs := by
      have : r.block ≠ b := hr ▸ other.symm
      simp [State.otherRuns, RootRun.isOf, this]
    rcases h.runs with ended | ⟨r', place, runs⟩
    · rw [ended, filtered]
    · have : r ≠ r' := by
        rintro rfl
        exact other ((congrArg Prod.fst place).symm.trans hr)
      rw [runs, List.mem_append, filtered, List.mem_singleton, or_iff_left this]
  rcases came with ⟨r, hr, place⟩ | none
  · exact .inl ⟨r, (kept place.1).2 hr, place⟩
  · exact .inr fun r hr is => none r ((kept is.1).1 hr) is

/-- The step leaves the runs of other blocks as they were. -/
theorem RunStepped.others (h : RunStepped d g k s t) : t.otherRuns d g = s.otherRuns d g := by
  have twice : (s.otherRuns d g).filter (fun r => !r.isOf d g) = s.otherRuns d g := by simp [State.otherRuns]
  rcases h.runs with ended | ⟨r, place, runs⟩
  · rw [State.otherRuns, ended, twice]
  · simp only [RootRun.place, Prod.mk.injEq] at place
    have own : r.isOf d g = true := RootRun.isOf_iff.2 ⟨place.1, place.2.1⟩
    rw [State.otherRuns, runs, List.filter_append, twice, List.filter_cons_of_neg (by simp [own]), List.filter_nil, List.append_nil]

end

/-- A pass is shared with runs of other blocks alone. -/
theorem State.passMates_block {s : State} {f : Factor} {r q : RootRun} {x : Piece} (h : q ∈ s.passMates f r x) : r.block ≠ q.block := by
  unfold State.passMates at h
  split at h
  · cases h
  · have shares := (List.mem_filter.1 h).2
    simp only [Bool.and_eq_true, bne_iff_ne, ne_eq] at shares
    tauto

/-- The next piece of a block's sequence: its own step, then those of the blocks that share the pass. -/
theorem State.nextPiece_done {s : State} (clean : s.poison = []) (running : s.running = true) {g : Bool} {d p : Nat} {r : RootRun}
    {x : Piece} (hr : s.runOf g d = some r) (hx : (s.piecesOf (s.factor d) r)[r.piece]? = some x) :
    ArrayWork aboveLpddr s (s.nextPiece g d p []) ∧ (s.nextPiece g d p []).CameTo d g (r.piece + 1) ∧
      (s.passMates (s.factor d) r x = [] → (s.nextPiece g d p []).otherRuns d g = s.otherRuns d g) := by
  obtain ⟨rfl, rfl⟩ : r.block = d ∧ r.gauge = g := by simpa using List.find?_some hr
  have stepped := State.stepRun_stepped clean running r x true
  have unfolded : s.nextPiece r.gauge r.block p [] = (s.passMates (s.factor r.block) r x).foldl (fun s q =>
      match (s.piecesOf (s.factor q.block) q)[q.piece]? with
      | some y => if s.running then s.stepRun q y false else s
      | none => s) (s.stepRun r x true) := by
    unfold State.nextPiece
    rw [hr]
    dsimp only
    rw [hx]
    exact if_neg (by simp [State.pieceHw, running])
  rw [unfolded]
  refine and_assoc.1 ⟨?_, fun alone => by rw [alone]; exact stepped.others⟩
  refine List.foldlRecOn (motive := fun t : State => ArrayWork aboveLpddr s t ∧ t.CameTo r.block r.gauge (r.piece + 1)) _ _
    ⟨stepped.work, stepped.cameTo⟩ fun t ht q hq => ?_
  obtain ⟨work, came⟩ := ht
  split
  next y _ =>
    split
    next on =>
      have mate := State.stepRun_stepped work.clean on q y false
      exact ⟨work.trans mate.work, mate.keeps_cameTo (State.passMates_block hq).symm came⟩
    next => exact ⟨work, came⟩
  next => exact ⟨work, came⟩

/-! ### The work of the solver's pieces (R202 to R217) -/

/-- The members of a solve are clusters. -/
def SolEnv.OnClusters (e : SolEnv) : Prop := ∀ m ∈ e.ms, m.p < nPhys

theorem State.solEnv_onClusters (s : State) (ctx desc : Nat) (adj : Bool) : (s.solEnv ctx desc adj).1.OnClusters := by
  intro m hm
  obtain ⟨i, -, found⟩ := List.mem_filterMap.1 hm
  obtain ⟨p, hp, rfl⟩ := Option.map_eq_some_iff.1 found
  exact physOf_lt hp

theorem SolEnv.le_addr (e : SolEnv) (n : Nat) (m : SolMember) (v : SVec) : veneerBase m.p ≤ e.addr n m v := Nat.le_add_right _ _

theorem SolEnv.addr_above (e : SolEnv) (n : Nat) (m : SolMember) (v : SVec) : aboveLpddr (e.addr n m v) :=
  aboveLpddr_of_le (e.le_addr n m v)

/-- A place in a cluster's own region. -/
theorem aboveLpddr_add (p off : Nat) : aboveLpddr (veneerBase p + off) := aboveLpddr_of_le (Nat.le_add_right _ _)

section
variable {s t : State} (h : PieceWork s t)
include h

theorem PieceWork.sendParts (e : SolEnv) (r : SolveRun) (l : List Nat) : PieceWork s (t.sendParts e r l) :=
  .ite h (h.foldl _ fun _ hu _ _ => hu.emit _)

theorem PieceWork.scalarPut (e : SolEnv) (r : SolveRun) (i k n : Nat) : PieceWork s (t.scalarPut e r i k n) :=
  h.foldl _ fun _ hu m _ => hu.wrBytes (aboveLpddr_of_le (p := m.p) (by omega)) _

theorem PieceWork.scalarWrite (e : SolEnv) (r : SolveRun) (o : ScOp) : PieceWork s (t.scalarWrite e r o) :=
  (h.scalarPut _ _ _ _ _).scalarPut _ _ _ _ _

theorem PieceWork.solBegin (e : SolEnv) (r : SolveRun) : PieceWork s (t.solBegin e r).1 := by
  unfold State.solBegin
  split
  · exact (h.scalarPut _ _ _ _ _).scalarPut _ _ _ _ _
  · exact h

theorem PieceWork.solStatus (e : SolEnv) (r : SolveRun) : PieceWork s (t.solStatus e r) :=
  h.foldl _ fun _ hu _ _ => hu.wrBytes (aboveLpddr_add _ _) _

theorem PieceWork.clearVec (e : SolEnv) (v : SVec) : PieceWork s (t.clearVec e v) :=
  h.foldl _ fun _ hu _ _ => hu.wrBytes (e.addr_above _ _ _) _

theorem PieceWork.putVec (e : SolEnv) (m : SolMember) (v : SVec) (xs : List Val) : PieceWork s (t.putVec e m v xs) :=
  (h.gateAll _ _ _ _).wrBytes (e.addr_above _ _ _) _

theorem PieceWork.haloExchange (e : SolEnv) (v : SVec) : PieceWork s (t.haloExchange e v) := by
  refine h.foldl _ fun u hu m _ => (hu.wrBytes (aboveLpddr_add _ _) _).foldl _ fun w hw k _ => ?_
  dsimp only
  split
  · exact hw
  · split
    · exact hw
    · exact hw.wrBytes (aboveLpddr_of_le (p := m.p) (by omega)) _

section
variable {m : SolMember} (hm : m.p < nPhys)
include hm

theorem PieceWork.putEl (e : SolEnv) (v : SVec) (xs : List (List Val × Val)) : PieceWork s (t.putEl e m v xs) :=
  (h.putVec _ _ _ _).finNote hm _

theorem PieceWork.partial (e : SolEnv) (hand : Hand) (x y : SVec) : PieceWork s (t.partial e hand m x y).2 :=
  (h.gateAll _ _ _ _).finNote hm _

theorem PieceWork.chainOob (oob : Bool) : PieceWork s (t.chainOob m.p oob) :=
  .ite ((h.setAt (q := 0) hm (by decide) 1).fatalAtGlue _ _ _ _) h

theorem PieceWork.putRows (e : SolEnv) (d : SVec) (rows : List RowElems) : PieceWork s (t.putRows e m d rows) :=
  ((h.putVec _ _ _ _).finNote hm _).inc hm _

theorem PieceWork.scatterNote (x : Scatter) : PieceWork s (t.scatterNote m x) := (h.gateAll _ _ _ _).finNote hm _

theorem PieceWork.bjNote (k : Nat) (x : BjRun) : PieceWork s (t.bjNote m.p k x) :=
  ((h.gateAll _ _ _ _).finNote hm _).foldl _ fun _ hu _ _ => (hu.gateAll _ _ _ _).foldl _ fun _ hw _ _ =>
    hw.notePiece hm (Nat.mod_lt _ (by decide)) _ _ _ _ _ _ _

theorem PieceWork.tableCounts (c : Nat) : PieceWork s (t.tableCounts m.p c) :=
  ((h.chainCounts hm _ _).inc hm _).inc hm _

end

section
variable {e : SolEnv} (he : e.OnClusters)
include he

theorem PieceWork.stmt (hand : Hand) (r : SolveRun) (x : SStmt × Bool) : PieceWork s (t.stmt e hand r x).1 := by
  unfold State.stmt
  split
  · exact List.foldlRecOn (motive := fun y : List Nat × State => PieceWork s y.2) _ _ h fun _ hy m hm => hy.partial (he m hm) _ _ _ _
  · refine List.foldlRecOn (motive := fun z : State × Hand => PieceWork s z.1) _ _ h fun z hz m hm => ?_
    dsimp only
    split
    next d _ =>
      have noted : PieceWork s (if x.2 then z.1.putEl e m d.1 d.2 else z.1.finNote m.p (d.2.flatMap (elFlags fFP64))) :=
        .ite (hz.putEl (he m hm) _ _ _) (hz.finNote (he m hm) _)
      exact .ite (noted.finNote (he m hm) _) noted
    next => exact hz

theorem PieceWork.chain (r : SolveRun) (l : List SStmt) : PieceWork s (t.chain e r l).1 :=
  List.foldlRecOn (motive := fun y : State × Hand × SolveRun => PieceWork s y.1) _ _ h fun _ hy _ _ => hy.stmt he _ _ _

theorem PieceWork.product (d : SVec) : PieceWork s (t.product e d) :=
  h.foldl _ fun _ hu m hm => (hu.chainOob (he m hm) _).putRows (he m hm) _ _ _

theorem PieceWork.productT (d x : SVec) (ext : List HaloBack) : PieceWork s (t.productT e d x ext) := by
  unfold State.productT
  extract_lets s1 bufs s2 back
  have member {b : SolMember × Scatter} (hb : b ∈ bufs) : b.1.p < nPhys := by
    obtain ⟨m, hm, rfl⟩ := List.mem_map.1 hb
    exact he m hm
  have zeroed : PieceWork s s1 := h.foldl _ fun _ hu m hm => (hu.chainOob (he m hm) _).putVec _ _ _ _
  have added : PieceWork s s2 := zeroed.foldl _ fun _ hu b hb => (hu.scatterNote (member hb) _).wrBytes (aboveLpddr_add _ _) _
  exact added.foldl _ fun _ hu b hb => (hu.scatterNote (member hb) _).wrBytes (e.addr_above _ _ _) _

theorem PieceWork.jacobiSetup : PieceWork s (t.jacobiSetup e).1 :=
  List.foldlRecOn (motive := fun y : State × Nat => PieceWork s y.1) _ _ h fun _ hy m hm =>
    (hy.chainOob (he m hm) _).putEl (he m hm) _ _ _

theorem PieceWork.bjSetup : PieceWork s (t.bjSetup e).1 :=
  List.foldlRecOn (motive := fun y : State × Nat × Nat => PieceWork s y.1) _ _ h fun _ hy m hm =>
    List.foldlRecOn (motive := fun y : State × Nat × Nat => PieceWork s y.1) _ _ hy fun _ hz k _ =>
      (((hz.chainOob (he m hm) _).gateAll _ _ _ _).bjNote (he m hm) k _).wrBytes
        (aboveLpddr_of_le ((SolEnv.le_addr _ _ m _).trans (Nat.le_add_right _ _))) _

theorem PieceWork.bjApply (d x : SVec) (tr : Bool) : PieceWork s (t.bjApply e d x tr) :=
  h.foldl _ fun _ hu m hm => (hu.chainOob (he m hm) _).putRows (he m hm) _ _ _

theorem PieceWork.solOut (p : Pattern) (r : SolveRun) : PieceWork s (t.solOut e p r) := by
  unfold State.solOut
  refine List.foldlRecOn (motive := fun y : State × Nat => PieceWork s y.1) _ _ h fun y hy m hm => ?_
  extract_lets u xs a v w z
  have noted : PieceWork s w := ((hy.wrBytes (aboveLpddr_add _ _) _).gateAll _ _ _ _).finNote (he m hm) _
  exact (noted.gateAll _ _ _ _).wrBytes (aboveLpddr_add _ _) _

theorem PieceWork.solDeriv : PieceWork s (t.solDeriv e) :=
  h.foldl _ fun _ hu m hm => ((hu.gateAll _ _ _ _).wrBytes (aboveLpddr_add _ _) _).finNote (he m hm) _

/-- What a piece does, but for a user chain. -/
theorem PieceWork.solAct (p : Pattern) (fab : SolverIn) (r : SolveRun) {x : SAct} (hx : ∀ k, x ≠ .user k) :
    PieceWork s (t.solAct e p fab r x).1 := by
  cases x with
  | vecs l last => exact h.chain he r l
  | halo v => exact h.haloExchange e v
  | mat d tr x => exact .ite (h.productT he _ _ _) (h.product he _)
  | red warm => exact .fst_ite (h.sendParts _ _ _) (h.sendParts _ _ _)
  | sc o => exact .ite ((h.scalarWrite _ _ _).solStatus _ _) (h.scalarWrite _ _ _)
  | warmCheck => exact h
  | x0 => exact .fst_ite (h.chain he _ _) (h.chain he _ _)
  | jacobi => exact h.jacobiSetup he
  | part => exact h
  | factor => exact h.bjSetup he
  | block d x tr => exact h.bjApply he d x tr
  | user k => exact absurd rfl (hx k)
  | out => exact h.solOut he p r
  | deriv => exact h.solDeriv he

theorem PieceWork.solCounts (r : SolveRun) (x : SPiece) : PieceWork s (t.solCounts e r x) := by
  refine .ite (h.foldl _ fun _ hu m hm => ((hu.inc (he m hm) _).inc (he m hm) _).inc (he m hm) _)
    (h.foldl _ fun _ hu m hm => hu.foldl _ fun _ hw k _ => ?_)
  exact .ite hw (.ite (hw.chainCounts (he m hm) _ _) (hw.tableCounts (he m hm) _))

end

end

/-! ### What every stage of a chain keeps (R122 to R136) -/

/-- What holds of a state is kept by each kind of change that the stages of a chain are made of; so it is kept by the chain, whatever it
is: that a chain leaves the sequences needs no account of the places that it writes. -/
structure ChainKeeps (P : State → Prop) : Prop where
  set : ∀ {t : State}, P t → ∀ f v, P (t.set f v)
  wrBytes : ∀ {t : State}, P t → ∀ a bs, P (t.wrBytes a bs)
  draw : ∀ {t : State}, P t → P t.draw.2
  countGate : ∀ {t : State}, P t → ∀ cls fmt os, P (t.countGate cls fmt os)
  fatalAtGlue : ∀ {t : State}, P t → ∀ scope index source code, P (t.fatalAtGlue scope index source code)
  readPoison : ∀ {t : State}, P t → ∀ rs vsrc msrc, P (t.readPoison rs vsrc msrc)
  noteWrite : ∀ {t : State}, P t → ∀ rs vsrc, P (t.noteWrite id rs vsrc)

section
variable {P : State → Prop} (k : ChainKeeps P)
include k

theorem ChainKeeps.ndUsed {t : State} (h : P t) (f : Fld) : P (t.ndUsed f) := by
  unfold State.ndUsed
  dsimp only
  split
  · exact k.set (k.set h _ _) _ _
  · exact k.set h _ _

theorem ChainKeeps.noteSre {t : State} (h : P t) (g : Gate) (n : Nat) : P (t.noteSre g n) := by
  unfold State.noteSre
  split
  · exact k.ndUsed h _
  · exact h

theorem ChainKeeps.gateAll {t : State} (h : P t) (cls : Nat) (g : Gate) (tensor : Nat) (xs : List (Nat × Val)) :
    P (t.gateAll cls g tensor xs).2 := k.noteSre (k.countGate h _ _ _) _ _

end

/-- It holds of the state of a chain in progress. -/
def FinRun.Has (P : State → Prop) (r : FinRun) : Prop := P r.s

theorem FinRun.Has.ite {P : State → Prop} {c : Prop} [Decidable c] {a b : FinRun} (ha : a.Has P) (hb : b.Has P) :
    (if c then a else b).Has P := by
  split
  · exact ha
  · exact hb

section
variable {P : State → Prop} {r : FinRun} (h : r.Has P)
include h

theorem FinRun.Has.foldl {α : Type} {f : FinRun → α → FinRun} (as : List α) (hf : ∀ r, r.Has P → ∀ a ∈ as, (f r a).Has P) :
    (as.foldl f r).Has P := List.foldlRecOn (motive := FinRun.Has P) as f h hf

variable (k : ChainKeeps P)
include k

theorem FinRun.Has.put (n : Nat) (l : List (Nat × Nat)) (bs : List Nat) : (FinRun.put n l bs r).Has P := by
  induction l generalizing r bs with
  | nil => exact h
  | cons x l ih => exact ih (r := { r with s := _, pend := _ }) (k.wrBytes h _ _) _

theorem FinRun.Has.putDest (n w : Nat) (d : Dest) (code : Nat) : (r.putDest n w d code).Has P := h.put k _ _ _

theorem FinRun.Has.putBits (c : FinCtx) (st : Stream) (n w : Nat) (b : Int) (code : Nat) : (r.putBits c st n w b code).Has P := by
  unfold FinRun.putBits
  split
  · exact h.putDest k _ _ _ _
  · exact h

theorem FinRun.Has.loadSlot (c : FinCtx) (o g lanes j : Nat) (st : Stream) : (r.loadSlot c o g lanes j st).Has P :=
  k.readPoison h _ _ _

theorem FinRun.Has.loadRing (lanes j : Nat) : (r.loadRing lanes j).Has P := by
  unfold FinRun.loadRing
  extract_lets x
  have drawn : P x.2 := List.foldlRecOn (motive := fun x : List Val × State => P x.2) _ _ h fun _ hx _ _ => k.draw hx
  exact .ite h drawn

theorem FinRun.Has.loadAll (c : FinCtx) (o g lanes : Nat) : (r.loadAll c o g lanes).Has P :=
  have begun : FinRun.Has P { r with loads := [] } := h
  (begun.foldl _ fun _ hr _ _ => hr.foldl _ fun _ hq _ _ => .ite hq (hq.loadSlot k _ _ _ _ _ _)).foldl _ fun _ hr _ _ => hr.loadRing k _ _

theorem FinRun.Has.loadIndex (c : FinCtx) (o n : Nat) (st : Stream) : (FinRun.loadIndex c o n r st).Has P := by
  induction n generalizing st with
  | zero => exact h
  | succ n ih =>
    refine .ite ?_ h
    split
    · exact (ih _).loadSlot k _ _ _ _ _ _
    · exact h

theorem FinRun.Has.addOne (c : FinCtx) (st : Stream) (n o i : Nat) (d : Dest) (v : Val) : (r.addOne c st n o i d v).Has P := by
  have put {u : State} (hu : P u) (w code : Nat) : (FinRun.putDest n w d code { r with s := u }).Has P :=
    FinRun.Has.putDest (r := { r with s := u }) hu k n w d code
  unfold FinRun.addOne
  extract_lets g s1 sum
  have met : P s1 := k.readPoison h _ _ _
  split
  · exact .ite (put met _ _) (put (k.draw met) _ _)
  · split
    · exact (put (k.noteSre (k.countGate (k.draw met) _ _ _) _ _) _ _).put k _ _ _
    · exact put (k.gateAll met _ _ _ _) _ _

theorem FinRun.Has.storePlain (c : FinCtx) (st : Stream) (n o : Nat) (xs : List (Nat × Nat × Val)) : (r.storePlain c st n o xs).Has P := by
  refine FinRun.Has.foldl (r := { r with s := _ }) (k.noteWrite (k.gateAll h _ _ _ _) _ _) _ fun r hr x _ => ?_
  split
  · exact hr.put k _ _ _
  · exact hr

theorem FinRun.Has.addOrdered (c : FinCtx) (st : Stream) (n o : Nat) (xs : List (Nat × Nat × Val)) : (r.addOrdered c st n o xs).Has P := by
  refine FinRun.Has.foldl (r := { r with s := _, passOver := _ }) (k.set h _ _) _ fun r hr y _ => ?_
  split
  · exact hr.addOne k _ _ _ _ _ _ _
  · exact hr

theorem FinRun.Has.addUnordered (c : FinCtx) (st : Stream) (n o : Nat) (xs : List (Nat × Nat × Val)) :
    (r.addUnordered c st n o xs).Has P := by
  refine FinRun.Has.foldl (r := { r with s := _, oob := _, flags := _ }) (k.ndUsed h _) _ fun r hr z _ => ?_
  extract_lets old ups r1 r2
  have added : r1.Has P := hr.addOne k _ _ _ _ _ _ _
  have settled : r2.Has P := by
    unfold r2
    refine .ite added ?_
    split
    · exact added.putDest k _ _ _ _
    · exact FinRun.Has.putDest (r := { r1 with s := _ }) (k.draw added) k _ _ _ _
  exact settled

theorem FinRun.Has.storeMask (c : FinCtx) (st : Stream) (n o : Nat) (xs : List (Nat × Nat × Val)) : (r.storeMask c st n o xs).Has P :=
  FinRun.Has.foldl (r := { r with s := _ }) (k.noteWrite h _ 2) _ fun _ hr _ _ => hr.putBits k _ _ _ _ _ _

theorem FinRun.Has.scatterBlock (c : FinCtx) (st : Stream) (n w scale : Nat) (xs : List (Option Int × Nat)) :
    (r.scatterBlock c st n w scale xs).Has P := by
  refine h.foldl _ fun r hr x _ => ?_
  dsimp only
  split
  · exact (FinRun.Has.putBits (r := { r with s := _ }) (k.noteWrite hr _ 2) k _ _ _ _ _ _).put k _ _ _
  · exact hr

theorem FinRun.Has.storeBlock (c : FinCtx) (st : Stream) (n o blk n1 : Nat) (xs : List (Nat × Option Int × Val)) :
    (r.storeBlock c st n o blk n1 xs).Has P := by
  unfold FinRun.storeBlock
  extract_lets g w b r1
  have gated : r1.Has P := k.noteSre (k.countGate h _ _ _) _ _
  refine .ite h (.ite (gated.scatterBlock k _ _ _ _ _ _) ?_)
  split
  · exact (FinRun.Has.put (r := { r1 with s := _ }) (k.noteWrite gated _ 2) k _ _ _).put k _ _ _
  · exact gated

theorem FinRun.Has.storeMx (c : FinCtx) (st : Stream) (j n o g lanes : Nat) (xs : List (Nat × Nat × Val)) :
    (r.storeMx c st j n o g lanes xs).Has P := FinRun.Has.foldl h _ fun _ hr _ _ => hr.storeBlock k _ _ _ _ _ _ _

theorem FinRun.Has.storeAs (c : FinCtx) (st : Stream) (n o : Nat) (xs : List (Nat × Nat × Val)) : (r.storeAs c st n o xs).Has P := by
  unfold FinRun.storeAs
  split
  · exact h.storePlain k _ _ _ _ _
  · exact .ite (h.addOrdered k _ _ _ _ _) (h.addUnordered k _ _ _ _ _)
  · exact h.addOrdered k _ _ _ _ _

theorem FinRun.Has.store (c : FinCtx) (j o g lanes : Nat) (xs : List (Nat × Nat × Val)) : (r.store c j o g lanes xs).Has P := by
  unfold FinRun.store
  split
  · exact h
  · exact .ite (h.storeAs k _ _ _ _ _) (.ite (h.storeMask k _ _ _ _ _) (.ite (h.storeMx k _ _ _ _ _ _ _ _) (h.storeAs k _ _ _ _ _)))

theorem FinRun.Has.reduce (c : FinCtx) (j : Nat) (x : FinInstr) (o g lanes : Nat) : (r.reduce c j x o g lanes).Has P := by
  unfold FinRun.reduce
  extract_lets js row rest op y r1 r2
  have flagged : r1.Has P := h
  have counted : r2.Has P := .ite (k.set flagged _ _) flagged
  refine .ite h ?_
  split
  · exact counted
  next st _ =>
    have indexed := counted.loadIndex k c o 8 st
    exact .ite (indexed.storeBlock k _ _ _ _ _ _ _) (indexed.storeAs k _ _ _ _ _)

theorem FinRun.Has.instr (c : FinCtx) (j : Nat) (x : FinInstr) (o g lanes : Nat) : (r.instr c j x o g lanes).Has P := by
  unfold FinRun.instr
  extract_lets js res on vs r1
  have flagged : r1.Has P := h
  exact .ite (h.reduce k _ _ _ _ _ _) (.ite flagged (.ite flagged (.ite (flagged.store k _ _ _ _ _ _) flagged)))

theorem FinRun.Has.group (c : FinCtx) (prog : List FinInstr) (o g : Nat) : (r.group c prog o g).Has P :=
  have settled : (r.settle (c.groupNo o g)).Has P := h
  (settled.loadAll k _ _ _ _).foldl _ fun _ hr _ _ => hr.instr k _ _ _ _ _ _

/-- BUSY comes after all that a chain leaves. -/
theorem FinRun.Has.finish (c : FinCtx) (entry : Nat) : ∃ u, P u ∧
    (r.finish c entry = u ∨ r.finish c entry = (u.set (FIN_STATUS.PASS_OVER c.p) 1).schedFault 2 fBUSY .cluster c.p entry) := by
  unfold FinRun.finish
  extract_lets s1 s2 s3
  have ite {q : Prop} [Decidable q] {a b : State} (ha : P a) (hb : P b) : P (if q then a else b) := by
    split
    · exact ha
    · exact hb
  have flags : P s1 := List.foldlRecOn (motive := P) _ _ h fun _ hu _ _ => k.set hu _ _
  have oob : P s2 := ite (k.fatalAtGlue (k.set flags _ _) _ _ _ _) flags
  have invalid : P s3 := ite (k.fatalAtGlue oob _ _ _ _) oob
  refine ⟨s3, invalid, ?_⟩
  split
  · exact .inr rfl
  · exact .inl rfl

end

/-- What holds of a state holds after a chain, up to its BUSY. -/
theorem State.runChain_keeps {P : State → Prop} (k : ChainKeeps P) {s : State} (h : P s) (p ch entry : Nat) :
    ∃ u, P u ∧ (s.runChain p ch entry = u ∨
      s.runChain p ch entry = (u.set (FIN_STATUS.PASS_OVER p) 1).schedFault 2 fBUSY .cluster p entry) := by
  unfold State.runChain
  extract_lets d st c prog s1 s2 z r0 r
  have begun : r0.Has P := k.set (k.readPoison h _ _ _) _ _
  have run : r.Has P := begun.foldl _ fun _ hr _ _ => hr.foldl _ fun _ hq _ _ => hq.group k _ _ _ _
  exact run.finish k c entry

/-! ### The chains of a user preconditioner (R135, R210) -/

/-- An operand space lies above LPDDR. -/
theorem State.spaceAddr_above {s : State} {p space off a : Nat} (h : s.spaceAddr p space off 1 = some a) : aboveLpddr a := by
  unfold State.spaceAddr at h
  split at h
  · split at h
    · exact Option.some.inj h ▸ aboveLpddr_add _ _
    · cases h
  · split at h
    · cases h
    · split at h
      · exact Option.some.inj h ▸ aboveLpddr_add _ _
      · split at h
        · exact Option.some.inj h ▸ aboveLpddr_add _ _
        · cases h
  · split at h
    · obtain rfl := Option.some.inj h
      unfold aboveLpddr veneerBase opbufBase
      omega
    · cases h
  · cases h

theorem State.chainSpaces_above {s : State} {p ch x : Nat} (h : s.chainSpaces p ch x) : aboveLpddr x := by
  obtain ⟨_, _, _, _, addr⟩ := h
  exact State.spaceAddr_above addr

/-- The fields of a chain stand in the cluster's blocks, or record nondeterministic features. -/
theorem finisherFields_place {p : Nat} (hp : p < nPhys) :
    ∀ f ∈ finisherFields p, f.ofCluster ∨ f.lo < 64 ∧ f.addr = DET_ND_USED.SRE.addr := by
  have place := pieceFields_ofCluster hp (by decide : 0 < 4)
  simp only [pieceFields, List.forall_mem_cons] at place
  simp only [finisherFields, List.forall_mem_cons, place, true_or, true_and]
  exact ⟨.inr (by decide), .inr (by decide), .inr (by decide), by simp⟩

/-- PASS_OVER of no cluster is one of them. -/
theorem passOver_notMem_finisherFields (p q : Nat) : (FIN_STATUS.PASS_OVER q).key ∉ (finisherFields p).map Fld.key := by
  simp only [finisherFields, List.map_cons, List.map_nil, List.mem_cons, List.not_mem_nil, or_false, not_or, Fld.key,
    FIN_FLAGS.NAN_IN, FIN_FLAGS.NAN_MADE, FIN_FLAGS.OVF_ARITH, FIN_FLAGS.DIV_ZERO, FIN_FLAGS.ISAT, FIN_FLAGS.EMPTY, FIN_FLAGS.OOB,
    FIN_FLAGS.TBL_INVALID, FIN_FLAGS.TBL_REJECT, FIN_EMPTY_REDUCE.COUNT, FIN_SCATTER.ORDERED_GROUPS, FIN_SCATTER.SERIALISED,
    DET_ND_USED.SCATTER_U, DET_ND_USED.SRE, DET_ND_USED.FIRST_STEP, FIN_STATUS.PASS_OVER, finBase, detBase]
  omega

/-- Nor does SOL_STATUS stand there. -/
theorem passOver_notMem_solStatus (q : Nat) : (FIN_STATUS.PASS_OVER q).key ∉ [SOL_STATUS.ACTIVE, SOL_STATUS.GATED].map Fld.key := by
  have bit : (FIN_STATUS.PASS_OVER q).key % 64 = 2 := Nat.mul_add_mod_self_right _ _ _
  have others : ∀ k ∈ [SOL_STATUS.ACTIVE, SOL_STATUS.GATED].map Fld.key, k % 64 ≠ 2 := by decide
  exact fun listed => others _ listed bit

/-- A chain that met no uncorrectable word worked as a piece does. -/
theorem EntryWork.arrayWork {K : Nat → Prop} {p : Nat} {s t : State} (h : EntryWork K (finisherFields p) s t) (hp : p < nPhys)
    (clean : s.poison = []) (hK : ∀ x, K x → aboveLpddr x) : ArrayWork aboveLpddr s t := by
  have quiet := h.quiet clean
  refine ⟨quiet.clean, h.active, h.xr, quiet.busy, fun g hg => quiet.get g fun listed => ?_, fun x hx => quiet.mem x fun hk => hx (hK x hk)⟩
  obtain ⟨f, hf, key⟩ := List.mem_map.1 listed
  obtain ⟨outside, sre⟩ := hg.2
  rcases finisherFields_place hp f hf with ⟨lo, low, high⟩ | ⟨lo, det⟩
  · exact hg.key_ne lo (by omega) key.symm
  · exact hg.key_ne lo (by rwa [det]) key.symm

theorem State.schedFault_lasting (s : State) {cls : Nat} (hc : cls ≤ 2) (code : Nat) (u : UnitKind) (idx entry : Nat) :
    (s.schedFault cls code u idx entry).lasting = s.lasting := by
  rw [State.schedFault_eq]
  exact ((Upset.refl errorFields _).raiseOpen hc _ _ _ _).rest.trans (congrArg State.lasting (s.recordFault_frame _ _ _ _ _ _) :)

/-- The solves stay, and no word becomes uncorrectable, whatever a chain does before BUSY. -/
theorem ChainKeeps.sequences (s : State) : ChainKeeps fun t => t.poison = [] ∧ t.sequences = s.sequences where
  set h _ _ := h
  wrBytes {t} h a bs := ⟨by rw [State.wrBytes, h.1]; rfl, h.2⟩
  draw h := h
  countGate h _ _ _ := h
  fatalAtGlue h _ _ _ _ := h
  readPoison h _ _ _ := by rwa [State.readPoison_clean h.1]
  noteWrite h _ _ := by rwa [State.noteWrite_clean h.1]

/-- `t` is `s` after chains of members: it wrote nothing to LPDDR, and unless a group needed too many passes it is after work of a
piece. -/
structure ChainsWork (e : SolEnv) (s t : State) : Prop where
  clean : t.poison = []
  kept : t.mapAndRows = s.mapAndRows
  mem : ∀ x, ¬aboveLpddr x → Memory.read t.mem x = Memory.read s.mem x
  done : (∀ m ∈ e.ms, t.is (FIN_STATUS.PASS_OVER m.p) = false) → PieceWork s t

theorem PieceWork.chainsWork {e : SolEnv} {s t : State} (h : PieceWork s t) : ChainsWork e s t :=
  ⟨h.clean, Prod.ext h.active h.work.xr, h.work.mem, fun _ => h⟩

theorem ChainsWork.runChain {e : SolEnv} {s t : State} (h : ChainsWork e s t) {m : SolMember} (hm : m ∈ e.ms) (hp : m.p < nPhys)
    (ch entry : Nat) : ChainsWork e s (t.runChain m.p ch entry) := by
  obtain ⟨u, work, done⟩ := t.runChain_work m.p ch entry
  obtain ⟨v, kept, done'⟩ := State.runChain_keeps (ChainKeeps.sequences t) ⟨h.clean, rfl⟩ m.p ch entry
  have array := work.arrayWork hp h.clean fun _ => State.chainSpaces_above
  have mem (x : Nat) (hx : ¬aboveLpddr x) : Memory.read u.mem x = Memory.read s.mem x := (array.mem x hx).trans (h.mem x hx)
  have flagged {w : State} :
      ((w.set (FIN_STATUS.PASS_OVER m.p) 1).schedFault 2 fBUSY .cluster m.p entry).is (FIN_STATUS.PASS_OVER m.p) = true := by
    rw [State.is, State.schedFault_passOver _ (Nat.le_refl 2) _ _ _ _ hp, State.get_set_same]
    rfl
  rcases done with ran | busy
  · rw [ran] at done' ⊢
    refine ⟨array.clean, work.kept.trans h.kept, mem, fun none => ?_⟩
    have before (q : SolMember) (hq : q ∈ e.ms) : t.is (FIN_STATUS.PASS_OVER q.p) = false := by
      rw [State.is, ← (work.quiet h.clean).get _ (passOver_notMem_finisherFields m.p q.p)]
      exact none q hq
    have seqs : u.sequences = t.sequences := by
      rcases done' with rfl | busy
      · exact kept.2
      · have := none m hm
        rw [busy, flagged] at this
        cases this
    exact (h.done before).onto ((h.done before).work.trans array) seqs
  · have lasting := State.schedFault_lasting (u.set (FIN_STATUS.PASS_OVER m.p) 1) (Nat.le_refl 2) fBUSY .cluster m.p entry
    rw [← busy] at lasting
    refine ⟨(congrArg State.poison lasting :).trans array.clean, ?_, fun x hx => ?_, fun none => ?_⟩
    · exact (Prod.ext (congrArg State.active lasting :) (congrArg State.xr lasting :) : _ = u.mapAndRows).trans (work.kept.trans h.kept)
    · exact (congrArg (fun v : State => Memory.read v.mem x) lasting :).trans (mem x hx)
    · have := none m hm
      rw [busy, flagged] at this
      cases this

/-! ### A solve takes its next piece (R201, R203, R211) -/

/-- `t` is `s` after what a solver's piece `x` does. -/
structure SolveWork (e : SolEnv) (x : SAct) (s t : State) : Prop where
  chains : ChainsWork e s t
  piece : (∀ k, x ≠ .user k) → PieceWork s t

theorem PieceWork.solveWork {e : SolEnv} {s t : State} (h : PieceWork s t) (x : SAct) : SolveWork e x s t := ⟨h.chainsWork, fun _ => h⟩

section
variable {e : SolEnv} (he : e.OnClusters) {s t : State} (h : PieceWork s t) (p : Pattern) (fab : SolverIn) (r : SolveRun) (x : SAct)
include he h

theorem PieceWork.solAct_solveWork : SolveWork e x s (t.solAct e p fab r x).1 := by
  refine ⟨?_, fun hx => h.solAct he p fab r hx⟩
  by_cases hx : ∀ k, x ≠ .user k
  · exact (h.solAct he p fab r hx).chainsWork
  · push Not at hx
    obtain ⟨k, rfl⟩ := hx
    refine List.foldlRecOn (motive := ChainsWork e s) _ _ h.chainsWork fun u hu m hm => ?_
    split
    · exact hu.runChain hm (he m hm) _ _
    · exact hu

theorem PieceWork.solGated_solveWork : SolveWork e x s (t.solGated e p fab r x).1 := by
  unfold State.solGated
  split
  · exact h.solveWork _
  · split
    · split
      · exact ((h.clearVec _ _).scalarWrite _ _ _).solveWork _
      · split
        · exact h.solveWork _
        · exact h.solAct_solveWork he p fab r _
    · split
      · exact (h.chain he _ _).solveWork _
      · exact h.solveWork _

end

/-- SOL_STATUS shows the solves in progress. -/
theorem State.solActive_only (s : State) : OnlyFields s s.solActive [SOL_STATUS.ACTIVE, SOL_STATUS.GATED] :=
  ((OnlyFields.refl _ _).set _ (by simp)).set _ (by simp)

/-- The solves beside that of a context and direction. -/
def State.otherSolves (s : State) (ctx : Nat) (adj : Bool) : List SolveRun :=
  s.sol.runs.filter fun r => !(r.ctx == ctx && r.adjoint == adj)

/-- `t` is `s` after a solver's piece `x`: LPDDR, the map and the row registers stay, and unless a user chain needed too many passes
the job state stays and the solve goes on or has ended. -/
structure SolveStepped (e : SolEnv) (x : SAct) (ctx : Nat) (adj : Bool) (s t : State) : Prop where
  kept : t.mapAndRows = s.mapAndRows
  mem : ∀ a, ¬aboveLpddr a → Memory.read t.mem a = Memory.read s.mem a
  goes : ((∀ k, x ≠ .user k) ∨ ∀ m ∈ e.ms, t.is (FIN_STATUS.PASS_OVER m.p) = false) → t.job = s.job ∧
    ∃ r, t.sol.runs = s.otherSolves ctx adj ++ [r] ∨ (t.sol.runs = s.otherSolves ctx adj ∧ t.sol.ended = s.sol.ended ++ [r])

section
variable {e : SolEnv} {x : SAct} {s t : State} (h : SolveWork e x s t)
include h

theorem SolveWork.pieceWork (ok : (∀ k, x ≠ .user k) ∨ ∀ m ∈ e.ms, t.is (FIN_STATUS.PASS_OVER m.p) = false) : PieceWork s t :=
  ok.elim h.piece h.chains.done

/-- Only a user chain can have halted the device. -/
theorem SolveWork.stepped_of_halted (running : s.running = true) (halted : ¬t.running = true) (ctx : Nat) (adj : Bool) :
    SolveStepped e x ctx adj s t :=
  ⟨h.chains.kept, h.chains.mem, fun ok => absurd ((h.pieceWork ok).work.running.trans running) halted⟩

/-- The solve's place is noted, and SOL_STATUS shows it. -/
theorem SolveWork.stepped {ctx : Nat} {adj : Bool} {z : SolSt} (hz : t.sol = s.sol →
      ∃ r, z.runs = s.otherSolves ctx adj ++ [r] ∨ (z.runs = s.otherSolves ctx adj ∧ z.ended = s.sol.ended ++ [r])) :
    SolveStepped e x ctx adj s ({ t with sol := z } : State).solActive := by
  have get {g : Fld} (hg : g.key ∉ [SOL_STATUS.ACTIVE, SOL_STATUS.GATED].map Fld.key) :
      ({ t with sol := z } : State).solActive.get g = t.get g := (State.solActive_only _).2 g hg
  refine ⟨h.chains.kept, h.chains.mem, fun ok => ?_⟩
  have work := h.pieceWork (ok.imp_right fun none m hm => by
    rw [State.is, ← get (passOver_notMem_solStatus m.p)]
    exact none m hm)
  exact ⟨(get (by decide) : _ = t.job).trans work.work.job, hz work.sol⟩

end

theorem State.solPiece_stepped {s : State} (clean : s.poison = []) (running : s.running = true) {ctx : Nat} {adj : Bool} {r : SolveRun}
    {x : SPiece} (hr : s.sol.runs.find? (fun r => r.ctx == ctx && r.adjoint == adj) = some r) {e : SolEnv}
    (he : e = (s.solEnv ctx r.desc adj).1) (hx : (e.pieces r.phase r.iter)[r.pos]? = some x) (p : Nat) (fab : SolverIn) :
    SolveStepped e x.act ctx adj s (s.solPiece ctx adj p fab []) := by
  subst he
  have on := s.solEnv_onClusters ctx r.desc adj
  unfold State.solPiece
  split
  next none => cases none.symm.trans hr
  next q hq =>
    obtain rfl := Option.some.inj (hq.symm.trans hr)
    extract_lets rest et e src gated
    split
    next none => cases none.symm.trans hx
    next w hw =>
      obtain rfl := Option.some.inj (hw.symm.trans hx)
      extract_lets s1 s2 b s3 r' y q' ended sol
      have met : s2 = s := (PieceWork.refl clean).poisonless _ _ _ _ _
      have start : PieceWork s s2 := by
        rw [met]
        exact .refl clean
      have begun : PieceWork s b.1 := .fst_ite (start.solBegin _ _) start
      have counted : PieceWork s s3 := .ite begun (begun.solCounts on _ _)
      have done : SolveWork e w.act s y.1 := by
        unfold y
        split
        · exact counted.solveWork _
        · split
          · exact counted.solGated_solveWork on _ _ _ _
          · split
            · exact (counted.clearVec _ _).solAct_solveWork on _ _ _ _
            · exact counted.solAct_solveWork on _ _ _ _
      rw [if_neg (by simp [met, running])]
      split
      next halted => exact done.stepped_of_halted running (by simpa using halted) _ _
      next =>
        split
        · exact done.stepped fun same => ⟨q', .inr ⟨rfl, congrArg (·.ended ++ [q']) same⟩⟩
        · exact done.stepped fun same => ⟨q', .inl rfl⟩

/-! ### ROOT_SEG, GAUGE_SEG and SOLVE start their sequences (R150, R153, R156, R198) -/

/-- A sequence starts, or none does. -/
theorem State.startRun_ite (s : State) (r : RootRun) (c : Prop) [Decidable c] :
    (if c then s.startRun r else s) = { s with root := { s.root with runs := s.root.runs ++ if c then [r] else [] } } := by
  split
  · rfl
  · rw [List.append_nil]

section
variable {s : State} {i : Issue} (h : Ready s .root engRoot i)
include h

theorem Ready.rootSeg_of_none (hw : (s.factor i.desc).window (s.get TICK_STEP.STEP) = none) :
    exec (.rootSeg i) s = .next (s.entered .root engRoot i false) := by
  refine (show execRootSeg i s = _ from s.issue_ready false _ h).trans (congrArg Host.Outcome.next ?_)
  dsimp only
  rw [show ((s.entered .root engRoot i false).factor i.desc).window ((s.entered .root engRoot i false).get TICK_STEP.STEP) = none from hw]

theorem Ready.rootSeg_of_some {w : Nat} (hw : (s.factor i.desc).window (s.get TICK_STEP.STEP) = some w) :
    exec (.rootSeg i) s = .next (if w = 0 ∨ (w < (s.factor i.desc).sRun ∧ (s.rootRec i.desc).run = true) then
      (s.entered .root engRoot i false).startRun ⟨i.desc, false, w, (s.rootRec i.desc).set, 0, false, 0, false⟩
      else s.entered .root engRoot i false) := by
  refine (show execRootSeg i s = _ from s.issue_ready false _ h).trans (congrArg Host.Outcome.next ?_)
  dsimp only
  rw [show ((s.entered .root engRoot i false).factor i.desc).window ((s.entered .root engRoot i false).get TICK_STEP.STEP) = some w from hw]
  rfl

theorem Ready.gaugeSeg : exec (.gaugeSeg i) s = .next (if (s.factor i.desc).gaugeStep (s.get TICK_STEP.STEP) then
    (s.entered .root engRoot i false).startRun ⟨i.desc, true, 0, 0, 0, false, 0, false⟩ else s.entered .root engRoot i false) :=
  show execGaugeSeg i s = _ from s.issue_ready false _ h

end

/-- Settles O25: segments and solves start in the state that their entry has entered; a root piece steps its run, then those that share
its pass; a solver's piece does its work, and its solve goes on or ends. -/
theorem rootAndSolverSequences : Obligations.RootAndSolverSequences := by
  refine ⟨fun s i ready => ⟨?_, ?_⟩, fun s => ⟨fun i ready => ?_, fun running inTick thawed clean p hp => ⟨fun g d r x hr hx => ?_,
    fun ctx adj fab r x hr hx => ?_⟩⟩⟩
  · cases hw : (s.factor i.desc).window (s.get TICK_STEP.STEP) with
    | none => exact ⟨_, ready.rootSeg_of_none hw, s.entered_occupied _ _ _ _, rfl, rfl, (List.append_nil _).symm⟩
    | some w =>
      refine ⟨_, (ready.rootSeg_of_some hw).trans (congrArg _ (State.startRun_ite _ _ _)), ?_, rfl, rfl, rfl⟩
      exact s.entered_occupied _ _ _ _
  · refine ⟨_, ready.gaugeSeg.trans (congrArg _ (State.startRun_ite _ _ _)), ?_, rfl, rfl, rfl⟩
    exact s.entered_occupied _ _ _ _
  · refine ⟨_, SolveRun.fresh (i.tag % 16) i.desc (i.arg == 1) 0 0 0, show execSolve i s = _ from s.issue_ready false _ ready, ?_, rfl, rfl,
      rfl, rfl, rfl, rfl, rfl, rfl, ?_⟩
    · exact s.entered_occupied _ _ _ _
    · exact State.solActive_only _
  · obtain ⟨work, came, others⟩ := State.nextPiece_done (p := p) clean running hr hx
    refine ⟨_, (State.forUnit_eq_next _ hp).trans (congrArg _ (if_pos (by simp [running, inTick, thawed]))), work.job, work.xr,
      fun alone => others (if_pos ?_), came, fun y hy => work.mem y (Nat.not_le.2 hy)⟩
    obtain ⟨-, gauge⟩ : r.block = d ∧ r.gauge = g := by simpa using List.find?_some hr
    rwa [gauge]
  · have stepped := State.solPiece_stepped clean running hr rfl hx p fab
    exact ⟨_, (State.forUnit_eq_next _ hp).trans (congrArg _ (if_pos (by simp [running, inTick, thawed]))),
      (congrArg Prod.snd stepped.kept :), stepped.goes, fun y hy => stepped.mem y (Nat.not_le.2 hy)⟩

end Sys2Proof.Machine

/-! SUPPORT. Exeno-S and scalar memory instructions (O56): the poisoned place of O58 that is not the start of a 64-bit word refutes the
clause of scalar stores too. -/

namespace Sys2Proof.Machine
open Reg

/-- Eight bytes at g3 reach memory: the word that the noted place lies in ends where they begin. -/
theorem strayPoison_scalarReaches : strayPoison.reaches 5 0 (strayPoison.baseOff 5 0 3 0) 8 true (veneerBase 0 + 8) := by
  and_intros <;> decide +kernel

/-- A store of g9 there counts an uncorrectable error: its read half takes the eight bytes from the noted place on as the poisoned word,
and covers them in part. -/
theorem strayPoison_scalarCounted : veneerErrorsAfter (exec (.store 5 8 3 9 0 []) strayPoison) = 1 := by decide +kernel

/-- Refutes O56: whether an access meets poison, the model decides by the words that the noted places lie in, and the read half of a
store (R252) by the places themselves. A store to the word after a place noted amid a word reaches memory, but raises an error, where
the statement keeps every register outside the row. The statement lacks the hypothesis that every noted place starts a word. -/
theorem not_shortVectorsAndScalarMemory : ¬ Obligations.ShortVectorsAndScalarMemory := by
  rintro ⟨-, memory⟩
  obtain ⟨-, stores, -, -⟩ := memory strayPoison 5 0 3 0 (veneerBase 0 + 8) strayPoison_runs.1
  obtain ⟨t, run, -, -, -, -, kept⟩ := stores 8 9 (by decide) (by decide) strayPoison_scalarReaches
  have silent : t.get VNR_ECC.UE = strayPoison.get VNR_ECC.UE :=
    kept.2 VNR_ECC.UE (by decide) (by decide) (by decide) (by decide) (by decide)
  have counted := strayPoison_scalarCounted
  rw [run] at counted
  exact absurd (silent.symm.trans counted) (by decide +kernel)

end Sys2Proof.Machine

/-! SUPPORT. Scalar instructions of the row controllers (O55): what an instruction leaves that writes one register, jumps, or does
neither, and what the operations compute. -/

namespace Sys2Proof.Machine

/-! ### What a scalar instruction leaves (R175, R188) -/

/-- Registers of different files stand at different places. -/
theorem xKey_ne_of_kind {r x k l i j : Nat} (h : k ≠ l) : xKey r x k i ≠ xKey r x l j := by
  unfold xKey
  omega

/-- The instruction address after a write of another file. -/
theorem State.pc_xSet (s : State) (r x : Nat) {k : Nat} (i v : Nat) (hk : k ≠ kPC) : (s.xSet r x k i v).pc r x = s.pc r x :=
  s.xGet_xSet_other (xKey_ne_of_kind hk.symm)

/-- A jump leaves the registers of the other files. -/
theorem State.xGet_setPc (s : State) (r x : Nat) {k : Nat} (i v : Nat) (hk : k ≠ kPC) : (s.setPc r x v).xGet r x k i = s.xGet r x k i :=
  s.xGet_xSet_other (xKey_ne_of_kind hk)

section
variable {s : State} {r x : Nat} (h : RowRuns s r x) {body : Nat → State → State × XEnd}
include h

/-- An instruction that writes one register and jumps. -/
theorem RowRuns.writes_jump {k d v p : Nat} (hk : k ≠ kPC) (hb : body x s = (s.xSet r x k d v, .jump p)) :
    ∃ t, s.instr r [] body = .next t ∧ t.pc r x = p % 2 ^ 18 ∧
      t.xGet r x k d = (if k = kG ∧ d = 0 then 0 else v % 2 ^ xBits k) ∧ OnlyRowRegs s t [xKey r x k d, xKey r x kPC 0] := by
  refine ⟨_, s.instr_runs body h, ?_⟩
  rw [hb]
  refine ⟨State.pc_setPc _ _ _ _, ?_, (s.xSet_only r x k d v).trans (State.setPc_only _ r x p)⟩
  rw [State.finish, State.xGet_setPc _ _ _ _ _ hk, State.xGet_xSet_same]

/-- An instruction that writes one register, and whose next one follows. -/
theorem RowRuns.writes {k d v : Nat} (hk : k ≠ kPC) (hb : body x s = (s.xSet r x k d v, .next)) :
    ∃ t, s.instr r [] body = .next t ∧ RegResult s t r x k d v := by
  obtain ⟨t, run, pc, value, only⟩ := h.writes_jump (body := fun _ _ => (s.xSet r x k d v, .jump (s.pc r x + 4))) hk rfl
  refine ⟨t, ?_, value, pc, only⟩
  rw [← run, s.instr_runs _ h, s.instr_runs _ h, hb]
  simp only [State.finish, s.pc_xSet r x d v hk]

/-- An instruction that writes no register and may jump. -/
theorem RowRuns.branches {c : Bool} {p : Nat} (hb : body x s = (s, if c then .jump p else .next)) :
    ∃ t, s.instr r [] body = .next t ∧ t.pc r x = (if c then p else s.pc r x + 4) % 2 ^ 18 ∧ OnlyRowRegs s t [xKey r x kPC 0] := by
  refine ⟨_, s.instr_runs body h, ?_⟩
  rw [hb]
  cases c <;> exact ⟨State.pc_setPc _ _ _ _, State.setPc_only _ _ _ _⟩

end

/-! ### What the operations compute (R175) -/

/-- A shift by less than 64 moves the bits. -/
theorem intOp_shifts {a b imm n v : Nat} {o : IntOp} (hn : n < 64)
    (h : (o, n, v) ∈ [(IntOp.sll, b, a * 2 ^ n), (.srl, b, a / 2 ^ n), (.sra, b, ofSigned 64 ((toSigned 64 a).fdiv (2 ^ n))),
      (.slli, imm % 2 ^ 16, a * 2 ^ n), (.srli, imm % 2 ^ 16, a / 2 ^ n),
      (.srai, imm % 2 ^ 16, ofSigned 64 ((toSigned 64 a).fdiv (2 ^ n)))]) : intOp o a b imm = v % 2 ^ 64 := by
  simp only [List.mem_cons, List.not_mem_nil, or_false, Prod.mk.injEq] at h
  rcases h with ⟨rfl, rfl, rfl⟩ | ⟨rfl, rfl, rfl⟩ | ⟨rfl, rfl, rfl⟩ | ⟨rfl, rfl, rfl⟩ | ⟨rfl, rfl, rfl⟩ | ⟨rfl, rfl, rfl⟩ <;>
    exact if_pos hn

/-- A division by a number other than 0 has its quotient and remainder. -/
theorem mulOp_divides {a b v : Nat} {o : MulOp} (hb : b ≠ 0) (h : (o, v) ∈ [(MulOp.divU, a / b), (.remU, a % b)]) :
    mulOp o a b = v := by
  simp only [List.mem_cons, List.not_mem_nil, or_false, Prod.mk.injEq] at h
  rcases h with ⟨rfl, rfl⟩ | ⟨rfl, rfl⟩ <;> simp [mulOp, hb]

/-- So has a signed one, but for that of the most negative number by −1. -/
theorem mulOp_dividesSigned {a b v : Nat} {o : MulOp} (hb : b ≠ 0) (hm : ¬(a = 2 ^ 63 ∧ b = 2 ^ 64 - 1))
    (h : (o, v) ∈ [(MulOp.divS, ofSigned 64 ((toSigned 64 a).tdiv (toSigned 64 b))),
      (.remS, ofSigned 64 ((toSigned 64 a).tmod (toSigned 64 b)))]) : mulOp o a b = v := by
  have quotient : (b == 0 || (a == 2 ^ 63 && b == 2 ^ 64 - 1)) = false := by simpa [hb] using hm
  simp only [List.mem_cons, List.not_mem_nil, or_false, Prod.mk.injEq] at h
  rcases h with ⟨rfl, rfl⟩ | ⟨rfl, rfl⟩ <;> simp only [mulOp, quotient, if_neg Bool.false_ne_true]

/-- A rounded value that INT64 holds is converted to its code. -/
theorem convI64_of_fits {rnd m : Nat} {md : Rnd} {neg : Bool} {e i : Int}
    (hi : i = (if neg then -(roundAt md neg m e 0 : Int) else roundAt md neg m e 0)) (lo : -(2 ^ 63) ≤ i) (hi' : i < 2 ^ 63) :
    convI64 rnd md (.fin neg m e) = ofSigned 64 i := by
  subst hi
  exact if_pos ⟨lo, hi'⟩

/-! ### Each class of scalar instructions -/

section
variable {s : State} {r x : Nat} (h : RowRuns s r x)
include h

theorem RowRuns.integerOp (o : IntOp) (d a b imm : Nat) : ∃ t, exec (.integerOp r o d a b imm []) s = .next t ∧
    RegResult s t r x kG d (intOp o (s.xGet r x kG a) (s.xGet r x kG b) imm) :=
  show ∃ t, execIntegerOp r o d a b imm s = .next t ∧ _ from h.writes (by decide) rfl

theorem RowRuns.multiplyDivide (o : MulOp) (d a b : Nat) : ∃ t, exec (.multiplyDivide r o d a b []) s = .next t ∧
    RegResult s t r x kG d (mulOp o (s.xGet r x kG a) (s.xGet r x kG b)) :=
  show ∃ t, execMultiplyDivide r o d a b s = .next t ∧ _ from h.writes (by decide) rfl

/-- A conversion in a legal rounding mode writes what its destination's type makes of the source. -/
theorem RowRuns.conversion {rnd : Nat} {md : Rnd} (hmd : rndOf rnd = some md) (src : NumTy) (d a : Nat) :
    (∃ t, exec (.conversion r ⟨src, .f64⟩ rnd d a []) s = .next t ∧
      RegResult s t r x kF d (convFp fFP64 md true false (s.convSrc r x a src)).1) ∧
    (∃ t, exec (.conversion r ⟨src, .f32⟩ rnd d a []) s = .next t ∧
      RegResult s t r x kF d (convFp fFP32 md true false (s.convSrc r x a src)).1) ∧
    (∃ t, exec (.conversion r ⟨src, .i32⟩ rnd d a []) s = .next t ∧
      RegResult s t r x kG d (ofSigned 64 (toSigned 32 (convI32 md (s.convSrc r x a src)).1))) ∧
    ∃ t, exec (.conversion r ⟨src, .i64⟩ rnd d a []) s = .next t ∧ RegResult s t r x kG d (convI64 rnd md (s.convSrc r x a src)) := by
  refine ⟨show ∃ t, execConversion r ⟨src, .f64⟩ rnd d a s = .next t ∧ _ from h.writes (by decide) ?_,
    show ∃ t, execConversion r ⟨src, .f32⟩ rnd d a s = .next t ∧ _ from h.writes (by decide) ?_,
    show ∃ t, execConversion r ⟨src, .i32⟩ rnd d a s = .next t ∧ _ from h.writes (by decide) ?_,
    show ∃ t, execConversion r ⟨src, .i64⟩ rnd d a s = .next t ∧ _ from h.writes (by decide) ?_⟩ <;> simp only [hmd]

/-- A branch that is neither jump-and-link nor a register jump goes where its condition says. -/
theorem RowRuns.branch {o : BranchOp} (hl : o ≠ .jumpLink) (hr : o ≠ .jumpReg) (d a b off : Nat) :
    ∃ t, exec (.branch r o d a b off []) s = .next t ∧
      t.pc r x = (if taken o (s.xGet r x kG a) (s.xGet r x kG b) then s.pc r x + off else s.pc r x + 4) % 2 ^ 18 ∧
      OnlyRowRegs s t [xKey r x kPC 0] :=
  show ∃ t, execBranch r o d a b off s = .next t ∧ _ from h.branches (by
    cases o with
    | jumpLink => exact absurd rfl hl
    | jumpReg => exact absurd rfl hr
    | _ => rfl)

end

/-- Settles O55: each instruction's body writes the value of its operation to one register, jumps, or does neither. -/
theorem scalarInstructionsWriteTheirResult : Obligations.ScalarInstructionsWriteTheirResult := by
  rintro s r x a b c d A B h - rfl rfl
  refine ⟨fun o imm v hv => ?_, fun o imm n v hn hv => ?_, fun o imm => h.integerOp o d a b imm, fun o v hv => ?_,
    fun o => h.multiplyDivide o d a b, ?_, ?_, fun ew hew => ?_,
    show ∃ t, execFence r s = .next t ∧ _ from h.branches (c := false) (p := 0) rfl,
    fun o off p hp => ?_, fun off => ?_, fun off => show ∃ t, execBranch r .jumpReg d a b off s = .next t ∧ _ from h.branches (c := true) rfl⟩
  · have value : intOp o (s.xGet r x kG a) (s.xGet r x kG b) imm = v := by cases o <;> simp_all [intOp]
    exact value ▸ h.integerOp o d a b imm
  · exact intOp_shifts hn hv ▸ h.integerOp o d a b imm
  · have value : mulOp o (s.xGet r x kG a) (s.xGet r x kG b) = v := by
      rcases hv with hv | ⟨hb, hv⟩ | ⟨hb, hm, hv⟩
      · cases o <;> simp_all [mulOp]
      · exact mulOp_divides hb hv
      · exact mulOp_dividesSigned hb hm hv
    exact value ▸ h.multiplyDivide o d a b
  · rintro dbl w f rfl rfl
    constructor
    · intro o v hv
      show ∃ t, execFloatOp r o dbl d a b c s = .next t ∧ _
      simp only [List.mem_cons, List.not_mem_nil, or_false, Prod.mk.injEq] at hv
      rcases hv with ⟨rfl, rfl⟩ | ⟨rfl, rfl⟩ | ⟨rfl, rfl⟩ | ⟨rfl, rfl⟩ | ⟨rfl, rfl⟩ | ⟨rfl, rfl⟩ | ⟨rfl, rfl⟩ | ⟨rfl, rfl⟩ <;>
        exact h.writes (by decide) rfl
    · intro o p hp
      show ∃ t, execFloatOp r o dbl d a b c s = .next t ∧ _
      simp only [List.mem_cons, List.not_mem_nil, or_false, Prod.mk.injEq] at hp
      rcases hp with ⟨rfl, rfl⟩ | ⟨rfl, rfl⟩ | ⟨rfl, rfl⟩ <;> exact h.writes (by decide) rfl
  · rintro src rnd md v hmd rfl
    obtain ⟨f64, f32, i32, t, run, result⟩ := h.conversion hmd src d a
    exact ⟨f64, f32, i32, t, _, rfl, run, result, fun neg m e i hv hi lo hi' => by rw [hv]; exact convI64_of_fits hi lo hi'⟩
  · exact show ∃ t, execLanes r ew d s = .next t ∧ _ from h.writes (by decide) (if_pos (by simpa using hew))
  · obtain ⟨hl, hr, rfl⟩ : o ≠ .jumpLink ∧ o ≠ .jumpReg ∧ p = taken o (s.xGet r x kG a) (s.xGet r x kG b) := by
      cases o <;> simp_all [taken]
    exact h.branch hl hr d a b off
  · obtain ⟨t, run, pc, value, only⟩ := show ∃ t, execBranch r .jumpLink d a b off s = .next t ∧ _ from
      h.writes_jump (by decide) rfl
    exact ⟨t, run, pc, by simpa [kG, xBits] using value, only⟩
end Sys2Proof.Machine

/-! SUPPORT. Exeno-L without memory (O57): elements of a register, loops that write one register, and the run of a vector
instruction. -/

namespace Sys2Proof.Machine
open Reg

/-! ### Elements of a register (R178, R179) -/

theorem lane_mod {w k n : Nat} (v : Nat) (h : w * k + w ≤ n) : lane (v % 2 ^ n) w k = lane v w k := by
  obtain ⟨m, rfl⟩ := Nat.exists_eq_add_of_le h
  rw [lane, lane, Nat.add_assoc, Nat.pow_add, Nat.mod_mul_right_div_self, Nat.pow_add, Nat.mod_mod_of_dvd _ (Nat.dvd_mul_right ..)]

/-- With an element replaced, a register is what lies above it, the new element, and what lies below it. -/
theorem setLane_eq (v w k e : Nat) :
    setLane v w k e = 2 ^ (w * k) * (2 ^ w * (v / 2 ^ (w * k) / 2 ^ w) + e % 2 ^ w) + v % 2 ^ (w * k) := by
  have parts : v = 2 ^ (w * k) * (2 ^ w * (v / 2 ^ (w * k) / 2 ^ w)) + v % 2 ^ (w * k) + lane v w k * 2 ^ (w * k) := by
    conv_lhs => rw [← Nat.div_add_mod v (2 ^ (w * k)), ← Nat.div_add_mod (v / 2 ^ (w * k)) (2 ^ w)]
    rw [lane]
    ring
  rw [setLane, show v - lane v w k * 2 ^ (w * k) = _ from Nat.sub_eq_of_eq_add parts]
  ring

theorem setLane_div (v w k e : Nat) : setLane v w k e / 2 ^ (w * k) = 2 ^ w * (v / 2 ^ (w * k) / 2 ^ w) + e % 2 ^ w := by
  rw [setLane_eq, Nat.mul_add_div (Nat.two_pow_pos _), Nat.div_eq_of_lt (Nat.mod_lt _ (Nat.two_pow_pos _)), Nat.add_zero]

@[simp] theorem lane_setLane_same (v w k e : Nat) : lane (setLane v w k e) w k = e % 2 ^ w := by
  rw [lane, setLane_div, Nat.mul_add_mod, Nat.mod_mod]

theorem lane_setLane_other (v : Nat) {w k j : Nat} (e : Nat) (h : j ≠ k) : lane (setLane v w k e) w j = lane v w j := by
  rcases Nat.lt_or_gt_of_ne h with h | h
  · have below : w * j + w ≤ w * k := Nat.mul_le_mul_left w h
    rw [← lane_mod _ below, setLane_eq, Nat.mul_add_mod, Nat.mod_mod, lane_mod _ below]
  · obtain ⟨t, ht⟩ := Nat.exists_eq_add_of_le (show w * k + w ≤ w * j from Nat.mul_le_mul_left w h)
    have above (x : Nat) : lane x w j = x / 2 ^ (w * k) / 2 ^ w / 2 ^ t % 2 ^ w := by
      rw [lane, ht, Nat.pow_add, Nat.pow_add, Nat.div_div_eq_div_mul, Nat.div_div_eq_div_mul, Nat.mul_assoc]
    rw [above, above, setLane_div, Nat.mul_add_div (Nat.two_pow_pos _), Nat.div_eq_of_lt (Nat.mod_lt _ (Nat.two_pow_pos _)),
      Nat.add_zero]

/-- A bit is an element of width 1. -/
theorem bit_eq_lane (v k : Nat) : bit v k = (lane v 1 k == 1) := by
  simp [bit, lane]

/-! ### Loops that write one register -/

theorem OnlyRowRegs.refl (s : State) (l : List Nat) : OnlyRowRegs s s l := ⟨rfl, fun _ _ => rfl⟩

/-- Writes of places in a list add up to writes of that list. -/
theorem OnlyRowRegs.step {s t u : State} {l : List Nat} (h : OnlyRowRegs s t l) (k : OnlyRowRegs t u l) : OnlyRowRegs s u l :=
  ⟨(h.trans k).1, fun q hq => (h.trans k).2 q (by simpa using hq)⟩

theorem OnlyRowRegs.xGet {s t : State} {l : List Nat} (h : OnlyRowRegs s t l) {r x k i : Nat} (hi : xKey r x k i ∉ l) :
    t.xGet r x k i = s.xGet r x k i := by
  unfold State.xGet
  rw [h.2 _ hi]

theorem OnlyRowRegs.eq_xr {s t : State} {l : List Nat} (h : OnlyRowRegs s t l) : ∃ y, t = { s with xr := y } :=
  ⟨t.xr, by rw [← h.1]⟩

/-- `u` is `s` but for one register, whose element `k` it keeps. -/
structure LaneKept (s u : State) (r x kd d w k : Nat) : Prop where
  only : OnlyRowRegs s u [xKey r x kd d]
  lane : lane (u.xGet r x kd d) w k = lane (s.xGet r x kd d) w k

/-- `t` is `s` but for the elements of a list of one register, which hold what `e` gives. -/
structure LanesWritten (s t : State) (r x kd d w : Nat) (l : List Nat) (e : Nat → Nat) : Prop where
  only : OnlyRowRegs s t [xKey r x kd d]
  lane : ∀ j, w * j + w ≤ xBits kd → lane (t.xGet r x kd d) w j = if j ∈ l then e j % 2 ^ w else lane (s.xGet r x kd d) w j

/-- A loop that writes elements of one register, each from what the writes before it keep. -/
theorem lanes_foldl {r x kd d w : Nat} (hd : ¬(kd = kG ∧ d = 0)) {e : Nat → State → Nat}
    (he : ∀ s u k, LaneKept s u r x kd d w k → e k u = e k s) {l : List Nat} (hl : l.Nodup) (hw : ∀ k ∈ l, w * k + w ≤ xBits kd)
    (s : State) : LanesWritten s (l.foldl (fun u k => u.xSet r x kd d (setLane (u.xGet r x kd d) w k (e k u))) s) r x kd d w l
      (fun k => e k s) := by
  induction l generalizing s with
  | nil => exact ⟨.refl _ _, fun _ _ => rfl⟩
  | cons k l ih =>
    obtain ⟨fresh, hl⟩ := List.nodup_cons.1 hl
    have first := s.xSet_only r x kd d (setLane (s.xGet r x kd d) w k (e k s))
    have value := (s.xGet_xSet_same r x kd d (setLane (s.xGet r x kd d) w k (e k s))).trans (if_neg hd)
    rw [List.foldl_cons]
    generalize s.xSet r x kd d (setLane (s.xGet r x kd d) w k (e k s)) = u at first value ⊢
    have here : lane (u.xGet r x kd d) w k = e k s % 2 ^ w := by
      rw [value, lane_mod _ (hw k List.mem_cons_self), lane_setLane_same]
    have kept {j : Nat} (hj : w * j + w ≤ xBits kd) (hjk : j ≠ k) : LaneKept s u r x kd d w j :=
      ⟨first, by rw [value, lane_mod _ hj, lane_setLane_other _ _ hjk]⟩
    obtain ⟨only, lanes⟩ := ih hl (fun j hj => hw j (List.mem_cons_of_mem _ hj)) u
    refine ⟨first.step only, fun j hj => (lanes j hj).trans ?_⟩
    by_cases hjk : j = k
    · rw [hjk, if_neg fresh, here, if_pos List.mem_cons_self]
    · simp only [List.mem_cons, hjk, false_or, (kept hj hjk).lane, he s u j (kept hj hjk)]

/-- A loop that writes one register again and again, each time from what it holds and what the loop keeps. -/
theorem accumulates_foldl {r x kd d : Nat} (hd : ¬(kd = kG ∧ d = 0)) {e : Nat → State → Nat} {f : Nat → Nat → Nat} {s : State}
    (he : ∀ u k, OnlyRowRegs s u [xKey r x kd d] → e k u = f (u.xGet r x kd d) k) (l : List Nat) {u : State}
    (hu : OnlyRowRegs s u [xKey r x kd d]) :
    OnlyRowRegs s (l.foldl (fun u k => u.xSet r x kd d (e k u)) u) [xKey r x kd d] ∧
      (l.foldl (fun u k => u.xSet r x kd d (e k u)) u).xGet r x kd d =
        l.foldl (fun g k => f g k % 2 ^ xBits kd) (u.xGet r x kd d) := by
  induction l generalizing u with
  | nil => exact ⟨hu, rfl⟩
  | cons k l ih =>
    have value : (u.xSet r x kd d (e k u)).xGet r x kd d = f (u.xGet r x kd d) k % 2 ^ xBits kd := by
      rw [State.xGet_xSet_same, if_neg hd, he u k hu]
    simpa only [List.foldl_cons, value] using ih (hu.step (u.xSet_only r x kd d (e k u)))

/-! ### The run of a vector instruction (R179, R180, R182) -/

/-- A loop whose elements meet no exception, and none of which it stops at, handles the active ones in ascending order. -/
theorem vLoop_passes {stop : Option Nat} {active : Nat → Bool} {f : Nat → State → State × Option (Nat × Nat)}
    (hf : ∀ k u, (f k u).2 = none) (left : Nat) {m k : Nat} (hs : ∀ j, k ≤ j → j < k + m → stop ≠ some j) (s : State) :
    vLoop stop active f (m + left) k s =
      vLoop stop active f left (k + m) (((List.range' k m).filter active).foldl (fun u j => (f j u).1) s) := by
  induction m generalizing k s with
  | zero => simp
  | succ m ih =>
    have rest := fun u => ih (k := k + 1) (fun j hj hj' => hs j (by omega) (by omega)) u
    rw [show k + 1 + m = k + (m + 1) by omega] at rest
    rw [show m + 1 + left = (m + left) + 1 by omega, vLoop, if_neg (hs k (by omega) (by omega)), List.range'_succ]
    cases ha : active k with
    | false => simpa [ha] using rest s
    | true =>
      have done : f k s = ((f k s).1, none) := Prod.ext rfl (hf k s)
      rw [done]
      simpa [ha] using rest (f k s).1

theorem State.vCount_le (s : State) (r x : Nat) (v : VArgs) (limit : Nat) : s.vCount r x v limit ≤ limit := by
  unfold State.vCount
  split
  · exact Nat.le_refl _
  · exact Nat.min_le_right ..

/-- The elements that take part, in ascending order. -/
def State.vTaken (s : State) (r x : Nat) (v : VArgs) (limit : Nat) : List Nat :=
  (List.range limit).filter (s.partakes r x v limit)

theorem State.vTaken_nodup (s : State) (r x : Nat) (v : VArgs) (limit : Nat) : (s.vTaken r x v limit).Nodup :=
  List.nodup_range.filter _

theorem State.mem_vTaken {s : State} {r x : Nat} {v : VArgs} {limit k : Nat} :
    k ∈ s.vTaken r x v limit ↔ k < limit ∧ s.partakes r x v limit k = true := by
  simp [State.vTaken]

/-- They are the active ones from LV_RESUME to the count. -/
theorem State.vTaken_eq (s : State) (r x : Nat) (v : VArgs) (limit : Nat) :
    (List.range' (s.get (LV_RESUME.INDEX r x)) (s.vCount r x v limit - s.get (LV_RESUME.INDEX r x))).filter (s.vActive r x v) =
      s.vTaken r x v limit := by
  refine List.Pairwise.eq_of_mem_iff (r := (· < ·)) ((List.pairwise_lt_range' _).filter _) (List.pairwise_lt_range.filter _)
    fun k => ?_
  have := s.vCount_le r x v limit
  rw [List.mem_filter, List.mem_range'_1, State.mem_vTaken, State.partakes, Bool.and_eq_true, Bool.and_eq_true, decide_eq_true_eq,
    decide_eq_true_eq, ← and_assoc]
  exact and_congr_left fun _ => by omega

/-- The state in which an Exeno-L instruction handles its elements: VL and VTYPE record it. -/
def State.vStarted (s : State) (r x : Nat) (v : VArgs) (limit : Nat) : State :=
  s.setAll [(VL.VL r x, s.vCount r x v limit), (VTYPE.EW r x, ewCode v.ew)]

theorem State.vStarted_xGet (s : State) (r x : Nat) (v : VArgs) (limit q y k i : Nat) :
    (s.vStarted r x v limit).xGet q y k i = s.xGet q y k i := rfl

theorem State.vStarted_resume (s : State) (r x : Nat) (v : VArgs) (limit : Nat) :
    (s.vStarted r x v limit).get (LV_RESUME.INDEX r x) = s.get (LV_RESUME.INDEX r x) :=
  s.get_setAll_other _ (by simp [Fld.key, VL.VL, VTYPE.EW, LV_RESUME.INDEX])

/-- A run is its loop, and LV_RESUME returns to 0 where that completes. -/
theorem State.vRun_of_loop {s t w : State} {r x : Nat} {v : VArgs} {limit : Nat} {f : Nat → State → State × Option (Nat × Nat)}
    {e : XEnd} (h : vLoop (if x = 1 then v.stop else none) (s.vActive r x v) f (s.vCount r x v limit - s.get (LV_RESUME.INDEX r x))
      (s.get (LV_RESUME.INDEX r x)) (s.vStarted r x v limit) = (t, e)) (hw : (if e = .next then t.vDone r x else t) = w) :
    s.vRun r x v limit f = (w, e) := by
  subst hw
  rw [← s.vStarted_resume r x v limit] at h
  unfold State.vRun
  unfold State.vStarted at h
  dsimp only
  rw [show (s.setAll [(VL.VL r x, s.vCount r x v limit), (VTYPE.EW r x, ewCode v.ew)]).vActive r x v = s.vActive r x v from rfl, h]
  cases e <;> rfl

/-- A run that nothing suspends, and none of whose elements meets an exception, handles those that take part. -/
theorem State.vRun_completes {s : State} {r x : Nat} {v : VArgs} (limit : Nat) {f : Nat → State → State × Option (Nat × Nat)}
    (hx : x = 0 ∨ v.stop = none) (hf : ∀ k u, (f k u).2 = none) :
    s.vRun r x v limit f =
      (((s.vTaken r x v limit).foldl (fun u k => (f k u).1) (s.vStarted r x v limit)).vDone r x, .next) := by
  have stop : (if x = 1 then v.stop else none) = none := by
    rcases hx with rfl | hx
    · rfl
    · rw [hx, ite_self]
  rw [← s.vTaken_eq]
  refine State.vRun_of_loop ?_ (if_pos rfl)
  rw [stop]
  exact vLoop_passes hf 0 (fun _ _ _ => by simp) _

/-- A run whose suspension comes at an element that is still to be handled handles those before it. -/
theorem State.vRun_stops {s : State} {r : Nat} {v : VArgs} (limit : Nat) {f : Nat → State → State × Option (Nat × Nat)} {k : Nat}
    (hk : v.stop = some k) (lo : s.get (LV_RESUME.INDEX r 1) ≤ k) (hi : k < s.vCount r 1 v limit) (hf : ∀ k u, (f k u).2 = none) :
    s.vRun r 1 v limit f = (((List.range' (s.get (LV_RESUME.INDEX r 1)) (k - s.get (LV_RESUME.INDEX r 1))).filter
      (s.vActive r 1 v)).foldl (fun u k => (f k u).1) (s.vStarted r 1 v limit), .stop k) := by
  refine State.vRun_of_loop ?_ (if_neg (by simp))
  rw [if_pos rfl, hk]
  generalize s.get (LV_RESUME.INDEX r 1) = a at *
  obtain ⟨m, rfl⟩ := Nat.exists_eq_add_of_le lo
  obtain ⟨left, hl⟩ := Nat.exists_eq_add_of_lt hi
  rw [hl, show a + m + left + 1 - a = m + (left + 1) by omega, vLoop_passes hf _ (fun j _ hj => by simp; omega),
    Nat.add_sub_cancel_left, vLoop, if_pos rfl]

/-- What an Exeno-L instruction that completes records of itself. -/
theorem State.vStarted_vDone_get (s : State) (r x : Nat) (v : VArgs) (limit : Nat) :
    ((s.vStarted r x v limit).vDone r x).get (LV_RESUME.INDEX r x) = 0 ∧
      ((s.vStarted r x v limit).vDone r x).get (VL.VL r x) = s.vCount r x v limit % 2 ^ (VL.VL r x).width ∧
      ((s.vStarted r x v limit).vDone r x).get (VTYPE.EW r x) = ewCode v.ew ∧
      ∀ g : Fld, g.key ∉ [VL.VL r x, VTYPE.EW r x, LV_RESUME.INDEX r x].map Fld.key →
        ((s.vStarted r x v limit).vDone r x).get g = s.get g := by
  have nodup : ([(VL.VL r x, s.vCount r x v limit), (VTYPE.EW r x, ewCode v.ew)].map fun e => e.1.key).Nodup := by
    simp [Fld.key, VL.VL, VTYPE.EW]
  have code : ewCode v.ew < 4 := by
    unfold ewCode
    split_ifs <;> decide
  refine ⟨State.get_set_same _ _ _, ?_, ?_, fun g hg => ?_⟩
  · rw [State.vDone, State.get_set_other _ _ (by simp [Fld.key, VL.VL, LV_RESUME.INDEX])]
    exact State.get_setAll_at _ nodup (List.mem_cons_self ..)
  · rw [State.vDone, State.get_set_other _ _ (by simp [Fld.key, VTYPE.EW, LV_RESUME.INDEX])]
    exact (State.get_setAll_at _ nodup (List.mem_cons_of_mem _ (List.mem_cons_self ..))).trans (Nat.mod_eq_of_lt code)
  · simp only [List.map_cons, List.map_nil, List.mem_cons, List.not_mem_nil, or_false, not_or] at hg
    obtain ⟨count, width, resume⟩ := hg
    rw [State.vDone, State.get_set_other _ _ resume]
    exact s.get_setAll_other _ (by simp [count, width])

/-- The CSRs in which an Exeno-L instruction records itself stand in the row's block. -/
theorem vecFields_apart {r x : Nat} (hx : x < 2) {g : Fld} (hlo : g.lo < 64)
    (hg : g.addr < csrBase r 0 ∨ csrBase r 0 + 0x20000 ≤ g.addr) :
    g.key ∉ [VL.VL r x, VTYPE.EW r x, LV_RESUME.INDEX r x].map Fld.key := by
  simp only [List.map_cons, List.map_nil, List.mem_cons, List.not_mem_nil, or_false, Fld.key, VL.VL, VTYPE.EW, LV_RESUME.INDEX, csrBase]
    at *
  omega

/-- What an Exeno-L instruction leaves that has changed no register but those of a list. -/
theorem State.vecDone_of {s u : State} {r x : Nat} {v : VArgs} {limit : Nat} {regs : List Nat} (hx : x < 2)
    (h : OnlyRowRegs (s.vStarted r x v limit) u regs) (hpc : xKey r x kPC 0 ∉ regs) :
    VecDone s ((u.vDone r x).finish r x .next) r x v limit regs ∧ ((u.vDone r x).finish r x .next).mem = s.mem ∧
      ∀ k i, k ≠ kPC → ((u.vDone r x).finish r x .next).xGet r x k i = u.xGet r x k i := by
  have pc : (u.vDone r x).pc r x = s.pc r x := h.xGet hpc
  have done : OnlyRowRegs ((s.vStarted r x v limit).vDone r x) (u.vDone r x) regs := by
    obtain ⟨y, rfl⟩ := h.eq_xr
    exact ⟨rfl, h.2⟩
  have jump := (u.vDone r x).setPc_only r x (s.pc r x + 4)
  have total := done.trans jump
  have nextPc := (u.vDone r x).pc_setPc r x (s.pc r x + 4)
  have others (k i : Nat) (hk : k ≠ kPC) : ((u.vDone r x).setPc r x (s.pc r x + 4)).xGet r x k i = u.xGet r x k i :=
    (u.vDone r x).xGet_setPc r x i _ hk
  obtain ⟨resume, count, width, kept⟩ := s.vStarted_vDone_get r x v limit
  rw [State.finish, pc]
  generalize (u.vDone r x).setPc r x (s.pc r x + 4) = t at *
  obtain ⟨y, rfl⟩ := total.eq_xr
  refine ⟨⟨nextPc, resume, count, width, fun q hq => ?_, rfl, fun g hlo _ hcsr _ _ => kept g (vecFields_apart hx hlo hcsr)⟩, rfl,
    others⟩
  rw [List.mem_cons, not_or] at hq
  exact total.2 q (by simpa using hq.symm)

/-- An Exeno-L instruction without memory access, none of whose elements meets an exception. -/
theorem VecRuns.completes {s : State} {r x : Nat} {v : VArgs} (h : VecRuns s r x v) {legal : Bool} (hl : legal = true)
    {f : Nat → Nat → State → State × Option (Nat × Nat)} (hf : ∀ k u, (f x k u).2 = none) {regs : List Nat} {u : State}
    (hu : (s.vTaken r x v (vMax v.ew)).foldl (fun u k => (f x k u).1) (s.vStarted r x v (vMax v.ew)) = u)
    (only : OnlyRowRegs (s.vStarted r x v (vMax v.ew)) u regs) (hpc : xKey r x kPC 0 ∉ regs) :
    ∃ t, s.vInstr r [] v legal f = .next t ∧ VecDone s t r x v (vMax v.ew) regs ∧ t.mem = s.mem ∧
      ∀ k i, k ≠ kPC → t.xGet r x k i = u.xGet r x k i := by
  obtain ⟨runs, width, hx⟩ := h
  have context : x < 2 := by
    obtain ⟨⟨-, -, -, -, -, ⟨rfl, -⟩ | ⟨rfl, -⟩⟩, -⟩ := runs <;> decide
  refine ⟨_, ?_, State.vecDone_of context only hpc⟩
  rw [State.vInstr, s.instr_runs _ runs, width, hl, if_pos (by rfl), State.vRun_completes _ hx hf, hu]

section
variable {s : State} {r x : Nat} {v : VArgs} (h : VecRuns s r x v) {legal : Bool} (hl : legal = true)
  {f : Nat → Nat → State → State × Option (Nat × Nat)} {kd d : Nat} (hk : kd ≠ kPC) (hd : kd ≠ kG ∨ d ≠ 0)
include h hl hk hd

/-- An Exeno-L instruction that writes elements of one register. -/
theorem VecRuns.writesLanes {w : Nat} {e : Nat → State → Nat}
    (hf : ∀ k u, f x k u = (u.xSet r x kd d (setLane (u.xGet r x kd d) w k (e k u)), none))
    (he : ∀ s u k, LaneKept s u r x kd d w k → e k u = e k s) (hw : ∀ k, k < vMax v.ew → w * k + w ≤ xBits kd) :
    ∃ t, s.vInstr r [] v legal f = .next t ∧ VecDone s t r x v (vMax v.ew) [xKey r x kd d] ∧ t.mem = s.mem ∧
      ∀ k, k < vMax v.ew → lane (t.xGet r x kd d) w k =
        if s.partakes r x v (vMax v.ew) k then e k (s.vStarted r x v (vMax v.ew)) % 2 ^ w else lane (s.xGet r x kd d) w k := by
  have written := lanes_foldl (not_and_or.2 hd) he (s.vTaken_nodup r x v (vMax v.ew)) (fun k hk => hw k (State.mem_vTaken.1 hk).1)
    (s.vStarted r x v (vMax v.ew))
  obtain ⟨t, run, done, mem, regs⟩ := h.completes hl (f := f) (fun k u => by rw [hf]) (by simp only [hf]) written.only
    (by simpa using xKey_ne_of_kind hk.symm)
  refine ⟨t, run, done, mem, fun k hk' => ?_⟩
  rw [regs _ _ hk, written.lane k (hw k hk'), State.vStarted_xGet]
  simp only [State.mem_vTaken, hk', true_and]

/-- An Exeno-L instruction that accumulates into one register. -/
theorem VecRuns.accumulates {e : Nat → State → Nat} {g : Nat → Nat → Nat} (hf : ∀ k u, f x k u = (u.xSet r x kd d (e k u), none))
    (he : ∀ u k, OnlyRowRegs (s.vStarted r x v (vMax v.ew)) u [xKey r x kd d] → e k u = g (u.xGet r x kd d) k) :
    ∃ t, s.vInstr r [] v legal f = .next t ∧ VecDone s t r x v (vMax v.ew) [xKey r x kd d] ∧ t.mem = s.mem ∧
      t.xGet r x kd d = (s.vTaken r x v (vMax v.ew)).foldl (fun m k => g m k % 2 ^ xBits kd) (s.xGet r x kd d) := by
  obtain ⟨only, value⟩ := accumulates_foldl (not_and_or.2 hd) he (s.vTaken r x v (vMax v.ew)) (.refl _ _)
  obtain ⟨t, run, done, mem, regs⟩ := h.completes hl (f := f) (fun k u => by rw [hf]) (by simp only [hf]) only
    (by simpa using xKey_ne_of_kind hk.symm)
  exact ⟨t, run, done, mem, (regs _ _ hk).trans value⟩

end

/-- The other registers, and the other elements of the one that is written, are sources that are still as they were. -/
theorem LaneKept.vGet {s u : State} {r x d w k : Nat} (h : LaneKept s u r x kLV d w k) (i : Nat) :
    u.vGet r x i w k = s.vGet r x i w k := by
  unfold State.vGet
  by_cases hi : xKey r x kLV i = xKey r x kLV d
  · have shared (z : State) : z.xGet r x kLV i = z.xGet r x kLV d := congrArg (Store.get z.xr 0) hi
    rw [shared, shared, h.lane]
  · rw [h.only.xGet (by simpa using hi)]

/-- So is a vector register where a register of another file is written. -/
theorem OnlyRowRegs.vGet {s u : State} {r x kd d : Nat} (h : OnlyRowRegs s u [xKey r x kd d]) (hk : kd ≠ kLV) (i w k : Nat) :
    u.vGet r x i w k = s.vGet r x i w k := by
  unfold State.vGet
  rw [h.xGet (by simpa using xKey_ne_of_kind hk.symm)]

/-- A floating operation needs a floating width, and another one no more than a width. -/
theorem widthLegal {c : Bool} {ew : Nat} (h : c = true → fwidthOk ew = true) : (!c || fwidthOk ew) = true := by
  cases c
  · rfl
  · exact h rfl

/-- The result of an element-wise operation for element `k`. -/
def State.vElem (s : State) (r x : Nat) (v : VArgs) (o : VOp) (a b c k : Nat) : Nat :=
  vLane o v.ew (s.vGet r x a v.ew k) (s.vGet r x b v.ew k) (s.vGet r x c v.ew k)

theorem LaneKept.vElem {s u : State} {r x d k : Nat} {v : VArgs} (h : LaneKept s u r x kLV d v.ew k) (o : VOp) (a b c : Nat) :
    u.vElem r x v o a b c k = s.vElem r x v o a b c k := by
  simp only [State.vElem, h.vGet]

/-- The elements of a vector register lie within it, and it has no more than a mask has bits. -/
theorem vMax_fits {ew k : Nat} (hw : widthOk ew = true) (hk : k < vMax ew) : ew * k + ew ≤ xBits kLV ∧ 1 * k + 1 ≤ xBits kLM := by
  simp only [widthOk, Bool.or_eq_true, beq_iff_eq] at hw
  simp only [vMax, vlen, xBits, kLV, kLM] at *
  rcases hw with ((rfl | rfl) | rfl) | rfl <;> omega

/-- An element is cut to its width already. -/
theorem State.vGet_mod (s : State) (r x i w k : Nat) : s.vGet r x i w k % 2 ^ w = s.vGet r x i w k := Nat.mod_mod _ _

/-! ### Ordered accumulation (R181) -/

/-- An integer accumulation folds its operation over the elements that take part, sign-extended. -/
theorem VecRuns.viacc {s : State} {r x : Nat} {v : VArgs} (h : VecRuns s r x v) {d : Nat} (hd : 0 < d) (a : Nat) {o : IAccOp}
    {f : Nat → Nat → Nat} (hf : (o, f) ∈ [(IAccOp.sum, fun g e : Nat => g + e), (.min, minS 64), (.max, maxS 64)]) :
    ∃ t, exec (.viacc r v o d a []) s = .next t ∧ VecDone s t r x v (vMax v.ew) [xKey r x kG d] ∧ t.mem = s.mem ∧
      t.xGet r x kG d = (s.vTaken r x v (vMax v.ew)).foldl
        (fun g k => f g (ofSigned 64 (toSigned v.ew (s.vGet r x a v.ew k))) % 2 ^ 64) (s.xGet r x kG d) := by
  show ∃ t, execViacc r v o d a s = .next t ∧ _
  simp only [List.mem_cons, List.not_mem_nil, or_false, Prod.mk.injEq] at hf
  rcases hf with ⟨rfl, hf⟩ | ⟨rfl, hf⟩ | ⟨rfl, hf⟩ <;>
    exact h.accumulates rfl (by decide) (.inr hd.ne') (fun _ _ => rfl)
      (g := fun m k => f m (ofSigned 64 (toSigned v.ew (s.vGet r x a v.ew k)))) fun u k only => by rw [only.vGet (by decide), hf]; rfl

/-- g0 ignores writes. -/
theorem State.xSet_zero (s : State) (r x v : Nat) : s.xSet r x kG 0 v = s := if_pos ⟨rfl, rfl⟩

/-- Into g0 it leaves nothing. -/
theorem VecRuns.viacc_zero {s : State} {r x : Nat} {v : VArgs} (h : VecRuns s r x v) (o : IAccOp) (a : Nat) :
    ∃ t, exec (.viacc r v o 0 a []) s = .next t ∧ VecDone s t r x v (vMax v.ew) [] ∧ t.mem = s.mem := by
  obtain ⟨t, run, done, mem, -⟩ := show ∃ t, execViacc r v o 0 a s = .next t ∧ _ from
    h.completes rfl (fun _ _ => rfl) (List.foldl_fixed' (fun _ => by simp only [State.xSet_zero]) _) (.refl _ []) (List.not_mem_nil)
  exact ⟨t, run, done, mem⟩

/-- Settles O57: element-wise instructions write the elements that take part, each from sources that the elements before it have kept;
accumulations fold over them. -/
theorem vectorInstructionsWorkElementByElement : Obligations.VectorInstructionsWorkElementByElement := by
  rintro s r x v d a b c w p h rfl rfl
  have fits {k : Nat} (hk : k < vMax v.ew) := vMax_fits h.2.1 hk
  refine ⟨fun o ho => ?_, fun sqrt hf => ?_, fun o ho => ?_, fun m => ?_, fun hf => ?_, fun o f hof hd hd' => ?_, fun o => ?_⟩
  · obtain ⟨t, run, done, mem, lanes⟩ := show ∃ t, execVectorElementwise r v o d a b c s = .next t ∧ _ from
      h.writesLanes (widthLegal ho) (kd := kLV) (by decide) (.inl (by decide))
        (e := fun k u => u.vElem r x v o a b c k) (fun _ _ => rfl) (fun _ _ _ kept => kept.vElem o a b c) (fun _ hk => (fits hk).1)
    exact ⟨t, run, done, mem, fun k hk => ⟨fun hp => (lanes k hk).trans (if_pos hp),
      fun hp => (lanes k hk).trans (if_neg (by simp [hp]))⟩⟩
  · exact show ∃ t, execVdivVsqrt r v sqrt d a b s = .next t ∧ _ from
      h.writesLanes hf (kd := kLV) (by decide) (.inl (by decide))
        (e := fun k u => fcode v.ew (if sqrt then (fval v.ew (u.vGet r x a v.ew k)).sqrt
          else (fval v.ew (u.vGet r x a v.ew k)).div (fval v.ew (u.vGet r x b v.ew k)))) (fun _ _ => rfl)
        (fun s u k kept => by simp only [kept.vGet]) (fun k hk => (fits hk).1)
  · obtain ⟨t, run, done, mem, lanes⟩ := show ∃ t, execVcmp r v o d a b s = .next t ∧ _ from
      h.writesLanes (widthLegal ho) (kd := kLM) (d := d % 8) (by decide) (.inl (by decide)) (w := 1)
        (e := fun k u => ofBool (vCompare o v.ew (u.vGet r x a v.ew k) (u.vGet r x b v.ew k))) (fun _ _ => rfl)
        (fun s u k kept => by simp only [kept.only.vGet (by decide)]) (fun k hk => (fits hk).2)
    refine ⟨t, run, done, mem, fun k hk => ?_⟩
    rw [bit_eq_lane, bit_eq_lane, lanes k hk]
    split
    · show (ofBool (vCompare o v.ew (s.vGet r x a v.ew k) (s.vGet r x b v.ew k)) % 2 ^ 1 == 1) = _
      cases vCompare o v.ew (s.vGet r x a v.ew k) (s.vGet r x b v.ew k) <;> rfl
    · rfl
  · obtain ⟨t, run, done, mem, lanes⟩ := show ∃ t, execVmerge r v d a b m s = .next t ∧ _ from
      h.writesLanes rfl (kd := kLV) (d := d) (by decide) (.inl (by decide))
        (e := fun k u => u.vGet r x (if bit (u.xGet r x kLM (m % 8)) k then a else b) v.ew k) (fun _ _ => rfl)
        (fun s u k kept => by
          rw [kept.vGet, kept.only.xGet (by simpa using xKey_ne_of_kind (by decide))]) (fun k hk => (fits hk).1)
    refine ⟨t, run, done, mem, fun k hk => ?_⟩
    have lane := lanes k hk
    rw [State.vGet_mod] at lane
    exact lane
  · exact show ∃ t, execVacco r v d a s = .next t ∧ _ from
      h.accumulates hf (kd := kF) (by decide) (.inl (by decide))
        (e := fun k u => fcode v.ew ((fval v.ew (u.xGet r x kF d)).add (fval v.ew (u.vGet r x a v.ew k))))
        (g := fun m k => fcode v.ew ((fval v.ew m).add (fval v.ew (s.vGet r x a v.ew k))))
        (fun _ _ => rfl) (fun u k only => by rw [only.vGet (by decide)]; rfl)
  · exact h.viacc hd a hof
  · exact h.viacc_zero o a

end Sys2Proof.Machine

/-! SUPPORT. Control registers and exceptions of a row (O60): what reads and writes of a CSR leave, what an exception leaves in each
context, and the suspension of a vector instruction. -/

namespace Sys2Proof.Machine
open Reg

/-! ### Control registers (R177) -/

theorem csrFields_nodup (r x csr : Nat) : ((csrFields r x csr).map Fld.key).Nodup := by
  unfold csrFields
  split <;> simp [Fld.key, EXC_INFO.CAUSE, EXC_INFO.EPC]

/-- Reading a control register puts its fields together. -/
theorem RowRuns.csrRead {s : State} {r x csr : Nat} (h : RowRuns s r x) (d : Nat) (hcsr : csr ≠ 0x030) (hf : csrFields r x csr ≠ []) :
    ∃ t, exec (.csrRead r d csr []) s = .next t ∧
      RegResult s t r x kG d ((csrFields r x csr).map fun f => s.get f * 2 ^ f.lo).sum := by
  refine show ∃ t, execCsrRead r d csr s = .next t ∧ _ from h.writes (by decide) ?_
  rw [List.sum_eq_foldl, List.foldl_map, if_neg (by simpa [hcsr] using hf), if_neg hcsr]

/-- In the service context CYCLE counts core cycles. -/
theorem RowRuns.csrRead_cycle {s : State} {r : Nat} (h : RowRuns s r 1) (d : Nat) :
    ∃ t, exec (.csrRead r d 0x030 []) s = .next t ∧ RegResult s t r 1 kG d s.tick.now :=
  show ∃ t, execCsrRead r d 0x030 s = .next t ∧ _ from h.writes (by decide) rfl

/-- What a write of a control register sets: each RW field takes its bits of the value. -/
def csrWrites (l : List Fld) (v : Nat) : List (Fld × Nat) := (l.filter fun f => f.acc == .rw).map fun f => (f, v / 2 ^ f.lo)

theorem csrWrites_keys (l : List Fld) (v : Nat) :
    (csrWrites l v).map (fun e => e.1.key) = (l.filter fun f => f.acc == .rw).map Fld.key := by
  rw [csrWrites, List.map_map]
  rfl

theorem mem_csrWrites {l : List Fld} (v : Nat) {f : Fld} (hf : f ∈ l) (hrw : f.acc = .rw) : (f, v / 2 ^ f.lo) ∈ csrWrites l v :=
  List.mem_map.2 ⟨f, List.mem_filter.2 ⟨hf, by rw [hrw]; rfl⟩, rfl⟩

theorem State.setAll_csrWrites (s : State) (l : List Fld) (v : Nat) :
    s.setAll (csrWrites l v) = l.foldl (fun s f => if f.acc = .rw then s.set f (v / 2 ^ f.lo) else s) s := by
  simp [State.setAll, csrWrites, List.foldl_map, List.foldl_filter]

/-- A write of a control register completes. -/
theorem RowRuns.csrWrite {s : State} {r x csr : Nat} (h : RowRuns s r x) (a : Nat) (hf : csrFields r x csr ≠ []) :
    exec (.csrWrite r a csr []) s = .next ((s.setAll (csrWrites (csrFields r x csr) (s.xGet r x kG a))).finish r x .next) := by
  rw [show exec (.csrWrite r a csr []) s = execCsrWrite r a csr s from rfl, execCsrWrite, s.instr_runs _ h]
  simp only [List.isEmpty_iff, hf, if_false, State.setAll_csrWrites]

theorem State.setAll_eq_flds (s : State) (l : List (Fld × Nat)) : ∃ y, s.setAll l = { s with flds := y } := by
  have frame := s.setAll_frame l
  generalize s.setAll l = u at frame ⊢
  exact ⟨u.flds, by rw [← frame]⟩

/-- What a write of a control register leaves. -/
theorem RowRuns.csrWrite_done {s : State} {r x csr : Nat} (h : RowRuns s r x) (a : Nat) (hf : csrFields r x csr ≠ []) :
    ∃ t, exec (.csrWrite r a csr []) s = .next t ∧ t.pc r x = (s.pc r x + 4) % 2 ^ 18 ∧
      (∀ f ∈ csrFields r x csr, f.acc = .rw → t.get f = s.xGet r x kG a / 2 ^ f.lo % 2 ^ f.width) ∧
      (∀ g : Fld, g.key ∉ ((csrFields r x csr).filter fun f => f.acc == .rw).map Fld.key → t.get g = s.get g) ∧
      { t with xr := s.xr, flds := s.flds } = s ∧ ∀ q, q ≠ xKey r x kPC 0 → Store.get t.xr 0 q = Store.get s.xr 0 q := by
  have keys := csrWrites_keys (csrFields r x csr) (s.xGet r x kG a)
  have nodup := (csrFields_nodup r x csr).sublist ((List.filter_sublist (p := fun f => f.acc == .rw)).map Fld.key)
  rw [← keys] at nodup ⊢
  have value {f : Fld} (hm : f ∈ csrFields r x csr) (hrw : f.acc = .rw) :=
    s.get_setAll_at nodup (mem_csrWrites (s.xGet r x kG a) hm hrw)
  have others {g : Fld} := s.get_setAll_other (csrWrites (csrFields r x csr) (s.xGet r x kG a)) (g := g)
  obtain ⟨y, hy⟩ := s.setAll_eq_flds (csrWrites (csrFields r x csr) (s.xGet r x kG a))
  have run := h.csrWrite a hf
  rw [hy] at run value others
  have pc := State.pc_setPc { s with flds := y } r x (s.pc r x + 4)
  have jump := State.setPc_only { s with flds := y } r x (s.pc r x + 4)
  refine ⟨State.setPc { s with flds := y } r x (s.pc r x + 4), run, pc, ?_⟩
  generalize State.setPc { s with flds := y } r x (s.pc r x + 4) = t at *
  obtain ⟨z, rfl⟩ := jump.eq_xr
  exact ⟨fun f => value, fun g => others, rfl, fun q hq => jump.2 q (by simpa using hq)⟩

/-! ### Exceptions (R182, R188) -/

/-- Where an instruction's body raises an exception and has changed nothing. -/
theorem State.instrHw_raises {s : State} {r x c a : Nat} (h : RowRuns s r x) (addr : Nat → State → Nat)
    {body : Nat → State → State × XEnd} (hb : body x s = (s, .exc c a)) :
    s.instrHw r [] addr body = .next (s.exception r x c a false) := by
  rw [s.instrHw_runs addr body h, hb]
  rfl

/-- Why an access of a row fails: alignment first, then its view. -/
theorem State.rowFault_of {s : State} {r x n a c : Nat} {write : Bool}
    (h : (a % n ≠ 0 ∧ c = 1) ∨ (a % n = 0 ∧ s.view r x a n write = .none ∧ c = 2)) :
    s.rowFault r x a n n write = some c ∧ c ≠ cMEM_UE ∧ c < 2 ^ 8 := by
  rcases h with ⟨ha, rfl⟩ | ⟨ha, hv, rfl⟩
  · exact ⟨if_pos ha, by decide⟩
  · rw [State.rowFault, if_neg (not_not.2 ha), if_pos hv]
    exact ⟨rfl, by decide⟩

theorem sizeOk_of_mem {n : Nat} (h : n ∈ [1, 2, 4, 8]) : sizeOk n = true := by
  simp only [List.mem_cons, List.not_mem_nil, or_false] at h
  rcases h with rfl | rfl | rfl | rfl <;> rfl

/-- A load whose access fails raises an exception. -/
theorem RowRuns.load_raises {s : State} {r x n a off c : Nat} (h : RowRuns s r x) (hn : n ∈ [1, 2, 4, 8]) (sext : Bool) (d : Nat)
    (hf : s.rowFault r x (s.baseOff r x a off) n n false = some c) :
    exec (.load r n sext d a off []) s = .next (s.exception r x c (s.baseOff r x a off) false) := by
  rw [show exec (.load r n sext d a off []) s = execLoad r n sext d a off [] s from rfl, execLoad]
  refine s.instrHw_raises h _ ?_
  have read : s.rowRead r x (s.baseOff r x a off) n n = (.error c, s) := by rw [State.rowRead, hf]
  simp only [sizeOk_of_mem hn, read]
  rfl

/-- So does a store, which then has no read half. -/
theorem RowRuns.store_raises {s : State} {r x n a off c : Nat} (h : RowRuns s r x) (hn : n ∈ [1, 2, 4, 8]) (b : Nat)
    (hf : s.rowFault r x (s.baseOff r x a off) n n true = some c) :
    exec (.store r n a b off []) s = .next (s.exception r x c (s.baseOff r x a off) false) := by
  rw [show exec (.store r n a b off []) s = execStore r n a b off [] s from rfl, execStore]
  refine s.instrHw_raises h _ ?_
  have half : s.storeHalf r x (s.baseOff r x a off) n = s := by rw [State.storeHalf, hf]
  have write (v : Nat) : s.rowWrite r x (s.baseOff r x a off) n n v = (some c, s) := by rw [State.rowWrite, hf]
  simp only [sizeOk_of_mem hn, half, write]
  rfl

/-- A control register that does not exist, or CYCLE in the list context, is ILLEGAL. -/
theorem RowRuns.csrRead_raises {s : State} {r x csr : Nat} (h : RowRuns s r x) (d : Nat)
    (hc : csrFields r x csr = [] ∨ (csr = 0x030 ∧ x = 0)) :
    exec (.csrRead r d csr []) s = .next (s.exception r x cILLEGAL 0 false) := by
  rw [show exec (.csrRead r d csr []) s = execCsrRead r d csr s from rfl, execCsrRead, State.instr]
  refine s.instrHw_raises h _ (if_pos ?_)
  simpa [Bool.or_eq_true] using hc

theorem RowRuns.brk_raises {s : State} {r x : Nat} (h : RowRuns s r x) :
    exec (.brk r []) s = .next (s.exception r x cBREAK 0 false) := by
  rw [show exec (.brk r []) s = execBrk r s from rfl, execBrk, State.instr]
  exact s.instrHw_raises h _ rfl

/-- The fields that an exception sets in its context. -/
def excFields (r x : Nat) : List Fld := [EXC_INFO.CAUSE r x, EXC_INFO.EPC r x, EXC_ADDR.ADDR r x]

/-- The state in which an exception is recorded in its context. -/
def State.excRecorded (s : State) (r x cause addr : Nat) : State :=
  s.setAll [(EXC_INFO.CAUSE r x, cause), (EXC_INFO.EPC r x, s.pc r x), (EXC_ADDR.ADDR r x, addr)]

theorem State.excRecorded_only (s : State) (r x cause addr : Nat) : OnlyFields s (s.excRecorded r x cause addr) (excFields r x) :=
  (OnlyFields.refl s _).setAll (by simp [excFields])

/-- What an exception records. -/
theorem State.excRecorded_get (s : State) {r x cause : Nat} (hc : cause < 2 ^ 8) (addr : Nat) :
    (s.excRecorded r x cause addr).get (EXC_INFO.CAUSE r x) = cause ∧
      (s.excRecorded r x cause addr).get (EXC_INFO.EPC r x) = s.pc r x % 2 ^ 18 ∧
      (s.excRecorded r x cause addr).get (EXC_ADDR.ADDR r x) = addr % 2 ^ 64 := by
  have nodup : ([(EXC_INFO.CAUSE r x, cause), (EXC_INFO.EPC r x, s.pc r x), (EXC_ADDR.ADDR r x, addr)].map
      fun e => e.1.key).Nodup := by
    simp [Fld.key, EXC_INFO.CAUSE, EXC_INFO.EPC, EXC_ADDR.ADDR]
    omega
  have written {f : Fld} {n : Nat} := State.get_setAll_at s nodup (f := f) (v := n)
  exact ⟨(written (by simp)).trans (Nat.mod_eq_of_lt hc), written (by simp), written (by simp)⟩

/-- An exception of the service context goes on with an instruction of the firmware region. -/
theorem State.exception_service (s : State) (r : Nat) {cause : Nat} (hc : cause ≠ cMEM_UE) (addr : Nat) :
    s.exception r 1 cause addr false =
      ((s.excRecorded r 1 cause addr).draw.2).setPc r 1 ((s.excRecorded r 1 cause addr).draw.1 % 0x8000 * 4) := by
  have other : (cause == cMEM_UE) = false := by simpa using hc
  simp only [State.exception, other, Bool.and_false]
  rfl

/-- The fields that record the first exception of the list context. -/
def exnFaultFields (r : Nat) : List Fld :=
  [EXN_FAULT.CAUSE r, EXN_FAULT.DESC r, EXN_FAULT.RESUME r, EXN_FAULT.EPC r, EXN_FAULT.VALID r, EXN_FAULT_ADDR.ADDR r]

theorem exnFaultFields_nodup (r : Nat) : ((exnFaultFields r).map Fld.key).Nodup := by
  simp [exnFaultFields, Fld.key, EXN_FAULT.CAUSE, EXN_FAULT.DESC, EXN_FAULT.RESUME, EXN_FAULT.EPC, EXN_FAULT.VALID,
    EXN_FAULT_ADDR.ADDR]
  omega

theorem exnFaultFields_ctx {r : Nat} {f : Fld} (hf : f ∈ exnFaultFields r) : f.key ≠ (EXN_STATUS.CTX r).key := by
  simp only [exnFaultFields, List.mem_cons, List.not_mem_nil, or_false] at hf
  rcases hf with rfl | rfl | rfl | rfl | rfl | rfl <;>
    simp only [Fld.key, EXN_FAULT.CAUSE, EXN_FAULT.DESC, EXN_FAULT.RESUME, EXN_FAULT.EPC, EXN_FAULT.VALID, EXN_FAULT_ADDR.ADDR,
      EXN_STATUS.CTX] <;> omega

/-- No field that an exception sets in its context is one of them, nor the row's status. -/
theorem excFields_apart {r x : Nat} (hr : r < 64) {f : Fld} (hf : f ∈ excFields r x) :
    f.key ∉ (exnFaultFields r).map Fld.key ∧ f.key ≠ (EXN_STATUS.CTX r).key := by
  have high : csrBase 0 0 * 64 ≤ f.key := by
    simp only [excFields, List.mem_cons, List.not_mem_nil, or_false] at hf
    rcases hf with rfl | rfl | rfl <;> simp only [Fld.key, EXC_INFO.CAUSE, EXC_INFO.EPC, EXC_ADDR.ADDR, csrBase] <;> omega
  generalize f.key = k at high
  simp only [exnFaultFields, List.map_cons, List.map_nil, List.mem_cons, List.not_mem_nil, or_false, Fld.key, EXN_FAULT.CAUSE,
    EXN_FAULT.DESC, EXN_FAULT.RESUME, EXN_FAULT.EPC, EXN_FAULT.VALID, EXN_FAULT_ADDR.ADDR, EXN_STATUS.CTX, exnBase, csrBase] at *
  omega

/-- The first exception of the list context is recorded in EXN_FAULT. -/
def State.faultRecorded (s : State) (r cause addr desc : Nat) : State :=
  if s.is (EXN_FAULT.VALID r) then s
  else s.setAll ((exnFaultFields r).zip [cause, desc, s.get (LV_RESUME.INDEX r 0), s.pc r 0, 1, addr])

theorem State.faultRecorded_only (s : State) (r cause addr desc : Nat) :
    OnlyFields s (s.faultRecorded r cause addr desc) (exnFaultFields r) := by
  unfold State.faultRecorded
  split
  · exact .refl _ _
  · exact (OnlyFields.refl s _).setAll fun e he => (List.of_mem_zip he).1

/-- Where no record is held, EXN_FAULT holds the exception. -/
theorem State.faultRecorded_get {s : State} {r cause : Nat} (hc : cause < 2 ^ 8) (addr desc : Nat)
    (hv : s.is (EXN_FAULT.VALID r) = false) :
    (s.faultRecorded r cause addr desc).get (EXN_FAULT.VALID r) = 1 ∧
      (s.faultRecorded r cause addr desc).get (EXN_FAULT.CAUSE r) = cause ∧
      (s.faultRecorded r cause addr desc).get (EXN_FAULT.EPC r) = s.pc r 0 % 2 ^ 18 ∧
      (s.faultRecorded r cause addr desc).get (EXN_FAULT_ADDR.ADDR r) = addr % 2 ^ 64 := by
  rw [State.faultRecorded, hv, if_neg Bool.false_ne_true]
  have written (f : Fld) (v : Nat) := State.get_setAll_at s (f := f) (v := v)
    (l := (exnFaultFields r).zip [cause, desc, s.get (LV_RESUME.INDEX r 0), s.pc r 0, 1, addr]) (exnFaultFields_nodup r)
  simp only [exnFaultFields, List.zip_cons_cons, List.zip_nil_left] at written ⊢
  exact ⟨written _ 1 (by simp), (written _ cause (by simp)).trans (Nat.mod_eq_of_lt hc), written _ (s.pc r 0) (by simp),
    written _ addr (by simp)⟩

/-- The entry of a row in which an exception was raised has ended, and its later ones of the step return at once. -/
def State.entryFaulted (s : State) (r : Nat) : State :=
  (s.setRow r { s.row r with faulted := true }).callStopped r ((s.setRow r { s.row r with faulted := true }).endCall r).tick.cc

theorem State.entryFaulted_ended {s : State} {r : Nat} {c : CallRec} (hc : (s.row r).call = some c) :
    ((s.entryFaulted r).row r).call = none ∧ ((s.entryFaulted r).row r).faulted = true ∧
      (s.entryFaulted r).busyRec .row r engCall = none ∧ (s.entryFaulted r).mem = s.mem ∧ (s.entryFaulted r).xr = s.xr ∧
      (s.entryFaulted r).err = s.err ∧ ∀ g : Fld, g.key ≠ (EXN_STATUS.CTX r).key → (s.entryFaulted r).get g = s.get g := by
  have noted : (s.setRow r { s.row r with faulted := true }).row r = { s.row r with faulted := true } := s.row_setRow_same r _
  have call : ((s.setRow r { s.row r with faulted := true }).row r).call = some c := by rw [noted, hc]
  obtain ⟨ended, idle, mem, err, get⟩ := State.callStopped_kept call ((s.setRow r { s.row r with faulted := true }).endCall r).tick.cc
  refine ⟨ended, ?_, idle, mem, ?_, err, get⟩
  · rw [State.entryFaulted, State.callStopped, State.endCall_ends call]
    exact (congrArg RowSt.faulted (State.row_setRow_same _ r _)).trans (congrArg RowSt.faulted noted)
  · rw [State.entryFaulted, State.callStopped, State.endCall_ends call]
    rfl

/-- An exception of the list context other than for an uncorrectable error: it is recorded, the entry has ended, and the error is
reported at the glue-up. -/
theorem State.exception_list (s : State) {r : Nat} {c : CallRec} (hc : (s.row r).call = some c) {cause : Nat} (hm : cause ≠ cMEM_UE)
    (addr : Nat) : s.exception r 0 cause addr false =
      (((s.excRecorded r 0 cause addr).faultRecorded r cause addr c.desc).entryFaulted r).fatalAtGlue scRow r srcEXN cause := by
  show (s.excRecorded r 0 cause addr).listException r cause addr false = _
  have call : ((s.excRecorded r 0 cause addr).row r).call = some c := hc
  generalize s.excRecorded r 0 cause addr = u at call
  unfold State.listException
  rw [call, if_neg Bool.false_ne_true, if_neg hm]
  rfl

/-- What an exception of the list context leaves. -/
theorem State.exception_list_done (s : State) {r : Nat} (hr : r < 64) {c : CallRec} (hc : (s.row r).call = some c) {cause : Nat}
    (hm : cause ≠ cMEM_UE) (h8 : cause < 2 ^ 8) (addr : Nat) {t : State} (ht : s.exception r 0 cause addr false = t) :
    (t.mem = s.mem ∧ t.get (EXC_INFO.CAUSE r 0) = cause ∧ t.get (EXC_INFO.EPC r 0) = s.pc r 0 % 2 ^ 18 ∧
      t.get (EXC_ADDR.ADDR r 0) = addr % 2 ^ 64) ∧
      t.xr = s.xr ∧ (t.row r).call = none ∧ (t.row r).faulted = true ∧ t.busyRec .row r engCall = none ∧
      (∃ e, t.err.atGlue = s.err.atGlue ++ [e] ∧ e.cls = 2 ∧ e.index = r ∧ e.code = cause) ∧
      (s.is (EXN_FAULT.VALID r) = false → t.get (EXN_FAULT.VALID r) = 1 ∧ t.get (EXN_FAULT.CAUSE r) = cause ∧
        t.get (EXN_FAULT.EPC r) = s.pc r 0 % 2 ^ 18 ∧ t.get (EXN_FAULT_ADDR.ADDR r) = addr % 2 ^ 64) := by
  rw [s.exception_list hc hm addr] at ht
  obtain ⟨excCause, excEpc, excAddr⟩ := s.excRecorded_get (r := r) (x := 0) h8 addr
  have exc := s.excRecorded_only r 0 cause addr
  generalize s.excRecorded r 0 cause addr = u at *
  obtain ⟨y, rfl⟩ := exc.eq_flds
  have fault := State.faultRecorded_only { s with flds := y } r cause addr c.desc
  have first := State.faultRecorded_get (s := { s with flds := y }) (r := r) h8 addr c.desc
  generalize State.faultRecorded { s with flds := y } r cause addr c.desc = w at *
  obtain ⟨z, rfl⟩ := fault.eq_flds
  obtain ⟨call, faulted, idle, mem, xr, err, get⟩ := State.entryFaulted_ended (s := { s with flds := z }) hc
  generalize State.entryFaulted { s with flds := z } r = q at *
  subst ht
  have kept {f : Fld} (hf : f ∈ excFields r 0) : q.get f = State.get { s with flds := y } f :=
    (get f (excFields_apart hr hf).2).trans (fault.2 f (excFields_apart hr hf).1)
  have noted {f : Fld} (hf : f ∈ exnFaultFields r) : q.get f = State.get { s with flds := z } f := get f (exnFaultFields_ctx hf)
  refine ⟨⟨mem, (kept (by simp [excFields])).trans excCause, (kept (by simp [excFields])).trans excEpc,
    (kept (by simp [excFields])).trans excAddr⟩, xr, call, faulted, idle,
    ⟨_, congrArg (fun e : ErrSt => e.atGlue ++ _) err, rfl, rfl, rfl⟩, fun hv => ?_⟩
  have valid : (EXN_FAULT.VALID r).key ∉ (excFields r 0).map Fld.key := fun hk => by
    obtain ⟨f, hf, e⟩ := List.mem_map.1 hk
    exact (excFields_apart hr hf).1 (e ▸ List.mem_map_of_mem (by simp [exnFaultFields]))
  obtain ⟨h1, h2, h3, h4⟩ := first ((congrArg (· == 1) (exc.2 _ valid)).trans hv)
  exact ⟨(noted (by simp [exnFaultFields])).trans h1, (noted (by simp [exnFaultFields])).trans h2,
    (noted (by simp [exnFaultFields])).trans h3, (noted (by simp [exnFaultFields])).trans h4⟩

/-- What an exception of the service context leaves. -/
theorem State.exception_service_done (s : State) (r : Nat) {cause : Nat} (hm : cause ≠ cMEM_UE) (h8 : cause < 2 ^ 8) (addr : Nat)
    {t : State} (ht : s.exception r 1 cause addr false = t) :
    (t.mem = s.mem ∧ t.get (EXC_INFO.CAUSE r 1) = cause ∧ t.get (EXC_INFO.EPC r 1) = s.pc r 1 % 2 ^ 18 ∧
      t.get (EXC_ADDR.ADDR r 1) = addr % 2 ^ 64) ∧
      t.pc r 1 < 0x20000 ∧ t.pc r 1 % 4 = 0 ∧ ∀ q, q ≠ xKey r 1 kPC 0 → Store.get t.xr 0 q = Store.get s.xr 0 q := by
  rw [s.exception_service r hm] at ht
  have recorded := s.excRecorded_get (r := r) (x := 1) h8 addr
  have exc := s.excRecorded_only r 1 cause addr
  generalize s.excRecorded r 1 cause addr = u at *
  obtain ⟨y, rfl⟩ := exc.eq_flds
  have pc := State.pc_setPc (State.draw { s with flds := y }).2 r 1 ((State.draw { s with flds := y }).1 % 0x8000 * 4)
  have jump := State.setPc_only (State.draw { s with flds := y }).2 r 1 ((State.draw { s with flds := y }).1 % 0x8000 * 4)
  rw [ht] at pc jump
  obtain ⟨z, rfl⟩ := jump.eq_xr
  refine ⟨⟨rfl, recorded⟩, ?_, ?_, fun q hq => jump.2 q (by simpa using hq)⟩ <;> rw [pc] <;> omega

/-! ### A suspended vector instruction (R182) -/

/-- Where to resume is kept apart from the record of an exception. -/
theorem resume_apart (r x : Nat) : (LV_RESUME.INDEX r x).key ∉ (excFields r x).map Fld.key := by
  simp only [excFields, List.map_cons, List.map_nil, List.mem_cons, List.not_mem_nil, or_false, Fld.key, LV_RESUME.INDEX, EXC_INFO.CAUSE,
    EXC_INFO.EPC, EXC_ADDR.ADDR]
  omega

/-- The service context's vector instruction that is suspended at element `k` leaves that element and all after it, and can resume. -/
theorem RowRuns.suspends {s : State} {r : Nat} (h : RowRuns s r 1) {v : VArgs} {o : VOp} (hw : widthOk v.ew = true)
    (ho : vIsF o = true → fwidthOk v.ew = true) {k : Nat} (hk : v.stop = some k) (lo : s.get (LV_RESUME.INDEX r 1) ≤ k)
    (hi : k < s.vCount r 1 v (vMax v.ew)) (d a b c : Nat) :
    ∃ t, exec (.vectorElementwise r v o d a b c []) s = .next t ∧ t.get (LV_RESUME.INDEX r 1) = k ∧
      t.get (EXC_INFO.CAUSE r 1) = 6 ∧ t.get (EXC_INFO.EPC r 1) = s.pc r 1 % 2 ^ 18 ∧ t.pc r 1 = s.pc r 1 ∧
      t.get (EXC_ADDR.ADDR r 1) = 0 ∧
      t.mem = s.mem ∧ ∀ j, k ≤ j → j < vMax v.ew → t.vGet r 1 d v.ew j = s.vGet r 1 d v.ew j := by
  have below {j : Nat} (hj : j ∈ (List.range' (s.get (LV_RESUME.INDEX r 1)) (k - s.get (LV_RESUME.INDEX r 1))).filter
      (s.vActive r 1 v)) : j < k := by
    have := List.mem_range'_1.1 (List.mem_filter.1 hj).1
    omega
  have last : k < vMax v.ew := Nat.lt_of_lt_of_le hi (s.vCount_le ..)
  obtain ⟨u, loop, written⟩ : ∃ u, s.vRun r 1 v (vMax v.ew) (fun k s => (s.vSet r 1 d v.ew k (s.vElem r 1 v o a b c k), none)) =
      (u, .stop k) ∧ LanesWritten (s.vStarted r 1 v (vMax v.ew)) u r 1 kLV d v.ew _ _ :=
    ⟨_, State.vRun_stops _ hk lo hi fun _ _ => rfl, lanes_foldl (fun z => absurd z.1 (by decide))
      (e := fun k u => u.vElem r 1 v o a b c k) (fun _ _ _ kept => kept.vElem o a b c) ((List.nodup_range' ..).filter _)
      (fun j hj => (vMax_fits hw (Nat.lt_trans (below hj) last)).1) _⟩
  have run : exec (.vectorElementwise r v o d a b c []) s = .next ((u.set (LV_RESUME.INDEX r 1) k).suspend r 1) := by
    rw [show exec (.vectorElementwise r v o d a b c []) s = execVectorElementwise r v o d a b c s from rfl, execVectorElementwise,
      State.vInstr, s.instr_runs _ h, hw, widthLegal ho, if_pos (by rfl)]
    exact congrArg (fun y : State × XEnd => Host.Outcome.next (y.1.finish r 1 y.2)) loop
  have pc : u.pc r 1 = s.pc r 1 := written.only.xGet (by simpa using xKey_ne_of_kind (by decide))
  have lanes {j : Nat} (hj : k ≤ j) (hj' : j < vMax v.ew) : u.vGet r 1 d v.ew j = s.vGet r 1 d v.ew j :=
    (written.lane j (vMax_fits hw hj').1).trans (if_neg fun hm => Nat.not_lt.2 hj (below hm))
  have narrow : 1 * k + 1 ≤ 256 := (vMax_fits hw last).2
  have resume : (u.set (LV_RESUME.INDEX r 1) k).get (LV_RESUME.INDEX r 1) = k :=
    (State.get_set_same _ _ _).trans (Nat.mod_eq_of_lt (show k < 65536 by omega))
  obtain ⟨cause, epc, addr⟩ := (u.set (LV_RESUME.INDEX r 1) k).excRecorded_get (r := r) (x := 1) (cause := cSUSPEND) (by decide) 0
  have mem : u.mem = s.mem := by
    obtain ⟨y, rfl⟩ := written.only.eq_xr
    rfl
  refine ⟨_, run, ?_, cause, epc.trans (congrArg (· % 2 ^ 18) pc), pc, addr, mem, fun j => lanes⟩
  exact ((State.excRecorded_only _ r 1 cSUSPEND 0).2 _ (resume_apart r 1)).trans resume

/-- Settles O60: control registers are put together from their fields and written field by field; what raises an exception records it,
in the list context ends the entry, and in the service context goes on in firmware; a suspension records where to resume. -/
theorem controlRegistersAndExceptions : Obligations.ControlRegistersAndExceptions := by
  intro s r x h
  refine ⟨fun d csr _ hcsr hf => h.csrRead d hcsr hf, fun d _ hx => ?_, fun a csr hf => ?_, fun cmd cause addr hc => ?_,
    fun v o d a b c k hx hw ho hk lo hi => ?_⟩
  · subst hx
    exact h.csrRead_cycle d
  · exact h.csrWrite_done a hf
  · obtain ⟨run, hm, h8⟩ : exec cmd s = .next (s.exception r x cause addr false) ∧ cause ≠ cMEM_UE ∧ cause < 2 ^ 8 := by
      rcases hc with ⟨rfl, rfl, rfl⟩ | ⟨d, csr, rfl, hcsr, rfl, rfl⟩ | ⟨n, d, sext, a, off, rfl, hn, rfl, hf⟩ |
        ⟨n, a, b, off, rfl, hn, rfl, hf⟩
      · exact ⟨h.brk_raises, by decide, by decide⟩
      · exact ⟨h.csrRead_raises d hcsr, by decide, by decide⟩
      · obtain ⟨fault, codes⟩ := State.rowFault_of hf
        exact ⟨h.load_raises hn sext d fault, codes⟩
      · obtain ⟨fault, codes⟩ := State.rowFault_of hf
        exact ⟨h.store_raises hn b fault, codes⟩
    obtain ⟨⟨hr, -, -, -, -, ⟨rfl, -, hcall⟩ | ⟨rfl, -⟩⟩, -⟩ := h
    · obtain ⟨c, hcall⟩ := Option.isSome_iff_exists.1 hcall
      obtain ⟨⟨mem, code, epc, place⟩, list⟩ := s.exception_list_done hr hcall hm h8 addr rfl
      exact ⟨_, run, mem, code, epc, place, fun _ => list, nofun⟩
    · obtain ⟨⟨mem, code, epc, place⟩, service⟩ := s.exception_service_done r hm h8 addr rfl
      exact ⟨_, run, mem, code, epc, place, nofun, fun _ => service⟩
  · subst hx
    exact h.suspends hw ho hk lo hi d a b c

end Sys2Proof.Machine
